-- ==== Sys2Proof/Word.lean ====
section
/-! DEFINITION. The word types of the machine and their plainest arithmetic; sparse tables. -/

namespace Sys2Proof

/-- A 32-bit register word (R161, R294). -/
abbrev Word := BitVec 32

/-- A byte of memory (R3: little-endian multi-byte values). -/
abbrev Byte := BitVec 8

/-- One bit per lane of a warp: bit `l` is lane `l` (R163). -/
abbrev Mask := BitVec 32

/-- Number of lanes of a warp (R10, R170). -/
def lanes : Nat := 32

/-- The mask of all 32 lanes (R166). -/
def Mask.full : Mask := BitVec.allOnes 32

/-- A sparse table: entries by rising key; a key that is not listed holds the table's default. -/
abbrev Tab (α : Type) := List (Nat × α)

end Sys2Proof
end

