-- ==== Sys2Proof/Machine/Bits.lean ====
section
/-! DEFINITION. Bit fields, rounding of counts, sparse tables and small list operations. -/

namespace Sys2Proof

/-- `div` of R6 rounded up. -/
def ceilDiv (a b : Nat) : Nat := (a + b - 1) / b

/-- Round `a` up to a multiple of `b`. -/
def roundUp (a b : Nat) : Nat := ceilDiv a b * b

namespace Tab

variable {α : Type}

/-- The entry at `k`, if one is listed. -/
def find? (t : Tab α) (k : Nat) : Option α :=
  match t with
  | [] => none
  | (j, a) :: r => if j = k then some a else find? r k

/-- The entry at `k`, or the default `d`. -/
def get (t : Tab α) (d : α) (k : Nat) : α := (t.find? k).getD d

/-- Put `a` at key `k`, keeping the keys rising. -/
def put (t : Tab α) (k : Nat) (a : α) : Tab α :=
  match t with
  | [] => [(k, a)]
  | (j, b) :: r => if k < j then (k, a) :: (j, b) :: r
                   else if k = j then (k, a) :: r
                   else (j, b) :: put r k a

/-- Remove key `k`. -/
def del (t : Tab α) (k : Nat) : Tab α := t.filter fun e => e.1 ≠ k

/-- Change the entry at `k` (nothing when it is not listed). -/
def modify (t : Tab α) (k : Nat) (f : α → α) : Tab α :=
  t.map fun e => if e.1 = k then (e.1, f e.2) else e

/-- Change the entry at `k`, starting from the default `d` when it is not listed. -/
def update (t : Tab α) (d : α) (k : Nat) (f : α → α) : Tab α := t.put k (f (t.get d k))

end Tab

/-- A Boolean as one bit of a number. -/
def bit (b : Bool) (i : Nat) : Nat := if b then 2 ^ i else 0

/-- Bits `[lo + w - 1 : lo]` of a number. -/
def field (n lo w : Nat) : Nat := n / 2 ^ lo % 2 ^ w

/-- Two's complement reading of the low `w` bits. -/
def signedField (n w : Nat) : Int :=
  let m := n % 2 ^ w
  if w = 0 then 0 else if m < 2 ^ (w - 1) then m else (m : Int) - 2 ^ w

/-- Number of 1 bits among the low `w` bits of `n`. -/
def popCount (n : Nat) : Nat → Nat
  | 0 => 0
  | w + 1 => (if n.testBit w then 1 else 0) + popCount n w

/-- A number reduced to a word: `wrap32` of R6 for a natural number. -/
def wordOfNat (n : Nat) : Word := BitVec.ofNat 32 n

/-- `wrap32` of R6 for an integer. -/
def wordOfInt (i : Int) : Word := BitVec.ofInt 32 i

/-- Insert into a list sorted by `lt`, before the entries that are not smaller. -/
def insertBy {α : Type} (lt : α → α → Bool) (x : α) : List α → List α
  | [] => [x]
  | y :: ys => if lt y x then y :: insertBy lt x ys else x :: y :: ys

/-- A stable sort of a list (structural, so that the kernel can run it). -/
def sortBy {α : Type} (lt : α → α → Bool) : List α → List α
  | [] => []
  | x :: xs => insertBy lt x (sortBy lt xs)

/-- Keep the first of equal entries. -/
def dedup {α : Type} [DecidableEq α] (l : List α) : List α :=
  l.foldl (fun acc x => if x ∈ acc then acc else acc ++ [x]) []

end Sys2Proof
end

