-- ==== Sys2Proof/Syntax.lean ====
section
/-! DEFINITION. The syntax of the machine's steps: one constructor of `Instr` per row of the table of
operations and events. The 164 encoded instructions carry the fields of R256 to R261; the 134 events carry
what the environment supplies, or the name of the unit on which the step comes about. -/

namespace Sys2Proof

/-- One of the two instruction streams of a warp (R145). -/
inductive Strm where
  | acc
  | exe
deriving DecidableEq, Repr

/-- A field that selects a source (R257). -/
inductive Src where
  | v (n : Fin 112)
  | b (n : Fin 4)
  | q (n : Fin 8)
  | zero
  | laneid
  | wid
  | reserved
deriving DecidableEq, Repr

/-- A field that selects a destination (R257). The seven reserved values are 112-115 and 125-127. -/
inductive Dst where
  | v (n : Fin 112)
  | q (n : Fin 8)
  | discard
  | reserved (n : Fin 7)
deriving DecidableEq, Repr

/-- Format T3 (R258): destination, two sources, guard, W and E. -/
structure T3 where
  d : Dst
  a : Src
  b : Src
  g : BitVec 2
  w : Bool
  e : Bool
deriving DecidableEq, Repr

/-- Format T3 of a d* instruction: W is 0 (R276). -/
structure T3d where
  d : Dst
  a : Src
  b : Src
  g : BitVec 2
  e : Bool
deriving DecidableEq, Repr

/-- Format TC with a register source b (R278). -/
structure TC where
  acc : Bool
  p : BitVec 6
  c : BitVec 3
  a : Src
  b : Src
  e : Bool
deriving DecidableEq, Repr

/-- Format TC of icmpi: b holds imm7 (R278). -/
structure TCi where
  acc : Bool
  p : BitVec 6
  c : BitVec 3
  a : Src
  imm : BitVec 7
  e : Bool
deriving DecidableEq, Repr

/-- A guarded store: address and data (R275). -/
structure St where
  a : Src
  b : Src
  g : BitVec 2
  e : Bool
deriving DecidableEq, Repr

/-- `send`: message and target core (R345). -/
structure Snd where
  a : Src
  b : Src
  e : Bool
deriving DecidableEq, Repr

/-- Format TA (R279). -/
structure TA where
  d : Dst
  a : Src
  b : Src
  fn : BitVec 3
  e : Bool
deriving DecidableEq, Repr

/-- Format TI with a 9-bit immediate (R258). -/
structure TI where
  imm : BitVec 9
  a : Src
  d : Dst
  w : Bool
  e : Bool
deriving DecidableEq, Repr

/-- Format TI of an immediate shift: imm9[8:5] are zero (R280). -/
structure TIs where
  n : BitVec 5
  a : Src
  d : Dst
  w : Bool
  e : Bool
deriving DecidableEq, Repr

/-- Format TL (R258). -/
structure TL where
  imm : BitVec 16
  d : Dst
  w : Bool
  e : Bool
deriving DecidableEq, Repr

/-- Format TL of movih, a d* instruction (R276). -/
structure TLd where
  imm : BitVec 16
  d : Dst
  e : Bool
deriving DecidableEq, Repr

/-- Format TB (R258): the offset in halfwords and the guard; E is 1 (R148). -/
structure TB where
  off : BitVec 21
  g : BitVec 2
deriving DecidableEq, Repr

/-- Format TM (R258): mode, format pair, accumulator and the first registers of the two triples. -/
structure TM where
  mode : BitVec 2
  k : BitVec 2
  n : BitVec 3
  a : Src
  b : Src
  g : BitVec 2
  e : Bool
deriving DecidableEq, Repr

/-- Format T2F with one source, one destination and W (R258). -/
structure T2 where
  d : Dst
  a : Src
  g : BitVec 2
  w : Bool
  e : Bool
deriving DecidableEq, Repr

/-- Format T2F without W (R276, R283). -/
structure T2d where
  d : Dst
  a : Src
  g : BitVec 2
  e : Bool
deriving DecidableEq, Repr

/-- Format T2F whose function carries a 5-bit count (R282, R285). -/
structure T2n where
  n : BitVec 5
  d : Dst
  a : Src
  g : BitVec 2
  w : Bool
  e : Bool
deriving DecidableEq, Repr

/-- fcvt: the pair p and the rounding rm of its function 16 + 4p + rm (R283). -/
structure Cvt where
  p : BitVec 3
  rm : BitVec 2
  d : Dst
  a : Src
  g : BitVec 2
  w : Bool
  e : Bool
deriving DecidableEq, Repr

/-- i2f and f2i: the rounding rm (R283). -/
structure T2r where
  rm : BitVec 2
  d : Dst
  a : Src
  g : BitVec 2
  w : Bool
  e : Bool
deriving DecidableEq, Repr

/-- redl and scanl: the operator index o (R285). -/
structure T2o where
  o : BitVec 4
  d : Dst
  a : Src
  g : BitVec 2
  w : Bool
  e : Bool
deriving DecidableEq, Repr

/-- lds: the size key k (R286). -/
structure Lds where
  k : BitVec 3
  d : Dst
  a : Src
  g : BitVec 2
  w : Bool
  e : Bool
deriving DecidableEq, Repr

/-- ldg and ldgi: the size key s (R286). -/
structure Ldg where
  s : BitVec 3
  d : Dst
  a : Src
  g : BitVec 2
  e : Bool
deriving DecidableEq, Repr

/-- A numbered unit and a source: fmtw, accwr (R283). -/
structure NA where
  n : BitVec 3
  a : Src
  e : Bool
deriving DecidableEq, Repr

/-- accz (R283). -/
structure N3 where
  n : BitVec 3
  e : Bool
deriving DecidableEq, Repr

/-- accrd (R283). -/
structure Accrd where
  n : BitVec 3
  d : Dst
  g : BitVec 2
  e : Bool
deriving DecidableEq, Repr

/-- pand, por, pxor: predicates pd and pa, pa negated when `neg` (R284). -/
structure PP where
  neg : Bool
  d : BitVec 7
  a : BitVec 7
  g : BitVec 2
  e : Bool
deriving DecidableEq, Repr

/-- pnot, pmov, vall, vany: predicates pd and pa (R284, R285). -/
structure P2 where
  d : BitVec 7
  a : BitVec 7
  g : BitVec 2
  e : Bool
deriving DecidableEq, Repr

/-- pvec and ballot: a predicate to a vector (R284, R285). -/
structure PV where
  d : Dst
  a : BitVec 7
  g : BitVec 2
  w : Bool
  e : Bool
deriving DecidableEq, Repr

/-- gbind: guard slot and predicate (R284). -/
structure GB where
  slot : BitVec 7
  a : BitVec 7
  e : Bool
deriving DecidableEq, Repr

/-- qstat: the queue named by the function (R286). -/
structure QS where
  n : BitVec 3
  d : Dst
  w : Bool
  e : Bool
deriving DecidableEq, Repr

/-- sendm: the set slot and the message (R286). -/
structure Sndm where
  n : BitVec 2
  a : Src
  e : Bool
deriving DecidableEq, Repr

/-- bar, arrive, waitb, fence: the set slot or the scope (R287). -/
structure N2 where
  n : BitVec 2
  e : Bool
deriving DecidableEq, Repr

/-- One source and E: waits, qfence, engine commands (R287, R288). -/
structure A1 where
  a : Src
  e : Bool
deriving DecidableEq, Repr

/-- An instruction with only E (R287, R289). -/
structure E0 where
  e : Bool
deriving DecidableEq, Repr

/-- brx: target and guard (R287). -/
structure AG where
  a : Src
  g : BitVec 2
deriving DecidableEq, Repr

/-- ret, exit: guard (R287). -/
structure G0 where
  g : BitVec 2
deriving DecidableEq, Repr

/-- split: reconvergence address, split guard and E (R287). -/
structure Spl where
  a : Src
  g : BitVec 2
  e : Bool
deriving DecidableEq, Repr

/-- rdsr: the special-register number (R289). -/
structure Rdsr where
  s : BitVec 7
  d : Dst
  w : Bool
  e : Bool
deriving DecidableEq, Repr

/-- wrsr (R289). -/
structure Wrsr where
  s : BitVec 7
  a : Src
  e : Bool
deriving DecidableEq, Repr

/-- ctag: any register, latch or queue, or one of the four values that trap (R374). -/
structure Ctag where
  d : Dst
  a : Src
  w : Bool
  e : Bool
deriving DecidableEq, Repr

/-- spill and fill (R376). -/
structure SF where
  d : Dst
  a : Src
  e : Bool
deriving DecidableEq, Repr

/-- psave to lrest: the pointer (R375). -/
structure D1 where
  d : Dst
  e : Bool
deriving DecidableEq, Repr

/-- asave and arest (R381). -/
structure ND where
  n : BitVec 3
  d : Dst
  e : Bool
deriving DecidableEq, Repr

/-- A 16-bit instruction (R261): a is v0-v27 or a latch, d is v0-v31. -/
structure H16 where
  a : BitVec 5
  d : BitVec 5
  e : Bool
deriving DecidableEq, Repr

/-- A 64-byte command packet as eight 64-bit words, header first (R86). -/
structure Packet where
  hdr : BitVec 64
  w1 : BitVec 64
  w2 : BitVec 64
  w3 : BitVec 64
  w4 : BitVec 64
  w5 : BitVec 64
  w6 : BitVec 64
  w7 : BitVec 64
deriving DecidableEq, Repr

/-- Kinds of timing-port message (R59). -/
inductive PtpKind where
  | syncOneStep
  | syncTwoStep
  | followUp
  | delayResp
  | announce
  | other
deriving DecidableEq, Repr

/-- A timing-port message as its receiver judges it (R58, R59): whether its transport, version and timescale are those of the
profile, its domain, its log message interval, the port identity that sent it, for an Announce the data set of its grandmaster in the
order in which the default algorithm compares it, the TAI instant in nanoseconds that it gives for its arrival, and the sixteenth of
the tick on which the port's physical layer stamps the arrival. -/
structure PtpMsg where
  kind : PtpKind
  transportOk : Bool
  domain : Nat
  logSync : Int
  source : Nat
  rank : List Nat
  tai : Nat
  frac : Fin 16
deriving DecidableEq, Repr

/-- What firmware learns when the device joins its pod (R42, R44): its pod number, the pod's size, and the path delays measured, by port
and leaf, in ticks. -/
structure PodJoin where
  number : Fin 512
  size : Nat
  delays : List (Nat × Nat × Nat)
deriving DecidableEq, Repr

/-- A request record: the 128-bit descriptor of R54 and its data, the position of its bundle, and the data-poison bit of that bundle
(R401). -/
structure FabRecord where
  desc : BitVec 128
  data : List Byte
  pos : Nat
  poison : Bool
deriving DecidableEq, Repr

/-- A received bundle as the port's receiver finds it (R46, R48, R52): whether every flit passed its CRC, the count that the transmitter's bundle
counter gave it, cipher text and integrity tag, poison bits, whether this is a replay, the verdicts carried for the reverse direction, and, of a
bundle of request records, the device whose route it travels (R54). DESIGN CHOICE (log entry 47): R52 does not say how the receiver follows the
transmitter's counter. -/
structure RxBundle where
  crcOk : Bool
  counter : Nat
  cipher : List Byte
  tag : Nat
  poison : Bool
  dataPoison : Bool
  replayed : Bool
  source : Nat
  verdicts : List (Nat × Bool)
deriving DecidableEq, Repr

/-- A received control record (R70). -/
structure CtrlRecord where
  sender : Nat
  state : Nat
  cause : Nat
  frame : Nat
  fFirst : Option Nat
  fResume : Option Nat
  imageId : BitVec 256
  offset : Int
  faulted : List Nat
  dead : List (Nat × Nat)
  zeroTail : Bool
deriving DecidableEq, Repr

/-- An entry of the tenant partition table (R113): the partition's number, its shape, slot base and regions, and the regions that firmware puts
into local mode (R27). -/
structure PartEntry where
  part : Fin 4
  shape : Nat
  slotBase : Nat
  regions : List Nat
  locals : List Nat
deriving DecidableEq, Repr

/-- The contents of a SEAL message (R114); a debug key of zeros is none. -/
structure SealMsg where
  part : Nat
  xtsKey : BitVec 512
  transferKey : BitVec 256
  debugKey : List Byte
deriving DecidableEq, Repr

/-- What the HBM controllers met (R35 to R37), by physical address: a corrected beat, a beat that reads as uncorrectable from now on, a
read that failed its link CRC, such a beat that reads without error again, a write beat that failed its link CRC, a retry that fails in this
window, a row that a refresh reached. -/
inductive HbmNote where
  | corrected (pa : Nat)
  | uncorrectable (pa : Nat)
  | readFailed (pa : Nat)
  | recovered (pa : Nat)
  | writeFailed (pa : Nat)
  | retryFailed (pa : Nat)
  | refreshed (pa : Nat)
deriving DecidableEq, Repr

/-- What a debugger asks of a warp's stream, or of memory on the model's address line for a partition, and of the hub die: the management
registers, a partition's keys, and what the front ends and the scheduler hold (R116, R160). -/
inductive DebugAct where
  | halt
  | readReg (n : Nat)
  | writeReg (n : Nat) (words : List Word)
  | readPred (n : Nat)
  | writePred (n : Nat) (mask : Mask)
  | readState
  | writePc (pc : Nat)
  | writeMask (mask : Mask)
  | readGuard (n : Nat)
  | writeGuard (n pred : Nat) (neg : Bool)
  | readDiv (n : Nat)
  | writeDiv (n : Nat) (call : Bool) (mask : Mask) (addr : Nat)
  | readLatch (shadow : Bool) (n : Nat)
  | writeLatch (shadow : Bool) (n : Nat) (words : List Word)
  | readFormat (n : Nat)
  | writeFormat (n : Nat) (word : Word)
  | readTile (n : Nat)
  | writeTile (n : Nat) (word : Word)
  | readQueue (n : Nat)
  | writeQueue (n : Nat) (entries : List (List Word))
  | readMem (part addr n : Nat)
  | writeMem (part addr : Nat) (data : List Byte)
  | readHub (offset : Nat)
  | writeHub (offset : Nat) (value : BitVec 64)
  | readKeys (part : Nat)
  | readFront (core part : Nat) (strm : Strm)
  | readGrid (grid : Nat)
deriving DecidableEq, Repr

/-- What a zeroing was started for (R114, R117). -/
inductive ZeroFor where
  | seal
  | release
  | vendor
deriving DecidableEq, Repr

/-- One step of the machine: a row of the table of operations and events. -/
inductive Instr where
  /-- PWROK_RISE, R18. -/
  | pwrokRise (railsOk : BitVec 10) (inOrder : Bool) (landsTied : Bool) (strap : BitVec 4)
  /-- RAIL_DROOP, R19. -/
  | railDroop (monitor : BitVec 10) (past : BitVec 10)
  /-- TUNING_AND_TRAINING_DONE, R103. -/
  | tuningAndTrainingDone (failedPorts : BitVec 16) (stacksOk : BitVec 8) (join : PodJoin)
  /-- MEMORY_INIT_DONE, R105. -/
  | memoryInitDone (readBackUe : Bool)
  /-- RECOVERY_BLOCK_WRITE, R102. -/
  | recoveryBlockWrite (addr : BitVec 7) (pecOk : Bool) (offset : Nat) (data : List Byte)
  /-- IMAGE_DONE, R102. -/
  | imageDone (addr : BitVec 7) (pecOk : Bool)
  /-- ABORT, R102. -/
  | abort (addr : BitVec 7) (pecOk : Bool)
  /-- ACTIVATE, R109. -/
  | activate (force : Bool)
  /-- SLACK_WINDOW, R33. -/
  | slackWindow (temp : Nat) (notes : List HbmNote)
  /-- PORT_LOCK, R61. -/
  | portLock (port : Fin 16) (tau16 : Nat)
  /-- PORT_DARK, R51. -/
  | portDark (port : Fin 16)
  /-- PORT_DEAD, R51. -/
  | portDead (port : Fin 16)
  /-- BUNDLE_TRANSMIT, R67. -/
  | bundleTransmit (port : Fin 16) (pos : Nat)
  /-- BUNDLE_RECEIVE, R48. -/
  | bundleReceive (port : Fin 16) (pos : Nat) (rx : RxBundle)
  /-- REPLAY, R49. -/
  | replay (port : Fin 16) (pos : Nat)
  /-- LANDING, R50. -/
  | landing (port : Fin 16) (pos : Nat)
  /-- RELAY, R53. -/
  | relay (port : Fin 16) (pos : Nat)
  /-- REQUEST_RECORD, R54. -/
  | requestRecord (port : Fin 16) (rec : FabRecord)
  /-- FAILURE_NOTICE, R55. -/
  | failureNotice (port : Fin 16) (dev : Nat) (rec : FabRecord)
  /-- KEY_ROTATION, R52: a direction of a link, which is a port in a leaf (port × 32 + leaf). -/
  | keyRotation (port : Fin 512) (tx : Bool) (counter : Nat)
  /-- CONTROL_RECORD_RECEIVE, R70. -/
  | controlRecordReceive (port : Fin 16) (rec : CtrlRecord)
  /-- PTP_MESSAGE, R59. -/
  | ptpMessage (msg : PtpMsg)
  /-- PPS_IN, R60. -/
  | ppsIn (within : Bool)
  /-- TIME_CFG_WRITE, R63. -/
  | timeCfgWrite (val : BitVec 32)
  /-- DOORBELL, R83. -/
  | doorbell (ring : Fin 1024) (tail : BitVec 32)
  /-- PACKET_FETCH, R83. -/
  | packetFetch (ring : Fin 1024) (pkt : Packet)
  /-- PACKET_TAKE, R84. -/
  | packetTake (lq : Fin 64)
  /-- DISPATCH, R89. -/
  | dispatch (lq : Fin 64)
  /-- NOP, R86. -/
  | nop (cmd : Nat)
  /-- LAUNCH, R90. -/
  | launch (cmd : Nat)
  /-- GRAPH, R92. -/
  | graph (cmd : Nat)
  /-- WAIT, R86. -/
  | wait (cmd : Nat)
  /-- WRITE, R86. -/
  | write (cmd : Nat)
  /-- SCHED_LOAD, R69. -/
  | schedLoad (cmd : Nat)
  /-- SCHED_LOAD_DONE, R69. -/
  | schedLoadDone (cmd : Nat)
  /-- SCHED_ACTIVATE, R86. -/
  | schedActivate (cmd : Nat)
  /-- PREEMPT, R140. -/
  | preempt (cmd : Nat)
  /-- COND, R92. -/
  | cond (cmd : Nat)
  /-- LOOP, R92. -/
  | loop (cmd : Nat)
  /-- END, R92. -/
  | endNode (cmd : Nat)
  /-- RING_CFG_WRITE, R82. -/
  | ringCfgWrite (ring : Fin 1024) (val : BitVec 32)
  /-- MERGE_CFG_WRITE, R85. -/
  | mergeCfgWrite (lq : Fin 64) (val : BitVec 32)
  /-- CLEAR, R85. -/
  | clear (lq : Fin 64)
  /-- JOURNAL_CFG_WRITE, R93. -/
  | journalCfgWrite (val : BitVec 32)
  /-- PT_ROOT_WRITE, R184. -/
  | ptRootWrite (part : Fin 4) (val : BitVec 64)
  /-- FLUSH, R184. -/
  | flush (part : Fin 4)
  /-- PWR_CFG_WRITE, R122. -/
  | pwrCfgWrite (val : BitVec 32)
  /-- REGISTER_WRITE, R4. -/
  | registerWrite (bar : Fin 3) (size : Nat) (offset : BitVec 26) (val : BitVec 64)
  /-- CHALLENGE, R111. -/
  | challenge (version : BitVec 8) (slot : Nat) (nonce : BitVec 256)
  /-- GET_MEASUREMENTS, R112. -/
  | getMeasurements (version : BitVec 8) (slot : Nat) (index : Nat) (signed : Bool) (nonce : BitVec 256)
  /-- KEY_EXCHANGE, R111. -/
  | keyExchange (version : BitVec 8) (slot : Nat) (share : BitVec 768)
  /-- FINISH, R111. -/
  | finish (version : BitVec 8) (session : Nat) (tenant : Nat)
  /-- END_SESSION, R111. -/
  | endSession (version : BitVec 8) (session : Nat)
  /-- PARTITION_TABLE_SET, R113. -/
  | partitionTableSet (table : List PartEntry)
  /-- SEAL, R114. -/
  | seal (version : BitVec 8) (session : Nat) (msg : SealMsg)
  /-- UNSEAL, R114. -/
  | unseal (version : BitVec 8) (session : Nat) (part : Fin 4)
  /-- OPERATOR_RELEASE, R114. -/
  | operatorRelease (part : Fin 4)
  /-- TENANT_PT_ROOT_WRITE, R184. -/
  | tenantPtRootWrite (version : BitVec 8) (session : Nat) (part : Fin 4) (flush : Bool) (val : BitVec 64)
  /-- TENANT_DEBUG_UNLOCK, R117. -/
  | tenantDebugUnlock (version : BitVec 8) (session : Nat) (part : Fin 4) (sig : List Byte)
  /-- TENANT_DEBUG_EXIT, R117. -/
  | tenantDebugExit (version : BitVec 8) (session : Nat) (part : Fin 4)
  /-- VENDOR_DEBUG_TOKEN, R117. -/
  | vendorDebugToken (version : BitVec 8) (token : List Byte)
  /-- DEBUG_RELEASE, R332. -/
  | debugRelease (session : Nat) (warp : Nat) (strm : Strm)
  /-- DEBUG_DELIVER_BREAKPOINT, R332. -/
  | debugDeliverBreakpoint (session : Nat) (warp : Nat) (strm : Strm)
  /-- SEALED_TRANSFER_RECORD, R115. -/
  | sealedTransferRecord (stream : Option (Fin 4)) (part : Fin 4) (out : Bool) (xferId : BitVec 32) (index : BitVec 64) (addr : Nat) (cipher : List Byte) (tag : BitVec 128)
  /-- INSTANCE_START, R134. -/
  | instanceStart (grid : Nat) (pos : Nat)
  /-- RESOURCE_RELEASE, R134. -/
  | resourceRelease (grid : Nat) (pos : Nat)
  /-- GRID_RETIRE, R90. -/
  | gridRetire (grid : Nat)
  /-- FREEZE, R140. -/
  | freeze (grid : Nat)
  /-- RESUME_IMAGE_WRITE, R141. -/
  | resumeImageWrite (grid : Nat)
  /-- IDLE_BEAT, R146. -/
  | idleBeat (core : Nat) (part : Fin 4) (strm : Strm)
  /-- ENGINE_COMMAND_START, R201. -/
  | engineCommandStart (cmd : Nat)
  /-- IADD, R296. -/
  | iadd (o : T3)
  /-- ISUB, R296. -/
  | isub (o : T3)
  /-- IMUL, R296. -/
  | imul (o : T3)
  /-- IMULH, R296. -/
  | imulh (o : T3)
  /-- IMULHU, R296. -/
  | imulhu (o : T3)
  /-- IMAD, R296. -/
  | imad (o : T3d)
  /-- IMIN, R296. -/
  | imin (o : T3)
  /-- IMAX, R296. -/
  | imax (o : T3)
  /-- IMINU, R296. -/
  | iminu (o : T3)
  /-- IMAXU, R296. -/
  | imaxu (o : T3)
  /-- IABSD, R296. -/
  | iabsd (o : T3)
  /-- AND, R297. -/
  | and (o : T3)
  /-- OR, R297. -/
  | or (o : T3)
  /-- XOR, R297. -/
  | xor (o : T3)
  /-- ANDN, R297. -/
  | andn (o : T3)
  /-- SHL, R297. -/
  | shl (o : T3)
  /-- SHR, R297. -/
  | shr (o : T3)
  /-- SAR, R297. -/
  | sar (o : T3)
  /-- BFI, R298. -/
  | bfi (o : T3d)
  /-- BPERM, R299. -/
  | bperm (o : T3d)
  /-- SEL, R300. -/
  | sel (o : T3)
  /-- FADD, R306. -/
  | fadd (o : T3)
  /-- FSUB, R306. -/
  | fsub (o : T3)
  /-- FMUL, R306. -/
  | fmul (o : T3)
  /-- FFMA, R306. -/
  | ffma (o : T3d)
  /-- FMIN, R307. -/
  | fmin (o : T3)
  /-- FMAX, R307. -/
  | fmax (o : T3)
  /-- HADD2, R308. -/
  | hadd2 (o : T3)
  /-- HMUL2, R308. -/
  | hmul2 (o : T3)
  /-- HFMA2, R308. -/
  | hfma2 (o : T3d)
  /-- ICMP, R304. -/
  | icmp (o : TC)
  /-- ICMPU, R304. -/
  | icmpu (o : TC)
  /-- ICMPI, R304. -/
  | icmpi (o : TCi)
  /-- FCMP, R305. -/
  | fcmp (o : TC)
  /-- STS, R338. -/
  | sts (o : St)
  /-- STSW, R338. -/
  | stsw (o : St)
  /-- STG, R342. -/
  | stg (o : St)
  /-- SEND, R345. -/
  | send (o : Snd)
  /-- ATS, R339. -/
  | ats (o : TA)
  /-- ATG, R343. -/
  | atg (o : TA)
  /-- IADDI, R301. -/
  | iaddi (o : TI)
  /-- ANDI, R301. -/
  | andi (o : TI)
  /-- ORI, R301. -/
  | ori (o : TI)
  /-- XORI, R301. -/
  | xori (o : TI)
  /-- SHLI, R301. -/
  | shli (o : TIs)
  /-- SHRI, R301. -/
  | shri (o : TIs)
  /-- SARI, R301. -/
  | sari (o : TIs)
  /-- MOVIL, R302. -/
  | movil (o : TL)
  /-- MOVIH, R302. -/
  | movih (o : TLd)
  /-- BRA, R322. -/
  | bra (o : TB)
  /-- CALL, R322. -/
  | call (o : TB)
  /-- MMQ, R357. -/
  | mmq (o : TM)
  /-- MMQS, R359. -/
  | mmqs (o : TM)
  /-- MOV, R302. -/
  | mov (o : T2)
  /-- POPC, R296. -/
  | popc (o : T2)
  /-- CLZ, R296. -/
  | clz (o : T2)
  /-- BREV, R296. -/
  | brev (o : T2)
  /-- INEG, R296. -/
  | ineg (o : T2)
  /-- IABS, R296. -/
  | iabs (o : T2)
  /-- BFX, R298. -/
  | bfx (o : T2d)
  /-- SEXT, R297. -/
  | sext (o : T2n)
  /-- ROTL, R297. -/
  | rotl (o : T2n)
  /-- FRCP, R311. -/
  | frcp (o : T2)
  /-- FRSQ, R311. -/
  | frsq (o : T2)
  /-- FSQRT, R311. -/
  | fsqrt (o : T2)
  /-- FEX2, R311. -/
  | fex2 (o : T2)
  /-- FLG2, R311. -/
  | flg2 (o : T2)
  /-- FSINP, R311. -/
  | fsinp (o : T2)
  /-- FCOSP, R311. -/
  | fcosp (o : T2)
  /-- FTANH, R311. -/
  | ftanh (o : T2)
  /-- FCVT, R309. -/
  | fcvt (o : Cvt)
  /-- I2F, R310. -/
  | i2f (o : T2r)
  /-- F2I, R310. -/
  | f2i (o : T2r)
  /-- FMTW, R363. -/
  | fmtw (o : NA)
  /-- CMPR, R361. -/
  | cmpr (o : T2d)
  /-- ACCZ, R362. -/
  | accz (o : N3)
  /-- ACCRD, R362. -/
  | accrd (o : Accrd)
  /-- ACCWR, R362. -/
  | accwr (o : NA)
  /-- PAND, R312. -/
  | pand (o : PP)
  /-- POR, R312. -/
  | por (o : PP)
  /-- PXOR, R312. -/
  | pxor (o : PP)
  /-- PNOT, R312. -/
  | pnot (o : P2)
  /-- PMOV, R312. -/
  | pmov (o : P2)
  /-- PVEC, R313. -/
  | pvec (o : PV)
  /-- GBIND, R314. -/
  | gbind (o : GB)
  /-- GBIND_NEG, R314. -/
  | gbindNeg (o : GB)
  /-- SHFLX, R315. -/
  | shflx (o : T2n)
  /-- SHFLU, R315. -/
  | shflu (o : T2n)
  /-- SHFLD, R315. -/
  | shfld (o : T2n)
  /-- SHFLI, R315. -/
  | shfli (o : T2d)
  /-- BCAST, R316. -/
  | bcast (o : T2)
  /-- BALLOT, R317. -/
  | ballot (o : PV)
  /-- VALL, R317. -/
  | vall (o : P2)
  /-- VANY, R317. -/
  | vany (o : P2)
  /-- REDL, R318. -/
  | redl (o : T2o)
  /-- SCANL, R319. -/
  | scanl (o : T2o)
  /-- LDS, R337. -/
  | lds (o : Lds)
  /-- LDSW, R337. -/
  | ldsw (o : T2d)
  /-- LDG, R341. -/
  | ldg (o : Ldg)
  /-- LDGI, R341. -/
  | ldgi (o : Ldg)
  /-- QSTAT, R344. -/
  | qstat (o : QS)
  /-- SENDM, R346. -/
  | sendm (o : Sndm)
  /-- BAR, R348. -/
  | bar (o : N2)
  /-- ARRIVE, R348. -/
  | arrive (o : N2)
  /-- WAITB, R348. -/
  | waitb (o : N2)
  /-- WAITC, R349. -/
  | waitc (o : A1)
  /-- WAITC_HBM, R349. -/
  | waitcHbm (o : A1)
  /-- WAITT, R350. -/
  | waitt (o : A1)
  /-- FENCE, R351. -/
  | fence (o : N2)
  /-- QFENCE, R352. -/
  | qfence (o : A1)
  /-- YIELD, R325. -/
  | yield (o : E0)
  /-- BRX, R322. -/
  | brx (o : AG)
  /-- RET, R322. -/
  | ret (o : G0)
  /-- SPLIT, R323. -/
  | split (o : Spl)
  /-- JOIN, R323. -/
  | join (o : E0)
  /-- EXIT, R324. -/
  | exit (o : G0)
  /-- NOP_INSTR, R325. -/
  | nopInstr (o : E0)
  /-- CKPT, R333. -/
  | ckpt (o : E0)
  /-- COPY, R211. -/
  | copy (o : A1)
  /-- GATHER, R206. -/
  | gather (o : A1)
  /-- SCATTER, R206. -/
  | scatter (o : A1)
  /-- MGX, R226. -/
  | mgx (o : A1)
  /-- MMV, R40. -/
  | mmv (o : A1)
  /-- FPUT, R213. -/
  | fput (o : A1)
  /-- FGET, R213. -/
  | fget (o : A1)
  /-- FATOM, R213. -/
  | fatom (o : A1)
  /-- FMCAST, R56. -/
  | fmcast (o : A1)
  /-- COLL, R214. -/
  | coll (o : A1)
  /-- LAUNCH_INSTR, R369. -/
  | launchInstr (o : A1)
  /-- CNTADD, R370. -/
  | cntadd (o : A1)
  /-- RDSR, R372. -/
  | rdsr (o : Rdsr)
  /-- WRSR, R373. -/
  | wrsr (o : Wrsr)
  /-- SPILL, R376. -/
  | spill (o : SF)
  /-- FILL, R376. -/
  | fill (o : SF)
  /-- CTAG, R374. -/
  | ctag (o : Ctag)
  /-- PSAVE, R377. -/
  | psave (o : D1)
  /-- PREST, R377. -/
  | prest (o : D1)
  /-- DSAVE, R378. -/
  | dsave (o : D1)
  /-- DREST, R378. -/
  | drest (o : D1)
  /-- BSAVE, R379. -/
  | bsave (o : D1)
  /-- BREST, R379. -/
  | brest (o : D1)
  /-- LSAVE, R380. -/
  | lsave (o : D1)
  /-- LREST, R380. -/
  | lrest (o : D1)
  /-- BRK, R332. -/
  | brk (o : E0)
  /-- TRAP, R332. -/
  | trap (o : E0)
  /-- ASAVE, R381. -/
  | asave (o : ND)
  /-- AREST, R381. -/
  | arest (o : ND)
  /-- MOV_H16, R291. -/
  | movH16 (o : H16)
  /-- IADD_H16, R291. -/
  | iaddH16 (o : H16)
  /-- ISUB_H16, R291. -/
  | isubH16 (o : H16)
  /-- IMUL_H16, R291. -/
  | imulH16 (o : H16)
  /-- AND_H16, R291. -/
  | andH16 (o : H16)
  /-- OR_H16, R291. -/
  | orH16 (o : H16)
  /-- XOR_H16, R291. -/
  | xorH16 (o : H16)
  /-- ANDN_H16, R291. -/
  | andnH16 (o : H16)
  /-- SHL_H16, R291. -/
  | shlH16 (o : H16)
  /-- SHR_H16, R291. -/
  | shrH16 (o : H16)
  /-- SAR_H16, R291. -/
  | sarH16 (o : H16)
  /-- FADD_H16, R291. -/
  | faddH16 (o : H16)
  /-- FSUB_H16, R291. -/
  | fsubH16 (o : H16)
  /-- FMUL_H16, R291. -/
  | fmulH16 (o : H16)
  /-- FMIN_H16, R291. -/
  | fminH16 (o : H16)
  /-- FMAX_H16, R291. -/
  | fmaxH16 (o : H16)
  /-- REGISTER_FILE_ERROR, R334. -/
  | registerFileError (warp : Nat) (strm : Strm) (reg : Fin 112) (lane : Fin 32)
  /-- REF10M, R62. -/
  | ref10m (present : Bool)
  /-- DEBUGGER_HALT, R116. -/
  | debuggerHalt (session : Nat) (warp : Nat) (strm : Strm) (act : DebugAct)
  /-- SINGLE_STEP, R116. -/
  | singleStep (session : Nat) (warp : Nat) (strm : Strm)
  /-- IDE_STREAM_BIND, R115. -/
  | ideStreamBind (version : BitVec 8) (session : Nat) (part : Fin 4)
  /-- ZEROING_COMPLETE, R114. -/
  | zeroingComplete (why : ZeroFor) (part : Fin 4)
  /-- RECOVERY_STATUS, R102. -/
  | recoveryStatus (addr : BitVec 7) (code : BitVec 8)
  /-- GET_CAPABILITIES, R111. -/
  | getCapabilities (version : BitVec 8)
  /-- NEGOTIATE_ALGORITHMS, R111. -/
  | negotiateAlgorithms (version : BitVec 8)
  /-- GET_DIGESTS, R111. -/
  | getDigests (version : BitVec 8)
  /-- GET_CERTIFICATE, R111. -/
  | getCertificate (version : BitVec 8) (slot : Nat)
  /-- CORE_GATE, R119. -/
  | coreGate
  /-- STAGING, R129. -/
  | staging
  /-- PLACEMENT, R139. -/
  | placement
  /-- DRAIN_BOUND_EXPIRY, R143. -/
  | drainBoundExpiry
  /-- FW_EVENT_TAKE, R97. -/
  | fwEventTake
  /-- PWROK_FALL, R17. -/
  | pwrokFall
  /-- OVERTEMP_ALERT, R24. -/
  | overtempAlert
  /-- THERMTRIP, R24. -/
  | thermtrip
  /-- PERST_ASSERT, R81. -/
  | perstAssert
  /-- PERST_DEASSERT, R100. -/
  | perstDeassert
  /-- BUS_MASTER_ENABLE, R81. -/
  | busMasterEnable
  /-- D3HOT_ENTRY, R118. -/
  | d3hotEntry
  /-- D0_ENTRY, R118. -/
  | d0Entry
  /-- ROM_BOOT, R99. -/
  | romBoot
  /-- PLL_LOCK, R103. -/
  | pllLock
  /-- BRINGUP_PHASE_TIMEOUT, R103. -/
  | bringupPhaseTimeout
  /-- GTC_DISCIPLINE_TIMEOUT, R104. -/
  | gtcDisciplineTimeout
  /-- RECOVERY_VERIFY_DONE, R102. -/
  | recoveryVerifyDone
  /-- VERIFY, R108. -/
  | verify
  /-- FW_VERIFY_DONE, R108. -/
  | fwVerifyDone
  /-- FW_ACTIVATE_DONE, R109. -/
  | fwActivateDone
  /-- MULTICAST_RESOLUTION, R56. -/
  | multicastResolution
  /-- CONTROL_RECORD, R70. -/
  | controlRecord
  /-- PPS_OUT, R21. -/
  | ppsOut
  /-- TIME_FAULT_TIMEOUT, R60. -/
  | timeFaultTimeout
  /-- HOLDOVER, R62. -/
  | holdover
  /-- ENTER_FAULT, R75. -/
  | enterFault
  /-- ENTER_AGREE, R75. -/
  | enterAgree
  /-- ENTER_REALIGN, R75. -/
  | enterRealign
  /-- GTC_REALIGN, R76. -/
  | gtcRealign
  /-- DEVICE_HOLD_END, R76. -/
  | deviceHoldEnd
  /-- RESUME_RUN, R78. -/
  | resumeRun
  /-- BOUNDARY_IMAGE, R79. -/
  | boundaryImage
  /-- ACTIVATION_TAKES_EFFECT, R86. -/
  | activationTakesEffect
  /-- WAIT_SATISFIED, R86. -/
  | waitSatisfied
  /-- WAIT_WATCHDOG, R86. -/
  | waitWatchdog
  /-- GET_VERSION, R111. -/
  | getVersion
  /-- DEBUG_NONCE, R117. -/
  | debugNonce (version : BitVec 8)
  /-- DEVICE_IDLE_ENTRY, R118. -/
  | deviceIdleEntry
  /-- WAKE_COMPLETE, R119. -/
  | wakeComplete
  /-- STAGED, R129. -/
  | staged
  /-- RESULT_LANDING, R156. -/
  | resultLanding
  /-- QUEUE_LANDING, R151. -/
  | queueLanding
  /-- PARK_RELEASE, R155. -/
  | parkRelease
  /-- BARRIER_RELEASE, R347. -/
  | barrierRelease
  /-- MAILBOX_DELIVERY, R180. -/
  | mailboxDelivery
  /-- PAGE_WALK_LEVEL, R185. -/
  | pageWalkLevel
  /-- ENGINE_DONE, R216. -/
  | engineDone
  /-- TRAPRET, R331. -/
  | trapret
  /-- ILLEGAL_INSTRUCTION, R292. -/
  | illegalInstruction
  /-- WRITE_COMPLETION, R86. -/
  | writeCompletion
  /-- UNSUPPORTED_REQUEST, R111. -/
  | unsupportedRequest (version : BitVec 8)
  /-- VDD_AUX_LOST, R20. -/
  | vddAuxLost
deriving DecidableEq, Repr

end Sys2Proof
end

