-- ==== Sys2Proof/Machine/Legal.lean ====
section
/-! DEFINITION. The static part of step 3 of R262: field values that the tables of chapters 14 and 15 leave illegal in
an encoding that decodes. -/

namespace Sys2Proof.Machine

/-- A source field holds an assigned value (R257). -/
def Src.legal : Src → Bool
  | .reserved => false
  | _ => true

/-- A source field names a vector register (R277). -/
def Src.isReg : Src → Bool
  | .v _ => true
  | _ => false

/-- A destination field holds an assigned value (R257). -/
def Dst.legal : Dst → Bool
  | .reserved _ => false
  | _ => true

/-- A destination field names a vector register (R276). -/
def Dst.isReg : Dst → Bool
  | .v _ => true
  | _ => false

/-- W = 1 only with d = 124 (R259). -/
def wLegal (d : Dst) (w : Bool) : Bool := Dst.legal d && (!w || decide (d = .discard))

/-- A predicate field names p0 to p47 (R281). -/
def predLegal (p : BitVec 7) : Bool := p.toNat < 48

/-- d of ldg, ldgi and atg names q0 to q5; atg also allows discard (R277). -/
def hbmDst (discard : Bool) : Dst → Bool
  | .q n => n.val < 6
  | .discard => discard
  | _ => false

/-- d of ats: a register, q0 to q5 or discard; direction is judged under step 4 (R150, R279). -/
def atsDst : Dst → Bool
  | .reserved _ => false
  | .q n => n.val < 6
  | _ => true

def legalT3 (o : T3) : Bool := wLegal o.d o.w && Src.legal o.a && Src.legal o.b
/-- A d* instruction names a register (R276). -/
def legalT3d (o : T3d) : Bool := Dst.isReg o.d && Src.legal o.a && Src.legal o.b
/-- sel needs a slot (R277). -/
def legalSel (o : T3) : Bool := legalT3 o && decide (o.g ≠ 0)
def legalTC (o : TC) : Bool := decide (o.p.toNat < 48) && Src.legal o.a && Src.legal o.b
/-- icmpu has only the four orders (R278). -/
def legalIcmpu (o : TC) : Bool := legalTC o && decide (2 ≤ o.c.toNat ∧ o.c.toNat ≤ 5)
def legalTCi (o : TCi) : Bool := decide (o.p.toNat < 48) && Src.legal o.a
def legalSt (o : St) : Bool := Src.legal o.a && Src.legal o.b
/-- stsw stores a register pair (R338). -/
def legalStsw (o : St) : Bool := Src.legal o.a && Src.isReg o.b
/-- stg addresses through a register pair (R340). -/
def legalStg (o : St) : Bool := Src.isReg o.a && Src.legal o.b
def legalSnd (o : Snd) : Bool := Src.legal o.a && Src.legal o.b
/-- ats: a compare-and-swap reads the register after the address (R279). -/
def legalAts (o : TA) : Bool :=
  atsDst o.d && Src.legal o.a && Src.legal o.b && (decide (o.fn ≠ 7) || Src.isReg o.a)
def legalAtg (o : TA) : Bool := hbmDst true o.d && Src.isReg o.a && Src.legal o.b
def legalTI (o : TI) : Bool := wLegal o.d o.w && Src.legal o.a
def legalTIs (o : TIs) : Bool := wLegal o.d o.w && Src.legal o.a
def legalTL (o : TL) : Bool := wLegal o.d o.w
def legalTLd (o : TLd) : Bool := Dst.isReg o.d
/-- The triples of a matrix instruction are registers (R258). -/
def legalTM (o : TM) : Bool := Src.isReg o.a && Src.isReg o.b
def legalT2 (o : T2) : Bool := wLegal o.d o.w && Src.legal o.a
def legalT2d (o : T2d) : Bool := Dst.isReg o.d && Src.legal o.a
/-- A count of 0 is unassigned (R282, R285). -/
def legalT2n (o : T2n) : Bool := wLegal o.d o.w && Src.legal o.a && decide (o.n ≠ 0)
/-- Six pairs, the widening ones with rm = 0 only (R283). -/
def legalCvt (o : Cvt) : Bool :=
  wLegal o.d o.w && Src.legal o.a && decide (o.p.toNat ≤ 5) && (decide (o.rm = 0) || !(decide (o.p = 2) || decide (o.p = 3)))
def legalT2r (o : T2r) : Bool := wLegal o.d o.w && Src.legal o.a
/-- Eleven operators (R285). -/
def legalT2o (o : T2o) : Bool := wLegal o.d o.w && Src.legal o.a && decide (o.o.toNat ≤ 10)
def legalLds (o : Lds) : Bool := wLegal o.d o.w && Src.legal o.a && decide (o.k.toNat ≤ 4)
def legalLdg (o : Ldg) : Bool := hbmDst false o.d && Src.isReg o.a && decide (o.s.toNat ≤ 5)
def legalNA (o : NA) : Bool := Src.legal o.a
/-- accwr reads a register group (R283). -/
def legalAccwr (o : NA) : Bool := Src.isReg o.a
def legalAccrd (o : Accrd) : Bool := Dst.isReg o.d
def legalPP (o : PP) : Bool := predLegal o.d && predLegal o.a
def legalP2 (o : P2) : Bool := predLegal o.d && predLegal o.a
def legalPV (o : PV) : Bool := wLegal o.d o.w && predLegal o.a
/-- gbind names g1 to g3 (R314). -/
def legalGB (o : GB) : Bool := decide (1 ≤ o.slot.toNat ∧ o.slot.toNat ≤ 3) && predLegal o.a
def legalQS (o : QS) : Bool := wLegal o.d o.w
def legalSndm (o : Sndm) : Bool := Src.legal o.a
def legalA1 (o : A1) : Bool := Src.legal o.a
/-- A register group of waitc, waitt or an engine block (R277). -/
def legalGroup (o : A1) : Bool := Src.isReg o.a
def legalAG (o : AG) : Bool := Src.legal o.a
def legalSpl (o : Spl) : Bool := Src.legal o.a
/-- The assigned special registers (R290). -/
def srAssigned (n : Nat) : Bool := n ≤ 21 || (32 ≤ n && n ≤ 47)
/-- The special registers that wrsr may write (R290). -/
def srWritable (n : Nat) : Bool := 11 ≤ n && n ≤ 19
def legalRdsr (o : Rdsr) : Bool := wLegal o.d o.w && srAssigned o.s.toNat
def legalWrsr (o : Wrsr) : Bool := srWritable o.s.toNat && Src.legal o.a
/-- spill saves a register through a register pointer (R376). -/
def legalSpill (o : SF) : Bool := Dst.isReg o.d && Src.isReg o.a
def legalFill (o : SF) : Bool := Dst.isReg o.d && Src.legal o.a
/-- ctag examines a register, a latch or a queue (R374). -/
def legalCtag (o : Ctag) : Bool :=
  wLegal o.d o.w && match o.a with
    | .v _ => true
    | .b _ => true
    | .q _ => true
    | _ => false
def legalD1 (o : D1) : Bool := Dst.isReg o.d
def legalND (o : ND) : Bool := Dst.isReg o.d

end Sys2Proof.Machine
end

