-- ==== Sys2Proof/Machine/Float.lean ====
section
/-! DEFINITION. The number formats of chapter 13: IEEE formats, narrow formats, block scales, exact values, and the
single roundings between them (R234 to R244). -/

namespace Sys2Proof.Machine

/-- An IEEE format by its precision and exponent width (R234). -/
structure Fmt where
  prec : Nat
  ebits : Nat
deriving DecidableEq, Repr

def fp32 : Fmt := ⟨24, 8⟩
def bf16 : Fmt := ⟨8, 8⟩
def fp16 : Fmt := ⟨11, 5⟩

/-- Exponent bias of a format (R234). -/
def Fmt.bias (f : Fmt) : Nat := 2 ^ (f.ebits - 1) - 1

/-- Exponent of the least significant bit of a subnormal. -/
def Fmt.qmin (f : Fmt) : Int := 2 - (f.bias : Int) - f.prec

/-- The code of +infinity. -/
def Fmt.inf (f : Fmt) : Nat := (2 ^ f.ebits - 1) * 2 ^ (f.prec - 1)

/-- The sign bit's weight. -/
def Fmt.signBit (f : Fmt) : Nat := 2 ^ (f.prec - 1 + f.ebits)

/-- The canonical quiet NaN (R235). -/
def Fmt.nan (f : Fmt) : Nat := f.inf + 2 ^ (f.prec - 2)

/-- A value before rounding: NaN, an infinity, or (-1)^neg * m * 2^e exactly. -/
inductive FVal where
  | nan (signalling : Bool)
  | inf (neg : Bool)
  | fin (neg : Bool) (m : Nat) (e : Int)
deriving DecidableEq, Repr

/-- Decode a code of an IEEE format. -/
def Fmt.decode (f : Fmt) (bits : Nat) : FVal :=
  let b := bits % (2 * f.signBit)
  let neg := f.signBit ≤ b
  let mag := b % f.signBit
  let frac := mag % 2 ^ (f.prec - 1)
  let ex := mag / 2 ^ (f.prec - 1)
  if ex = 2 ^ f.ebits - 1 then
    if frac = 0 then .inf neg else .nan (frac < 2 ^ (f.prec - 2))
  else if ex = 0 then .fin neg frac f.qmin
  else .fin neg (frac + 2 ^ (f.prec - 1)) (f.qmin + (ex : Int) - 1)

/-- The flags of sr.fflags[5:0] as bits (R250). -/
def fNV : BitVec 6 := 1
def fDZ : BitVec 6 := 2
def fOF : BitVec 6 := 4
def fUF : BitVec 6 := 8
def fNX : BitVec 6 := 16
def fIOV : BitVec 6 := 32

/-- A result code with the flags raised. -/
structure FRes where
  bits : Nat
  fl : BitVec 6
deriving DecidableEq, Repr

/-- The named roundings of R240. -/
inductive Rm where
  | ne
  | z
  | dn
  | up
deriving DecidableEq, Repr

/-- The 2-bit RM code of R240. -/
def Rm.ofCode (c : BitVec 2) : Rm :=
  if c = 0 then .ne else if c = 1 then .z else if c = 2 then .dn else .up

/-- Round n / d (d > 0) to an integer magnitude; `odd k` tells which of two equally near candidates is not taken. -/
def roundQuot (rm : Rm) (neg : Bool) (n d : Nat) (odd : Nat → Bool) : Nat :=
  let k := n / d
  let r := n % d
  if r = 0 then k
  else match rm with
    | .ne => if 2 * r < d then k else if d < 2 * r then k + 1 else if odd k then k + 1 else k
    | .z => k
    | .dn => if neg then k + 1 else k
    | .up => if neg then k else k + 1

/-- floor(log2(n / d)) for positive n and d. -/
def log2Quot (n d : Nat) : Int :=
  let g : Int := (Nat.log2 n : Int) - Nat.log2 d
  if 0 ≤ g then (if n < d * 2 ^ g.toNat then g - 1 else g)
  else if n * 2 ^ (-g).toNat < d then g - 1 else g

/-- n / d scaled by 2^-q, as a quotient of naturals. -/
def scaleQuot (n d : Nat) (q : Int) : Nat × Nat :=
  if 0 ≤ q then (n, d * 2 ^ q.toNat) else (n * 2 ^ (-q).toNat, d)

/-- Round (-1)^neg * m * 2^e / div to an IEEE format (R235): tininess after rounding. A zero keeps its sign. -/
def Fmt.round (f : Fmt) (rm : Rm) (neg : Bool) (m : Nat) (e : Int) (div : Nat := 1) : FRes :=
  let s := if neg then f.signBit else 0
  if m = 0 then ⟨s, 0⟩
  else
    let (n, d) := scaleQuot m div (-e)
    let x := log2Quot n d
    let emin : Int := f.qmin + f.prec - 1
    let q := max x emin - (f.prec - 1)
    let (n', d') := scaleQuot n d q
    let k := roundQuot rm neg n' d' (fun j => j % 2 = 1)
    let inexact := n' % d' ≠ 0
    let mag := (q - f.qmin).toNat * 2 ^ (f.prec - 1) + k
    let (n₂, d₂) := scaleQuot n d (x - (f.prec - 1))
    let k₂ := roundQuot rm neg n₂ d₂ (fun j => j % 2 = 1)
    let tiny := x < emin ∧ ¬(x = emin - 1 ∧ k₂ = 2 ^ f.prec)
    if f.inf ≤ mag then
      let toInf := match rm with
        | .ne => true
        | .z => false
        | .dn => neg
        | .up => !neg
      ⟨s + (if toInf then f.inf else f.inf - 1), fOF ||| fNX⟩
    else ⟨s + mag, (if inexact then fNX else 0) ||| (if inexact ∧ tiny then fUF else 0)⟩

/-- Round a value; NaN gives the canonical NaN and NV when it is signalling (R235). -/
def Fmt.roundVal (f : Fmt) (rm : Rm) (v : FVal) (div : Nat := 1) : FRes :=
  match v with
  | .nan s => ⟨f.nan, if s then fNV else 0⟩
  | .inf neg => ⟨(if neg then f.signBit else 0) + f.inf, 0⟩
  | .fin neg m e => f.round rm neg m e div

/-- A signalling NaN. -/
def FVal.isSig : FVal → Bool
  | .nan s => s
  | _ => false

def FVal.isNan : FVal → Bool
  | .nan _ => true
  | _ => false

def FVal.isNeg : FVal → Bool
  | .nan _ => false
  | .inf n => n
  | .fin n _ _ => n

def FVal.isZero : FVal → Bool
  | .fin _ m _ => m = 0
  | _ => false

def FVal.isInf : FVal → Bool
  | .inf _ => true
  | _ => false

/-- The negation of a value. -/
def FVal.neg : FVal → FVal
  | .nan s => .nan s
  | .inf n => .inf (!n)
  | .fin n m e => .fin (!n) m e

/-- A signed dyadic number m * 2^e. -/
structure Dy where
  m : Int
  e : Int
deriving DecidableEq, Repr

/-- Exact sum of dyadic numbers. -/
def Dy.add (a b : Dy) : Dy :=
  let e := min a.e b.e
  ⟨a.m * 2 ^ (a.e - e).toNat + b.m * 2 ^ (b.e - e).toNat, e⟩

/-- Exact product. -/
def Dy.mul (a b : Dy) : Dy := ⟨a.m * b.m, a.e + b.e⟩

/-- The signed dyadic number of a finite value (0 otherwise). -/
def FVal.dy : FVal → Dy
  | .fin neg m e => ⟨if neg then -(m : Int) else m, e⟩
  | _ => ⟨0, 0⟩

/-- A dyadic number as a value; an exact zero takes the sign given. -/
def Dy.val (a : Dy) (zneg : Bool) : FVal :=
  if a.m = 0 then .fin zneg 0 0 else .fin (a.m < 0) a.m.natAbs a.e

/-- Exact comparison a < b of two finite values. -/
def Dy.lt (a b : Dy) : Bool := (Dy.add a ⟨-b.m, b.e⟩).m < 0

/-- Exact product of two values with its invalid flag (R306): 0 times infinity is invalid. -/
def FVal.mul (a b : FVal) : FVal × BitVec 6 :=
  let sg := if a.isSig ∨ b.isSig then fNV else 0
  if a.isNan ∨ b.isNan then (.nan false, sg)
  else if a.isInf ∨ b.isInf then
    if a.isZero ∨ b.isZero then (.nan false, fNV) else (.inf (a.isNeg != b.isNeg), 0)
  else (Dy.val (Dy.mul a.dy b.dy) (a.isNeg != b.isNeg), 0)

/-- Exact sum of two values under round_ne: the sign of an exact zero, and infinity minus infinity invalid (R306). -/
def FVal.add (a b : FVal) : FVal × BitVec 6 :=
  let sg := if a.isSig ∨ b.isSig then fNV else 0
  if a.isNan ∨ b.isNan then (.nan false, sg)
  else if a.isInf then
    if b.isInf ∧ a.isNeg ≠ b.isNeg then (.nan false, fNV) else (.inf a.isNeg, 0)
  else if b.isInf then (.inf b.isNeg, 0)
  else (Dy.val (Dy.add a.dy b.dy) (a.isNeg && b.isNeg), 0)

/-- One rounding of an exact result that already carries flags. -/
def Fmt.fin (f : Fmt) (r : FVal × BitVec 6) : FRes :=
  let o := f.roundVal .ne r.1
  ⟨o.bits, o.fl ||| r.2⟩

/-- a + b in format f (R306, R308). -/
def Fmt.add (f : Fmt) (a b : Nat) : FRes := f.fin ((f.decode a).add (f.decode b))

/-- a - b in format f (R306). -/
def Fmt.sub (f : Fmt) (a b : Nat) : FRes := f.fin ((f.decode a).add (f.decode b).neg)

/-- a * b in format f (R306, R308). -/
def Fmt.mul (f : Fmt) (a b : Nat) : FRes := f.fin ((f.decode a).mul (f.decode b))

/-- a * b + c with one rounding (R306, R308): NV for 0 times infinity whatever c holds. -/
def Fmt.fma (f : Fmt) (a b c : Nat) : FRes :=
  let p := (f.decode a).mul (f.decode b)
  let s := p.1.add (f.decode c)
  f.fin (s.1, s.2 ||| p.2)

/-- Order of two values that are not NaN, with -0 below +0 when `zeros` (R307). -/
def FVal.lt (zeros : Bool) (a b : FVal) : Bool :=
  match a, b with
  | .inf true, .inf true => false
  | .inf true, _ => true
  | _, .inf true => false
  | .inf false, _ => false
  | _, .inf false => true
  | _, _ => if a.isZero && b.isZero then zeros && a.isNeg && !b.isNeg else Dy.lt a.dy b.dy

/-- fmin or fmax (R307): one of the operands' own bits. -/
def Fmt.minMax (f : Fmt) (isMax : Bool) (a b : Nat) : FRes :=
  let x := f.decode a
  let y := f.decode b
  let sg := if x.isSig ∨ y.isSig then fNV else 0
  if x.isNan then (if y.isNan then ⟨f.nan, sg⟩ else ⟨b, sg⟩)
  else if y.isNan then ⟨a, sg⟩
  else if isMax then (if FVal.lt true x y then ⟨b, sg⟩ else ⟨a, sg⟩)
  else (if FVal.lt true y x then ⟨b, sg⟩ else ⟨a, sg⟩)

/-- Round a value to an integer by rm: (magnitude, negative, exact). -/
def FVal.toIntMag (rm : Rm) (neg : Bool) (m : Nat) (e : Int) (div : Nat := 1) : Nat × Bool :=
  let (n, d) := scaleQuot m div (-e)
  (roundQuot rm neg n d (fun j => j % 2 = 1), n % d = 0)

/-- FP32 to INT32 (R241, R310). -/
def f2iRes (rm : Rm) (a : Nat) : FRes :=
  match fp32.decode a with
  | .nan _ => ⟨0, fNV⟩
  | .inf neg => ⟨if neg then 0x80000000 else 0x7FFFFFFF, fNV⟩
  | .fin neg m e =>
    let (k, exact) := FVal.toIntMag rm neg m e
    if neg then (if 0x80000000 < k then ⟨0x80000000, fNV⟩ else ⟨(2 ^ 32 - k) % 2 ^ 32, if exact then 0 else fNX⟩)
    else if 0x7FFFFFFF < k then ⟨0x7FFFFFFF, fNV⟩ else ⟨k, if exact then 0 else fNX⟩

/-- INT32 to FP32 (R241, R310). -/
def i2fRes (rm : Rm) (a : Nat) : FRes :=
  let i := signedField a 32
  fp32.round rm (i < 0) i.natAbs 0

/-! ### Narrow formats -/

/-- A format word's fields (R236). -/
structure Narrow where
  w : Nat
  ebits : Nat
  sign : Bool
  nanc : Bool
  sat : Bool
  bias : Int
deriving DecidableEq, Repr

/-- Read a format word (R236). -/
def Narrow.ofWord (n : Nat) : Narrow :=
  ⟨field n 0 4, field n 4 4, n.testBit 8, n.testBit 9, n.testBit 10, signedField (field n 16 8) 8⟩

/-- Mantissa width M (R236). -/
def Narrow.mant (f : Narrow) : Nat := f.w - (if f.sign then 1 else 0) - f.ebits

/-- Magnitude bits of a code: W less the sign. -/
def Narrow.magBits (f : Narrow) : Nat := f.w - (if f.sign then 1 else 0)

/-- eb of R238. -/
def Narrow.eb (f : Narrow) : Int := 2 ^ (f.ebits - 1) - 1

/-- Exponent of the least significant bit of the format's subnormals. -/
def Narrow.qmin (f : Narrow) : Int := 1 - f.eb + f.bias - f.mant

/-- The value of a code (R238). -/
def Narrow.decode (f : Narrow) (code : Nat) : FVal :=
  let c := code % 2 ^ f.w
  if f.ebits = 0 then
    let i : Int := if f.sign then signedField c f.w else c
    Dy.val ⟨i, f.bias⟩ false
  else
    let neg := f.sign && c.testBit (f.w - 1)
    let mag := c % 2 ^ f.magBits
    let m := mag % 2 ^ f.mant
    let e := mag / 2 ^ f.mant
    if f.nanc ∧ e = 2 ^ f.ebits - 1 ∧ m = 2 ^ f.mant - 1 then .nan false
    else if e = 0 then .fin neg m f.qmin
    else .fin neg (m + 2 ^ f.mant) (f.qmin + (e : Int) - 1)

/-- The highest magnitude code that is not NaN: the code of L (R238). -/
def Narrow.maxCode (f : Narrow) : Nat :=
  if f.ebits = 0 then 2 ^ f.magBits - 1 else 2 ^ f.magBits - 1 - (if f.nanc then 1 else 0)

/-- The largest finite magnitude L (R238). -/
def Narrow.maxVal (f : Narrow) : Dy := (f.decode f.maxCode).dy

/-- A format word is valid (R237). -/
def Narrow.validWord (n : Nat) : Bool :=
  let f := Narrow.ofWord n
  n < 2 ^ 24 && field n 11 5 = 0 && decide (1 ≤ f.w ∧ f.w ≤ 8) &&
  decide ((if f.sign then 1 else 0) + f.ebits ≤ f.w) && (!f.nanc || decide (1 ≤ f.ebits)) &&
  (decide (0 < f.maxCode) || (decide (f.ebits = 0) && f.sign && decide (f.w = 1)))

/-- Convert an exact value, divided by `div`, to a narrow code (R242, R243). -/
def Narrow.encode (f : Narrow) (v : FVal) (div : Nat := 1) : Nat :=
  if f.ebits = 0 then
    let lo : Int := if f.sign then -(2 ^ (f.w - 1)) else 0
    let hi : Int := if f.sign then 2 ^ (f.w - 1) - 1 else 2 ^ f.w - 1
    match v with
    | .nan _ => 0
    | .inf neg => ((if neg then lo else hi) % 2 ^ f.w).toNat
    | .fin neg m e =>
      let (k, _) := FVal.toIntMag .ne neg m (e - f.bias) div
      let i : Int := if neg then -(k : Int) else k
      let j := if i < 0 ∧ !f.sign then 0
               else if i < lo then (if f.sat then lo else i)
               else if hi < i then (if f.sat then hi else i) else i
      (j % 2 ^ f.w).toNat
  else
    let nan := 2 ^ f.magBits - 1
    let sbit (neg : Bool) := if neg && f.sign then 2 ^ (f.w - 1) else 0
    let ovf (neg : Bool) : Nat :=
      if neg && !f.sign then 0
      else if f.sat || !f.nanc then sbit neg + f.maxCode else sbit neg + nan
    match v with
    | .nan _ => if f.nanc then nan else 0
    | .inf neg => ovf neg
    | .fin neg m e =>
      if m = 0 then sbit neg
      else if neg && !f.sign then 0
      else
        let (n, d) := scaleQuot m div (-e)
        let top : Int := f.qmin + max 0 ((f.maxCode / 2 ^ f.mant : Nat) - 1 : Int)
        let q := min (max (log2Quot n d - f.mant) f.qmin) top
        let (n', d') := scaleQuot n d q
        let base := (q - f.qmin).toNat * 2 ^ f.mant
        let code := base + roundQuot .ne neg n' d' (fun j => (base + j) % 2 = 1)
        if f.maxCode < code then ovf neg else sbit neg + code

/-- The block-scale format, unsigned E5M3 with a NaN code (R239). -/
def e5m3 : Narrow := ⟨8, 5, false, true, false, 0⟩

/-- The scale code of 1.0 (R239). -/
def scaleOne : Nat := 0x78

/-- Magnitude a <= b * c of exact values. -/
def leMul (a b c : Dy) : Bool := !(Dy.lt (Dy.mul b c) a)

/-- The smallest positive E5M3 code with m / sigma <= L, or 0xFE (R244). -/
def scaleFor (m l : Dy) : Nat → Nat
  | 0 => 0xFE
  | n + 1 =>
    let c := 0xFF - (n + 1)
    if leMul m l (e5m3.decode c).dy then c else scaleFor m l n

/-- The greatest magnitude of a block. -/
def maxMag (xs : List FVal) : Dy :=
  xs.foldl (fun m x => let d := x.dy; let a : Dy := ⟨d.m.natAbs, d.e⟩; if Dy.lt m a then a else m) ⟨0, 0⟩

/-- Convert one block with a block scale (R244): the scale code and the codes. -/
def encodeBlock (f : Narrow) (xs : List FVal) : Nat × List Nat :=
  if xs.any (fun x => x.isNan || x.isInf) then (0xFF, xs.map fun _ => 0)
  else
    let m := maxMag xs
    let sc := if m.m = 0 then scaleOne else scaleFor m f.maxVal 0xFE
    let sg := (e5m3.decode sc).dy
    (sc, xs.map fun x => match x with
      | .fin neg a e => f.encode (.fin neg a (e - sg.e)) sg.m.toNat
      | y => f.encode y)

/-- The exact value code * scale (R207, R241): a NaN scale makes it NaN. -/
def scaled (v : FVal) (scale : FVal) : FVal :=
  match v, scale with
  | .nan _, _ => .nan false
  | _, .nan _ => .nan false
  | .fin n m e, .fin _ m' e' => .fin n (m * m') (e + e')
  | x, _ => x

/-- Engine conversion to INT32 (R241): rounded once, NaN 0, clamped. -/
def toInt32 (v : FVal) : Nat :=
  match v with
  | .nan _ => 0
  | .inf neg => if neg then 0x80000000 else 0x7FFFFFFF
  | .fin neg m e =>
    let (k, _) := FVal.toIntMag .ne neg m e
    if neg then (2 ^ 32 - min k 0x80000000) % 2 ^ 32 else min k 0x7FFFFFFF

end Sys2Proof.Machine
end

