-- ==== Sys2Proof/Machine/State.lean ====
section
/-! DEFINITION. The state of the machine as plain data: everything the manual gives the device, its reset value,
and the reasons for which a step can stop. Ticks are natural numbers and values of the global time counter (R1). -/

namespace Sys2Proof.Machine

/-- A listed byte: its address and its value. -/
abbrev Cell := Host.Cell

/-- Classes of a poisoned byte or a marked word (R334): access fault 6, format fault 8, uncorrectable ECC 10 and
fabric fault 11. -/
inductive MCls where
  | access
  | format
  | ecc
  | fabric
deriving DecidableEq, Repr

/-- A vector value with its shape tag (R161): U one word, A base and stride, G one word per lane. -/
inductive Vec where
  | u (x : Word)
  | a (base stride : Word)
  | g (ws : List Word)
deriving DecidableEq, Repr

/-- A vector value with the classes of its marked lanes (R334), by rising lane. -/
structure RVal where
  v : Vec
  marks : Tab MCls
deriving DecidableEq, Repr

/-- The kind of a latch entry (R157). -/
inductive LatchKind where
  | empty
  | void
  | val
deriving DecidableEq, Repr

/-- A latch (R157, R159): its value, the tick on which it is ready, and the landing that completes it. -/
structure Latch where
  kind : LatchKind
  ready : Nat
  v : RVal
  lid : Nat
deriving DecidableEq, Repr

/-- A guard binding (R165): the predicate and whether it is negated. -/
structure GBind where
  pred : Nat
  neg : Bool
deriving DecidableEq, Repr

/-- An entry of the divergence stack (R323): `call` is false for a split entry. -/
structure DivEntry where
  call : Bool
  mask : Mask
  addr : Nat
deriving DecidableEq, Repr

/-- What a parked stream waits for (R155); at a limit of R202, the completion tick of the oldest outstanding HBM instruction, or the
number of the oldest outstanding command. -/
inductive Park where
  | popEmpty (q : Nat)
  | pushFull (q n : Nat)
  | fill (pages : List Nat)
  | until (t : Nat)
  | barrier (set : Nat) (phase : Nat)
  | arrive (set : Nat) (phase : Nat)
  | counter (hbm : Bool) (addr : Nat) (target : Nat)
  | fence (scope : Nat) (t : Nat)
  | hbmLimit (t : Nat)
  | engLimit (ord : Nat)
  | stage (n : Nat)
  | debug
deriving DecidableEq, Repr

/-- Where a stream stands (R146, R155, R324): `released` is a parked stream whose cause has cleared. -/
inductive SPhase where
  | idle
  | inRun
  | parked (p : Park)
  | released
  | exited
deriving DecidableEq, Repr

/-- One stream of a warp (R160, R233, R327, R328), whether the tick it waits for is one that the program names (R76, R350), and whether a debugger holds it or lets it take one instruction (R116). -/
structure Stream where
  regs : Tab RVal
  preds : Tab Mask
  guards : Tab GBind
  mask : Mask
  stack : List DivEntry
  latches : List Latch
  shadow : List Latch
  hshadow : List Latch
  pc : Nat
  runCount : Nat
  cutCount : Nat
  cutRun : Bool
  phase : SPhase
  granted : Bool
  timed : Bool
  fenceTick : Nat
  skipTurn : Bool
  turnNo : Nat
  nseedLo : Word
  nseedHi : Word
  nstep : Word
  trapcause : Word
  trappc : Word
  trapaddrLo : Word
  trapaddrHi : Word
  savedMask : Mask
  savedDepth : Nat
  ckptReq : Bool
  arrived : Tab Bool
  stepOne : Bool
  halted : Bool
  exitAt : Nat
deriving DecidableEq, Repr

/-- One reservation of a queue (R151): the tick on which it lands once known, the value once known, the tag that it
will carry, its issue tick, whether it has landed, and the tick on which it was popped (it is kept to the end of that tick). -/
structure Resv where
  rid : Nat
  issued : Nat
  land : Option Nat
  val : Option RVal
  tag : Nat
  landed : Bool
  popAt : Option Nat
deriving DecidableEq, Repr

/-- The destination of a vector result. -/
inductive VTgt where
  | drop
  | reg (n : Nat)
  | queue (q : Nat) (rid : Nat)
deriving DecidableEq, Repr

/-- What lands at issue + latency (R156, R164, R165, R250, R363, R372). -/
inductive Eff where
  | vec (tgt : VTgt) (val : Option RVal) (mask : Mask)
  | pred (p : Nat) (val : Mask) (mask : Mask)
  | guard (slot : Nat) (b : Option GBind)
  | fmt (k : Nat) (w : Word)
  | sr (n : Nat) (w : Word)
  | flags (set : BitVec 6)
deriving DecidableEq, Repr

/-- A result in flight: it lands at tick `at`; later-issued results have the higher `id`. -/
structure Landing where
  id : Nat
  tick : Nat
  strm : Strm
  eff : Eff
deriving DecidableEq, Repr

/-- The marks of a warp without the writes that it issued on one tick, which a fence of that tick does not cover (R193, R194). -/
structure Prior where
  tick : Nat
  warp : Nat
  task : Nat
  dev : Nat
  pod : Nat
deriving DecidableEq, Repr

/-- A warp (R130, R145, R160): its place, its two streams and what the streams share. -/
structure Warp where
  part : Nat
  core : Nat
  k : Nat
  grid : Nat
  pos : Nat
  w : Nat
  xregs : Nat
  aregs : Nat
  acc : Stream
  exe : Stream
  queues : Tab (List Resv)
  fmts : Tab Word
  accs : Tab Word
  fflags : Word
  fcnt : Word
  mWarp : Nat
  mTask : Nat
  mDev : Nat
  mPod : Nat
  prior : Prior
  landings : List Landing
  setslots : List Nat
  slipBase : Nat
  failed : List Nat
  faulted : List (Nat × MCls × Nat)
  start : Nat
deriving DecidableEq, Repr

/-- A front end of a partition (R145 to R149, R168): the slot of the next turn, the turn in progress, the slots that
joined since the last boundary, and the end of a wait. -/
structure FrontEnd where
  slot : Nat
  turn : Option Nat
  joined : List Nat
  waitUntil : Nat
  busyUntil : Nat
deriving DecidableEq, Repr

/-- An atomic operation on one 4-byte word (R339, R343): the lane, the addresses of the bytes, function, operand and
compare value. -/
structure Atom where
  lane : Nat
  addrs : List Nat
  fn : Nat
  opnd : Word
  cmp : Word
deriving DecidableEq, Repr

/-- Who receives the old values of an atomic: nobody, a result in flight, or the reply record of that number (R54). -/
inductive AtomRet where
  | none
  | landing (warp : Nat) (id : Nat)
  | answer (id : Nat)
deriving DecidableEq, Repr

/-- A write in flight (R188, R190): its completion tick, the keys of write order, its bytes with their marks, its
atomic operations, a counter add of 64 bits, the engine command that issued it, its partition, and bytes of which the bits of a mask alone are
written, with value, mask and mark (R206, R208). -/
structure PWrite where
  wct : Nat
  cls : Nat
  wid : Nat
  src : Nat
  seq : Nat
  cells : List (Nat × Byte × Option MCls)
  atoms : List Atom
  ret : AtomRet
  add : Option (Nat × Nat)
  eng : Option Nat
  part : Nat
  bits : List (Nat × Byte × Byte × Option MCls)
deriving DecidableEq, Repr

/-- A read whose read time lies ahead (R189): each lane's byte addresses, the lanes of the noise aperture with their
values, and the landing it fills; for `ldgi` the first issue tick of its grid (R198). -/
structure PRead where
  rt : Nat
  warp : Nat
  id : Nat
  size : Nat
  signed : Bool
  lanes : List (Nat × List Nat)
  noise : Tab Word
  full : Bool
  invariant : Bool
  first : Nat
deriving DecidableEq, Repr

/-- A message copy on its way to a mailbox (R180). -/
structure MailMsg where
  id : Nat
  wct : Nat
  wid : Nat
  src : Nat
  grid : Nat
  core : Nat
  words : List Word
  marks : Tab MCls
deriving DecidableEq, Repr

/-- A window page resolved at staging (R182): virtual page base, size, physical base, writable. -/
structure Page where
  va : Nat
  size : Nat
  pa : Nat
  wr : Bool
deriving DecidableEq, Repr

/-- An entry of a core's fault buffer (R185) for 64 KiB page number `va`: a completed fill has `page`, or `fault` when its
walk ended with one; `waiters` are the streams that have still to retry. -/
structure Fill where
  va : Nat
  part : Nat
  page : Option Page
  fault : Bool
  waiters : List (Nat × Strm)
deriving DecidableEq, Repr

/-- The walk in progress of a core (R185): the page sought, the level being read, the table's address and the tick on
which the level read completes. -/
structure Walk where
  va : Nat
  level : Nat
  entry : Nat
  val : Nat
  done : Nat
deriving DecidableEq, Repr

/-- The header of a context image (R125). -/
structure Header where
  format : Nat
  layout : Nat
  kind : Nat
  flags : Nat
  cbase : Nat
  ncore : Nat
  tpc : Nat
  wpt : Nat
  duty : Nat
  regs : Nat
  sbase : Nat
  scru : Nat
  cunit : Nat
  wbase : Nat
  ds : Nat
  ntpl : Nat
  gmax : Nat
  gcount : Nat
  iters : Nat
  tmax : Nat
  entryA : Nat
  entryE : Nat
  restoreA : Nat
  restoreE : Nat
  code : Nat
  tpl : Nat
  sets : Nat
  cores : Nat
  save : Nat
  savesz : Nat
  codelen : Nat
  resume : Nat
  cursors : Nat
  fmt : List Nat
  boundary : Nat
deriving DecidableEq, Repr

/-- A template (R203). -/
structure Template where
  kind : Nat
  sfmt : Nat
  dfmt : Nat
  flags : Nat
  ilv : Nat
  op : Nat
  rsv6 : Nat
  ext : List Nat
  ten : List Nat
  hstr1 : Nat
  hstr2 : Nat
  hsoff : Nat
  fill : Nat
  nfmt : Nat
  aux : Nat
  rsv56 : Nat
deriving DecidableEq, Repr

/-- A copy of an image in the launch store (R129): its bytes in the order they were staged, and whether one of them was unmapped. -/
structure LaunchCopy where
  part : Nat
  addr : Nat
  bytes : List Byte
  users : List Nat
  staged : Nat
  size : Nat
  unmapped : Bool
deriving DecidableEq, Repr

/-- Where a task position stands (R134, R139). -/
inductive PosPhase where
  | waiting
  | loading (f : Nat)
  | running
  | between (h : Nat)
  | released
deriving DecidableEq, Repr

/-- A task position (R130, R134, R141). -/
structure PosState where
  phase : PosPhase
  next : Nat
  restore : Bool
  cut : Bool
  bank : Nat
  blocks : List (Nat × Nat × Nat)
deriving DecidableEq, Repr

/-- Final and running states of a command or grid, as the journal codes them (R93). -/
inductive Status where
  | accepted
  | dispatched
  | running
  | done
  | rejected
  | failed
  | killed
  | preempted
  | aborted
deriving DecidableEq, Repr

/-- Arrivals on one phase of one set (R347). -/
structure PhaseState where
  count : Nat
  last : Nat
  released : Option Nat
deriving DecidableEq, Repr

/-- A freeze of a grid (R140 to R143): Z, the Z of a POD grid while the header is still to be read, whether it is a checkpoint, whether Z has come, the last tick of the drain bound,
whether the resume image was written, and whether an activation deleted it (R109). -/
structure Freeze where
  z : Nat
  podZ : Nat
  ckpt : Bool
  acted : Bool
  bound : Option Nat
  image : Bool
  dropped : Bool
deriving DecidableEq, Repr

/-- A grid (R90, R125 to R144): who launched it, its staging (bytes moved of a total, an address that staging found unusable,
the first fault of R127's order), its image's contents, its positions, its freeze, the engine commands issued, the bundles staged and the
STAGED positions sent on each core and queue (R54, R214), and what decides its end. -/
structure Grid where
  part : Nat
  lq : Nat
  prio : Nat
  cmd : Option Nat
  eng : Option Nat
  image : Nat
  take : Nat
  d : Option Nat
  start : Nat
  reuse : Bool
  indirect : Option (Nat × Nat)
  stager : Option Nat
  unmapped : Bool
  s0 : Option Nat
  total : Nat
  moved : Nat
  staged : Option Nat
  checked : Bool
  imageFault : Option Nat
  count : Option Nat
  slip0 : Tab Nat
  hdr : Header
  groups : Nat
  pages : List (Nat × Page)
  land : List (Nat × Nat × Nat)
  poss : Tab PosState
  freeze : Option Freeze
  firstIssue : Option Nat
  lastExit : Nat
  maxWct : Nat
  stopped : Bool
  killed : Bool
  arrivals : Tab Nat
  phases : Tab PhaseState
  bcount : Nat
  ecount : Tab Nat
  formed : Tab Nat
  sent : Tab Nat
  status : Option Status
  failCode : Nat
deriving DecidableEq, Repr

/-- A source beat of a data command (R211): its number on the address line, the tick on which it is read, and r(b). -/
structure SrcBeat where
  beat : Nat
  rt : Nat
  r : Nat
deriving DecidableEq, Repr

/-- A destination beat (R211): for HBM its number on the address line, the highest source beat it needs, its arrival, its
slot and w(j) once known, and whether its write was issued and its mark raised. -/
structure DstBeat where
  beat : Nat
  last : Nat
  arr : Nat
  slot : Option Nat
  w : Option Nat
  written : Bool
  raised : Bool
deriving DecidableEq, Repr

/-- An engine command (R201, R217): who issued it, its operand block, the commands it waits for (R195, R196), its ticks,
what it has read (`readAt` is the tick of its scratch read, `addAt` the arrival of its counter's request), its beats, and the completion ticks of its data (with the scope of its mark) and of its counter add. -/
structure EngCmd where
  warp : Nat
  strm : Strm
  core : Nat
  part : Nat
  grid : Nat
  pos : Nat
  inst : Nat
  wid : Nat
  queue : Nat
  ord : Nat
  fn : Nat
  tpl : Template
  words : List Word
  issue : Nat
  deps : List Nat
  s : Option Nat
  readAt : Option Nat
  addAt : Option Nat
  done : Option Nat
  finished : Bool
  killed : Bool
  seedLo : Word
  seedHi : Word
  nstep : Word
  regions : List Nat
  idx : List Nat
  idxMarks : Tab MCls
  sten : List Byte
  stenMarks : List MCls
  src : List SrcBeat
  dst : List DstBeat
  snap : Tab (Byte × Option MCls)
  size : Nat
  rids : List Nat
  clip : Bool
  fault : Option (MCls × Nat)
  wcts : List (Nat × Option Nat)
  added : Bool
  mStart : Nat
  mEnd : Nat
  failMask : Nat
  waiting : List Nat
  tag : Nat
  child : Option Nat
deriving DecidableEq, Repr

/-- A `qfence` (R196): the instance whose queues it joins, its place in issue order and its mask. -/
structure Join where
  core : Nat
  grid : Nat
  pos : Nat
  inst : Nat
  ord : Nat
  mask : Nat
deriving DecidableEq, Repr

/-- A bundle staged by `coll` (R214): the grid that staged it and its number among that grid's on its core and queue, its ready tick,
payload, and whether a byte was poisoned. -/
structure Staged where
  grid : Nat
  num : Nat
  ready : Nat
  data : List Byte
  poisoned : Bool
deriving DecidableEq, Repr

/-- A ring (R82, R83): registers, tail and the packets fetched but not taken. -/
structure Ring where
  base : Nat
  enable : Bool
  lq : Nat
  log2 : Nat
  part : Nat
  vector : Nat
  head : Nat
  tail : Nat
  seq : Nat
  fetched : Tab Packet
deriving DecidableEq, Repr

/-- A logical queue (R84, R85, R89): `visited` is the last ring of the turn in progress; `chain` the commands taken and not
dispatched; `cur` the latest dispatched command. -/
structure LQueue where
  enable : Bool
  prio : Nat
  watchdog : Nat
  halted : Bool
  err : Nat
  errRing : Nat
  visited : Option Nat
  chain : List Nat
  cur : Option Nat
deriving DecidableEq, Repr

/-- A command taken from a ring, or a graph node (R86 to R92): `node` names its graph and index; a graph has its packets, taken
counts, staged images, latest node and next node; `entry` is the physical address of its journal entry, `due` is its completion tick once known, `addr` the physical address of a
WAIT, `data` the image read by SCHED_LOAD, `waiting` the grids that a PREEMPT acts on. -/
structure Cmd where
  lq : Nat
  ring : Nat
  part : Nat
  seq : Nat
  pkt : Packet
  take : Nat
  d : Option Nat
  status : Status
  code : Nat
  fin : Option Nat
  entry : Nat
  node : Option (Nat × Nat)
  nodes : List Packet
  loops : Tab Nat
  grid : Option Nat
  stagers : Tab Nat
  child : Option Nat
  nextNode : Nat
  addr : Nat
  due : Option Nat
  data : List Byte
  waiting : List Nat
deriving DecidableEq, Repr

/-- A run of the pod schedule image (R67), with the schedule frame, leaf, port and direction of its list. -/
structure Run where
  frame : Nat
  leaf : Nat
  port : Nat
  tx : Bool
  use : Nat
  staged : Bool
  first : Nat
  count : Nat
  core : Nat
  eq : Nat
  addr : Nat
  outLeaf : Nat
  outPort : Nat
  outPos : Nat
  dest : Nat
deriving DecidableEq, Repr

/-- A loaded pod schedule image (R66, R69). -/
structure PodImage where
  ndev : Nat
  period : Nat
  avoid : List (Nat × Nat)
  imageId : Nat
  runs : List Run
deriving DecidableEq, Repr

/-- States of the pod schedule (R74). -/
inductive SchedState where
  | idle
  | run
  | fault
  | agree
  | realign
  | halted
deriving DecidableEq, Repr

/-- A bundle read for a position that has not begun (R67): its position and leaf, its payload and its two poison bits. -/
structure Draft where
  pos : Nat
  leaf : Nat
  payload : List Byte
  poison : Bool
  dataPoison : Bool
deriving DecidableEq, Repr

/-- A bundle sent and kept until its verdict is known (R48), or on the fibre: its position and leaf, the tick on which its first flit is
launched (R44), its counter and key generation, cipher text and integrity tag (R46, R52), and its control field (R46). -/
structure TxBundle where
  pos : Nat
  leaf : Nat
  launch : Nat
  counter : Nat
  keyGen : Nat
  cipher : List Byte
  tag : Nat
  poison : Bool
  dataPoison : Bool
  verdicts : List (Nat × Bool)
deriving DecidableEq, Repr

/-- A bundle held in a port's landing buffer until its R50 tick: whether it arrived whole with a right tag, whether its loss
has raised its schedule fault, and its two poison bits (R48 to R52, R401). -/
structure LandBuf where
  pos : Nat
  leaf : Nat
  wct : Nat
  ok : Bool
  raised : Bool
  poison : Bool
  dataPoison : Bool
  source : Nat
  payload : List Byte
deriving DecidableEq, Repr

/-- A rotor port (R42 to R57, R61): its status, the leaf (counted from GTC 0) in which it last locked, the path delay of each leaf's link,
the bundle counter, the counter values from which the rotated keys of each leaf's link hold in both directions, the bundles read and not begun,
the transmit store, what waits for a replay, the verdicts to send, the landing buffer, the latest kerf observation with its leaf, and the bundle on the
fibre. -/
structure Port where
  dark : Bool
  dead : Bool
  authFail : Bool
  protoErr : Bool
  unrec : Nat
  replays : Nat
  locked : Option Nat
  darkLeaves : Nat
  delays : Tab Nat
  counter : Nat
  txRots : Tab (List Nat)
  rxRots : Tab (List Nat)
  drafts : List Draft
  store : List TxBundle
  resend : List Nat
  verdicts : List (Nat × Bool)
  lands : List LandBuf
  kerf : Option (Nat × Int)
  out : Option TxBundle
deriving DecidableEq, Repr

/-- A relay bundle held in the relay store (R53). -/
structure RelayBuf where
  outPort : Nat
  outPos : Nat
  outLeafTick : Nat
  payload : List Byte
  poison : Bool
  dataPoison : Bool
deriving DecidableEq, Repr

/-- A request record waiting for room on its route (R54), whether a byte of its data is poisoned, the command that it serves with
the member of a multicast, and the bytes that a get's answer reads at the end of the present tick's writes (R213). -/
structure RecOut where
  ready : Nat
  dest : Nat
  desc : Nat
  data : List Byte
  poisoned : Bool
  cmd : Option Nat
  member : Nat
  fetch : List Nat
deriving DecidableEq, Repr

/-- A row that is open in a bank (R32): its physical number, the mask of its opened segments, and the tick on which the bank work of the
latest beat to it ends. -/
structure OpenRow where
  bank : Nat
  row : Nat
  mask : Nat
  till : Nat
deriving DecidableEq, Repr

/-- An HBM stack (R32 to R38): its status fields, its refresh debt (one value serves every pseudo-channel, since each has the
same need) with the refreshes of the latest window, its open rows, the activations of each row since it was refreshed, the swap
candidates as bank and row, oldest first, the row whose copy the row-copy buffer holds, the indirection from logical to physical row, the
retry buffer of each channel (beat numbers, oldest first), the beats that read as uncorrectable, the beats to reread in the next window,
the log of rereads: the beat, and whether its fault was transient, and the banks whose refresh ended on a tick. -/
structure Stack where
  ue : Bool
  ueAddr : Nat
  debtFault : Bool
  band : Nat
  retryPeak : Nat
  swapPeak : Nat
  ceCount : Nat
  debt : Nat
  issued : Nat
  opens : List OpenRow
  acts : Tab Nat
  cands : List (Nat × Nat)
  rowCopy : Option (Nat × Nat)
  remap : Tab Nat
  retry : Tab (List Nat)
  bad : List Nat
  rereads : List Nat
  readLog : List (Nat × Bool)
  refreshes : List (Nat × Nat)
deriving DecidableEq, Repr

/-- A tenant partition (R27, R113, R114, R184), and whether the partition table holds it. -/
structure Tenant where
  present : Bool
  shape : Nat
  slotBase : Nat
  regions : List Nat
  sealed : Bool
  tdebug : Bool
  xtsKey : Nat
  xferKey : Nat
  debugKey : Option (List Byte)
  ideBound : Bool
  owner : Nat
  ptRoot : Nat
  ptValid : Bool
deriving DecidableEq, Repr

/-- A stored image of firmware's table (R109): checkpoint or boundary, layout, queue and address. -/
structure StoredImage where
  grid : Nat
  layout : Nat
  lq : Nat
  addr : Nat
  frame : Option Nat
  pending : Bool
  part : Nat
  start : Nat
deriving DecidableEq, Repr

/-- A hardware event for firmware (R97): its logical queue, and its source: 1 a command's completion, 2 the merge unit, 3 a
schedule fault, 4 a DOE message, 5 a firmware timer. -/
structure FwEvent where
  lock : Option Nat
  what : Nat
deriving DecidableEq, Repr

/-- An answer of the DOE mailbox, of SMBus, of a debugger's port, or of the host's link (R20, R80, R102, R111, R112, R115, R116). -/
inductive Reply where
  | version (v : Nat)
  | capabilities (requests : List String)
  | algorithms (hash signature exchange aead : String)
  | digests (d : Nat)
  | certificate (chain : List Byte)
  | versionMismatch
  | invalid
  | signed (body : Nat) (sig : List Byte)
  | measurements (blocks : List (Nat × Nat))
  | keyExchange (session : Nat)
  | finished (session : Nat)
  | ended (session : Nat)
  | accepted
  | refused
  | unsupported
  | unsupportedAccess
  | unspecified
  | busy
  | nonce (n : Nat)
  | recovery (w : Nat)
  | supply (w : Nat)
  | record (cipher : List Byte) (tag : Nat)
  | accessFault
  | data (ws : List Nat)
  | nack
  | ack
deriving DecidableEq, Repr

/-- What is still to be done on this tick: the reads of the tick, the due events of a stage, the partitions and the
front ends that have still to act (with the park that a presented instruction met before either front end of its partition acted),
the starts of engine commands, the rest of the engines' work, and the beats that the stacks serve. -/
inductive FeTodo where
  | reads
  | stage (k : Nat)
  | scan
  | beats
  | starts
  | engines
  | part (core p : Nat)
  | fe (core p : Nat) (strm : Strm) (park : Option Park)
deriving DecidableEq, Repr

/-- Package supplies, resets and sensors (R14 to R24). -/
structure Package where
  pwrok : Bool
  inReset : Bool
  seqErr : Bool
  droop : Bool
  railDroop : BitVec 10
  railOk : BitVec 10
  alert : Bool
  thermtrip : Bool
  lasers : Bool
  stopAtLeaf : Bool
  stopped : Bool
  temp : Nat
  strap : BitVec 4
  pps : Bool
deriving DecidableEq, Repr

/-- Bring-up and firmware (R96 to R109): `phaseAt` is the tick on which phase 5 began, `hdr` the first 64 bytes of the running image's
header, `cores` the event that each busy firmware core runs with the tick of its completion, `timers` the firmware timers that run,
`verifyAt` the tick on which the image to verify has come (0 until its beats are placed), `actAt` the tick on which an activation began,
`recTop` the highest offset of a recovery block with the end of that block. -/
structure Firmware where
  ready : Bool
  fail : Bool
  phase : Nat
  phaseAt : Nat
  failCode : Nat
  timeFree : Bool
  slot : Bool
  darkPorts : BitVec 16
  tuned : Bool
  stage : Nat
  state : Nat
  result : Nat
  failedQueues : Nat
  svn : Nat
  layout : Nat
  hdr : List Byte
  activeSlot : Bool
  events : List FwEvent
  cores : Tab (FwEvent × Nat)
  timers : List Nat
  held : Bool
  force : Bool
  images : List StoredImage
  verifyAt : Nat
  actAt : Nat
  recState : Nat
  recBlocks : Nat
  recTop : Nat × Nat
  recBoot : Bool
deriving DecidableEq, Repr

/-- The PCI Express side, the DOE mailboxes and SPDM (R80, R81, R100, R111): sessions in their handshake, and the open sessions with the
tenants that hold them, and the sealed records on their way out: a number, the tick of delivery (0 until its beats are placed), and the
answer. -/
structure Link where
  up : Bool
  busMaster : Bool
  d3 : Bool
  negotiated : Bool
  opening : List Nat
  sessions : Tab Nat
  nextSession : Nat
  replies : List Reply
  msix : List Nat
  leaving : List (Nat × Nat × Reply)
deriving DecidableEq, Repr

/-- A grandmaster heard in a domain (R59): the sender of its Announce messages, its data set, and the tick to which the latest counts. -/
structure Master where
  domain : Nat
  source : Nat
  rank : List Nat
  till : Nat
deriving DecidableEq, Repr

/-- Global time and its servo (R58 to R63): `ptp` and `kerf` are the latest estimates of the two sources (R61, R76). -/
structure TimeUnit where
  counting : Bool
  locked : Bool
  holdover : Bool
  ppsOk : Bool
  refOk : Bool
  timeFault : Bool
  kerfPorts : Nat
  offset : Int
  ptp : Int
  kerf : Int
  masters : List Master
  domain : Nat
  epoch : BitVec 64
  ppsOut : Bool
  servo : Nat
  lastSync : Nat
  lastLock : Nat
deriving DecidableEq, Repr

/-- The pod schedule and its resynchronisation (R66 to R79); the pod number and size are those with which the device joined (R42). -/
structure Sched where
  state : SchedState
  cause : Nat
  loadErr : Nat
  image : Nat
  rounds : Nat
  first : Nat
  resume : Nat
  knownFirst : Option Nat
  firstCause : Nat
  base : Nat
  active : Bool
  images : Tab PodImage
  faultAt : Option Nat
  podNumber : Nat
  podSize : Option Nat
  deadLinks : List (Nat × Nat)
  faulted : List Nat
  agreeOk : Bool
  chosen : Option Nat
  hold : Option (Nat × Nat)
  held : Nat
deriving DecidableEq, Repr

/-- Security, debug and power (R110 to R124); a zeroing has its purpose, its partition and the tick on which it began. -/
structure Security where
  revoked : Bool
  vendor : Bool
  nonce : Option Nat
  zeroing : List (ZeroFor × Nat × Nat)
  minSvn : Nat
  power : Nat
  cap : Nat
  gated : List Nat
  wakeAt : Option Nat
  lastBusy : Nat
  outs : Tab Nat
deriving DecidableEq, Repr

/-- The accession journal (R93, R94): entries written, and the completion ticks of the entry writes that JOURNAL_HEAD does not yet count. -/
structure Journal where
  base : Nat
  enable : Bool
  full : Bool
  log2 : Nat
  taken : Nat
  heads : List Nat
deriving DecidableEq, Repr

/-- What a pool request of this tick is for (R31). -/
inductive PoolFor where
  | read
  | cells (cs : List (Nat × Byte))
  | marked (cs : List (Nat × Byte × Option MCls))
  | entry (cs : List (Nat × Byte))
  | hostWrite (cmd : Nat)
  | walk (core : Nat)
  | image
  | record (id : Nat)
deriving DecidableEq, Repr

/-- A pool request issued on this tick (R31): class, partition, logical queue, physical address, bytes. -/
structure PoolReq where
  cls : Nat
  part : Nat
  lq : Nat
  addr : Nat
  size : Nat
  what : PoolFor
deriving DecidableEq, Repr

/-- The whole machine. -/
structure State where
  gtc : Nat
  pending : List Instr
  feTodo : List FeTodo
  agenda : List (Nat × Instr)
  cur : Option (Nat × Strm)
  mem : List Cell
  poison : Tab MCls
  writes : List PWrite
  reads : List PRead
  mails : List MailMsg
  warps : Tab Warp
  fes : Tab FrontEnd
  slips : Tab Nat
  slots : Tab (List Nat)
  pool : Tab Nat
  poolq : List PoolReq
  beats : List (Nat × Nat × Option Nat)
  hbmOut : Tab (List Nat)
  hist : List (Nat × Nat × Byte × Option MCls)
  applied : List PWrite
  base : List (Nat × Byte × Option MCls)
  mulFree : Tab Nat
  grids : Tab Grid
  copies : List LaunchCopy
  banks : Tab (List Byte × List Byte)
  stageEnd : Nat
  cmdsE : Tab EngCmd
  joins : List Join
  stage : Tab (List Staged)
  mbox : Tab Nat
  fills : Tab (List Fill)
  walks : Tab Walk
  rings : Tab Ring
  queues : Tab LQueue
  cmds : Tab Cmd
  journal : Journal
  ports : Tab Port
  relays : List RelayBuf
  recs : List RecOut
  hbm : Tab Stack
  hbmLeaf : Nat
  tenants : Tab Tenant
  localRegions : List Nat
  pkg : Package
  fw : Firmware
  link : Link
  time : TimeUnit
  sched : Sched
  sec : Security
  regEccLatent : Nat
  regEccConsumed : Nat
  regErr : List (Nat × Strm × Nat × Nat)
  fresh : Nat
  draw : Nat
deriving DecidableEq, Repr

/-- Why a step stops with a fault. -/
inductive Fault where
  /-- Raised by an encoded instruction when no stream of a resident warp has been presented for issue (`State.cur`
  names none): the manual gives an instruction a meaning only in a stream (R145). Safe: the machine stops where the
  hardware has nothing to execute. `step` never reaches it. -/
  | noStream
deriving DecidableEq, Repr

/-- Why a step is refused. -/
inductive Refusal where
  /-- The instruction has no meaning in this model yet. Safe. -/
  | notModelled (mnemonic : String)
deriving DecidableEq, Repr

/-- What a step answers. -/
abbrev Out := Host.Outcome State Fault Refusal

/-- A latch at the start of a run (R157). -/
def Latch.none : Latch := ⟨.empty, 0, ⟨.u 0, []⟩, 0⟩

/-- A stream at the start of an instance, but for its program counter and v0 to v5 (R133, R166, R233, R327, R396). -/
def Stream.fresh : Stream where
  regs := []
  preds := []
  guards := []
  mask := Mask.full
  stack := []
  latches := [Latch.none, Latch.none, Latch.none, Latch.none]
  shadow := [Latch.none, Latch.none, Latch.none, Latch.none]
  hshadow := [Latch.none, Latch.none, Latch.none, Latch.none]
  pc := 0
  runCount := 0
  cutCount := 0
  cutRun := false
  phase := .idle
  granted := false
  timed := false
  fenceTick := 0
  skipTurn := false
  turnNo := 0
  nseedLo := 0
  nseedHi := 0
  nstep := 0
  trapcause := 0
  trappc := 0
  trapaddrLo := 0
  trapaddrHi := 0
  savedMask := Mask.full
  savedDepth := 0
  ckptReq := false
  arrived := []
  stepOne := false
  halted := false
  exitAt := 0

/-- A front end before its first turn (R146). -/
def FrontEnd.fresh : FrontEnd := ⟨0, none, [], 0, 0⟩

/-- A ring's reset values (R82). -/
def Ring.fresh : Ring := ⟨0, false, 0, 0, 0, 0, 0, 0, 0, []⟩

/-- A logical queue's reset values (R85). -/
def LQueue.fresh : LQueue := ⟨false, 0, 0x2710, false, 0, 0, none, [], none⟩

/-- A port's reset values (R57). -/
def Port.fresh : Port where
  dark := false
  dead := false
  authFail := false
  protoErr := false
  unrec := 0
  replays := 0
  locked := none
  darkLeaves := 0
  delays := []
  counter := 0
  txRots := []
  rxRots := []
  drafts := []
  store := []
  resend := []
  verdicts := []
  lands := []
  kerf := none
  out := none

/-- A stack's reset values (R38). -/
def Stack.fresh : Stack where
  ue := false
  ueAddr := 0
  debtFault := false
  band := 0
  retryPeak := 0
  swapPeak := 0
  ceCount := 0
  debt := 0
  issued := 0
  opens := []
  acts := []
  cands := []
  rowCopy := none
  remap := []
  retry := []
  bad := []
  rereads := []
  readLog := []
  refreshes := []

/-- An unsealed partition of shape 0 that owns nothing yet (R113, R170, R184). -/
def Tenant.fresh : Tenant := ⟨false, 0, 0, [], false, false, 0, 0, none, false, 0, 0, false⟩

/-- The supplies and sensors after a cold reset whose checks passed (R18, R20, R100). The lasers are lit: DESIGN CHOICE (log entry 1), no rule gives
their state then. -/
def Package.reset : Package where
  pwrok := true
  inReset := false
  seqErr := false
  droop := false
  railDroop := 0
  railOk := 0x3FF
  alert := false
  thermtrip := false
  lasers := true
  stopAtLeaf := false
  stopped := false
  temp := 0
  strap := 0
  pps := false

/-- Bring-up and firmware after a cold reset (R107, R108). -/
def Firmware.reset : Firmware where
  ready := false
  fail := false
  phase := 0
  phaseAt := 0
  failCode := 0
  timeFree := false
  slot := false
  darkPorts := 0
  tuned := false
  stage := 0
  state := 0
  result := 0
  failedQueues := 0
  svn := 0
  layout := 1
  hdr := []
  activeSlot := false
  events := []
  cores := []
  timers := []
  held := false
  force := false
  images := []
  verifyAt := 0
  actAt := 0
  recState := 0
  recBlocks := 0
  recTop := (0, 0)
  recBoot := false

/-- The PCI Express side after a cold reset (R100). -/
def Link.reset : Link := ⟨false, false, false, false, [], [], 1, [], [], []⟩

/-- Time after a cold reset (R62, R63, R104). -/
def TimeUnit.reset : TimeUnit := ⟨false, false, false, false, false, false, 0, 0, 0, 0, [], 0, 0, false, 0, 0, 0⟩

/-- The pod schedule after a cold reset (R74). -/
def Sched.reset : Sched where
  state := .idle
  cause := 0
  loadErr := 0
  image := 0
  rounds := 0
  first := 0
  resume := 0
  knownFirst := none
  firstCause := 0
  base := 0
  active := false
  images := []
  faultAt := none
  podNumber := 0
  podSize := none
  deadLinks := []
  faulted := []
  agreeOk := true
  chosen := none
  hold := none
  held := 0

/-- Security and power after a cold reset (R116, R121, R122, R124). -/
def Security.reset : Security where
  revoked := false
  vendor := false
  nonce := none
  zeroing := []
  minSvn := 0
  power := 0
  cap := 0x7D0
  gated := []
  wakeAt := none
  lastBusy := 0
  outs := []

/-- The journal after a cold reset (R93). -/
def Journal.reset : Journal := ⟨0, false, false, 10, 0, []⟩

/-- The machine right after a cold reset (R100, R106, R107): bring-up has not begun its first phase, the GTC reads 0 and
does not count (R104), memory lists nothing, and no work is resident. -/
def State.reset : State where
  gtc := 0
  pending := []
  feTodo := []
  agenda := []
  cur := none
  mem := []
  poison := []
  writes := []
  reads := []
  mails := []
  warps := []
  fes := []
  slips := []
  slots := []
  pool := []
  poolq := []
  beats := []
  hbmOut := []
  hist := []
  applied := []
  base := []
  mulFree := []
  grids := []
  copies := []
  banks := []
  stageEnd := 0
  cmdsE := []
  joins := []
  stage := []
  mbox := []
  fills := []
  walks := []
  rings := []
  queues := []
  cmds := []
  journal := Journal.reset
  ports := []
  relays := []
  recs := []
  hbm := []
  hbmLeaf := 0
  tenants := []
  localRegions := []
  pkg := Package.reset
  fw := Firmware.reset
  link := Link.reset
  time := TimeUnit.reset
  sched := Sched.reset
  sec := Security.reset
  regEccLatent := 0
  regEccConsumed := 0
  regErr := []
  fresh := 0
  draw := 0

end Sys2Proof.Machine
end

