-- ==== Sys2Proof/Machine/Mem.lean ====
section
/-! DEFINITION. Memory: the canonical list of cells, the layout of the model's one address line, poison marks, and the
scratch mapping of R175 and R176. -/

namespace Sys2Proof.Machine

/-- What a byte that nothing has written reads as: HBM and scratch by R105 and R178; the rest by log entry 4. -/
def Mem.unlisted : Byte := 0

/-- One byte. -/
def Mem.read : List Cell → Nat → Byte
  | [], _ => Mem.unlisted
  | (k, b) :: r, a => if k = a then b else if a < k then Mem.unlisted else Mem.read r a

/-- Write one byte: the list stays sorted and lists no byte equal to `Mem.unlisted`. -/
def Mem.write : List Cell → Nat → Byte → List Cell
  | [], a, v => if v = Mem.unlisted then [] else [(a, v)]
  | (k, b) :: r, a, v =>
    if a < k then (if v = Mem.unlisted then (k, b) :: r else (a, v) :: (k, b) :: r)
    else if a = k then (if v = Mem.unlisted then r else (a, v) :: r)
    else (k, b) :: Mem.write r a v

/-- Every key of the list is above `a`. -/
def Mem.above (a : Nat) : List Cell → Bool
  | [] => true
  | (k, _) :: _ => decide (a < k)

/-- The canonical form: keys strictly rise and no byte equals `Mem.unlisted`. -/
def Mem.wf : List Cell → Bool
  | [] => true
  | (k, b) :: r => decide (b ≠ Mem.unlisted) && Mem.above k r && Mem.wf r

/-- Remove the bytes of a span: they read as `Mem.unlisted` again. -/
def Mem.clear (m : List Cell) (lo n : Nat) : List Cell := m.filter fun c => c.1 < lo || lo + n ≤ c.1

/-- Where core `c`'s scratch, the hub's SRAM and the boot store lie on the model's address line (R13, R96, R173). -/
def scratchBase (core : Nat) : Nat := 2 ^ 40 + core * 2 ^ 23
def hubBase : Nat := 2 ^ 41
def bootBase : Nat := 2 ^ 42

/-- End of HBM physical memory (R26). -/
def hbmEnd : Nat := 2 ^ 39

/-- End of a core's scratch addresses (R173). -/
def scratchEnd : Nat := 0x600000

/-- K(m) of R176. -/
def skewK (m : Nat) : Nat := [0, 1, 2, 3, 5, 7, 8, 11, 13, 16, 17, 19, 23, 29, 31, 37].getD m 0

/-- The effective bank and row of a scratch byte address (R176). -/
def scratchBank (mode addr : Nat) : Nat × Nat :=
  let w := addr / 8
  let row := w / 96
  ((w % 96 + skewK mode * row) % 96, row)

/-- The mode-0 address of the location of a scratch byte (R176). -/
def scratchLoc (mode addr : Nat) : Nat :=
  let (e, row) := scratchBank mode addr
  8 * (96 * row + e) + addr % 8

/-- The 64 KiB unit of a scratch byte (R174, R176). -/
def scratchUnit (mode addr : Nat) : Nat := scratchLoc mode addr / 0x10000

/-- A scratch byte on the model's address line. -/
def scratchCell (core mode addr : Nat) : Nat := scratchBase core + scratchLoc mode addr

/-- HBM: the stack, and the offset within it, of a physical address (R26, R27). -/
def hbmSwap (localMode : Bool) (pa : Nat) : Nat :=
  if localMode then
    let a := field pa 8 3
    let b := field pa 27 3
    pa - a * 2 ^ 8 - b * 2 ^ 27 + b * 2 ^ 8 + a * 2 ^ 27
  else pa

/-- Whether a region is in local mode (R27). -/
def State.isLocal (s : State) (pa : Nat) : Bool := s.localRegions.contains (pa / 2 ^ 30)

/-- The stack that holds a physical address (R26, R27). -/
def State.hbmStack (s : State) (pa : Nat) : Nat := field (hbmSwap (s.isLocal pa) pa) 8 3

/-- A byte with its mark. -/
def State.byteAt (s : State) (a : Nat) : Byte := Mem.read s.mem a
def State.markAt (s : State) (a : Nat) : Option MCls := s.poison.find? a

/-- Write a byte and its mark: an unmarked write clears the mark (R334). -/
def State.putByte (s : State) (a : Nat) (b : Byte) (m : Option MCls) : State :=
  { s with mem := Mem.write s.mem a b
           poison := match m with
             | none => s.poison.del a
             | some c => s.poison.put a c }

/-- Write cells in order. -/
def State.putCells (s : State) (cs : List (Nat × Byte × Option MCls)) : State :=
  cs.foldl (fun s c => s.putByte c.1 c.2.1 c.2.2) s

/-- Little-endian number of bytes (R3). -/
def leNat : List Byte → Nat
  | [] => 0
  | b :: r => b.toNat + 256 * leNat r

/-- The `n` bytes of a number, little-endian (R3). -/
def leBytes (n : Nat) (v : Nat) : List Byte := (List.range n).map fun k => BitVec.ofNat 8 (v / 2 ^ (8 * k))

/-- Bytes from an address up. -/
def State.bytesAt (s : State) (a n : Nat) : List Byte := (List.range n).map fun k => s.byteAt (a + k)

/-- A little-endian number in memory. -/
def State.natAt (s : State) (a n : Nat) : Nat := leNat (s.bytesAt a n)

/-- The mark of the lowest marked address of a list. -/
def State.firstMark (s : State) (as : List Nat) : Option MCls := as.findSome? s.markAt

/-- Unmarked cells of bytes from an address up. -/
def plainCells (a : Nat) (bs : List Byte) : List (Nat × Byte × Option MCls) :=
  (List.range bs.length).map fun k => (a + k, bs.getD k 0, none)

end Sys2Proof.Machine
end

