-- ==== Sys2Proof/Machine/Ops.lean ====
section
/-! DEFINITION. The shared operations on the state: tenant shapes, streams and warps, registers and tags, landings, marks
of write completion, HBM slots, translation, taking a trap and returning from one, exits and stops. -/

namespace Sys2Proof.Machine

/-! ### Shapes -/

/-- Mesh width of a shape (R169). -/
def shapeX (sh : Nat) : Nat := [16, 16, 8, 8, 4].getD sh 16
/-- Mesh height of a shape (R169). -/
def shapeY (sh : Nat) : Nat := [16, 8, 8, 4, 4].getD sh 16
/-- Logical cores of a shape (R169). -/
def shapeCores (sh : Nat) : Nat := shapeX sh * shapeY sh

/-- The tenant partition of a number. -/
def State.tenant (s : State) (p : Nat) : Tenant := s.tenants.get Tenant.fresh p

/-- Distance of two naturals. -/
def natDist (a b : Nat) : Nat := (a - b) + (b - a)

/-- Manhattan distance of two logical cores in a shape (R171). -/
def hops (sh c d : Nat) : Nat :=
  natDist (c % shapeX sh) (d % shapeX sh) + natDist (c / shapeX sh) (d / shapeX sh)

/-! ### Leaf ticks -/

/-- Position in the leaf (R2). -/
def leafTick (t : Nat) : Nat := t % 4096

/-- A tick on which HBM beats are placed (R28). -/
def isData (t : Nat) : Bool := 384 ≤ leafTick t

/-- The first data tick at or after `t`. -/
def nextData (t : Nat) : Nat := if isData t then t else t - leafTick t + 384

/-- The `n`-th data tick at or after `t`, for n ≥ 1. -/
def nthData (t n : Nat) : Nat :=
  let u := nextData t
  let o := leafTick u - 384 + (n - 1)
  u - leafTick u + o / 3712 * 4096 + 384 + o % 3712

/-! ### Streams and warps -/

/-- The other stream's index: access 0, execute 1. -/
def strmIdx : Strm → Nat
  | .acc => 0
  | .exe => 1

/-- The stream of a warp. -/
def Warp.strm (w : Warp) : Strm → Stream
  | .acc => w.acc
  | .exe => w.exe

/-- Replace a stream of a warp. -/
def Warp.setStrm (w : Warp) (x : Strm) (st : Stream) : Warp :=
  match x with
  | .acc => { w with acc := st }
  | .exe => { w with exe := st }

/-- Whether a stream has exited (R324). -/
def Stream.gone (st : Stream) : Bool := decide (st.phase = .exited)

/-- Key of a front end: core, partition, stream. -/
def feKey (core p : Nat) (x : Strm) : Nat := core * 8 + p * 2 + strmIdx x

/-- Key of a warp: core-wide warp index k of a device core (R130). -/
def warpKey (core k : Nat) : Nat := core * 32 + k

def State.warp? (s : State) (key : Nat) : Option Warp := s.warps.find? key

/-- Change one warp. -/
def State.updWarp (s : State) (key : Nat) (f : Warp → Warp) : State := { s with warps := s.warps.modify key f }

/-- Change one stream. -/
def State.updStream (s : State) (key : Nat) (x : Strm) (f : Stream → Stream) : State :=
  s.updWarp key fun w => w.setStrm x (f (w.strm x))

/-- Change one grid. -/
def State.updGrid (s : State) (g : Nat) (f : Grid → Grid) : State := { s with grids := s.grids.modify g f }

/-- The front end of a key. -/
def State.fe (s : State) (k : Nat) : FrontEnd := s.fes.get FrontEnd.fresh k

/-- Change one front end. -/
def State.updFe (s : State) (k : Nat) (f : FrontEnd → FrontEnd) : State := { s with fes := s.fes.update FrontEnd.fresh k f }

/-- The turn ends: the rotation goes on to the next slot (R146). -/
def FrontEnd.endTurn (f : FrontEnd) : FrontEnd := { f with turn := none, slot := (f.slot + 1) % 8 }

/-- End the turn of a warp's stream. -/
def State.endTurn (s : State) (key : Nat) (x : Strm) : State :=
  s.updFe (feKey (key / 32) (key % 4) x) FrontEnd.endTurn

/-- Logical core of a warp (R169). -/
def State.logical (s : State) (w : Warp) : Nat := w.core - (s.tenant w.part).slotBase

/-- Logical warp id (R130). -/
def State.wid (s : State) (w : Warp) : Nat := 32 * s.logical w + w.k

/-- A fresh number for a landing, a reservation or a write. -/
def State.bump (s : State) : State := { s with fresh := s.fresh + 1 }

/-- The grid of a warp. -/
def State.gridOf (s : State) (w : Warp) : Option Grid := s.grids.find? w.grid

/-! ### Values and tags -/

/-- The word that lane `l` reads (R161). -/
def Vec.lane (v : Vec) (l : Nat) : Word :=
  match v with
  | .u x => x
  | .a b sg => b + BitVec.ofNat 32 l * sg
  | .g ws => ws.getD l 0

/-- The tag code of `ctag` and the save records (R374, R376). -/
def Vec.tag : Vec → Nat
  | .u _ => 0
  | .a _ _ => 1
  | .g _ => 2

/-- An unmarked U value. -/
def RVal.ofWord (x : Word) : RVal := ⟨.u x, []⟩

/-- The register value at the start of an instance (R133). -/
def RVal.zero : RVal := RVal.ofWord 0

/-- The word that lane `l` reads. -/
def RVal.lane (r : RVal) (l : Nat) : Word := r.v.lane l

/-- The lanes of a warp. -/
def laneList : List Nat := List.range lanes

/-- The lanes of a mask, ascending. -/
def Mask.list (m : Mask) : List Nat := laneList.filter fun l => m.getLsbD l

/-- A mask from a test of lanes. -/
def Mask.ofFn (f : Nat → Bool) : Mask := laneList.foldl (fun m l => if f l then m ||| BitVec.ofNat 32 (2 ^ l) else m) 0

/-- A register write under a mask of active lanes (R163). -/
def RVal.merge (old new : RVal) (act : Mask) : RVal :=
  if act = Mask.full then new
  else if act = 0 then old
  else ⟨.g (laneList.map fun l => if act.getLsbD l then new.lane l else old.lane l),
        (old.marks.filter fun e => !act.getLsbD e.1) ++ (new.marks.filter fun e => act.getLsbD e.1)⟩

/-- What a queue entry, or a latch of a discarded result, holds (R154, R157). -/
def RVal.entry (new : RVal) (act : Mask) : RVal := RVal.zero.merge new act

/-- The mark of the lowest active marked lane (R334). -/
def RVal.markIn (r : RVal) (act : Mask) : Option (Nat × MCls) :=
  (sortBy (fun a b => decide (a.1 < b.1)) r.marks).find? fun e => act.getLsbD e.1

/-- Trap class of a mark (R334). -/
def MCls.code : MCls → Nat
  | .access => 6
  | .format => 8
  | .ecc => 10
  | .fabric => 11

/-- Mark class of a save record's code (R376). -/
def MCls.ofSave (n : Nat) : MCls := if n = 0 then .access else if n = 1 then .format else if n = 2 then .ecc else .fabric

/-- Save-record code of a mark class (R376). -/
def MCls.save : MCls → Nat
  | .access => 0
  | .format => 1
  | .ecc => 2
  | .fabric => 3

/-- A stream's register. -/
def Stream.reg (st : Stream) (n : Nat) : RVal := st.regs.get RVal.zero n

/-- A stream's predicate. -/
def Stream.pred (st : Stream) (p : Nat) : Mask := st.preds.get 0 p

/-- The lanes of a guard slot: g0 is always true (R165). -/
def Stream.guardMask (st : Stream) (g : Nat) : Mask :=
  if g = 0 then Mask.full
  else match st.guards.find? g with
    | none => 0
    | some b => if b.neg then ~~~ st.pred b.pred else st.pred b.pred

/-- The active lanes under a guard slot (R163). -/
def Stream.active (st : Stream) (g : Nat) : Mask := st.mask &&& st.guardMask g

/-- The latch shift of R157. -/
def Stream.shift (st : Stream) (e : Latch) : Stream := { st with latches := e :: st.latches.take 3 }

/-- A void latch entry (R157). -/
def Latch.voidEntry : Latch := ⟨.void, 0, RVal.zero, 0⟩

/-- Four empty latches (R157). -/
def Latch.four : List Latch := [Latch.none, Latch.none, Latch.none, Latch.none]

/-! ### Landings -/

/-- Put a landing in flight. -/
def Warp.addLanding (w : Warp) (l : Landing) : Warp := { w with landings := w.landings ++ [l] }

/-- Put an effect in flight for a stream, landing at a tick. -/
def State.land (s : State) (key : Nat) (x : Strm) (tick : Nat) (e : Eff) : State :=
  (s.updWarp key fun w => w.addLanding ⟨s.fresh, tick, x, e⟩).bump

/-- Saturating 16-bit count. -/
def sat16 (n : Nat) : Nat := min n 0xFFFF

/-- Flags and counters take a setting (R250, R251). -/
def Warp.raiseFlags (w : Warp) (fl : BitVec 6) : Warp :=
  let nv := w.fcnt.toNat / 2 ^ 16 + (if fl &&& fNV ≠ 0 then 1 else 0)
  let of := w.fcnt.toNat % 2 ^ 16 + (if fl &&& fOF ≠ 0 then 1 else 0)
  { w with fflags := w.fflags ||| fl.setWidth 32
           fcnt := BitVec.ofNat 32 (sat16 nv * 2 ^ 16 + sat16 of) }

/-- A write to a special register takes effect: RO bits are ignored (R233, R250, R251, R327, R328, R372). -/
def Warp.setSr (w : Warp) (x : Strm) (n : Nat) (v : Word) : Warp :=
  let st := w.strm x
  if n = 11 then w.setStrm x { st with nseedLo := v }
  else if n = 12 then w.setStrm x { st with nseedHi := v }
  else if n = 13 then w.setStrm x { st with nstep := v }
  else if n = 14 then { w with fflags := v &&& 0x3F3F }
  else if n = 15 then { w with fcnt := v }
  else if n = 16 then w.setStrm x { st with trapcause := v &&& 0xFFFFDFFF }
  else if n = 17 then w.setStrm x { st with trappc := v &&& 0x7FFFFF }
  else if n = 18 then w.setStrm x { st with trapaddrLo := v }
  else if n = 19 then w.setStrm x { st with trapaddrHi := v &&& 0xFFFFF }
  else w

/-- The value that a vector landing gives a stream's register file (R156, R163). -/
def Stream.landReg (st : Stream) (e : Eff) : Stream :=
  match e with
  | .vec (.reg n) (some v) m => { st with regs := st.regs.put n ((st.reg n).merge v m) }
  | .pred p v m => { st with preds := st.preds.put p ((st.pred p &&& ~~~ m) ||| (v &&& m)) }
  | .guard g b => { st with guards := match b with
                      | some x => st.guards.put g x
                      | none => st.guards.del g }
  | _ => st

/-- A value of a tag whose words are still to come. -/
def RVal.blank (tag : Nat) : RVal := ⟨if tag = 0 then .u 0 else if tag = 1 then .a 0 0 else .g [], []⟩

/-- What a latch receives when its producer lands (R157): active lanes take the result, inactive lanes the register's
value after the tick's writes, or 0 for a queue or discard. -/
def latchVal (st : Stream) (e : Eff) : RVal :=
  match e with
  | .vec (.reg n) (some v) m => (st.reg n).merge v m
  | .vec _ (some v) m => v.entry m
  | _ => RVal.zero

/-- Fill the latches that await a landing. -/
def fillLatches (ls : List Latch) (id : Nat) (v : RVal) : List Latch :=
  ls.map fun l => if l.kind = .val ∧ l.lid = id then { l with v := v } else l

/-- All register, predicate and guard writes of landings. -/
def Warp.landWrites (w : Warp) (ls : List Landing) : Warp :=
  ls.foldl (fun w l => if (w.strm l.strm).gone then w else w.setStrm l.strm ((w.strm l.strm).landReg l.eff)) w

/-- All latch fills of landings. -/
def Warp.landLatches (w : Warp) (ls : List Landing) : Warp :=
  ls.foldl (fun w l =>
    let st := w.strm l.strm
    match l.eff with
    | .vec .. =>
      let v := latchVal st l.eff
      w.setStrm l.strm { st with latches := fillLatches st.latches l.id v
                                 shadow := fillLatches st.shadow l.id v
                                 hshadow := fillLatches st.hshadow l.id v }
    | _ => w) w

/-- Flag settings, format registers, then special-register writes: on one tick the access stream's write comes before
the execute stream's (R250, R363, R373). -/
def Warp.landRest (w : Warp) (ls : List Landing) : Warp :=
  let w := ls.foldl (fun w l => match l.eff with
    | .flags f => w.raiseFlags f
    | .fmt k v => { w with fmts := w.fmts.put k v }
    | _ => w) w
  let sr (x : Strm) (w : Warp) := ls.foldl (fun w l => match l.eff with
    | .sr n v => if l.strm = x then w.setSr x n v else w
    | _ => w) w
  sr .exe (sr .acc w)

/-- Everything of a warp that lands by tick `t` (R156), in order of issue. -/
def Warp.landAt (w : Warp) (t : Nat) : Warp :=
  let due := w.landings.filter fun l => l.tick ≤ t
  let w := { w with landings := w.landings.filter fun l => !(l.tick ≤ t : Bool) }
  ((w.landWrites due).landLatches due).landRest due

/-- Queue entries that land by tick `t` (R151). -/
def Warp.landQueues (w : Warp) (t : Nat) : Warp :=
  { w with queues := w.queues.map fun e => (e.1, e.2.map fun r =>
      match r.land with
      | some l => if l ≤ t ∧ r.val.isSome then { r with landed := true } else r
      | none => r) }

/-! ### Queues -/

def Warp.queue (w : Warp) (q : Nat) : List Resv := w.queues.get [] q

/-- The reservations of a queue that have not been popped (R151). -/
def Warp.live (w : Warp) (q : Nat) : List Resv := (w.queue q).filter fun r => r.popAt.isNone

/-- The queue as it stood at the start of tick `t` (R344, R374). -/
def Warp.startQueue (w : Warp) (q t : Nat) : List Resv :=
  (w.queue q).filter fun r => decide (r.issued < t) && (r.popAt.isNone || decide (r.popAt = some t))

/-- Drop the reservations that were popped before tick `t`. -/
def Warp.prune (w : Warp) (t : Nat) : Warp :=
  { w with queues := w.queues.map fun e => (e.1, e.2.filter fun r => match r.popAt with
      | some p => decide (t ≤ p)
      | none => true) }

/-- Depth of a queue (R150). -/
def queueDepth (q : Nat) : Nat := if q < 6 then 8 else 4

/-- The stream that reserves into a queue (R150). -/
def queueProducer (q : Nat) : Strm := if q < 6 then .acc else .exe

/-- The stream that pops a queue (R150). -/
def queueConsumer (q : Nat) : Strm := if q < 6 then .exe else .acc

/-- Append a reservation (R151). -/
def Warp.reserve (w : Warp) (q : Nat) (r : Resv) : Warp := { w with queues := w.queues.put q (w.queue q ++ [r]) }

/-- Give a reservation its landing tick and value. -/
def Warp.fillResv (w : Warp) (q rid : Nat) (land : Option Nat) (v : Option RVal) : Warp :=
  { w with queues := w.queues.put q ((w.queue q).map fun r =>
      if r.rid = rid then { r with land := land <|> r.land, val := v <|> r.val } else r) }

/-! ### Marks of write completion (R193) -/

/-- Scope of a mark: 0 warp, 1 task, 2 device, 3 pod. The write was issued on an earlier tick. -/
def Warp.raise (w : Warp) (scope wct : Nat) : Warp :=
  { w with mWarp := if scope = 0 then max w.mWarp wct else w.mWarp
           mTask := if scope ≤ 1 then max w.mTask wct else w.mTask
           mDev := if scope ≤ 2 then max w.mDev wct else w.mDev
           mPod := max w.mPod wct
           prior := { w.prior with
             warp := if scope = 0 then max w.prior.warp wct else w.prior.warp
             task := if scope ≤ 1 then max w.prior.task wct else w.prior.task
             dev := if scope ≤ 2 then max w.prior.dev wct else w.prior.dev
             pod := max w.prior.pod wct } }

/-- A write issued on the present tick raises the marks: a fence of this tick does not cover it (R194). -/
def Warp.raiseNew (w : Warp) (now scope wct : Nat) : Warp :=
  let p : Prior := if w.prior.tick = now then w.prior else ⟨now, w.mWarp, w.mTask, w.mDev, w.mPod⟩
  { w.raise scope wct with prior := p }

/-- A write that was issued on a tick raises the marks. -/
def Warp.raiseBy (w : Warp) (issue now scope wct : Nat) : Warp := if issue < now then w.raise scope wct else w.raiseNew now scope wct

/-- The mark of a scope. -/
def Warp.mark (w : Warp) (scope : Nat) : Nat :=
  if scope = 0 then w.mWarp else if scope = 1 then w.mTask else if scope = 2 then w.mDev else w.mPod

/-- The mark of a scope by the writes issued before a tick (R194). -/
def Warp.markBefore (w : Warp) (scope now : Nat) : Nat :=
  if w.prior.tick = now then (if scope = 0 then w.prior.warp else if scope = 1 then w.prior.task else if scope = 2 then w.prior.dev else w.prior.pod)
  else w.mark scope

/-! ### HBM slots (R28 to R30) and the pool (R31) -/

/-- Candidate slot ticks at or after `t` in class `r` modulo 8, skipping the ones held. -/
def slotSearch (held : List Nat) (r : Nat) : Nat → Nat → Nat
  | 0, t => t
  | n + 1, t =>
    let u := nextData t
    let v := u + (r + 8 - u % 8) % 8
    if isData v && !held.contains v then v else slotSearch held r n (v + 1)

/-- The earliest free slot of a core and logical stack at or after an arrival (R28, R29). -/
def State.slotFor (s : State) (core stack arr : Nat) : Nat :=
  let held := s.slots.get [] (core * 8 + stack)
  slotSearch held ((core + stack) % 8) (held.length + 4096) arr

/-- A stack's state. -/
def State.stack (s : State) (k : Nat) : Stack := s.hbm.get Stack.fresh k
def State.updStack (s : State) (k : Nat) (f : Stack → Stack) : State := { s with hbm := s.hbm.update Stack.fresh k f }

/-- A 64 B beat is assigned to a data tick, and a core's beat to a slot of that core (R28, R32). -/
def State.noteBeat (s : State) (t beat : Nat) (core : Option Nat) : State := { s with beats := s.beats ++ [(t, beat, core)] }

/-- Reads of HBM bytes meet the beats that read as uncorrectable (R36, R38): UE sets, and the first such address is kept. -/
def State.sawBad (s : State) (as : List Nat) : State :=
  (dedup ((as.filter fun a => decide (a < hbmEnd ∧ s.markAt a = some .ecc)).map (· / 64))).foldl (fun s b =>
    s.updStack (s.hbmStack (b * 64)) fun k =>
      if k.bad.contains b then { k with ue := true, ueAddr := if k.ue then k.ueAddr else b * 64 } else k) s

/-- Take the slot of a beat. -/
def State.takeSlot (s : State) (core beat arr : Nat) : Nat × State :=
  let stack := s.hbmStack (beat * 64)
  let t := s.slotFor core stack arr
  (t, ({ s with slots := s.slots.update [] (core * 8 + stack) fun l => t :: l } : State).noteBeat t beat (some core))

/-- Take slots for 64 B beats in ascending address order: the latest slot, and the state. -/
def State.takeBeats (s : State) (core arr : Nat) (beats : List Nat) : Nat × State :=
  beats.foldl (fun a b =>
    let (t, s) := a.2.takeSlot core b arr
    (max a.1 t, s)) (0, s)

/-- The distinct 64 B beats of physical addresses, ascending. DESIGN CHOICE (log entry 65): R29 and R31 order the beats of a request by address, and do not
say by which; the model takes the physical address. -/
def beatsOf (as : List Nat) : List Nat := sortBy (fun a b => decide (a < b)) (dedup (as.map (· / 64)))

/-- Earliest pool beat of a stack at or after a tick (R31). -/
def poolSearch (pool : Tab Nat) (stack : Nat) : Nat → Nat → Nat
  | 0, t => t
  | n + 1, t =>
    let u := nextData t
    if pool.get 0 (u * 8 + stack) < 4 then u else poolSearch pool stack n (u + 1)

/-- Take a pool beat for a request issued at `t`: its tick. -/
def State.takePool (s : State) (pa t : Nat) : Nat × State :=
  let st := s.hbmStack pa
  let u := poolSearch s.pool st (s.pool.length + 1) (t + 48)
  (u, ({ s with pool := s.pool.update 0 (u * 8 + st) (· + 1) } : State).noteBeat u (pa / 64) none)

/-- A hardware source posts an event (R97); entries beyond the 4,096th wait at their sources. DESIGN CHOICE (log entry 66): completions and the merge
unit's events carry their queue, and those of schedule faults, DOE messages and timers NONE; R97 does not say which source has which. -/
def State.post (s : State) (lock : Option Nat) (what : Nat) : State :=
  { s with fw := { s.fw with events := s.fw.events ++ [⟨lock, what⟩] } }

/-- Issue a pool request on this tick. -/
def State.askPool (s : State) (r : PoolReq) : State := { s with poolq := s.poolq ++ [r] }

/-- The 64 B beats of a request (R31). -/
def PoolReq.beats (r : PoolReq) : List Nat :=
  (List.range ((r.addr + r.size + 63) / 64 - r.addr / 64)).map (r.addr / 64 + ·)

/-- Order of the pool requests of one tick (R31). -/
def PoolReq.before (a b : PoolReq) : Bool := decide ([a.cls, a.part, a.lq, a.addr] < [b.cls, b.part, b.lq, b.addr])

/-- A pool write of cells with its completion tick, in the class of host and firmware writes (R190). -/
def State.poolWrite (s : State) (wct lq : Nat) (cs : List (Nat × Byte × Option MCls)) : State :=
  let w : PWrite := ⟨wct, 2, lq, 0, s.fresh, cs, [], .none, none, none, 0, []⟩
  { s with writes := s.writes ++ [w] }.bump

/-- The beats of a pool request are placed: S is the latest (R31, R86, R93, R185). -/
def State.placePool (s : State) (r : PoolReq) : State :=
  let (u, s) := r.beats.foldl (fun (a : Nat × State) b => let (v, s) := a.2.takePool (b * 64) s.gtc; (max a.1 v, s)) (0, s)
  match r.what with
  | .read => s.sawBad (r.beats.flatMap fun b => (List.range 64).map (b * 64 + ·))
  | .cells cs => s.poolWrite (u + 168) r.lq (cs.map fun c => (c.1, c.2, none))
  | .marked cs => s.poolWrite (u + 168) r.lq cs
  | .entry cs =>
    let s := s.poolWrite (u + 168) r.lq (cs.map fun c => (c.1, c.2, none))
    { s with journal := { s.journal with heads := s.journal.heads ++ [u + 168] } }
  | .hostWrite c =>
    let wct := max (s.gtc + 680) (u + 168)
    match s.cmds.find? c with
    | some cmd =>
      let v := cmd.pkt.w2.toNat
      let s := s.poolWrite wct r.lq ((List.range 8).map fun k => (r.addr + k, BitVec.ofNat 8 (v / 2 ^ (8 * k)), none))
      { s with cmds := s.cmds.put c { cmd with due := some wct } }
    | none => s
  | .image => { s.sawBad (r.beats.flatMap fun b => (List.range 64).map (b * 64 + ·)) with fw := { s.fw with verifyAt := u + 128 } }
  | .record id =>
    let s := s.sawBad (r.beats.flatMap fun b => (List.range 64).map (b * 64 + ·))
    { s with link := { s.link with leaving := s.link.leaving.map fun (x : Nat × Nat × Reply) =>
        if x.1 = id then (id, max x.2.1 (u + 128), x.2.2) else x } }
  | .walk core =>
    let e := ((s.walks.find? core).map (·.entry)).getD 0
    let s := s.sawBad ((List.range 8).map (e + ·))
    { s with walks := s.walks.modify core fun w => { w with done := max (s.gtc + 640) (u + 128) } }

/-- The pool requests of this tick are placed in their order. -/
def State.settlePools (s : State) : State :=
  (sortBy PoolReq.before s.poolq).foldl State.placePool { s with poolq := [] }

/-! ### Translation (R181 to R186) -/

/-- The noise aperture (R173). -/
def isAperture (va : Nat) : Bool := 0x8000000000000 ≤ va && va ≤ 0x80FFFFFFFFFFF
/-- The reserved range and addresses of 2^52 or more (R173, R340). -/
def isReservedVa (va : Nat) : Bool := 0x8100000000000 ≤ va

/-- The physical address of a page's byte. -/
def Page.translate (p : Page) (va : Nat) : Option Nat :=
  if p.va ≤ va ∧ va < p.va + p.size then some (p.pa + (va - p.va)) else none

/-- The window page of a core of a grid that holds an address (R182). -/
def Grid.window (g : Grid) (core va : Nat) : Option Page :=
  (List.find? (fun e => e.1 = core && (e.2.translate va).isSome) g.pages).map (·.2)

/-- The completed fill of a core that holds an address (R185). -/
def State.fillFor (s : State) (core part va : Nat) : Option Fill :=
  (s.fills.get [] core).find? fun f =>
    f.part = part && match f.page with
      | some p => (p.translate va).isSome
      | none => decide (f.fault ∧ f.va = va / 0x10000)

/-- The regions of a partition hold a physical span (R113). -/
def State.ownsPa (s : State) (part pa size : Nat) : Bool :=
  (s.tenant part).regions.contains (pa / 2 ^ 30) && (s.tenant part).regions.contains ((pa + size - 1) / 2 ^ 30)

/-- One level of a page walk (R183): the address of the entry. -/
def ptEntryAddr (table level va : Nat) : Nat :=
  table + 8 * (if level = 0 then field va 39 12 else if level = 1 then field va 30 9
               else if level = 2 then field va 21 9 else field va 16 5)

/-- What an entry gives: the next table, a page, or a fault. -/
inductive PtRes where
  | table (pa : Nat)
  | page (p : Page)
  | fault
deriving DecidableEq, Repr

/-- Read a page-table entry's fields (R183). -/
def State.ptJudge (s : State) (part level va e : Nat) : PtRes :=
  let leaf := e.testBit 62
  let pa := field e 8 31 * 256
  if !e.testBit 63 || field e 39 22 ≠ 0 || field e 0 8 ≠ 0 then .fault
  else if level = 3 then
    if leaf && pa % 0x10000 = 0 && s.ownsPa part pa 0x10000 then .page ⟨va / 0x10000 * 0x10000, 0x10000, pa, e.testBit 61⟩
    else .fault
  else if level = 2 then
    if leaf then
      if pa % 0x200000 = 0 && s.ownsPa part pa 0x200000 then .page ⟨va / 0x200000 * 0x200000, 0x200000, pa, e.testBit 61⟩
      else .fault
    else .table pa
  else if leaf || pa % 0x1000 ≠ 0 then .fault
  else .table pa

/-- A walk at once, against memory as it stands: staging, host commands and firmware (R86, R127, R182). -/
def State.walkNow (s : State) (part va : Nat) : Nat → Nat → Nat → Option Page
  | 0, _, _ => none
  | n + 1, level, table =>
    match s.ptJudge part level va (s.natAt (ptEntryAddr table level va) 8) with
    | .page p => some p
    | .table t => s.walkNow part va n (level + 1) t
    | .fault => none

/-- Translate a device virtual address of a partition through its page table (R183, R184). -/
def State.translate (s : State) (part va : Nat) : Option (Nat × Bool) :=
  let t := s.tenant part
  if !t.ptValid || 0x8000000000000 ≤ va then none
  else match s.walkNow part va 4 0 t.ptRoot with
    | none => none
    | some p => (p.translate va).map fun pa => (pa, p.wr)

/-- The bytes of the page-table entries that a walk reads (R183). -/
def State.walkCells (s : State) (part va : Nat) : Nat → Nat → Nat → List Nat
  | 0, _, _ => []
  | n + 1, level, table =>
    let e := ptEntryAddr table level va
    (List.range 8).map (e + ·) ++ match s.ptJudge part level va (s.natAt e 8) with
      | .table t => s.walkCells part va n (level + 1) t
      | _ => []

/-- The walks that translate some addresses for the host or for firmware may meet uncorrectable beats (R36). -/
def State.sawWalks (s : State) (part : Nat) (vas : List Nat) : State :=
  let pages := (dedup (vas.map (· / 0x10000))).filter fun p => (s.tenant part).ptValid && decide (p < 0x80000000)
  s.sawBad (pages.flatMap fun p => s.walkCells part (p * 0x10000) 4 0 (s.tenant part).ptRoot)

/-- So may their reads of the bytes there (R36). -/
def State.sawVas (s : State) (part : Nat) (vas : List Nat) : State :=
  (s.sawWalks part vas).sawBad (vas.filterMap fun va => (s.translate part va).map (·.1))

/-! ### Exits and stops -/

/-- A stream ends: the queues it pops are dropped, and so are its reservations still in flight (R324, R397); like popped entries
they stay to be seen to the end of the tick (R344). -/
def Warp.exitStream (w : Warp) (x : Strm) (t : Nat) : Warp :=
  let w := w.setStrm x { (w.strm x) with phase := .exited, exitAt := t }
  { w with queues := w.queues.map fun e => (e.1, e.2.map fun r =>
      if r.popAt.isNone && (decide (queueConsumer e.1 = x) || (!r.landed && decide (queueProducer e.1 = x)))
      then { r with popAt := some t } else r) }

/-- Both streams of a warp end. -/
def Warp.stop (w : Warp) (t : Nat) : Warp :=
  if w.acc.gone ∧ w.exe.gone then w
  else (if w.acc.gone then w else w.exitStream .acc t) |> fun w => if w.exe.gone then w else w.exitStream .exe t

/-- Every warp of a grid stops at once (R143). -/
def State.stopWarps (s : State) (g : Nat) : State :=
  { s with warps := s.warps.map fun (e : Nat × Warp) => if e.2.grid = g then (e.1, e.2.stop s.gtc) else e }

/-- An unhandled trap or a LATE fault ends a grid (R330, R350): no further instance starts, and its warps stop on this
tick, at its end. -/
def State.stopGrid (s : State) (g code : Nat) : State :=
  s.updGrid g fun r => { r with stopped := true, failCode := if r.stopped then r.failCode else code }

/-- The end of a tick: the warps of ended grids stop. -/
def State.sweepStopped (s : State) : State :=
  s.grids.foldl (fun s (e : Nat × Grid) => if e.2.stopped then s.stopWarps e.1 else s) s

/-! ### Traps -/

/-- What a trap records (R326). -/
structure Trap where
  cls : Nat
  detail : Nat
  addr : Nat
deriving DecidableEq, Repr

/-- The illegal-instruction trap (R326). -/
def Trap.illegal : Trap := ⟨1, 0, 0⟩

/-- A handler is installed and no trap is in hand (R327, R329). -/
def Stream.hen (st : Stream) : Bool := st.trapcause.getLsbD 31
def Stream.trapActive (st : Stream) : Bool := st.trapcause.getLsbD 30
/-- HANDLER (R327). -/
def Stream.handler (st : Stream) : Nat := field st.trapcause.toNat 14 16

/-- The trap cannot enter a handler (R329, step 3). -/
def Stream.unhandled (st : Stream) (codelen : Nat) : Bool :=
  !st.hen || st.trapActive || st.handler % 2 = 1 || codelen ≤ st.handler

/-- The stream after a handled trap at its program counter (R329). -/
def Stream.enterTrap (st : Stream) (cunit : Nat) (t : Trap) : Stream :=
  { st with
    shadow := st.latches
    latches := Latch.four
    cutCount := st.runCount
    runCount := 0
    phase := .idle
    granted := false
    trapcause := (st.trapcause &&& 0xBFFFC000) |||
      BitVec.ofNat 32 (2 ^ 30 + t.cls * 2 ^ 8 + t.detail % 2 ^ 8)
    trappc := BitVec.ofNat 32 st.pc
    trapaddrLo := BitVec.ofNat 32 t.addr
    trapaddrHi := BitVec.ofNat 32 (t.addr / 2 ^ 32 % 2 ^ 20)
    savedMask := st.mask
    savedDepth := st.stack.length
    mask := Mask.full
    pc := cunit * 65536 + st.handler }

/-- Take a trap at the instruction of a stream: entry to the handler, or the end of the grid (R329, R330). -/
def State.takeTrap (s : State) (key : Nat) (x : Strm) (t : Trap) : State :=
  match s.warp? key with
  | none => s
  | some w =>
    match s.gridOf w with
    | none => s
    | some g =>
      let st := w.strm x
      if st.unhandled g.hdr.codelen then (s.endTurn key x).stopGrid w.grid 22
      else (s.updStream key x fun st => st.enterTrap g.hdr.cunit t).endTurn key x

/-- A trap that counts as issued: it shifts a void latch entry and counts in the run (R332, R333). -/
def State.takeCounted (s : State) (key : Nat) (x : Strm) (t : Trap) : State :=
  (s.updStream key x fun st => { st.shift Latch.voidEntry with runCount := st.runCount + 1 }).takeTrap key x t

/-- Where a trapret goes (R331): past the instruction for classes 12 to 14. -/
def Stream.trapretTarget (st : Stream) : Nat :=
  let c := field st.trapcause.toNat 8 5
  st.trappc.toNat + (if c = 12 ∨ c = 13 ∨ c = 14 then 4 else 0)

/-- The stream after a return from its trap (R331). -/
def Stream.leaveTrap (st : Stream) : Stream :=
  { st with
    trapcause := st.trapcause &&& 0xBFFFFFFF
    mask := st.savedMask
    latches := st.shadow
    shadow := Latch.four
    runCount := st.cutCount
    cutRun := true
    phase := .idle
    pc := st.trapretTarget }

/-- A stream parks: the run is cut before the instruction (R155, R329). -/
def Stream.park (st : Stream) (p : Park) : Stream :=
  let st := { st with phase := .parked p, cutRun := true, latches := Latch.four }
  st

/-- Park a stream: its latches pass to the shadow, apart from a trapped run's (R155, R159, R329). -/
def State.parkStream (s : State) (key : Nat) (x : Strm) (p : Park) : State :=
  (s.updStream key x fun st =>
    let l := st.latches
    let st' := st.park p
    if st.trapActive then { st' with hshadow := l } else { st' with shadow := l }).endTurn key x

/-- A turn of a slot begins for a stream: a new run with empty latches, or the rest of a cut run (R148, R155, R331). -/
def Stream.beginTurn (st : Stream) : Stream :=
  match st.phase with
  | .released =>
    if st.trapActive then { st with phase := .inRun, cutRun := false, latches := st.hshadow, hshadow := Latch.four }
    else { st with phase := .inRun, cutRun := false, latches := st.shadow, shadow := Latch.four }
  | _ =>
    if st.cutRun then { st with phase := .inRun, cutRun := false }
    else { st with phase := .inRun, latches := Latch.four, runCount := 0 }

/-! ### Code span and scratch rules -/

/-- The span in which a grid's code is fetched (R255). -/
def Grid.inCode (g : Grid) (pc : Nat) : Bool :=
  g.hdr.cunit * 65536 ≤ pc && pc < g.hdr.cunit * 65536 + g.hdr.codelen

/-- Task positions of a grid (R130). -/
def Grid.npos (g : Grid) : Nat := g.hdr.ncore * g.hdr.tpc

/-- The set bank that a grid holds on a core: its mailbox half (R136, R179). -/
def Grid.bankOn (g : Grid) (core : Nat) : Option Nat :=
  (List.find? (fun e => decide (e.2.bank ≠ 2 ∧ e.1 / g.hdr.tpc + g.hdr.cbase = core)) g.poss).map (·.2.bank)

/-- A position holds resources (R136). -/
def PosState.placed (p : PosState) : Bool := match p.phase with
  | .loading _ => true
  | .running => true
  | .between _ => true
  | _ => false

/-- Logical core of a position (R130). -/
def Grid.lcore (g : Grid) (j : Nat) : Nat := g.hdr.cbase + j / g.hdr.tpc
/-- First scratch unit of a position (R130). -/
def Grid.unit0 (g : Grid) (j : Nat) : Nat := g.hdr.sbase + j % g.hdr.tpc * g.hdr.scru

/-- A unit of a position of the grid that holds its resources on a core (R130, R174): from its placement to its release. -/
def Grid.ownsUnit (g : Grid) (lcore u : Nat) : Bool :=
  g.poss.any fun (e : Nat × PosState) =>
    e.2.placed && decide (g.lcore e.1 = lcore) && decide (g.unit0 e.1 ≤ u ∧ u < g.unit0 e.1 + g.hdr.scru)

/-- A warp may read a scratch byte (R174). -/
def Grid.mayRead (g : Grid) (lcore mode addr : Nat) : Bool :=
  addr < scratchEnd &&
  (let loc := scratchLoc mode addr
   let u := loc / 0x10000
   g.ownsUnit lcore u || u = g.hdr.cunit ||
   (u = 95 && match g.bankOn lcore with
     | some h => loc % 0x10000 / 0x8000 = h
     | none => false))

/-- An instruction of a warp may write a scratch byte (R174). -/
def Grid.mayWrite (g : Grid) (lcore mode addr : Nat) : Bool :=
  addr < scratchEnd && g.ownsUnit lcore (scratchUnit mode addr)

/-- A scratch address word (R175): mode and address, when its reserved bits are zero. -/
def addrWord (w : Word) : Option (Nat × Nat) :=
  if field w.toNat 28 4 = 0 ∧ field w.toNat 23 1 = 0 then some (field w.toNat 24 4, field w.toNat 0 23) else none

/-- The free value of the next draw (log entry 9). -/
def State.drawn (s : State) (f : Nat → Nat) : Nat × State := (f s.draw, { s with draw := s.draw + 1 })

end Sys2Proof.Machine
end

