-- ==== Sys2Proof/Machine/Operands.lean ====
section
/-! DEFINITION. How an instruction is presented for issue: the checks of R262 in their order, its source values, and how
an instruction that issues completes (R151, R156, R157, R163). -/

namespace Sys2Proof.Machine

/-- What an instruction uses of its stream: what steps 2 to 6 of R262 judge. -/
structure Use where
  /-- the static legality of its fields (Machine/Legal.lean) -/
  legal : Bool
  /-- whether the access stream may issue it (R265) -/
  inAcc : Bool
  /-- whether the execute stream may issue it (R265) -/
  inExe : Bool
  /-- source fields, a before b -/
  srcs : List Src
  /-- further registers that it names: d* inputs and the last registers of groups -/
  regs : List Nat
  dst : Dst
  /-- guard slot; 0 when it has none -/
  guard : Nat
  e : Bool
  /-- bytes -/
  len : Nat
  /-- those of the named registers whose marked words it does not read (R334): further destinations, and the source of a save -/
  spare : List Nat
deriving DecidableEq, Repr

/-- What an issuing instruction sees. -/
structure Ctx where
  key : Nat
  x : Strm
  w : Warp
  st : Stream
  g : Grid
  now : Nat
  act : Mask
  vals : List RVal
  use : Use
deriving DecidableEq, Repr

/-- The outcome of steps 2 to 6 of R262. -/
inductive Gate where
  | go
  | trap (t : Trap)
  | park (p : Park)
  | slip
deriving DecidableEq, Repr

/-- Registers of an allocation (R137, R257). -/
def Warp.nregs (w : Warp) : Strm → Nat
  | .acc => w.aregs
  | .exe => w.xregs

/-- The registers that source fields name. -/
def srcRegs (l : List Src) : List Nat := l.filterMap fun
  | .v n => some n.val
  | _ => none

/-- The queues that source fields pop, in order. -/
def srcPops (l : List Src) : List Nat := l.filterMap fun
  | .q n => some n.val
  | _ => none

/-- The latches that source fields read, in order. -/
def srcLatches (l : List Src) : List Nat := l.filterMap fun
  | .b n => some n.val
  | _ => none

/-- The register of a destination. -/
def dstReg : Dst → Option Nat
  | .v n => some n.val
  | _ => none

/-- The queue of a destination. -/
def dstQueue : Dst → Option Nat
  | .q n => some n.val
  | _ => none

/-- Step 3 of R262. -/
def Use.encodingOk (u : Use) (w : Warp) (x : Strm) : Bool :=
  u.legal && (match x with
    | .acc => u.inAcc
    | .exe => u.inExe) &&
  (srcRegs u.srcs ++ u.regs ++ (dstReg u.dst).toList).all (fun n => decide (n < w.nregs x)) &&
  (decide (u.guard = 0) || ((w.strm x).guards.find? u.guard).isSome)

/-- The queue whose direction the instruction breaks (R150, R260). -/
def Use.wrongWay (u : Use) (x : Strm) : Option Nat :=
  ((srcPops u.srcs).find? fun q => decide (queueConsumer q ≠ x)) <|>
  ((dstQueue u.dst).bind fun q => if queueProducer q ≠ x then some q else none)

/-- A push or reservation of `n` entries into queue `q` (R153, R212). -/
def pushGate (w : Warp) (q n : Nat) : Gate :=
  if queueDepth q < (w.live q).length + n then
    if (w.strm (queueConsumer q)).gone then .trap ⟨4, q, 0⟩ else .park (.pushFull q n)
  else .go

/-- The first latch that is not filled and ready (R158). -/
def badLatch (st : Stream) (now : Nat) (ls : List Nat) : Option Nat :=
  ls.find? fun k => match st.latches[k]? with
    | some l => !(decide (l.kind = .val) && decide (l.ready ≤ now))
    | none => true

/-- The condition of the reservations that the instruction pops from queue `q` (R152, R154): a reservation of this very
tick is not yet there (R151). -/
def popGate (w : Warp) (now q n : Nat) : Gate :=
  let rs := ((w.live q).filter fun r => decide (r.issued < now)).take n
  if rs.length < n then
    if (w.strm (queueProducer q)).gone then .trap ⟨4, q, 0⟩ else .park (.popEmpty q)
  else if rs.all (·.landed) then .go else .slip

/-- Pops are judged together: a trap before a park, a park before a slip (R152). -/
def joinGates (l : List Gate) : Gate :=
  match l.find? fun g => match g with
    | .trap _ => true
    | _ => false with
  | some t => t
  | none =>
    match l.find? fun g => match g with
      | .park _ => true
      | _ => false with
    | some p => p
    | none => if l.contains .slip then .slip else .go

/-- Steps 2 to 6 of R262. -/
def Use.gate (u : Use) (w : Warp) (x : Strm) (now : Nat) : Gate :=
  let st := w.strm x
  if st.runCount = 23 ∧ !u.e then .trap ⟨3, 0, 0⟩
  else if !u.encodingOk w x then .trap Trap.illegal
  else match u.wrongWay x with
    | some q => .trap ⟨4, q, 0⟩
    | none =>
      match (match dstQueue u.dst with
        | some q => pushGate w q 1
        | none => Gate.go) with
      | .go =>
        match badLatch st now (srcLatches u.srcs) with
        | some k => .trap ⟨2, k, 0⟩
        | none =>
          let qs := srcPops u.srcs
          joinGates ((dedup qs).map fun q => popGate w now q (qs.count q))
      | r => r

/-- The value that each source field selects (R257); the newer of two pops of one queue stands in field b (R154). -/
def srcVals (w : Warp) (st : Stream) : List Src → List Nat → List RVal
  | [], _ => []
  | src :: r, popped =>
    match src with
    | .v n => st.reg n.val :: srcVals w st r popped
    | .b n => ((st.latches[n.val]?).map (·.v)).getD RVal.zero :: srcVals w st r popped
    | .q n => ((((w.live n.val)[popped.count n.val]?).bind (·.val)).getD RVal.zero) :: srcVals w st r (n.val :: popped)
    | .zero => RVal.zero :: srcVals w st r popped
    | .laneid => ⟨.a 0 1, []⟩ :: srcVals w st r popped
    | .wid => RVal.ofWord (BitVec.ofNat 32 w.w) :: srcVals w st r popped
    | .reserved => RVal.zero :: srcVals w st r popped

/-- A slip tick of a partition (R71, R149): the instruction is no longer presented. -/
def State.slip (s : State) (key : Nat) : State :=
  { s with cur := none
           slips := s.slips.update 0 (key / 32 * 4 + key % 4) (· + 1) }

/-- Present an instruction of the current stream for issue (R262): it traps, parks, slips, or goes on to its own checks. -/
def issue (u : Use) (s : State) (k : Ctx → Out) : Out :=
  match s.cur with
  | none => .fault .noStream
  | some (key, x) =>
    match s.warp? key with
    | none => .fault .noStream
    | some w =>
      match s.gridOf w with
      | none => .fault .noStream
      | some g =>
        match u.gate w x s.gtc with
        | .trap t => .next (s.takeTrap key x t)
        | .park p => .next (s.parkStream key x p)
        | .slip => .next (s.slip key)
        | .go =>
          let st := w.strm x
          k ⟨key, x, w, st, g, s.gtc, st.active u.guard, srcVals w st u.srcs [], u⟩

/-- The registers whose marked words an instruction's trap of class 10 consumes (R334): those that it reads. -/
def Ctx.eccRegs (c : Ctx) (lane : Nat) : List Nat :=
  let marked (n : Nat) : Bool := decide ((c.st.reg n).marks.find? lane = some .ecc)
  ((srcRegs c.use.srcs ++ c.use.regs).diff c.use.spare).filter marked

/-- The lane whose marked word a trap consumed (R320, R326): lane 0 for an engine command, whose DETAIL is 255. -/
def Trap.lane (t : Trap) : Nat := if t.detail = 255 then 0 else t.detail

/-- Register-file errors consumed by a trap are counted (R334): those of the failing lane, or of the one word that a U or an A
register holds for all lanes. -/
def Ctx.countEcc (c : Ctx) (s : State) (t : Trap) : State :=
  if t.cls ≠ 10 ∨ s.regErr.isEmpty then s
  else
    let hit (e : Nat × Strm × Nat × Nat) : Bool := decide (e.1 = c.key ∧ e.2.1 = c.x) && (c.eccRegs t.lane).contains e.2.2.1 &&
      (decide (e.2.2.2 = 32) || decide (e.2.2.2 = t.lane))
    { s with regErr := s.regErr.filter fun e => !hit e
             regEccConsumed := min 0xFFFF (s.regEccConsumed + (s.regErr.filter hit).length) }

/-- A trap of step 7. -/
def Ctx.trap (c : Ctx) (s : State) (t : Trap) : Out := .next ((c.countEcc s t).takeTrap c.key c.x t)

/-- A park of step 7. -/
def Ctx.park (c : Ctx) (s : State) (p : Park) : Out := .next (s.parkStream c.key c.x p)

/-- A wait under R149 up to a tick: the turn goes on, and the instruction is presented again on that tick. -/
def Ctx.waitTo (c : Ctx) (s : State) (t : Nat) : Out :=
  .next (s.updFe (feKey (c.key / 32) (c.key % 4) c.x) fun f => { f with waitUntil := t })

/-- Mark the oldest reservations of a queue as popped on a tick. -/
def popMark (now : Nat) : Nat → List Resv → List Resv
  | 0, l => l
  | _, [] => []
  | n + 1, r :: l => if r.popAt.isNone then { r with popAt := some now } :: popMark now n l else r :: popMark now (n + 1) l

/-- Pop the queues that an issuing instruction names. -/
def Warp.pop (w : Warp) (now : Nat) (qs : List Nat) : Warp :=
  { w with queues := w.queues.map fun e => (e.1, popMark now (qs.count e.1) e.2) }

/-- The stream after an instruction issued: the latch shift, the next program counter and the run count (R148, R157). -/
def Stream.issued (st : Stream) (e : Latch) (pc : Nat) (last : Bool) : Stream :=
  let st := st.shift e
  if last then { st with pc := pc, phase := .idle, granted := false, latches := Latch.four, runCount := 0 }
  else { st with pc := pc, granted := false, runCount := st.runCount + 1 }

/-- The instruction issues: pops, latch entry, program counter and run end. -/
def Ctx.commitTo (c : Ctx) (s : State) (e : Latch) (pc : Nat) : State :=
  let s := s.updWarp c.key fun w => (w.pop c.now (srcPops c.use.srcs)).setStrm c.x ((w.strm c.x).issued e pc c.use.e)
  if c.use.e then s.endTurn c.key c.x else s

/-- Issue with the next program counter in sequence (R254). -/
def Ctx.commit (c : Ctx) (s : State) (e : Latch) : State := c.commitTo s e (c.st.pc + c.use.len)

/-- An instruction without a vector result issues (R157). -/
def Ctx.finish (c : Ctx) (s : State) : Out := .next (c.commit s Latch.voidEntry)

/-- The latch entry of a vector result (R157): from its issue on it carries the result's tag. -/
def latchOf (id ready tag : Nat) : Latch := ⟨.val, ready, RVal.blank tag, id⟩

/-- The tag that a result leaves in its destination (R154, R162, R163): its own when every lane is active, G when some are, and
when none is, the register's or that of a zero entry. -/
def Ctx.dstTag (c : Ctx) (d : Dst) (tag : Nat) (act : Mask) : Nat :=
  if act = Mask.full then tag
  else if act = 0 then ((dstReg d).map fun n => (c.st.reg n).v.tag).getD 0
  else 2

/-- Where a destination's result goes. -/
def dstTgt (d : Dst) (rid : Nat) : VTgt :=
  match d with
  | .v n => .reg n.val
  | .q n => .queue n.val rid
  | _ => .drop

/-- Put a vector result in flight: it lands at `now + lat`, and a queue entry is reserved (R151, R154, R156). -/
def Ctx.putVec (c : Ctx) (s : State) (d : Dst) (lat : Nat) (v : RVal) (act : Mask) : State :=
  let id := s.fresh
  let s := s.land c.key c.x (c.now + lat) (.vec (dstTgt d id) (some v) act)
  match d with
  | .q n =>
    let e := v.entry act
    s.updWarp c.key fun w => w.reserve n.val ⟨id, c.now, some (c.now + lat), some e, e.v.tag, false, none⟩
  | _ => s

/-- A vector result issues. -/
def Ctx.finishVec (c : Ctx) (s : State) (d : Dst) (lat : Nat) (v : RVal) : Out :=
  .next (c.commit (c.putVec s d lat v c.act) (latchOf s.fresh (c.now + lat) (c.dstTag d v.v.tag c.act)))

/-- A predicate result issues (R164). -/
def Ctx.finishPred (c : Ctx) (s : State) (p : Nat) (lat : Nat) (v m : Mask) : Out :=
  .next (c.commit (s.land c.key c.x (c.now + lat) (.pred p v m)) Latch.voidEntry)

/-- An effect that lands 1 t after issue, with a void latch entry. -/
def Ctx.finishEff (c : Ctx) (s : State) (e : Eff) : Out :=
  .next (c.commit (s.land c.key c.x (c.now + 1) e) Latch.voidEntry)

/-- The trap of the lowest marked lane among source words read (R334). -/
def markTrap (l : List (RVal × Mask)) : Option Trap :=
  let cs := sortBy (fun a b => decide (a.1 < b.1)) (l.filterMap fun e => e.1.markIn e.2)
  cs.head?.map fun e => ⟨e.2.code, if e.2 = .fabric then 0 else e.1, 0⟩

/-- Step 7's first check: a marked word read in an active lane (R334, R335). -/
def Ctx.unmarked (c : Ctx) (s : State) (l : List RVal) (k : Out) : Out :=
  match markTrap (l.map fun r => (r, c.act)) with
  | some t => c.trap s t
  | none => k

/-- The `i`-th source value. -/
def Ctx.val (c : Ctx) (i : Nat) : RVal := c.vals.getD i RVal.zero

/-- Lane 0 of the `i`-th source (R320). -/
def Ctx.lane0 (c : Ctx) (i : Nat) : Word := (c.val i).lane 0

/-- The value of the register that a destination field names (R276). -/
def Ctx.dval (c : Ctx) (d : Dst) : RVal := match dstReg d with
  | some n => c.st.reg n
  | none => RVal.zero

/-- Registers `n` to `n + k` of a source field, as a group. -/
def groupRegs (a : Src) (k : Nat) : List Nat :=
  match a with
  | .v n => (List.range (k + 1)).map (n.val + ·)
  | _ => []

/-- Lane 0 of the group's registers. -/
def Ctx.group (c : Ctx) (a : Src) (k : Nat) : List RVal := (groupRegs a k).map c.st.reg

/-! ### The uses of the formats -/

def useT3 (o : T3) (inAcc : Bool) : Use := ⟨legalT3 o, inAcc, true, [o.a, o.b], [], o.d, o.g.toNat, o.e, 4, []⟩
def useT3d (o : T3d) (inAcc : Bool) : Use := ⟨legalT3d o, inAcc, true, [o.a, o.b], (dstReg o.d).toList, o.d, o.g.toNat, o.e, 4, []⟩
def useTC (o : TC) (inAcc : Bool) (legal : Bool) : Use := ⟨legal, inAcc, true, [o.a, o.b], [], .discard, 0, o.e, 4, []⟩
def useTCi (o : TCi) : Use := ⟨legalTCi o, true, true, [o.a], [], .discard, 0, o.e, 4, []⟩
def useTI (o : TI) : Use := ⟨legalTI o, true, true, [o.a], [], o.d, 0, o.e, 4, []⟩
def useTIs (o : TIs) : Use := ⟨legalTIs o, true, true, [o.a], [], o.d, 0, o.e, 4, []⟩
def useT2 (o : T2) (inAcc : Bool) : Use := ⟨legalT2 o, inAcc, true, [o.a], [], o.d, o.g.toNat, o.e, 4, []⟩
def useT2n (o : T2n) (inAcc : Bool) : Use := ⟨legalT2n o, inAcc, true, [o.a], [], o.d, o.g.toNat, o.e, 4, []⟩
def useT2d (o : T2d) (inAcc : Bool) : Use := ⟨legalT2d o, inAcc, true, [o.a], (dstReg o.d).toList, o.d, o.g.toNat, o.e, 4, []⟩
def useE0 (o : E0) : Use := ⟨true, true, true, [], [], .discard, 0, o.e, 4, []⟩

/-- A source field of the 16-bit format (R261). -/
def h16Src (a : BitVec 5) : Src :=
  if h : a.toNat < 28 then .v ⟨a.toNat, by omega⟩ else .b ⟨a.toNat - 28, by omega⟩

/-- The destination of the 16-bit format (R261). -/
def h16Dst (d : BitVec 5) : Dst := .v ⟨d.toNat, by omega⟩

/-- The destination as the first source of the 16-bit format (R261). -/
def h16Self (d : BitVec 5) : Src := .v ⟨d.toNat, by omega⟩

def useH16 (o : H16) (inAcc : Bool) : Use := ⟨true, inAcc, true, [h16Self o.d, h16Src o.a], [], h16Dst o.d, 0, o.e, 2, []⟩
def useMovH16 (o : H16) : Use := ⟨true, true, true, [h16Src o.a], [], h16Dst o.d, 0, o.e, 2, []⟩

end Sys2Proof.Machine
end

