-- ==== Sys2Proof/Machine/Flags.lean ====
section
/-! DEFINITION. Per-lane results, shape tags of results, and the flags, counters and arithmetic trap (R162, R250 to R253,
R294, R295). -/

namespace Sys2Proof.Machine

/-- A lane's result and the flags it raises. -/
abbrev LaneRes := Word × BitVec 6

/-- A result without flags. -/
def quiet (w : Word) : LaneRes := (w, 0)

/-- A floating-point result as a lane's result. -/
def FRes.lane (r : FRes) : LaneRes := (BitVec.ofNat 32 r.bits, r.fl)

/-- Whether every source has tag U. -/
def allU (vs : List Vec) : Bool := vs.all fun v => decide (v.tag = 0)

/-- Or of flags over the active lanes (R252). -/
def orFlags (act : Mask) (rs : List LaneRes) : BitVec 6 :=
  (List.range rs.length).foldl (fun f l => if act.getLsbD l then f ||| (rs.getD l (0, 0)).2 else f) 0

/-- The result of a per-lane function: U when every source is U, otherwise G (R162). -/
def lanewise (act : Mask) (vs : List Vec) (f : List Word → LaneRes) : Vec × BitVec 6 :=
  if allU vs then
    let r := f (vs.map fun v => v.lane 0)
    (.u r.1, if act = 0 then 0 else r.2)
  else
    let rs := laneList.map fun l => if act.getLsbD l then f (vs.map fun v => v.lane l) else (0, 0)
    (.g (rs.map (·.1)), orFlags act rs)

/-- The result tag of add and subtract (R162): A when one source is A and the other U. -/
def addVec (act : Mask) (sub : Bool) (a b : Vec) : Vec :=
  match a, b with
  | .a be sg, .u u => .a (if sub then be - u else be + u) sg
  | .u u, .a be sg => if sub then .a (u - be) (-sg) else .a (u + be) sg
  | _, _ => (lanewise act [a, b] fun ws =>
      quiet (if sub then ws.getD 0 0 - ws.getD 1 0 else ws.getD 0 0 + ws.getD 1 0)).1

/-- The flags that are set and enabled (R253). -/
def enabledFlags (fflags : Word) (fl : BitVec 6) : BitVec 6 := (fflags >>> 8).setWidth 6 &&& fl

/-- Flags take effect 4 t after issue (R250, R251; log entry 14). -/
def Ctx.raise (c : Ctx) (s : State) (fl : BitVec 6) : State :=
  if fl = 0 then s else s.land c.key c.x (c.now + 4) (.flags fl)

/-- The arithmetic trap in place of completion, when an enabled flag is raised (R253, R295). -/
def Ctx.arith (c : Ctx) (s : State) (fl : BitVec 6) (k : State → Out) : Out :=
  if enabledFlags c.w.fflags fl ≠ 0 then c.trap (c.raise s fl) ⟨9, fl.toNat, 0⟩
  else k (c.raise s fl)

/-- A vector result with flags. -/
def Ctx.finishArith (c : Ctx) (s : State) (d : Dst) (lat : Nat) (r : Vec × BitVec 6) : Out :=
  c.arith s r.2 fun s => c.finishVec s d lat ⟨r.1, []⟩

/-- A vector instruction computed lane by lane from its sources (R294). -/
def vecInstr (u : Use) (lat : Nat) (f : List Word → LaneRes) (s : State) : Out :=
  issue u s fun c => c.unmarked s c.vals (c.finishArith s u.dst lat (lanewise c.act (c.vals.map (·.v)) f))

/-- A d* vector instruction: the destination's register is the last source (R276). -/
def vecInstrD (u : Use) (lat : Nat) (f : List Word → LaneRes) (s : State) : Out :=
  issue u s fun c =>
    let vs := c.vals ++ [c.dval u.dst]
    c.unmarked s vs (c.finishArith s u.dst lat (lanewise c.act (vs.map (·.v)) f))

/-- Two words of a lane. -/
def two (f : Word → Word → LaneRes) (ws : List Word) : LaneRes := f (ws.getD 0 0) (ws.getD 1 0)
/-- One word of a lane. -/
def one (f : Word → LaneRes) (ws : List Word) : LaneRes := f (ws.getD 0 0)
/-- Three words of a lane. -/
def three (f : Word → Word → Word → LaneRes) (ws : List Word) : LaneRes := f (ws.getD 0 0) (ws.getD 1 0) (ws.getD 2 0)

end Sys2Proof.Machine
end

