-- ==== Sys2Proof/Machine/Alu.lean ====
section
/-! DEFINITION. Integer, logic, shift, bit-field, immediate and move instructions, with their 16-bit forms (R296 to R302). -/

namespace Sys2Proof.Machine

/-! ### Word functions -/

/-- High word of a signed product (R296). -/
def mulhWord (a b : Word) : Word := wordOfInt (a.toInt * b.toInt / 2 ^ 32)
/-- High word of an unsigned product (R296). -/
def mulhuWord (a b : Word) : Word := wordOfNat (a.toNat * b.toNat / 2 ^ 32)
/-- The lower s32 value; a when equal (R296). -/
def iminWord (a b : Word) : Word := if b.toInt < a.toInt then b else a
def imaxWord (a b : Word) : Word := if a.toInt < b.toInt then b else a
def iminuWord (a b : Word) : Word := if b.toNat < a.toNat then b else a
def imaxuWord (a b : Word) : Word := if a.toNat < b.toNat then b else a
/-- |s32(a) - s32(b)| (R296). -/
def iabsdWord (a b : Word) : Word := wordOfNat (a.toInt - b.toInt).natAbs
/-- The whole of b is the count (R297). -/
def shlWord (a b : Word) : Word := if b.toNat < 32 then a <<< b.toNat else 0
def shrWord (a b : Word) : Word := if b.toNat < 32 then a >>> b.toNat else 0
def sarWord (a b : Word) : Word := a.sshiftRight (min b.toNat 31)
/-- Number of 1 bits (R296). -/
def popcWord (a : Word) : Word := wordOfNat (popCount a.toNat 32)
/-- Number of 0 bits above the highest 1 bit (R296). -/
def clzWord (a : Word) : Word := if a = 0 then 32 else wordOfNat (31 - Nat.log2 a.toNat)
/-- Bit i becomes bit 31 - i (R296). -/
def brevWord (a : Word) : Word :=
  wordOfNat ((List.range 32).foldl (fun n i => n + bit (a.getLsbD i) (31 - i)) 0)
def iabsWord (a : Word) : Word := wordOfNat a.toInt.natAbs
/-- Bits [n-1:0] as n-bit two's complement (R297). -/
def sextWord (n : Nat) (a : Word) : Word := wordOfInt (signedField a.toNat n)

/-- Length of the field that a bit-field control word names (R298). -/
def bfLen (d : Word) : Nat := min (min (field d.toNat 8 6) 32) (32 - field d.toNat 0 5)

/-- bfx: a field of a under control d (R298). -/
def bfxWord (a d : Word) : Word :=
  let n := bfLen d
  let f := field a.toNat (field d.toNat 0 5) n
  if d.getLsbD 14 ∧ 1 ≤ n ∧ 2 ^ (n - 1) ≤ f then wordOfInt ((f : Int) - 2 ^ n) else wordOfNat f

/-- bfi: field from a, base from b, control d (R298). -/
def bfiWord (a b d : Word) : Word :=
  let p := field d.toNat 0 5
  let m := wordOfNat ((2 ^ bfLen d - 1) * 2 ^ p)
  (b &&& ~~~ m) ||| ((a <<< p) &&& m)

/-- One result byte of bperm (R299). -/
def bpermByte (a b d : Word) (i : Nat) : Nat :=
  let c := field d.toNat (5 * i) 5
  let sel := c % 8
  let v := if sel < 4 then field a.toNat (8 * sel) 8 else field b.toNat (8 * (sel - 4)) 8
  match c / 8 with
  | 0 => v
  | 1 => 0
  | 2 => if 128 ≤ v then 255 else 0
  | _ => 255

/-- bperm: four bytes under control d (R299). -/
def bpermWord (a b d : Word) : Word :=
  wordOfNat (bpermByte a b d 0 + bpermByte a b d 1 * 2 ^ 8 + bpermByte a b d 2 * 2 ^ 16 + bpermByte a b d 3 * 2 ^ 24)

/-! ### Shared meanings -/

/-- An integer instruction of one, two or three words without flags. -/
def int2 (o : T3) (lat : Nat) (f : Word → Word → Word) (s : State) : Out :=
  vecInstr (useT3 o true) lat (two fun a b => quiet (f a b)) s
def int3 (o : T3d) (lat : Nat) (f : Word → Word → Word → Word) (s : State) : Out :=
  vecInstrD (useT3d o true) lat (three fun a b d => quiet (f a b d)) s
def int1 (o : T2) (f : Word → Word) (s : State) : Out := vecInstr (useT2 o true) 1 (one fun a => quiet (f a)) s
def intH (o : H16) (lat : Nat) (f : Word → Word → Word) (s : State) : Out :=
  vecInstr (useH16 o true) lat (two fun a b => quiet (f a b)) s

/-- Add or subtract with the tag rule of R162. -/
def addSub (u : Use) (sub : Bool) (s : State) : Out :=
  issue u s fun c => c.unmarked s c.vals
    (c.finishVec s u.dst 1 ⟨addVec c.act sub (c.val 0).v (c.val 1).v, []⟩)

/-- A move keeps its source's tag (R162, R302). -/
def moveVal (u : Use) (s : State) : Out :=
  issue u s fun c => c.unmarked s c.vals (c.finishVec s u.dst 1 ⟨(c.val 0).v, []⟩)

/-- An immediate instruction: the immediate is a U value (R162, R301). -/
def immInstr (u : Use) (f : Word → Word) (s : State) : Out := vecInstr u 1 (one fun a => quiet (f a)) s

/-! ### Meanings -/

/-- iadd (R296). -/
def execIadd (o : T3) (s : State) : Out := addSub (useT3 o true) false s
/-- isub (R296). -/
def execIsub (o : T3) (s : State) : Out := addSub (useT3 o true) true s
/-- imul (R296). -/
def execImul (o : T3) (s : State) : Out := int2 o 3 (· * ·) s
/-- imulh (R296). -/
def execImulh (o : T3) (s : State) : Out := int2 o 3 mulhWord s
/-- imulhu (R296). -/
def execImulhu (o : T3) (s : State) : Out := int2 o 3 mulhuWord s
/-- imad (R296). -/
def execImad (o : T3d) (s : State) : Out := int3 o 3 (fun a b d => a * b + d) s
/-- imin (R296). -/
def execImin (o : T3) (s : State) : Out := int2 o 1 iminWord s
/-- imax (R296). -/
def execImax (o : T3) (s : State) : Out := int2 o 1 imaxWord s
/-- iminu (R296). -/
def execIminu (o : T3) (s : State) : Out := int2 o 1 iminuWord s
/-- imaxu (R296). -/
def execImaxu (o : T3) (s : State) : Out := int2 o 1 imaxuWord s
/-- iabsd (R296). -/
def execIabsd (o : T3) (s : State) : Out := int2 o 1 iabsdWord s
/-- and (R297). -/
def execAnd (o : T3) (s : State) : Out := int2 o 1 (· &&& ·) s
/-- or (R297). -/
def execOr (o : T3) (s : State) : Out := int2 o 1 (· ||| ·) s
/-- xor (R297). -/
def execXor (o : T3) (s : State) : Out := int2 o 1 (· ^^^ ·) s
/-- andn (R297). -/
def execAndn (o : T3) (s : State) : Out := int2 o 1 (fun a b => a &&& ~~~ b) s
/-- shl (R297). -/
def execShl (o : T3) (s : State) : Out := int2 o 1 shlWord s
/-- shr (R297). -/
def execShr (o : T3) (s : State) : Out := int2 o 1 shrWord s
/-- sar (R297). -/
def execSar (o : T3) (s : State) : Out := int2 o 1 sarWord s
/-- bfi (R298). -/
def execBfi (o : T3d) (s : State) : Out := int3 o 1 bfiWord s
/-- bperm (R299). -/
def execBperm (o : T3d) (s : State) : Out := int3 o 1 bpermWord s

/-- The result of sel: each lane of the mask takes a or b by its predicate (R300). -/
def selVec (mask pick : Mask) (a b : Vec) : Vec :=
  if mask &&& ~~~ pick = 0 then a
  else if mask &&& pick = 0 then b
  else .g (laneList.map fun l => if pick.getLsbD l then a.lane l else b.lane l)

/-- sel: the guard selects and does not mask (R300). -/
def execSel (o : T3) (s : State) : Out :=
  issue { useT3 o true with legal := legalSel o } s fun c =>
    let c := { c with act := c.st.mask }
    c.unmarked s c.vals
      (c.finishVec s o.d 1 ⟨selVec c.act (c.st.guardMask o.g.toNat) (c.val 0).v (c.val 1).v, []⟩)

/-- iaddi (R301): A stays A. -/
def execIaddi (o : TI) (s : State) : Out :=
  issue (useTI o) s fun c => c.unmarked s c.vals
    (c.finishVec s o.d 1 ⟨addVec c.act false (c.val 0).v (.u (o.imm.signExtend 32)), []⟩)
/-- andi (R301). -/
def execAndi (o : TI) (s : State) : Out := immInstr (useTI o) (· &&& o.imm.setWidth 32) s
/-- ori (R301). -/
def execOri (o : TI) (s : State) : Out := immInstr (useTI o) (· ||| o.imm.setWidth 32) s
/-- xori (R301). -/
def execXori (o : TI) (s : State) : Out := immInstr (useTI o) (· ^^^ o.imm.setWidth 32) s
/-- shli (R301). -/
def execShli (o : TIs) (s : State) : Out := immInstr (useTIs o) (shlWord · (o.n.setWidth 32)) s
/-- shri (R301). -/
def execShri (o : TIs) (s : State) : Out := immInstr (useTIs o) (shrWord · (o.n.setWidth 32)) s
/-- sari (R301). -/
def execSari (o : TIs) (s : State) : Out := immInstr (useTIs o) (sarWord · (o.n.setWidth 32)) s

/-- movil (R302). -/
def execMovil (o : TL) (s : State) : Out :=
  issue ⟨legalTL o, true, true, [], [], o.d, 0, o.e, 4, []⟩ s fun c =>
    c.finishVec s o.d 1 (RVal.ofWord (o.imm.setWidth 32))
/-- movih (R302): merges with the low half of d. -/
def execMovih (o : TLd) (s : State) : Out :=
  issue ⟨legalTLd o, true, true, [], (dstReg o.d).toList, o.d, 0, o.e, 4, []⟩ s fun c =>
    let d := c.dval o.d
    c.unmarked s [d] (c.finishArith s o.d 1 (lanewise c.act [d.v]
      (one fun x => quiet (o.imm.setWidth 32 <<< 16 ||| x &&& 0xFFFF))))

/-- mov (R302). -/
def execMov (o : T2) (s : State) : Out := moveVal (useT2 o true) s
/-- popc (R296). -/
def execPopc (o : T2) (s : State) : Out := int1 o popcWord s
/-- clz (R296). -/
def execClz (o : T2) (s : State) : Out := int1 o clzWord s
/-- brev (R296). -/
def execBrev (o : T2) (s : State) : Out := int1 o brevWord s
/-- ineg (R296). -/
def execIneg (o : T2) (s : State) : Out := int1 o (fun a => -a) s
/-- iabs (R296). -/
def execIabs (o : T2) (s : State) : Out := int1 o iabsWord s
/-- bfx (R298). -/
def execBfx (o : T2d) (s : State) : Out := vecInstrD (useT2d o true) 1 (two fun a d => quiet (bfxWord a d)) s
/-- sext (R297). -/
def execSext (o : T2n) (s : State) : Out :=
  vecInstr (useT2n o true) 1 (one fun a => quiet (sextWord o.n.toNat a)) s
/-- rotl (R297). -/
def execRotl (o : T2n) (s : State) : Out :=
  vecInstr (useT2n o true) 1 (one fun a => quiet (a.rotateLeft o.n.toNat)) s

/-- 16-bit mov (R261, R302). -/
def execMovH16 (o : H16) (s : State) : Out := moveVal (useMovH16 o) s
/-- 16-bit iadd (R261, R296). -/
def execIaddH16 (o : H16) (s : State) : Out := addSub (useH16 o true) false s
/-- 16-bit isub (R261, R296). -/
def execIsubH16 (o : H16) (s : State) : Out := addSub (useH16 o true) true s
/-- 16-bit imul (R261, R296). -/
def execImulH16 (o : H16) (s : State) : Out := intH o 3 (· * ·) s
/-- 16-bit and (R261, R297). -/
def execAndH16 (o : H16) (s : State) : Out := intH o 1 (· &&& ·) s
/-- 16-bit or (R261, R297). -/
def execOrH16 (o : H16) (s : State) : Out := intH o 1 (· ||| ·) s
/-- 16-bit xor (R261, R297). -/
def execXorH16 (o : H16) (s : State) : Out := intH o 1 (· ^^^ ·) s
/-- 16-bit andn (R261, R297). -/
def execAndnH16 (o : H16) (s : State) : Out := intH o 1 (fun a b => a &&& ~~~ b) s
/-- 16-bit shl (R261, R297). -/
def execShlH16 (o : H16) (s : State) : Out := intH o 1 shlWord s
/-- 16-bit shr (R261, R297). -/
def execShrH16 (o : H16) (s : State) : Out := intH o 1 shrWord s
/-- 16-bit sar (R261, R297). -/
def execSarH16 (o : H16) (s : State) : Out := intH o 1 sarWord s

end Sys2Proof.Machine
end

