-- ==== Sys2Proof/Config.lean ====
section
/-! DEFINITION. What the manual leaves open and what an implementation fixes: constants without a body, so that no
proof can see their values. Each is named in the assumption log. -/

namespace Sys2Proof.Config

/-- A free choice where the manual lets the device take any of several outcomes (R35 random row, R36 reread, R41,
R111 nonces, R198): the value for draw number `n` (log entry 9). -/
opaque draw : Nat → Nat

/-- The tick correction that the servo applies at one weighting of the timing sources (R60 to R62): servo state and
measured offset to a new offset (log entry 8). -/
opaque servo : Nat → Int → Int

/-- SHA3-256 of bytes, as a number (log entry 7). -/
opaque sha3 : List Byte → Nat

/-- Whether an ML-DSA signature by `key` over a message verifies (log entry 7). -/
opaque mldsaVerify : (key : Nat) → (msg : List Byte) → (sig : List Byte) → Bool

/-- The ML-DSA signature that a private key makes over a message (log entry 7). -/
opaque mldsaSign : (key : Nat) → (msg : List Byte) → List Byte

/-- The private ML-DSA-44 key that SHAKE256 derives from bytes, and the public key of a private one (R110, log entry 7). -/
opaque deriveKey : List Byte → Nat
opaque publicKey : (key : Nat) → List Byte

/-- The unique device secret in the fuses (R110). -/
opaque uds : List Byte

/-- AES-256-GCM opening (R115): key, initialisation vector, associated data, cipher text and tag to the plain text, when
the tag is right (log entry 7). -/
opaque gcmOpen : (key iv : Nat) → (aad cipher : List Byte) → (tag : Nat) → Option (List Byte)

/-- AES-256-GCM sealing (R52, R115): key, initialisation vector, associated data and plain text to cipher text and tag (log entry 7). -/
opaque gcmSeal : (key iv : Nat) → (aad plain : List Byte) → List Byte × Nat

/-- AES-256-XTS of a 64 B beat (R114): key pair, tweak and plain text to cipher text (log entry 7). -/
opaque xtsSeal : (key tweak : Nat) → (plain : List Byte) → List Byte

/-- The vendor's root certificate and the identity key's certificate, which the boot store holds (R110, R111). -/
opaque vendorChain : List Byte

/-- Digest of the ROM, of the boot stages and of the configuration that are measured (R112), by measurement index. -/
opaque measurement : Nat → Nat

/-- The vendor key digest held in fuses (R99). -/
opaque vendorKey : Nat

/-- What a host reads at a doorbell word whose tail the device keeps (R80, R83; log entry 58). -/
opaque doorbellRead : (tail : Nat) → Nat

/-- The key of a link direction (R52): the transmitter's and the receiver's pod numbers, the port, and how many rotations have taken
effect (log entry 7). -/
opaque linkKey : (tx rx port gen : Nat) → Nat

/-- The runs of the section of another device in the pod image of an IMAGE_ID: schedule frame, leaf, port, whether it is a transmit run, and
its record (R66, R67). The whole image fixes them; a device holds its own section alone (log entry 13). -/
opaque farSection : (imageId dev : Nat) → List (Nat × Nat × Nat × Bool × Nat)

/-- How far after the earliest tick the other end of a request route answers, where the sections of the pod give the route no way there or no
way back (R56, R213; log entry 13). -/
opaque returnTick : Nat → Nat

end Sys2Proof.Config
end

