-- ==== Sys2Proof/Machine/GridOps.lean ====
section
/-! DEFINITION. What a context image says: header, templates, set table, core records, schedule entries (R125, R126, R130,
R132, R133, R135, R203). -/

namespace Sys2Proof.Machine

/-- A little-endian field of a list of bytes. -/
def getLE (bs : List Byte) (off n : Nat) : Nat := leNat ((bs.drop off).take n)

/-- Read a header (R125). -/
def readHeader (b : List Byte) : Header where
  format := getLE b 0 4
  layout := getLE b 4 2
  kind := getLE b 6 1
  flags := getLE b 7 1
  cbase := getLE b 8 2
  ncore := getLE b 10 2
  tpc := getLE b 12 1
  wpt := getLE b 13 1
  duty := getLE b 14 1
  regs := getLE b 15 1
  sbase := getLE b 16 1
  scru := getLE b 17 1
  cunit := getLE b 18 1
  wbase := getLE b 19 1
  ds := getLE b 20 2
  ntpl := getLE b 22 2
  gmax := getLE b 24 4
  gcount := getLE b 28 4
  iters := getLE b 32 4
  tmax := getLE b 36 4
  entryA := getLE b 40 4
  entryE := getLE b 44 4
  restoreA := getLE b 48 4
  restoreE := getLE b 52 4
  code := getLE b 56 8
  tpl := getLE b 64 8
  sets := getLE b 72 8
  cores := getLE b 80 8
  save := getLE b 88 8
  savesz := getLE b 96 4
  codelen := getLE b 100 4
  resume := getLE b 104 8
  cursors := getLE b 112 8
  fmt := (List.range 8).map fun k => getLE b (120 + 4 * k) 4
  boundary := getLE b 152 8

/-- A header of zeros: the header of a grid before its staging read one. -/
def Header.blank : Header := readHeader []

/-- A grid before its staging (R125, R134). -/
def Grid.fresh (part lq prio image take : Nat) (d : Option Nat) (start : Nat) : Grid where
  part := part
  lq := lq
  prio := prio
  cmd := none
  eng := none
  image := image
  take := take
  d := d
  start := start
  reuse := false
  indirect := none
  stager := none
  unmapped := false
  s0 := none
  total := 0
  moved := 0
  staged := none
  checked := false
  imageFault := none
  count := none
  slip0 := []
  hdr := Header.blank
  groups := 0
  pages := []
  land := []
  poss := []
  freeze := none
  firstIssue := none
  lastExit := 0
  maxWct := 0
  stopped := false
  killed := false
  arrivals := []
  phases := []
  bcount := 0
  ecount := []
  formed := []
  sent := []
  status := none
  failCode := 0

/-- The bytes of a header (R141). -/
def Header.bytes (h : Header) : List Byte :=
  leBytes 4 h.format ++ leBytes 2 h.layout ++ leBytes 1 h.kind ++ leBytes 1 h.flags ++ leBytes 2 h.cbase ++
  leBytes 2 h.ncore ++ leBytes 1 h.tpc ++ leBytes 1 h.wpt ++ leBytes 1 h.duty ++ leBytes 1 h.regs ++
  leBytes 1 h.sbase ++ leBytes 1 h.scru ++ leBytes 1 h.cunit ++ leBytes 1 h.wbase ++ leBytes 2 h.ds ++
  leBytes 2 h.ntpl ++ leBytes 4 h.gmax ++ leBytes 4 h.gcount ++ leBytes 4 h.iters ++ leBytes 4 h.tmax ++
  leBytes 4 h.entryA ++ leBytes 4 h.entryE ++ leBytes 4 h.restoreA ++ leBytes 4 h.restoreE ++
  leBytes 8 h.code ++ leBytes 8 h.tpl ++ leBytes 8 h.sets ++ leBytes 8 h.cores ++ leBytes 8 h.save ++
  leBytes 4 h.savesz ++ leBytes 4 h.codelen ++ leBytes 8 h.resume ++ leBytes 8 h.cursors ++
  (h.fmt.map (leBytes 4)).flatten ++ leBytes 8 h.boundary ++ leBytes 96 0

/-- FLAGS.POD and FLAGS.DET (R125). -/
def Header.pod (h : Header) : Bool := h.flags.testBit 0
def Header.det (h : Header) : Bool := h.flags.testBit 1

/-- Execute and access registers of a warp (R125, R137). -/
def Header.xregs (h : Header) : Nat := [16, 32, 64, 112].getD (h.regs % 4) 16
def Header.aregs (h : Header) : Nat := if h.regs.testBit 2 then 32 else 16
/-- Execute and access blocks of a warp (R137). -/
def Header.xblocks (h : Header) : Nat := 2 ^ (h.regs % 4)
def Header.ablocks (h : Header) : Nat := if h.regs.testBit 2 then 2 else 1

/-- Offsets of the parts of a launch-store copy: header, code, templates, sets, core records, cursors (R129). -/
def Header.tplOff (h : Header) : Nat := 256 + h.codelen
def Header.setOff (h : Header) : Nat := h.tplOff + 64 * h.ntpl
def Header.coreOff (h : Header) : Nat := h.setOff + 4096
def Header.curOff (h : Header) : Nat := h.coreOff + 1056 * h.ncore
/-- Task positions P (R129). -/
def Header.npos (h : Header) : Nat := h.ncore * h.tpc
/-- B of R129. -/
def Header.staged (h : Header) : Nat := h.curOff + (if h.kind = 1 then 8 * h.npos else 0)

/-- The device virtual address of a byte of the staged sequence (R125, R129): an address field's reserved bits, which R127 judges apart, take no
part in it. -/
def Header.srcVa (h : Header) (image off : Nat) : Nat :=
  let at52 (a : Nat) : Nat := a % 2 ^ 52
  if off < 256 then image + off
  else if off < h.tplOff then at52 h.code + (off - 256)
  else if off < h.setOff then at52 h.tpl + (off - h.tplOff)
  else if off < h.coreOff then at52 h.sets + (off - h.setOff)
  else if off < h.curOff then at52 h.cores + (off - h.coreOff)
  else at52 h.cursors + (off - h.curOff)

/-- Read a template (R203). -/
def readTemplate (b : List Byte) : Template where
  kind := getLE b 0 1
  sfmt := getLE b 1 1
  dfmt := getLE b 2 1
  flags := getLE b 3 1
  ilv := getLE b 4 1
  op := getLE b 5 1
  rsv6 := getLE b 6 2
  ext := [getLE b 8 4, getLE b 12 4, getLE b 16 4]
  ten := [getLE b 20 4, getLE b 24 4, getLE b 28 4]
  hstr1 := getLE b 32 4
  hstr2 := getLE b 36 4
  hsoff := getLE b 40 4
  fill := getLE b 44 4
  nfmt := getLE b 48 4
  aux := getLE b 52 4
  rsv56 := getLE b 56 8

def Template.clip (t : Template) : Bool := t.flags.testBit 0
def Template.scales (t : Template) : Bool := t.flags.testBit 1
def Template.toq (t : Template) : Bool := t.flags.testBit 2
def Template.qreg (t : Template) : Nat := field t.flags 3 3
def Template.e (t : Template) (k : Nat) : Nat := t.ext.getD k 0
def Template.tn (t : Template) (k : Nat) : Nat := t.ten.getD k 0

/-- A template with every field zero. -/
def Template.blank : Template := readTemplate []

/-- A grid whose end needs no more of it: its staging is over or never began, and no position holds anything. -/
def Grid.spent (g : Grid) : Bool :=
  g.status.isSome && (g.s0.isNone || g.checked) && g.poss.all fun (e : Nat × PosState) => match e.2.phase with
    | .waiting => true
    | .released => true
    | _ => false

/-- Some grid waits for the staging of another (R129): a dispatch of the same graph node. -/
def State.wanted (s : State) (gid : Nat) : Bool :=
  s.grids.any fun (e : Nat × Grid) => decide (e.2.stager = some gid) && e.2.status.isNone && !e.2.checked

/-- A grid gets a final status: its copy is no longer used by it (R129). -/
def State.dropGrid (s : State) (gid : Nat) (st : Status) : State :=
  let s := s.updGrid gid fun g => { g with status := some (g.status.getD st) }
  { s with copies := s.copies.map fun (c : LaunchCopy) => { c with users := c.users.filter (· ≠ gid) } }

/-- The graph of a staged node ends (R129): its copy is kept while a dispatch of the node waits for it. -/
def State.endStager (s : State) (gid : Nat) : State :=
  if s.wanted gid then s.updGrid gid fun g => { g with status := some (g.status.getD .done) } else s.dropGrid gid .done

/-- A grid still uses its copy (R129): it has no final status, or a dispatch of its node waits for it. -/
def State.usesCopy (s : State) (gid : Nat) : Bool :=
  (match s.grids.find? gid with
    | some g => g.status.isNone
    | none => false) || s.wanted gid

/-- Records of ended grids that nothing needs any more go. -/
def State.sweepGrids (s : State) : State :=
  { s with
    grids := s.grids.filter fun (e : Nat × Grid) => !(e.2.spent && !s.wanted e.1)
    copies := s.copies.map fun (c : LaunchCopy) => { c with users := c.users.filter s.usesCopy } }

/-- The launch-store copy that a grid uses (R129, R136). -/
def State.copyOf (s : State) (g : Nat) : Option LaunchCopy := s.copies.find? fun c => c.users.contains g

/-- A grid's copy bytes. -/
def State.imageBytes (s : State) (g : Nat) : List Byte := ((s.copyOf g).map (·.bytes)).getD []

/-- The contents of a template bank and a set bank as a grid's copy gives them (R129, R136). -/
def State.bankOf (s : State) (gid : Nat) (g : Grid) : List Byte × List Byte :=
  let b := s.imageBytes gid
  ((b.drop g.hdr.tplOff).take (64 * g.hdr.ntpl), (b.drop g.hdr.setOff).take 4096)

/-- The banks that a grid holds on a core (R136): what the placement that took them loaded, which a later grid of the same image shares; a grid without
a bank there has only its copy. -/
def State.bankAt (s : State) (gid : Nat) (g : Grid) (core : Nat) : List Byte × List Byte :=
  ((g.bankOn (core - (s.tenant g.part).slotBase)).bind fun k => s.banks.find? (core * 2 + k)).getD (s.bankOf gid g)

/-- Template n of a grid on a core (R136, R203). -/
def State.template (s : State) (gid : Nat) (g : Grid) (core n : Nat) : Template := readTemplate ((s.bankAt gid g core).1.drop (64 * n))

/-! ### Sets (R135) -/

/-- A set-table entry. -/
structure SetEntry where
  lo : Nat
  hi : Nat
  pos : Nat
  warps : Nat
  rest : Nat
deriving DecidableEq, Repr

/-- Read entry n of a set table. -/
def readSet (b : List Byte) (n : Nat) : SetEntry :=
  let e := b.drop (16 * n)
  ⟨getLE e 12 1, getLE e 13 1, getLE e 8 4, getLE e 4 4, getLE e 0 4 + getLE e 14 2⟩

/-- A warp (logical core, local position index, w) belongs to a set (R135). -/
def SetEntry.has (e : SetEntry) (core i w : Nat) : Bool :=
  e.lo ≤ core && core ≤ e.hi && e.pos.testBit i && e.warps.testBit w

/-- The set table's bytes of a grid on a core (R135, R136). -/
def State.setBytes (s : State) (gid : Nat) (g : Grid) (core : Nat) : List Byte := (s.bankAt gid g core).2

/-- The sets of a warp, ascending (R135); entry 255 is the empty set. -/
def setsOfWarp (b : List Byte) (core i w : Nat) : List Nat :=
  (List.range 255).filter fun n => (readSet b n).has core i w

/-- The set slots of a warp: 255 where unused (R135). -/
def slotsOf (l : List Nat) : List Nat := (l ++ [255, 255, 255, 255]).take 4

/-! ### Schedule entries (R132, R133) -/

/-- One entry of a position. -/
structure Entry where
  group : Nat
  first : Nat
  count : Nat
  dove : Bool
  fixup : Bool
  part : Nat
  parts : Nat
deriving DecidableEq, Repr

/-- First iteration of position j of P over N iterations (R132); `rangeLo n p p = n`. -/
def rangeLo (n p j : Nat) : Nat := j * (n / p) + min j (n % p)

/-- Number of nonempty positions whose range begins strictly inside (a, b]. -/
def cutsIn (n p a b : Nat) : Nat :=
  ((List.range p).filter fun j => decide (a < rangeLo n p j ∧ rangeLo n p j ≤ b ∧ rangeLo n p j < rangeLo n p (j + 1))).length

/-- The entry that begins at iteration x and ends before `hi`. -/
def entryAt (n p iters x hi : Nat) : Entry :=
  let g := x / iters
  let stop := min hi ((g + 1) * iters)
  let whole := decide (x % iters = 0 ∧ stop = (g + 1) * iters)
  if whole then ⟨g, 0, iters, false, false, 0, 1⟩
  else ⟨g, x % iters, stop - x, true, decide (stop = (g + 1) * iters), cutsIn n p (g * iters) x,
        1 + cutsIn n p (g * iters) ((g + 1) * iters - 1)⟩

/-- Entry `k` of position j, if it has one (R132). -/
def posEntry (groups iters p j k : Nat) : Option Entry :=
  let n := groups * iters
  let lo := rangeLo n p j
  let hi := rangeLo n p (j + 1)
  let x := if k = 0 then lo else (lo / iters + k) * iters
  if lo < hi ∧ x < hi then some (entryAt n p iters x hi) else none

/-- Number of entries of position j. -/
def posEntries (groups iters p j : Nat) : Nat :=
  let n := groups * iters
  let lo := rangeLo n p j
  let hi := rangeLo n p (j + 1)
  if lo < hi then (hi - 1) / iters - lo / iters + 1 else 0

/-- Number of entries of a grid's position. -/
def Grid.entries (g : Grid) (j : Nat) : Nat := posEntries g.groups g.hdr.iters g.npos j

/-- v3 of an entry (R133). -/
def Entry.word3 (e : Entry) : Nat := bit e.dove 31 + bit e.fixup 30 + e.part * 2 ^ 14 + e.parts

/-- The member warps (logical core, position, w) of a set whose positions hold an entry (R135), by the table of a core. -/
def State.setMembers (s : State) (gid : Nat) (g : Grid) (core n : Nat) : List (Nat × Nat × Nat) :=
  let e := readSet (s.setBytes gid g core) n
  (List.range g.npos).flatMap fun j =>
    let core := g.hdr.cbase + j / g.hdr.tpc
    if 0 < g.entries j then
      ((List.range g.hdr.wpt).filter fun w => e.has core (j % g.hdr.tpc) w).map fun w => (core, j, w)
    else []

/-- Every logical core that holds a member warp (R135, R180, R346, R347), by the table of a core. -/
def State.setCores (s : State) (gid : Nat) (g : Grid) (core n : Nat) : List Nat :=
  let e := readSet (s.setBytes gid g core) n
  ((List.range g.hdr.ncore).map (g.hdr.cbase + ·)).filter fun c =>
    (List.range g.hdr.tpc).any fun i => (List.range g.hdr.wpt).any fun w => e.has c i w

/-- Dm of R347. -/
def maxHops (sh : Nat) (cs : List Nat) : Nat :=
  cs.foldl (fun m c => cs.foldl (fun m d => max m (hops sh c d)) m) 0

end Sys2Proof.Machine
end

