-- ==== Sys2Proof/Machine/Package.lean ====
section
/-! DEFINITION. Package supplies, resets, heat, the PCI Express resets and power states of the link, and REF10M (R17 to R24,
R81, R100, R118). -/

namespace Sys2Proof.Machine

/-- Change one part of the state. -/
def State.updPkg (s : State) (f : Package → Package) : State := { s with pkg := f s.pkg }
def State.updFw (s : State) (f : Firmware → Firmware) : State := { s with fw := f s.fw }
def State.updLink (s : State) (f : Link → Link) : State := { s with link := f s.link }
def State.updTime (s : State) (f : TimeUnit → TimeUnit) : State := { s with time := f s.time }
def State.updSched (s : State) (f : Sched → Sched) : State := { s with sched := f s.sched }
def State.updSec (s : State) (f : Security → Security) : State := { s with sec := f s.sec }
def State.updPort (s : State) (p : Nat) (f : Port → Port) : State := { s with ports := s.ports.update Port.fresh p f }

/-- The dies are out of reset. -/
def State.live (s : State) : Bool := s.pkg.pwrok && !s.pkg.inReset

/-- An event of the hub or compute dies: it changes nothing while they are held in reset (R18, R19). -/
def State.onLive (s : State) (f : State → Out) : Out := if s.live then f s else .next s

/-- End of the boot store on the model's address line (R98). -/
def bootEnd : Nat := bootBase + 2 ^ 26

/-- A cold reset (R20, R100): every field takes its Reset value; the boot store with its active-slot word, the fuses, the
sensors, the fields marked Kept and the model's own bookkeeping stay. -/
def State.coldReset (s : State) : State :=
  { State.reset with
    mem := s.mem.filter fun c => decide (bootBase ≤ c.1 ∧ c.1 < bootEnd)
    agenda := s.agenda
    pkg := { Package.reset with
      pwrok := s.pkg.pwrok
      seqErr := s.pkg.seqErr
      droop := s.pkg.droop
      railDroop := s.pkg.railDroop
      railOk := s.pkg.railOk
      temp := s.pkg.temp
      strap := s.pkg.strap
      pps := s.pkg.pps }
    fw := { Firmware.reset with activeSlot := s.fw.activeSlot }
    sec := { Security.reset with minSvn := s.sec.minSvn }
    fresh := s.fresh
    draw := s.draw }

/-- PWROK_RISE (R14, R18, R20, R101): the checks, then bring-up or SEQ_ERR. Nothing happens while PWROK is already high. An untied test
land asserts ALERT_N as a failed check does. DESIGN CHOICE (log entry 58): R14 names SEQ_ERR and the reset alone. -/
def execPwrokRise (railsOk : BitVec 10) (inOrder landsTied : Bool) (strap : BitVec 4) (s : State) : Out :=
  if s.pkg.pwrok then .next s
  else
    let ok := decide (railsOk = 0x3FF) && inOrder && landsTied
    let s := s.coldReset.updPkg fun p => { p with pwrok := true, railOk := railsOk, strap := strap }
    if ok then .next (s.updFw fun f => { f with phase := 1 })
    else .next (s.updPkg fun p => { p with seqErr := true, alert := true, inReset := true, lasers := false })

/-- PWROK_FALL (R17, R18): every die is held in reset. -/
def execPwrokFall (s : State) : Out :=
  .next (s.coldReset.updPkg fun p => { p with pwrok := false, inReset := true, lasers := false })

/-- The device stops and is in reset until PWROK cycles (R19). -/
def State.droopReset (s : State) : State := s.updPkg fun p => { p with stopAtLeaf := false, stopped := true, inReset := true }

/-- RAIL_DROOP (R19, R20): the rail monitors change, and `past` names the rails that have been out of tolerance for more than 1 µs. After
bring-up has begun, such a rail other than VDD_AUX is recorded, and the device stops at the next leaf boundary, or at once while no GTC
counts leaves. -/
def execRailDroop (monitor past : BitVec 10) (s : State) : Out :=
  let bits := past &&& ~~~ monitor &&& 0x3FE
  let s := s.updPkg fun p => { p with railOk := monitor }
  if bits = 0 ∨ !s.pkg.pwrok ∨ s.fw.phase = 0 then .next s
  else
    let s := s.updPkg fun p => { p with droop := true, alert := true, railDroop := p.railDroop ||| bits }
    .next (if s.live && s.time.counting then s.updPkg fun p => { p with stopAtLeaf := true } else s.droopReset)

/-- The leaf boundary after a droop (R19): issue and transmission have stopped and the device is in reset. -/
def State.droopStop (s : State) : State := if s.pkg.stopAtLeaf && decide (leafTick s.gtc = 0) then s.droopReset else s

/-- The hottest die sensor reads a temperature (R24): an alert from 100 °C, and from 110 °C a stop until PWROK cycles. -/
def State.setTemp (s : State) (temp : Nat) : State :=
  s.updPkg fun p =>
    let p : Package := { p with temp := temp, alert := p.alert || decide (100 ≤ temp) }
    if 110 ≤ temp then { p with thermtrip := true, lasers := false, stopped := true } else p

/-- OVERTEMP_ALERT (R24): the hottest sensor reaches 100 °C. -/
def execOvertempAlert (s : State) : Out := .next (s.setTemp (max s.pkg.temp 100))

/-- THERMTRIP (R24): a sensor reaches 110 °C; the device stays stopped until PWROK cycles. -/
def execThermtrip (s : State) : Out := .next (s.setTemp (max s.pkg.temp 110))

/-- Bundles can be sent: the dies run, nothing has stopped them and the lasers are lit (R19, R24). -/
def State.mayTransmit (s : State) : Bool := s.live && !s.pkg.stopped && s.pkg.lasers

/-- VDD_AUX_LOST (R20): the always-on domain stops and PKG_SUPPLY_STATUS is cleared. -/
def execVddAuxLost (s : State) : Out :=
  .next (s.coldReset.updPkg fun p => { p with pwrok := false, inReset := true, lasers := false, seqErr := false, droop := false
                                              railDroop := 0, railOk := 0 })

/-! ### PCI Express (R81, R100, R118) -/

/-- Bit 3 ends the IDE streams, whose keys go with them (R81, R100, R115). -/
def State.endIde (s : State) : State :=
  { s with tenants := s.tenants.map fun (e : Nat × Tenant) => (e.1, { e.2 with ideBound := false }) }

/-- PERST_ASSERT (R81): packet fetching pauses, the IDE streams and the SPDM sessions end. -/
def execPerstAssert (s : State) : Out :=
  .next (s.endIde.updLink fun l =>
    { l with up := false, busMaster := false, negotiated := false, opening := [], sessions := [], leaving := [] })

/-- PERST_DEASSERT (R18, R100): the PCIe controller and link, configuration space, MSI-X, DOE mailboxes and IDE are reset; the function is
in D0. -/
def execPerstDeassert (s : State) : Out :=
  s.onLive fun s => .next (s.endIde.updLink fun l =>
    { l with up := true, busMaster := false, d3 := false, negotiated := false, opening := [], sessions := [], replies := [], msix := []
             leaving := [] })

/-- Fetching goes on at each ring's RING_HEAD (R81). -/
def State.refetch (s : State) : State := { s with rings := s.rings.map fun (e : Nat × Ring) => (e.1, { e.2 with fetched := [] }) }

/-- BUS_MASTER_ENABLE (R81): packet fetching goes on at each ring's RING_HEAD. -/
def execBusMasterEnable (s : State) : Out :=
  s.onLive fun s => .next ((if s.link.busMaster then s else s.refetch).updLink fun l => { l with up := true, busMaster := true })

/-- D3HOT_ENTRY (R118): packet fetching pauses. -/
def execD3hotEntry (s : State) : Out := s.onLive fun s => .next (s.updLink fun l => { l with d3 := true })

/-- D0_ENTRY (R118, R119): the device is ACTIVE again, and packet fetching goes on as after PERST_N. -/
def execD0Entry (s : State) : Out :=
  s.onLive fun s =>
    if s.link.d3 then .next (((s.refetch).updLink fun l => { l with d3 := false }).updSec fun c => { c with power := 0 }) else .next s

/-- REF10M (R21, R62): the frequency reference is lost or returns. -/
def execRef10m (present : Bool) (s : State) : Out := .next (s.updTime fun t => { t with refOk := present })

end Sys2Proof.Machine
end

