-- ==== Sys2Proof/Machine/Bringup.lean ====
section
/-! DEFINITION. Bring-up, recovery, the firmware event queue and firmware update (R96 to R109). -/

namespace Sys2Proof.Machine

/-- PKG_SUPPLY_STATUS (R20). -/
def State.supplyStatus (s : State) : Nat :=
  bit s.pkg.seqErr 31 + bit s.pkg.droop 30 + s.pkg.railDroop.toNat * 2 ^ 10 + s.pkg.railOk.toNat

/-! ### Firmware images (R98, R99) -/

/-- Base of a firmware slot in the boot store: A is false, B is true (log entry 15). -/
def slotBase (b : Bool) : Nat := bootBase + if b then 2 ^ 25 else 0

/-- An image is valid (R98, R99). -/
def State.imageValid (s : State) (a : Nat) : Bool :=
  decide (s.natAt a 4 = 1) && decide (4096 ≤ s.natAt (a + 8) 4 ∧ s.natAt (a + 8) 4 ≤ 2 ^ 25 - 4096) &&
  (s.bytesAt (a + 12) 20).all (· = 0) && (s.bytesAt (a + 3796) 300).all (· = 0) &&
  decide (s.sec.minSvn ≤ s.natAt (a + 4) 2) &&
  (let key := s.bytesAt (a + 2484) 1312
   decide (Config.sha3 key = Config.vendorKey) &&
   Config.mldsaVerify (leNat key) (leBytes 32 (Config.sha3 (s.bytesAt a 64))) (s.bytesAt (a + 64) 2420) &&
   decide (Config.sha3 (s.bytesAt (a + 4096) (s.natAt (a + 8) 4)) = s.natAt (a + 32) 32))

/-- SVN and LAYOUT of an image. -/
def State.imageSvn (s : State) (a : Nat) : Nat := s.natAt (a + 4) 2
def State.imageLayout (s : State) (a : Nat) : Nat := s.natAt (a + 6) 2

/-- A layout that firmware of layout `l` reads (R98). -/
def layoutReadable (l x : Nat) : Bool := decide (x ≤ l ∧ l ≤ x + 2)

/-- Bring-up ends on a failure (R103). -/
def State.bringupFail (s : State) (code : Nat) : State :=
  (s.updFw fun f => { f with fail := true, failCode := code }).updPkg fun p => { p with alert := true }

/-- Bring-up is in a phase and has not failed. -/
def State.inPhase (s : State) (p : Nat) : Bool := s.live && decide (s.fw.phase = p) && !s.fw.fail

/-- The running firmware is the image at an address (R98, R103, R109, R112). -/
def State.runFw (s : State) (a : Nat) (slot : Bool) : State :=
  s.updFw fun f => { f with slot := slot, svn := s.imageSvn a, layout := s.imageLayout a, hdr := s.bytesAt a 64 }

/-- Firmware starts from an image at an address, and phase 2 begins (R103). -/
def State.startFw (s : State) (a : Nat) (slot : Bool) : State := (s.runFw a slot).updFw fun f => { f with phase := 2 }

/-- Phase 5 begins (R103, R104). -/
def State.enterPhase5 (s : State) : State :=
  let now := s.gtc
  s.updFw fun f => { f with phase := 5, phaseAt := now }

/-- Beats of a stack on a data tick, and bytes and segments of a stack (R25, R28, R105). -/
def stackBeats : Nat := 39
def stackBytes : Nat := 2 ^ 36
def stackSegments : Nat := 2 ^ 28

/-- The bound of phase 5 (R103, R105). -/
def initBound : Nat := 37978112

/-- Zeroing that began on a tick and writes some beats of each stack: the first tick of the leaf from which it reads back (R105). -/
def readBackFrom (since beats : Nat) : Nat := (nthData (since + 1) (ceilDiv beats stackBeats) / 4096 + 1) * 4096

/-- The tick on which phase 5 has written every byte and, from the next leaf on, read back one beat of every segment (R105); by its bound (R103).
DEDUCED (log entry 36): a phase that begins late in a leaf would pass the bound by up to 850 t at 39 beats a tick. -/
def State.initEnd (s : State) : Nat :=
  min (nthData (readBackFrom s.fw.phaseAt (stackBytes / 64)) (ceilDiv stackSegments stackBeats)) (s.fw.phaseAt + initBound)

/-- Phase 5 ends on this tick, or has not ended yet (R103, R105). -/
def State.initDue (s : State) : Bool := s.inPhase 5 && s.time.counting && decide (s.initEnd ≤ s.gtc)

/-- ROM_BOOT (R99, R101, R103): phase 1. -/
def execRomBoot (s : State) : Out :=
  if !(s.inPhase 0 || s.inPhase 1) then .next s
  else
    let s := s.updFw fun f => { f with phase := 1 }
    let boot := s.pkg.strap.toNat % 4
    if boot = 3 then .next (s.bringupFail 1)
    else if boot = 2 then .next (s.updFw fun f => { f with recBoot := true })
    else
      let first := xor s.fw.activeSlot (decide (boot = 1))
      if s.imageValid (slotBase first) then .next (s.startFw (slotBase first) first)
      else if s.imageValid (slotBase !first) then .next (s.startFw (slotBase !first) !first)
      else .next (s.bringupFail 2)

/-- PLL_LOCK (R103): phase 2. -/
def execPllLock (s : State) : Out := .next (if s.inPhase 2 then s.updFw fun f => { f with phase := 3 } else s)

/-- The device joins its pod (R42, R44): its number, the pod's size and the path delays that were measured. -/
def State.joinPod (s : State) (j : PodJoin) : State :=
  (j.delays.foldl (fun s (d : Nat × Nat × Nat) => s.updPort d.1 fun x => { x with delays := x.delays.put d.2.1 d.2.2 }) s).updSched fun c =>
    { c with podNumber := j.number.val, podSize := some j.size }

/-- TUNING_AND_TRAINING_DONE (R42, R44, R57, R103): phase 3, in which the device also joins its pod. DESIGN CHOICE (log entry 43): R42 does not
say when firmware assigns the pod number. -/
def execTuningAndTrainingDone (failedPorts : BitVec 16) (stacksOk : BitVec 8) (join : PodJoin) (s : State) : Out :=
  if !s.inPhase 3 then .next s
  else
    let s := s.updFw fun f => { f with darkPorts := failedPorts }
    let s := s.joinPod join
    let s := (List.range 16).foldl (fun s p => if failedPorts.getLsbD p then s.updPort p fun x => { x with dead := true } else s) s
    if stacksOk = 0xFF then .next (s.updFw fun f => { f with phase := 4, tuned := true }) else .next (s.bringupFail 4)

/-- MEMORY_INIT_DONE (R103, R105, R106): phase 5 has zeroed HBM, once its beats have moved; READY follows, or failure 5. -/
def execMemoryInitDone (readBackUe : Bool) (s : State) : Out :=
  if !s.inPhase 5 || decide (s.gtc < s.initEnd) then .next s
  else
    let s := { s with mem := Mem.clear s.mem 0 hbmEnd, poison := s.poison.filter fun e => decide (hbmEnd ≤ e.1) }
    if readBackUe then .next (s.bringupFail 5) else .next (s.updFw fun f => { f with phase := 6, ready := true })

/-- BRINGUP_PHASE_TIMEOUT (R103): the bound of the current phase passes; that of phase 5 is counted by the GTC. Phase 1 has no bound while the ROM waits for a
recovery image (R102). -/
def execBringupPhaseTimeout (s : State) : Out :=
  let p := s.fw.phase
  if !s.inPhase p || decide (p = 1 ∧ s.fw.recBoot ∧ s.fw.recState ≠ 2) then .next s
  else if p = 1 then .next (s.bringupFail 2)
  else if p = 2 then .next (s.bringupFail 3)
  else if p = 3 then .next (s.bringupFail 4)
  else if p = 5 ∧ s.fw.phaseAt + initBound < s.gtc then .next (s.bringupFail 5)
  else .next s

/-- GTC_DISCIPLINE_TIMEOUT (R104): phase 4 ends at its bound; without a Sync the GTC starts at 0. -/
def execGtcDisciplineTimeout (s : State) : Out :=
  if !s.inPhase 4 then .next s
  else if s.time.counting then .next s.enterPhase5
  else .next (({ s with gtc := 0 }.updTime fun t => { t with counting := true }).enterPhase5.updFw fun f =>
    { f with timeFree := true })

/-- Sealed records on their way out are answered on their delivery ticks (R31, R115). -/
def State.deliverRecords (s : State) : State :=
  let due (x : Nat × Nat × Reply) : Bool := decide (x.2.1 ≠ 0 ∧ x.2.1 ≤ s.gtc)
  if s.link.leaving.any due then
    s.updLink fun l => { l with replies := l.replies ++ (l.leaving.filter due).map (·.2.2), leaving := l.leaving.filter fun x => !due x }
  else s

/-! ### Recovery over SMBus (R102) -/

/-- The device answers. -/
def State.reply (s : State) (r : Reply) : State := s.updLink fun l => { l with replies := l.replies ++ [r] }

/-- The SMBus address (R101). -/
def State.smbAddr (s : State) : Nat := 0x50 + s.pkg.strap.toNat / 4

/-- An SMBus transaction: the device answers at its own address alone (R101). -/
def State.onSmb (s : State) (addr : BitVec 7) (f : State → State) : Out := .next (if addr.toNat = s.smbAddr then f s else s)

/-- The ROM takes part in a recovery boot (R102). -/
def State.inRecovery (s : State) : Bool := s.live && s.fw.recBoot

/-- A transaction that the ROM answers with NACK (R102): outside phase 1 of a recovery boot, with a wrong PEC, or in state 2 or 4. -/
def State.recoveryNack (s : State) (pecOk : Bool) : Bool :=
  !s.inRecovery || !s.inPhase 1 || !pecOk || decide (s.fw.recState = 2 ∨ s.fw.recState = 4)

/-- RECOVERY_STATUS (R20, R102): the read word of 0xB0, answered in every state of a recovery boot, and of 0x40, answered by the always-on
domain. -/
def execRecoveryStatus (addr : BitVec 7) (code : BitVec 8) (s : State) : Out :=
  s.onSmb addr fun s =>
    if code = 0x40 then s.reply (.supply s.supplyStatus)
    else if code = 0xB0 ∧ s.inRecovery then s.reply (.recovery (s.fw.recBlocks % 256 * 256 + s.fw.recState))
    else s.reply .nack

/-- RECOVERY_BLOCK_WRITE (R102): image data at an offset of hub SRAM. DESIGN CHOICE (log entry 35): a block of no data, or of more than 236 bytes,
gets NACK too; R102 gives the size and does not list it among the conditions of NACK. -/
def execRecoveryBlockWrite (addr : BitVec 7) (pecOk : Bool) (offset : Nat) (data : List Byte) (s : State) : Out :=
  s.onSmb addr fun s =>
    let n := data.length
    if s.recoveryNack pecOk || decide (offset % 4 ≠ 0 ∨ n % 4 ≠ 0 ∨ n < 4 ∨ 236 < n ∨ 2 ^ 25 < offset + n) then s.reply .nack
    else
      let s := s.putCells (plainCells (hubBase + offset) data)
      (s.updFw fun f => { f with
        recState := 1
        recBlocks := f.recBlocks + 1
        recTop := if f.recTop.1 ≤ offset then (offset, offset + n) else f.recTop }).reply .ack

/-- IMAGE_DONE (R102): verification starts. -/
def execImageDone (addr : BitVec 7) (pecOk : Bool) (s : State) : Out :=
  s.onSmb addr fun s =>
    if s.recoveryNack pecOk then s.reply .nack else (s.updFw fun f => { f with recState := 2 }).reply .ack

/-- What was received is discarded. -/
def State.dropRecovery (s : State) (st : Nat) : State :=
  { s with mem := Mem.clear s.mem hubBase (2 ^ 25) }.updFw fun f => { f with recState := st, recBlocks := 0, recTop := (0, 0) }

/-- ABORT (R102): the received image is discarded. -/
def execAbort (addr : BitVec 7) (pecOk : Bool) (s : State) : Out :=
  s.onSmb addr fun s => if s.recoveryNack pecOk then s.reply .nack else (s.dropRecovery 0).reply .ack

/-- RECOVERY_VERIFY_DONE (R102): a valid image continues phase 1, its header and body within the length received; otherwise the ROM waits for a
new image. DEDUCED (log entry 35): a body that was not received matches no digest. -/
def execRecoveryVerifyDone (s : State) : Out :=
  if !s.inRecovery || !s.inPhase 1 || decide (s.fw.recState ≠ 2) then .next s
  else if s.imageValid hubBase && decide (4096 + s.natAt (hubBase + 8) 4 ≤ s.fw.recTop.2) then
    .next ((s.startFw hubBase false).updFw fun f => { f with recState := 4 })
  else .next (s.dropRecovery 3)

/-! ### The event queue (R97) -/

/-- The firmware complex (R96): twelve cores, each with 256 KiB of private SRAM, and 8 MiB of hub SRAM that they share. -/
def fwCores : List (Fin 12) := (List.range 12).map fun k => Fin.ofNat 12 k
def hubSramBytes : Nat := 2 ^ 23
def privateSramBytes : Nat := 2 ^ 18
/-- Where a firmware core's private SRAM lies on the model's address line, above the hub's window; vendor debug reaches it there (R96, R116). -/
def privateBase (core : Fin 12) : Nat := hubBase + 2 ^ 26 + core.val * privateSramBytes
/-- Entries of the event queue (R97). -/
def eventEntries : Nat := 4096

/-- The merge unit holds an event that the full queue has no entry for (R97). -/
def State.eventHeld (s : State) : Bool := (s.fw.events.drop eventEntries).any fun e => decide (e.what = 2)

/-- Events that firmware cores run on this tick (R97). -/
def State.runningEvents (s : State) : List (Nat × FwEvent × Nat) := s.fw.cores.filter fun e => decide (s.gtc < e.2.2)

/-- A firmware core is idle (R97). -/
def State.coreIdle (s : State) (core : Fin 12) : Bool := !s.runningEvents.any fun e => decide (e.1 = core.val)

/-- The oldest event of the queue whose lock is free (R97), with its place. -/
def State.nextEvent (s : State) : Option (FwEvent × Nat) :=
  (s.fw.events.take eventEntries).zipIdx.find? fun e => match e.1.lock with
    | none => true
    | some q => !s.runningEvents.any fun r => decide (r.2.1.lock = some q)

/-- The core that takes an event on this tick: the lowest idle one (R97). None does during an activation (R109). -/
def State.takerNow (s : State) : Option (Fin 12) := if s.fw.held then none else fwCores.find? s.coreIdle

/-- Ticks that an activation takes at most: 5 ms (R109). -/
def activationBound : Nat := 6500000

/-- FW_EVENT_TAKE (R97, R109): an idle core takes the oldest event whose lock is free, and runs it to completion for a number of ticks that
is open, within the bound of R109, since an activation waits for it. What it runs may set a timer, whose event comes later. DEDUCED (log entry
59). -/
def execFwEventTake (s : State) : Out :=
  .next <| match s.takerNow, s.nextEvent with
    | some core, some (e, k) =>
      let now := s.gtc
      let (d, s) := s.drawn Config.draw
      let d := d % activationBound
      let (n, s) := s.drawn Config.draw
      s.updFw fun f => { f with events := f.events.eraseIdx k
                                cores := f.cores.put core.val (e, now + d)
                                timers := if n % 2 = 1 then f.timers ++ [now + n / 2] else f.timers }
    | _, _ => s

/-- Firmware timers that are due post their events (R97). -/
def State.ringTimers (s : State) : State :=
  let due := s.fw.timers.filter fun t => decide (t ≤ s.gtc)
  let now := s.gtc
  due.foldl (fun s _ => s.post none 5) (if due.isEmpty then s else s.updFw fun f => { f with timers := f.timers.filter fun t => decide (now < t) })

/-! ### Firmware update (R108, R109) -/

/-- Bytes of the image that firmware is to verify: its header, and a body whose length is in its range (R98). -/
def State.stagedBytes (s : State) : Nat :=
  let n := s.natAt (s.fw.stage + 8) 4
  4096 + if n ≤ 2 ^ 25 - 4096 then n else 0

/-- FW_CTRL.VERIFY (R31, R108): the staged image is read by the pool's last class. DESIGN CHOICE (log entry 65): the request counts as one of
partition 0 and queue 0. -/
def execVerify (s : State) : Out :=
  s.onLive fun s => .next (if s.fw.state = 1 ∨ s.fw.state = 3 then s
    else (s.updFw fun f => { f with state := 1, verifyAt := 0 }).askPool ⟨4, 0, 0, s.fw.stage, s.stagedBytes, .image⟩)

/-- FW_VERIFY_DONE (R31, R108): once the staged image has come, a valid one goes into the inactive slot. -/
def execFwVerifyDone (s : State) : Out :=
  s.onLive fun s =>
  if s.fw.state ≠ 1 ∨ s.fw.verifyAt = 0 ∨ s.gtc < s.fw.verifyAt then .next s
  else if s.imageValid s.fw.stage then
    let n := 4096 + s.natAt (s.fw.stage + 8) 4
    let s' := s.putCells (plainCells (slotBase !s.fw.activeSlot) (s.bytesAt s.fw.stage n))
    .next (s'.updFw fun f => { f with state := 2, result := 1 })
  else .next (s.updFw fun f => { f with state := 0, result := 3 })

/-- States of the pod schedule in which an activation is refused (R109). -/
def SchedState.busy : SchedState → Bool
  | .run => true
  | .fault => true
  | .agree => true
  | .realign => true
  | _ => false

/-- Grids of a PREEMPT that have no final status, as pending images (R109). -/
def State.pendingImages (s : State) : List StoredImage :=
  s.grids.filterMap fun (e : Nat × Grid) => if e.2.freeze.isSome ∧ e.2.status.isNone then
    some ⟨e.1, s.fw.layout, e.2.lq, e.2.hdr.resume, none, true, e.2.part, e.2.start⟩ else none

/-- FW_CTRL.ACTIVATE (R108, R109). -/
def execActivate (force : Bool) (s : State) : Out :=
  s.onLive fun s =>
  if s.fw.state = 1 ∨ s.fw.state = 3 then .next s
  else if s.fw.state ≠ 2 then .next (s.updFw fun f => { f with result := 7 })
  else if s.sched.state.busy then .next (s.updFw fun f => { f with result := 5 })
  else
    let now := s.gtc
    .next (s.updFw fun f => { f with state := 3, force := force, held := true, actAt := now, images := f.images ++ s.pendingImages })

/-- An activation that has met its bound (R109). -/
def State.activateDue (s : State) : Bool := s.live && decide (s.fw.state = 3) && decide (s.fw.actAt + activationBound ≤ s.gtc)

/-- The resumptions of deleted images are to fail with code 24, and a deleted pending image does not come back (R109). -/
def Grid.dropImages (bad : List StoredImage) (gid : Nat) (g : Grid) : Grid :=
  let lost := g.d.isNone && bad.any fun i => !i.pending && decide (i.addr = g.image ∧ i.part = g.part)
  { g with
    imageFault := if lost && g.checked then some 24 else g.imageFault
    freeze := g.freeze.map fun f => { f with dropped := f.dropped || bad.any fun i => i.pending && decide (i.grid = gid) } }

/-- FW_ACTIVATE_DONE (R109): once every firmware core has run its event to completion, the stored images are judged, and the new slot
takes over or the activation is refused. -/
def execFwActivateDone (s : State) : Out :=
  s.onLive fun s =>
  if s.fw.state ≠ 3 ∨ !s.runningEvents.isEmpty then .next s
  else
    let a := slotBase !s.fw.activeSlot
    let l := s.imageLayout a
    let bad := s.fw.images.filter fun i => !layoutReadable l i.layout
    if !bad.isEmpty && !s.fw.force then
      .next (s.updFw fun f => { f with state := 2, result := 4, held := false, images := f.images.filter fun i => !i.pending })
    else
      let s := { s with grids := s.grids.map fun (e : Nat × Grid) => (e.1, e.2.dropImages bad e.1) }
      .next ((s.runFw a !s.fw.activeSlot).updFw fun f => { f with
        state := 0
        result := if bad.isEmpty then 2 else 6
        failedQueues := if bad.isEmpty then 0 else (dedup (bad.map (·.lq))).length
        images := f.images.filter fun i => layoutReadable l i.layout
        held := false
        cores := []
        activeSlot := !f.activeSlot })

end Sys2Proof.Machine
end

