-- ==== Sys2Proof/Machine/Control.lean ====
section
/-! DEFINITION. Control transfer, divergence, exits, nop and yield, traps and checkpoints (R320 to R333). -/

namespace Sys2Proof.Machine

/-- A transfer is taken (R322). -/
def Ctx.taken (c : Ctx) : Bool := decide (c.use.guard = 0) || decide (c.st.mask &&& c.st.guardMask c.use.guard ≠ 0)

/-- A transfer issues untaken: the run ends, and the next one follows in sequence (R322). -/
def Ctx.untaken (c : Ctx) (s : State) : Out := c.finish s

/-- A taken transfer (R322): the stream's next run begins at the target; `f` is its further effect on the stream. -/
def Ctx.transfer (c : Ctx) (s : State) (target : Nat) (f : Stream → Stream) : Out :=
  .next ((c.commitTo s Latch.voidEntry target).updStream c.key c.x f)

/-- The use of a transfer without operands. -/
def useXfer (legal : Bool) (srcs : List Src) (g : BitVec 2) : Use := ⟨legal, true, true, srcs, [], .discard, g.toNat, true, 4, []⟩

/-- pc + 2 × off (R258). -/
def branchTarget (pc : Nat) (off : BitVec 21) : Int := (pc : Int) + 2 * off.toInt

/-- A branch target as an address, when it lies in the code span (R255). -/
def Grid.target? (g : Grid) (t : Int) : Option Nat := if 0 ≤ t ∧ g.inCode t.toNat then some t.toNat else none

/-- bra (R322). -/
def execBra (o : TB) (s : State) : Out :=
  issue (useXfer true [] o.g) s fun c =>
    if !c.taken then c.untaken s
    else match c.g.target? (branchTarget c.st.pc o.off) with
      | some t => c.transfer s t id
      | none => c.trap s Trap.illegal

/-- call (R322): pushes the mask and the return address. -/
def execCall (o : TB) (s : State) : Out :=
  issue (useXfer true [] o.g) s fun c =>
    if !c.taken then c.untaken s
    else if 16 ≤ c.st.stack.length then c.trap s Trap.illegal
    else match c.g.target? (branchTarget c.st.pc o.off) with
      | some t => c.transfer s t fun st => { st with stack := ⟨true, c.st.mask, c.st.pc + 4⟩ :: st.stack }
      | none => c.trap s Trap.illegal

/-- brx (R322): the target is lane 0 of a, which an untaken brx does not read (R255, R334). -/
def execBrx (o : AG) (s : State) : Out :=
  issue (useXfer (legalAG o) [o.a] o.g) s fun c =>
    if !c.taken then c.untaken s
    else match markTrap [(c.val 0, 1)] with
      | some t => c.trap s t
      | none =>
        let t := (c.lane0 0).toNat
        if t % 2 = 1 ∨ ¬ c.g.inCode t then c.trap s Trap.illegal else c.transfer s t id

/-- ret (R322): pops a call entry; the mask becomes the entry's. -/
def execRet (o : G0) (s : State) : Out :=
  issue (useXfer true [] o.g) s fun c =>
    if !c.taken then c.untaken s
    else match c.st.stack with
      | ⟨true, m, t⟩ :: r =>
        if c.g.inCode t && decide (t % 2 = 0) then c.transfer s t fun st => { st with stack := r, mask := m } else c.trap s Trap.illegal
      | _ => c.trap s Trap.illegal

/-- exit (R324): the stream ends on its issue tick. -/
def execExit (o : G0) (s : State) : Out :=
  issue (useXfer true [] o.g) s fun c =>
    if !c.taken then c.untaken s
    else .next ((c.commit s Latch.voidEntry).updWarp c.key fun w => w.exitStream c.x c.now)

/-- split (R323): pushes the mask and the reconvergence address; the mask narrows to the guard. -/
def execSplit (o : Spl) (s : State) : Out :=
  issue ⟨legalSpl o, true, true, [o.a], [], .discard, o.g.toNat, o.e, 4, []⟩ s fun c =>
    match markTrap [(c.val 0, 1)] with
    | some t => c.trap s t
    | none =>
      if 16 ≤ c.st.stack.length then c.trap s Trap.illegal
      else .next ((c.commit s Latch.voidEntry).updStream c.key c.x fun st =>
        { st with stack := ⟨false, c.st.mask, (c.lane0 0).toNat⟩ :: st.stack
                  mask := c.st.mask &&& c.st.guardMask o.g.toNat })

/-- join (R323): pops a split entry whose address is this program counter. -/
def execJoin (o : E0) (s : State) : Out :=
  issue (useE0 o) s fun c =>
    match c.st.stack with
    | ⟨false, m, t⟩ :: r =>
      if t = c.st.pc then
        .next ((c.commit s Latch.voidEntry).updStream c.key c.x fun st => { st with stack := r, mask := m })
      else c.trap s Trap.illegal
    | _ => c.trap s Trap.illegal

/-- nop (R325). -/
def execNopInstr (o : E0) (s : State) : Out := issue (useE0 o) s fun c => c.finish s

/-- yield (R325): the stream's next turn is an idle beat. -/
def execYield (o : E0) (s : State) : Out :=
  issue (useE0 o) s fun c =>
    .next ((c.commit s Latch.voidEntry).updStream c.key c.x fun st => { st with skipTurn := true })

/-- trap (R332): class 14, counted as issued. -/
def execTrap (o : E0) (s : State) : Out :=
  issue (useE0 o) s fun c => .next (s.takeCounted c.key c.x ⟨14, 0, 0⟩)

/-- The partition of a warp is open to a debugger (R116, R332). -/
def State.inDebug (s : State) (w : Warp) : Bool := s.sec.vendor || (s.tenant w.part).tdebug

/-- brk (R116, R332): a debug halt at the instruction, or class 13 counted as issued. -/
def execBrk (o : E0) (s : State) : Out :=
  issue (useE0 o) s fun c =>
    if s.inDebug c.w then c.park s .debug else .next (s.takeCounted c.key c.x ⟨13, 0, 0⟩)

/-- ckpt (R333): a pending request becomes a checkpoint trap, unless a trap is in hand. -/
def execCkpt (o : E0) (s : State) : Out :=
  issue (useE0 o) s fun c =>
    if c.st.ckptReq && !c.st.trapActive then
      let s := s.updStream c.key c.x fun st => { st with ckptReq := false }
      let s := s.updGrid c.w.grid fun g => { g with poss := g.poss.modify c.w.pos fun p => { p with cut := true } }
      .next (s.takeCounted c.key c.x ⟨12, 0, 0⟩)
    else c.finish s

/-- trapret (R331). -/
def execTrapret (s : State) : Out :=
  issue ⟨true, true, true, [], [], .discard, 0, true, 4, []⟩ s fun c =>
    if !c.st.trapActive || c.st.stack.length ≠ c.st.savedDepth then c.trap s Trap.illegal
    else
      let t := c.st.trapretTarget
      if t % 2 = 1 ∨ ¬ c.g.inCode t then c.trap s Trap.illegal
      else .next ((c.commit s Latch.voidEntry).updStream c.key c.x Stream.leaveTrap)

/-- The E bit of the word at a program counter (R256, R261). -/
def State.rawE (s : State) (core pc : Nat) : Bool := (s.byteAt (scratchCell core 0 pc)).getLsbD 1

/-- ILLEGAL_INSTRUCTION (R255, R262, R292): a fetch outside the span, or bytes that no table assigns; as the 24th of its run
with E clear such bytes fail the run-length check first. -/
def execIllegalInstruction (s : State) : Out :=
  match s.cur with
  | none => .fault .noStream
  | some (key, x) =>
    match s.warp? key with
    | none => .fault .noStream
    | some w =>
      match s.gridOf w with
      | none => .fault .noStream
      | some g =>
        let st := w.strm x
        let span := g.inCode st.pc && (!(s.byteAt (scratchCell w.core 0 st.pc)).getLsbD 0 || g.inCode (st.pc + 3))
        if span && decide (st.runCount = 23) && !s.rawE w.core st.pc then .next (s.takeTrap key x ⟨3, 0, 0⟩)
        else .next (s.takeTrap key x Trap.illegal)

end Sys2Proof.Machine
end

