-- ==== Sys2Proof/Machine/MathFn.lean ====
section
/-! DEFINITION. The special functions of R311, correctly rounded, and the noise values of R229 to R231. Transcendental
values are taken in fixed point with `fixP` fraction bits and rounded once with a sticky bit (log entry 10). -/

namespace Sys2Proof.Machine

/-- Fraction bits of the fixed-point values. -/
def fixP : Nat := 320

/-- 1.0 in fixed point. -/
def fixOne : Nat := 2 ^ fixP

/-- Integer square root, bit by bit from bit `k - 1` down. -/
def isqrtBits (n : Nat) : Nat → Nat → Nat
  | 0, r => r
  | k + 1, r => let c := r + 2 ^ k; isqrtBits n k (if c * c ≤ n then c else r)

/-- floor of the square root. -/
def isqrt (n : Nat) : Nat := isqrtBits n (Nat.log2 n / 2 + 1) 0

/-- Σ z^(2i+1) / (2i+1) with sign (-1)^i when `alt`, over `n` terms: atanh or arctan of `z`. -/
def oddSeries (alt : Bool) (z z2 : Nat) : Nat → Nat → Int
  | 0, _ => 0
  | n + 1, i =>
    let t : Int := (z / (2 * i + 1) : Nat)
    (if alt && i % 2 = 1 then -t else t) + oddSeries alt (z * z2 / fixOne) z2 n (i + 1)

/-- atanh of a fixed-point value at most 1/3. -/
def fixAtanh (z : Nat) : Nat := (oddSeries false z (z * z / fixOne) 110 0).toNat

/-- arctan(1 / d) in fixed point. -/
def fixAtanInv (d : Nat) : Nat := (oddSeries true (fixOne / d) (fixOne / (d * d)) 75 0).toNat

/-- ln 2. -/
def fixLn2 : Nat := 2 * fixAtanh (fixOne / 3)

/-- π, by Machin's formula. -/
def fixPi : Nat := 16 * fixAtanInv 5 - 4 * fixAtanInv 239

/-- Σ x^i / i! from term `t` of index `i` on. -/
def expSeries (x : Nat) : Nat → Nat → Nat → Nat
  | 0, _, _ => 0
  | n + 1, i, t => t + expSeries x n (i + 1) (t * x / fixOne / (i + 1))

/-- e^x for 0 ≤ x < 1. -/
def fixExp (x : Nat) : Nat := expSeries x 90 0 fixOne

/-- Alternating Σ of the odd Taylor terms of sine. -/
def sinSeries (x2 : Nat) : Nat → Nat → Nat → Int
  | 0, _, _ => 0
  | n + 1, i, t => (t : Int) - sinSeries x2 n (i + 1) (t * x2 / fixOne / ((2 * i + 2) * (2 * i + 3)))

/-- sin(π r) for a fixed-point r in [0, 1/2]. -/
def fixSinPi (r : Nat) : Nat :=
  let x := r * fixPi / fixOne
  (sinSeries (x * x / fixOne) 50 0 x).toNat

/-- One rounding of an inexact fixed-point magnitude. -/
def roundFix (neg : Bool) (v : Nat) : FRes := fp32.round .ne neg (2 * v + 1) (-(fixP : Int) - 1)

/-- `m * 2^e` in fixed point, floored. -/
def toFix (m : Nat) (e : Int) : Nat :=
  let s := e + fixP
  if 0 ≤ s then m * 2 ^ s.toNat else m / 2 ^ (-s).toNat

def fpNan : FRes := ⟨fp32.nan, 0⟩
def fpNanNV : FRes := ⟨fp32.nan, fNV⟩
def fpInf (neg : Bool) (fl : BitVec 6) : FRes := ⟨(if neg then fp32.signBit else 0) + fp32.inf, fl⟩
def fpZero (neg : Bool) : FRes := ⟨if neg then fp32.signBit else 0, 0⟩
def fpOne (neg : Bool) : FRes := ⟨(if neg then fp32.signBit else 0) + 0x3F800000, 0⟩

/-- 1/a (R311). -/
def frcpRes (a : Nat) : FRes :=
  match fp32.decode a with
  | .nan s => ⟨fp32.nan, if s then fNV else 0⟩
  | .inf neg => fpZero neg
  | .fin neg m e => if m = 0 then fpInf neg fDZ else fp32.round .ne neg 1 (-e) m

/-- √a (R311). -/
def fsqrtRes (a : Nat) : FRes :=
  match fp32.decode a with
  | .nan s => ⟨fp32.nan, if s then fNV else 0⟩
  | .inf neg => if neg then fpNanNV else fpInf false 0
  | .fin neg m e =>
    if m = 0 then fpZero neg
    else if neg then fpNanNV
    else
      let (m, e) := if e % 2 = 0 then (m, e) else (2 * m, e - 1)
      let n := m * 2 ^ 200
      let q := isqrt n
      if q * q = n then fp32.round .ne false q (e / 2 - 100)
      else fp32.round .ne false (2 * q + 1) (e / 2 - 101)

/-- 1/√a (R311). -/
def frsqRes (a : Nat) : FRes :=
  match fp32.decode a with
  | .nan s => ⟨fp32.nan, if s then fNV else 0⟩
  | .inf neg => if neg then fpNanNV else fpZero false
  | .fin neg m e =>
    if m = 0 then fpInf neg fDZ
    else if neg then fpNanNV
    else
      let (m, e) := if e % 2 = 0 then (m, e) else (2 * m, e - 1)
      let q := isqrt (2 ^ 400 / m)
      if q * q * m = 2 ^ 400 then fp32.round .ne false q (-(e / 2) - 200)
      else fp32.round .ne false (2 * q + 1) (-(e / 2) - 201)

/-- 2^a (R311). -/
def fex2Res (a : Nat) : FRes :=
  match fp32.decode a with
  | .nan s => ⟨fp32.nan, if s then fNV else 0⟩
  | .inf neg => if neg then fpZero false else fpInf false 0
  | .fin neg m e =>
    if m = 0 then fpOne false
    else if 10 < e + Nat.log2 m then
      fp32.round .ne false 1 (if neg then -400 else 400)
    else
      let x : Int := toFix m e
      let x := if neg then -x else x
      let n := x / (fixOne : Int)
      let f := (x % (fixOne : Int)).toNat
      if f = 0 then fp32.round .ne false 1 n
      else fp32.round .ne false (2 * fixExp (f * fixLn2 / fixOne) + 1) (n - fixP - 1)

/-- log2 a (R311). -/
def flg2Res (a : Nat) : FRes :=
  match fp32.decode a with
  | .nan s => ⟨fp32.nan, if s then fNV else 0⟩
  | .inf neg => if neg then fpNanNV else fpInf false 0
  | .fin neg m e =>
    if m = 0 then fpInf true fDZ
    else if neg then fpNanNV
    else
      let b := Nat.log2 m
      let n : Int := e + b
      if m = 2 ^ b then fp32.round .ne (n < 0) n.natAbs 0
      else
        let t := toFix m (-(b : Int))
        let l := 2 * fixAtanh ((t - fixOne) * fixOne / (t + fixOne)) * fixOne / fixLn2
        let v : Int := n * (fixOne : Int) + l
        if v < 0 then roundFix true ((-v).toNat - 1) else roundFix false v.toNat

/-- sin(π u) for a fixed-point u in [0, 2) that is no multiple of 1/2: sign and magnitude. -/
def sinPiParts (u : Nat) : Bool × Nat :=
  let h := u % fixOne
  let r := if 2 * h ≤ fixOne then h else fixOne - h
  (fixOne ≤ u, fixSinPi r)

/-- sin πa (R311). -/
def fsinpRes (a : Nat) : FRes :=
  match fp32.decode a with
  | .nan s => ⟨fp32.nan, if s then fNV else 0⟩
  | .inf _ => fpNanNV
  | .fin neg m e =>
    let u := toFix m e % (2 * fixOne)
    if u % fixOne = 0 then fpZero neg
    else if 2 * u = fixOne then fpOne neg
    else if 2 * u = 3 * fixOne then fpOne (!neg)
    else let (s, v) := sinPiParts u; roundFix (s != neg) v

/-- cos πa (R311). -/
def fcospRes (a : Nat) : FRes :=
  match fp32.decode a with
  | .nan s => ⟨fp32.nan, if s then fNV else 0⟩
  | .inf _ => fpNanNV
  | .fin _ m e =>
    let u := (toFix m e + fixOne / 2) % (2 * fixOne)
    if u % fixOne = 0 then fpZero false
    else if 2 * u = fixOne then fpOne false
    else if 2 * u = 3 * fixOne then fpOne true
    else let (s, v) := sinPiParts u; roundFix s v

/-- tanh a (R311). -/
def ftanhRes (a : Nat) : FRes :=
  match fp32.decode a with
  | .nan s => ⟨fp32.nan, if s then fNV else 0⟩
  | .inf neg => fpOne neg
  | .fin neg m e =>
    if m = 0 then fpZero neg
    else if 6 ≤ e + Nat.log2 m then fp32.round .ne neg (2 ^ 200 - 1) (-200)
    else
      let y := 2 * toFix m e
      let n := y / fixLn2
      let w := fixExp (y % fixLn2) * 2 ^ n
      roundFix neg ((w - fixOne) * fixOne / (w + fixOne))

/-! ### The noise aperture -/

/-- One round of R229 on (a, b, c, d). -/
def noiseRound (i : Nat) (t : Word × Word × Word × Word) : Word × Word × Word × Word :=
  let (a, b, c, d) := t
  let a := a + b
  let d := (d ^^^ a).rotateLeft 16
  let c := c + d
  let b := (b ^^^ c).rotateLeft 12
  let a := a + b
  let d := (d ^^^ a).rotateLeft 8
  let c := c + d
  let b := (b ^^^ c).rotateLeft 7
  (a ^^^ wordOfNat (0x9E3779B9 * (i + 1)), b, c, d)

/-- The 24-bit index k of R229 for aperture address `addr` read in elements of `z` bytes. -/
def noiseIndex (addr z : Nat) (seedLo seedHi nstep : Word) : Nat :=
  let e := (addr - 0x8000000000000) / z
  let t := (List.range 6).foldl (fun t i => noiseRound i t)
    (wordOfNat e, wordOfNat (e / 2 ^ 32) ^^^ nstep, seedLo, seedHi)
  (t.1 ^^^ t.2.2.1).toNat / 2 ^ 8

/-- Σ (-1)^n x^(2n+1) / (n! 2^n (2n+1)) in fixed point: √(2π) (Φ(x) - 1/2). -/
def phiSeries (x2 : Nat) : Nat → Nat → Nat → Int
  | 0, _, _ => 0
  | n + 1, i, t =>
    ((t / (2 * i + 1) : Nat) : Int) - phiSeries x2 n (i + 1) (t * x2 / fixOne / (2 * (i + 1)))

/-- √(2π) in fixed point. -/
def fixSqrt2Pi : Nat := isqrt (2 * fixPi * fixOne)

/-- The least code in [lo, lo + 2^n) whose upper midpoint has Φ above the target; every value lies below 5.5, code
0x40B0_0000 (R230). -/
def phiSearch (target : Nat) : Nat → Nat → Nat
  | 0, lo => lo
  | n + 1, lo =>
    let c := lo + 2 ^ n - 1
    let mid := match fp32.decode c with
      | .fin _ m e => toFix (2 * m + 1) (e - 1)
      | _ => 0
    if 0x40B00000 ≤ c ∨ (target : Int) < phiSeries (mid * mid / fixOne) 160 0 mid then phiSearch target n lo
    else phiSearch target n (lo + 2 ^ n)

/-- The FP32 code of Φ⁻¹((k + 1/2) / 2^24) (R230). -/
def quantile (k : Nat) : Nat :=
  let up := 2 ^ 23 ≤ k
  let j := if up then k else 2 ^ 24 - 1 - k
  let target := (2 * j + 1 - 2 ^ 24) * fixSqrt2Pi / 2 ^ 25
  let c := phiSearch target 28 0x33800000
  if up then c else c + fp32.signBit

/-- The aperture's FP32 value at an address (R229, R230). -/
def noiseFp32 (addr z : Nat) (seedLo seedHi nstep : Word) : Nat := quantile (noiseIndex addr z seedLo seedHi nstep)

/-- Conversion of an aperture value to a narrow code: always saturating (R231). -/
def noiseNarrow (f : Narrow) (code : Nat) : Nat :=
  let g := { f with sat := true }
  g.encode (fp32.decode code)

end Sys2Proof.Machine
end

