-- ==== Sys2Proof/Machine/Accum.lean ====
section
/-! DEFINITION. Matrix accumulation: one block of products added to an accumulator word with one rounding, or exactly in
integers (R247 to R249). -/

namespace Sys2Proof.Machine

/-- One block of products P and its flags (R247, R248): NaN, an infinity, or the exact sum. -/
def blockSum (ps : List (FVal × FVal)) : FVal × BitVec 6 :=
  let qs := ps.map fun p => p.1.mul p.2
  let fl := qs.foldl (fun f q => f ||| q.2) 0
  let pos := qs.any fun q => q.1.isInf && !q.1.isNeg
  let neg := qs.any fun q => q.1.isInf && q.1.isNeg
  if qs.any (·.1.isNan) || (pos && neg) then (.nan false, if pos && neg then fl ||| fNV else fl)
  else if pos || neg then (.inf neg, fl)
  else match qs with
    | [] => (.fin false 0 0, fl)
    | q :: r => (r.foldl (fun s p => (s.add p.1).1) q.1, fl)

/-- One block added to an FP32 accumulator word (R247, R248): `sa` and `sb` are the block scales. -/
def accFloat (acc : Nat) (ps : List (FVal × FVal)) (sa sb : FVal) : FRes :=
  let b := blockSum ps
  let p := scaled (scaled b.1 sa) sb
  let r := (fp32.decode acc).add p
  let o := fp32.roundVal .ne r.1
  if p.isNan then ⟨fp32.nan, b.2⟩ else ⟨o.bits, b.2 ||| r.2 ||| o.fl⟩

/-- One block added to an INT32 accumulator word (R249). -/
def accInt (acc : Nat) (ps : List (Int × Int)) : FRes :=
  let x := ps.foldl (fun s p => s + p.1 * p.2) (signedField acc 32)
  ⟨(wordOfInt x).toNat, if x < -(2 ^ 31) ∨ 2 ^ 31 ≤ x then fIOV else 0⟩

/-- The integer of a code of an integer member (R238, R249: BIAS is not applied). -/
def Narrow.int (f : Narrow) (code : Nat) : Int :=
  let c := code % 2 ^ f.w
  if f.sign then signedField c f.w else c

/-- A list in blocks of n. -/
def blocksOf {α : Type} (n : Nat) : Nat → List α → List (List α)
  | 0, _ => []
  | k + 1, l => l.take n :: blocksOf n k (l.drop n)

end Sys2Proof.Machine
end

