-- ==== Sys2Proof/Machine/Scratch.lean ====
section
/-! DEFINITION. Scratch loads, stores and atomics, queue status and messages (R336 to R339, R344 to R346), with the shared
operations on writes in flight and on values delivered later (R188, R190). -/

namespace Sys2Proof.Machine

/-! ### Writes and deliveries -/

/-- A write of an instruction is issued (R188, R190): it takes its place in issue order. -/
def State.addWrite (s : State) (w : PWrite) : State := { s with writes := s.writes ++ [{ w with seq := s.fresh }] }.bump

/-- A write of an instruction of a warp's stream. -/
def Ctx.write (c : Ctx) (s : State) (wct : Nat) (cells : List (Nat × Byte × Option MCls)) (atoms : List Atom) (ret : AtomRet) :
    State :=
  s.addWrite ⟨wct, 0, s.wid c.w, strmIdx c.x, 0, cells, atoms, ret, none, none, c.w.part, []⟩

/-- Raise a mark of the issuing warp (R193). -/
def Ctx.mark (c : Ctx) (s : State) (scope wct : Nat) : State := s.updWarp c.key fun w => w.raiseNew c.now scope wct

/-- A landing receives its value; a queue reservation of the same number receives its entry. -/
def Warp.deliver (w : Warp) (id : Nat) (v : RVal) : Warp :=
  let hit := w.landings.find? fun l => decide (l.id = id)
  let w := { w with landings := w.landings.map fun l =>
    if l.id = id then
      match l.eff with
      | .vec t _ m => { l with eff := .vec t (some v) m }
      | _ => l
    else l }
  match hit with
  | some ⟨_, _, _, .vec (.queue q r) _ m⟩ => w.fillResv q r none (some (v.entry m))
  | _ => w

/-- A value that memory delivers to a landing in flight. -/
def State.deliver (s : State) (warp id : Nat) (v : RVal) : State := s.updWarp warp fun w => w.deliver id v

/-- A vector result whose value is known only later: its landing, its reservation and its latch entry. -/
def Ctx.putLater (c : Ctx) (s : State) (d : Dst) (land : Nat) (tag : Nat) : State :=
  let id := s.fresh
  let s := s.land c.key c.x land (.vec (dstTgt d id) none c.act)
  match d with
  | .q n => s.updWarp c.key fun w => w.reserve n.val ⟨id, c.now, some land, none, tag, false, none⟩
  | _ => s

/-! ### Addresses -/

/-- The byte addresses of an access of n bytes, as mode and address (R336). -/
def spanOf (n : Nat) (a : Nat × Nat) : List (Nat × Nat) := (List.range n).map fun k => (a.1, a.2 + k)

/-- A lane's address word can be used for n bytes: reserved bits, units, and alignment for atomics (R174, R175, R336). -/
def laneOk (g : Grid) (lcore : Nat) (write aligned : Bool) (n : Nat) (w : Word) : Bool :=
  match addrWord w with
  | none => false
  | some a =>
    (spanOf n a).all (fun b => if write then g.mayWrite lcore b.1 b.2 else g.mayRead lcore b.1 b.2) &&
    (!aligned || decide (a.2 % 4 = 0))

/-- The scratch-bounds trap of the lowest failing active lane (R326, R336). -/
def Ctx.scratchTrap (c : Ctx) (s : State) (a : RVal) (write aligned : Bool) (n : Nat) : Option Trap :=
  ((Mask.list c.act).find? fun l => !laneOk c.g (s.logical c.w) write aligned n (a.lane l)).map
    fun l => ⟨5, l, (a.lane l).toNat⟩

/-- The model addresses of n bytes from a lane's address word (R176). -/
def wordCells (core n : Nat) (w : Word) : List Nat :=
  match addrWord w with
  | none => []
  | some a => (spanOf n a).map fun b => scratchCell core b.1 b.2

/-- The bank words (effective bank, row) that n bytes from a lane's address word touch (R177). -/
def wordBanks (n : Nat) (w : Word) : List (Nat × Nat) :=
  match addrWord w with
  | none => []
  | some a => dedup ((spanOf n a).map fun b => scratchBank b.1 b.2)

/-- k of R177 over distinct bank words; 1 when no lane is active (log entry 16). -/
def conflictK (ws : List (Nat × Nat)) : Nat :=
  let ws := dedup ws
  ws.foldl (fun k b => max k (ws.filter fun x => decide (x.1 = b.1)).length) 1

/-- k of a load's active lanes. -/
def Ctx.conflicts (c : Ctx) (a : RVal) (n : Nat) : Nat :=
  conflictK ((Mask.list c.act).flatMap fun l => wordBanks n (a.lane l))

/-- Bytes of an lds size key (R286, R337). -/
def ldsBytes (k : Nat) : Nat := if k ≤ 1 then 1 else if k ≤ 3 then 2 else 4

/-- A loaded number as the lane's word: sign-extended for keys 1 and 3 (R337). -/
def loadWord (bytes : Nat) (signed : Bool) (v : Nat) : Word :=
  if signed then wordOfInt (signedField v (8 * bytes)) else wordOfNat v

/-- What active lanes load from their cells: words and marks (R334, R337). -/
def State.gatherLanes (s : State) (act : Mask) (cells : Nat → List Nat) (f : Nat → Word) : RVal :=
  ⟨.g (laneList.map fun l => if act.getLsbD l then f (leNat ((cells l).map s.byteAt)) else 0),
   (Mask.list act).filterMap fun l => (s.firstMark (cells l)).map fun m => (l, m)⟩

/-- The tag of a scratch load: U for a U address in all lanes (R337). -/
def loadTag (a : RVal) (act : Mask) (r : RVal) : RVal :=
  if a.v.tag = 0 ∧ act = Mask.full then ⟨.u (r.lane 0), r.marks⟩ else r

/-- lds (R337). -/
def execLds (o : Lds) (s : State) : Out :=
  issue ⟨legalLds o, true, true, [o.a], [], o.d, o.g.toNat, o.e, 4, []⟩ s fun c =>
    c.unmarked s c.vals <|
      let a := c.val 0
      let n := ldsBytes o.k.toNat
      match c.scratchTrap s a false false n with
      | some t => c.trap s t
      | none =>
        let r := s.gatherLanes c.act (fun l => wordCells c.w.core n (a.lane l))
          (loadWord n (decide (o.k = 1) || decide (o.k = 3)))
        c.finishVec s o.d (11 + c.conflicts a n) (loadTag a c.act r)

/-- ldsw (R337): bytes 0 to 3 to vd, bytes 4 to 7 to vd + 1. -/
def execLdsw (o : T2d) (s : State) : Out :=
  let d := (dstReg o.d).getD 0
  issue { useT2d o true with regs := [d + 1], spare := [d + 1] } s fun c =>
    c.unmarked s c.vals <|
      let a := c.val 0
      match c.scratchTrap s a false false 8 with
      | some t => c.trap s t
      | none =>
        let cells := fun l => wordCells c.w.core 8 (a.lane l)
        let lo := s.gatherLanes c.act (fun l => (cells l).take 4) wordOfNat
        let hi := s.gatherLanes c.act (fun l => (cells l).drop 4) wordOfNat
        let lat := 11 + c.conflicts a 8
        let v := loadTag a c.act lo
        let e := latchOf s.fresh (c.now + lat) (c.dstTag o.d v.v.tag c.act)
        let s := c.putVec s o.d lat v c.act
        let s := s.land c.key c.x (c.now + lat) (.vec (.reg (d + 1)) (some (loadTag a c.act hi)) c.act)
        .next (c.commit s e)

/-- A scratch store of each active lane's bytes, the higher lane last (R338). -/
def scratchStore (u : Use) (n : Nat) (data : Ctx → List RVal) (bytes : Ctx → Nat → List Byte) (s : State) : Out :=
  issue u s fun c =>
    c.unmarked s (c.val 0 :: data c) <|
      let a := c.val 0
      match c.scratchTrap s a true false n with
      | some t => c.trap s t
      | none =>
        if c.act = 0 then c.finish s
        else
          let cells := (Mask.list c.act).flatMap fun l =>
            (wordCells c.w.core n (a.lane l)).zip ((bytes c l).map fun b => (b, none))
          c.finish (c.mark (c.write s (c.now + 8) cells [] .none) 0 (c.now + 8))

/-- sts (R338). -/
def execSts (o : St) (s : State) : Out :=
  scratchStore ⟨legalSt o, true, true, [o.a, o.b], [], .discard, o.g.toNat, o.e, 4, []⟩ 4
    (fun c => [c.val 1]) (fun c l => leBytes 4 ((c.val 1).lane l).toNat) s

/-- stsw (R338): b and the register after it. -/
def execStsw (o : St) (s : State) : Out :=
  scratchStore ⟨legalStsw o, true, true, [o.a, o.b], groupRegs o.b 1, .discard, o.g.toNat, o.e, 4, []⟩ 8
    (fun c => c.group o.b 1)
    (fun c l => (c.group o.b 1).flatMap fun r => leBytes 4 (r.lane l).toNat) s

/-- The new value of an atomic (R339). -/
def atomNew (fn : Nat) (old b cmp : Word) : Word :=
  match fn with
  | 0 => old + b
  | 1 => iminWord old b
  | 2 => imaxWord old b
  | 3 => old &&& b
  | 4 => old ||| b
  | 5 => old ^^^ b
  | 6 => b
  | _ => if old = cmp then b else old

/-- The atomic operations of the active lanes, ascending. -/
def Ctx.atoms (c : Ctx) (fn : Nat) (b cmp : RVal) (cells : Nat → List Nat) : List Atom :=
  (Mask.list c.act).map fun l => ⟨l, cells l, fn, b.lane l, cmp.lane l⟩

/-- ats (R339). -/
def execAts (o : TA) (s : State) : Out :=
  let cas := decide (o.fn = 7)
  issue ⟨legalAts o, true, true, [o.a, o.b], if cas then groupRegs o.a 1 else [], o.d, 0, o.e, 4, []⟩ s fun c =>
    let cmp := if cas then (c.group o.a 1).getD 1 RVal.zero else RVal.zero
    c.unmarked s (c.vals ++ [cmp]) <|
      let a := c.val 0
      match c.scratchTrap s a true true 4 with
      | some t => c.trap s t
      | none =>
        let land := c.now + 11 + c.conflicts a 4
        let id := s.fresh
        let e := latchOf id land (c.dstTag o.d 2 c.act)
        let s := c.putLater s o.d land (if c.act = 0 then 0 else 2)
        if c.act = 0 then .next (c.commit (s.deliver c.key id RVal.zero) e)
        else
          let s := c.write s (c.now + 8) [] (c.atoms o.fn.toNat (c.val 1) cmp fun l => wordCells c.w.core 4 (a.lane l))
            (.landing c.key id)
          .next (c.commit (c.mark s 0 (c.now + 8)) e)

/-- The word that qstat reads (R344). -/
def qstatWord (w : Warp) (q now : Nat) : Word :=
  let rs := w.startQueue q now
  let p := w.strm (queueProducer q)
  wordOfNat (queueDepth q * 2 ^ 16 + rs.length * 2 ^ 12 +
    (rs.takeWhile fun r => r.landed).length * 2 ^ 8 + bit (p.gone && decide (p.exitAt < now)) 0)

/-- qstat (R344): the queue as it stands at the start of the tick. -/
def execQstat (o : QS) (s : State) : Out :=
  issue ⟨legalQS o, true, true, [], [], o.d, 0, o.e, 4, []⟩ s fun c =>
    c.finishVec s o.d 1 (RVal.ofWord (qstatWord c.w o.n.toNat c.now))

/-- One copy of a message (R180). -/
def Ctx.sendCopy (c : Ctx) (s : State) (msg : RVal) (lcore : Nat) : State :=
  let own := s.logical c.w
  let base := (s.tenant c.w.part).slotBase
  let wct := c.now + 24 + 2 * hops (s.tenant c.w.part).shape own lcore
  let m : MailMsg := ⟨s.fresh, wct, s.wid c.w, strmIdx c.x, c.w.grid, base + lcore, laneList.map msg.lane, msg.marks⟩
  c.mark { s with mails := s.mails ++ [m] }.bump (if lcore = own then 1 else 2) wct

/-- send (R345): every lane of the message counts as active (R334). -/
def execSend (o : Snd) (s : State) : Out :=
  issue ⟨legalSnd o, true, true, [o.a, o.b], [], .discard, 0, o.e, 4, []⟩ s fun c =>
    match markTrap [(c.val 0, Mask.full), (c.val 1, 1)] with
    | some t => c.trap s t
    | none =>
      let t := (c.lane0 1).toNat
      if shapeCores (s.tenant c.w.part).shape ≤ t then c.finish s
      else c.finish (c.sendCopy s (c.val 0) t)

/-- sendm (R346): one copy to each core that holds a member warp of the set. -/
def execSendm (o : Sndm) (s : State) : Out :=
  issue ⟨legalSndm o, true, true, [o.a], [], .discard, 0, o.e, 4, []⟩ s fun c =>
    match markTrap [(c.val 0, Mask.full)] with
    | some t => c.trap s t
    | none =>
      let n := c.w.setslots.getD o.n.toNat 255
      if n = 255 then c.trap s Trap.illegal
      else c.finish ((s.setCores c.w.grid c.g c.w.core n).foldl (fun s t => c.sendCopy s (c.val 0) t) s)

end Sys2Proof.Machine
end

