-- ==== Sys2Proof/Machine/Matrix.lean ====
section
/-! DEFINITION. Matrix instructions, accumulator access, format registers and cmpr (R263, R354 to R363). -/

namespace Sys2Proof.Machine

/-! ### Layout words (R263) -/

/-- A layout word's fields. -/
structure Layout where
  esize : Nat
  base : Nat
  s0 : Nat
  s1 : Nat
  s2 : Nat
  mode : Nat
deriving DecidableEq, Repr

/-- The base byte address: BASEHI and BASE. -/
def layoutBase (w0 : Nat) : Nat := field w0 26 1 * 2 ^ 22 + field w0 0 22

/-- Read a layout word; none when it breaks R263. -/
def readLayout (w0 w1 w2 : Nat) : Option Layout :=
  let es := field w0 22 4
  let b := layoutBase w0
  if field w0 27 5 = 0 ∧ field w2 20 12 = 0 ∧ es ≤ 3 ∧ b < scratchEnd ∧ b % (if es = 1 then 2 else if es = 2 then 4 else 1) = 0
  then some ⟨es, b, field w1 0 16, field w1 16 16, field w2 0 16, field w2 16 4⟩ else none

/-- A mode and an address in the form of an address word (R175). -/
def wordForm (mode addr : Nat) : Nat := mode * 2 ^ 24 + addr

/-- Bytes of a scratch-side element (R245). -/
def Layout.size (l : Layout) : Nat := if l.esize = 1 then 2 else if l.esize = 2 then 4 else 1

/-- Address of element kk of a line (R246, R357). -/
def Layout.elem (l : Layout) (line kk : Nat) : Nat :=
  if l.esize = 3 then l.base + kk + line * l.s1 else l.base + (kk * l.s0 + line * l.s1) * l.size

/-- Address of a block's scale (R246). -/
def Layout.scale (l : Layout) (line b : Nat) : Nat := l.base + line * l.s1 + l.s2 + b

/-! ### Tiles -/

/-- Key of element (r, c) of quarter q of tile n. -/
def accKey (n q r c : Nat) : Nat := (n * 4 + q) * 64 + r * 8 + c

/-- An accumulator element. -/
def Warp.acc! (w : Warp) (n q r c : Nat) : Word := w.accs.get 0 (accKey n q r c)

/-- Put the 64 words of a tile of one quarter. -/
def Warp.putTile (w : Warp) (n q : Nat) (ws : List Word) : Warp :=
  { w with accs := (List.range 64).foldl (fun t e => t.put ((n * 4 + q) * 64 + e) (ws.getD e 0)) w.accs }

/-- A quarter has a lane in a mask (R354). -/
def quarterIn (m : Mask) (q : Nat) : Bool := decide (field m.toNat (8 * q) 8 ≠ 0)

/-- Quarters with a lane in a mask, ascending. -/
def quarters (m : Mask) : List Nat := (List.range 4).filter (quarterIn m)

/-- The front end of a context's stream. -/
def Ctx.feKey (c : Ctx) : Nat := Machine.feKey (c.key / 32) (c.key % 4) c.x

/-- Hold the execute front end while the matrix unit is busy (R168): a wait that is not slip. -/
def Ctx.matrix (c : Ctx) (s : State) (k : Out) : Out :=
  let b := (s.fe c.feKey).busyUntil
  if c.now < b then c.waitTo s b else k

/-- The matrix unit accepts an instruction (R168). -/
def Ctx.occupy (c : Ctx) (s : State) (n : Nat) : State :=
  s.updFe c.feKey fun f => { f with busyUntil := c.now + n }

/-! ### mmq and mmqs -/

/-- Operand classes (R357, R359). -/
inductive MmCls where
  | half
  | narrow
  | int
deriving DecidableEq, Repr

/-- A performing quarter: its layouts, its class, K and the number of blocks. -/
structure MmQ where
  q : Nat
  la : Layout
  lb : Layout
  cls : MmCls
  k : Nat
  blocks : Nat
deriving DecidableEq, Repr

/-- Class, K and blocks of a quarter; none is a format fault (R357, R359). -/
def mmClass (sparse h : Bool) (la lb : Layout) (fa fb : Narrow) : Option (MmCls × Nat × Nat) :=
  let ints := decide (fa.ebits = 0) && decide (fb.ebits = 0)
  if la.esize = 1 ∧ lb.esize = 1 then some (.half, 16, 1)
  else if h then none
  else if sparse then if la.esize = 0 ∧ lb.esize = 0 ∧ ints then some (.int, 16, 1) else none
  else if (la.esize = 0 ∨ la.esize = 3) ∧ (lb.esize = 0 ∨ lb.esize = 3) ∧
      (la.esize ≠ 3 ∨ la.s0 = 1) ∧ (lb.esize ≠ 3 ∨ lb.s0 = 1) then
    let cls := if ints then MmCls.int else .narrow
    some (if fa.w ≤ 4 ∧ fb.w ≤ 4 then (cls, 64, 2) else (cls, 32, 1))
  else none

/-- Byte addresses that an operand reads, with the scales of a narrow CANON operand. -/
def operandBytes (l : Layout) (cls : MmCls) (k : Nat) : List Nat :=
  (List.range 8).flatMap fun line =>
    ((List.range k).flatMap fun kk => (List.range l.size).map (l.elem line kk + ·)) ++
    (if cls = .narrow ∧ l.esize = 3 then (List.range (k / 32)).map fun b => l.scale line b else [])

/-- A scratch number of n bytes. -/
def State.scratchNat (s : State) (core mode addr n : Nat) : Nat :=
  leNat ((List.range n).map fun k => s.byteAt (scratchCell core mode (addr + k)))

/-- The codes of a line of an operand. -/
def State.lineCodes (s : State) (core : Nat) (l : Layout) (line k : Nat) : List Nat :=
  (List.range k).map fun kk => s.scratchNat core l.mode (l.elem line kk) l.size

/-- The block scales of a line (R245, R246): 1.0 without a side array. -/
def State.lineScales (s : State) (core : Nat) (l : Layout) (line n : Nat) : List Nat :=
  (List.range n).map fun b => if l.esize = 3 then s.scratchNat core l.mode (l.scale line b) 1 else scaleOne

/-- The stored elements of a row spread to their logical places by a metadata word (R359). -/
def sparseRow (m : Nat) (codes : List Nat) : List (Option Nat) :=
  (List.range 16).map fun e =>
    let g := e / 8
    ((List.range 4).find? fun j => decide (field m (12 * g + 3 * j) 3 = e % 8)).map fun j => codes.getD (4 * g + j) 0

/-- A metadata word is well formed (R359). -/
def metaOk (m : Nat) : Bool :=
  decide (field m 24 8 = 0) && (List.range 2).all fun g => (List.range 3).all fun j =>
    decide (field m (12 * g + 3 * j) 3 < field m (12 * g + 3 * (j + 1)) 3)

/-- The decoded value of an element of a class; an element that a sparse row leaves out is 0. -/
def mmVal (cls : MmCls) (h : Bool) (f : Narrow) : Option Nat → FVal
  | none => .fin false 0 0
  | some c => match cls with
    | .half => (if h then fp16 else bf16).decode c
    | _ => f.decode c

/-- The integer of an element. -/
def mmInt (f : Narrow) : Option Nat → Int
  | none => 0
  | some c => f.int c

/-- One element of a quarter (R247 to R249): its rows, their scales and its start word. -/
def mmElem (m : MmQ) (h : Bool) (fa fb : Narrow) (a b : List (Option Nat)) (sa sb : List Nat) (acc : Nat) : FRes :=
  let n := m.k / m.blocks
  (List.range m.blocks).foldl (fun (r : FRes) blk =>
    let ab : List (Option Nat × Option Nat) := ((a.drop (blk * n)).take n).zip ((b.drop (blk * n)).take n)
    let o := match m.cls with
      | .int => accInt r.bits (ab.map fun (p : Option Nat × Option Nat) => (mmInt fa p.1, mmInt fb p.2))
      | cls => accFloat r.bits (ab.map fun (p : Option Nat × Option Nat) => (mmVal cls h fa p.1, mmVal cls h fb p.2))
          (e5m3.decode (sa.getD blk scaleOne)) (e5m3.decode (sb.getD blk scaleOne))
    ⟨o.bits, r.fl ||| o.fl⟩) ⟨acc, 0⟩

/-- A quarter's 64 results. -/
def State.mmTile (s : State) (w : Warp) (m : MmQ) (sparse h z : Bool) (fa fb : Narrow) (n : Nat) (rows : List Nat) : List FRes :=
  let lineA := fun i => s.lineCodes w.core m.la i (if sparse then 8 else m.k)
  let as := (List.range 8).map fun i =>
    (if sparse then sparseRow (rows.getD i 0) (lineA i) else (lineA i).map some, s.lineScales w.core m.la i m.blocks)
  let bs := (List.range 8).map fun j => ((s.lineCodes w.core m.lb j m.k).map some, s.lineScales w.core m.lb j m.blocks)
  (List.range 64).map fun e =>
    let a := as.getD (e / 8) ([], [])
    let b := bs.getD (e % 8) ([], [])
    mmElem m h fa fb a.1 b.1 a.2 b.2 (if z then 0 else (w.acc! n m.q (e / 8) (e % 8)).toNat)

/-- Bytes of a quarter's operands that break R174, as address words. -/
def badBytes (g : Grid) (lcore : Nat) (m : MmQ) (sparse : Bool) : List (Nat × Nat) :=
  ((operandBytes m.la m.cls (if sparse then 8 else m.k)).map fun a => (a, m.la.mode)) ++
  ((operandBytes m.lb m.cls m.k).map fun a => (a, m.lb.mode)) |>.filter fun b => !g.mayRead lcore b.2 b.1

/-- The lowest of bad bytes. -/
def lowest (l : List (Nat × Nat)) : Option (Nat × Nat) := (sortBy (fun (a b : Nat × Nat) => decide (a.1 < b.1)) l).head?

/-- The first answer of a list of checks. -/
def firstTrap {α : Type} (l : List α) (f : α → Option Trap) : Option Trap := l.findSome? f

/-- The layout words of a quarter's triple. -/
def Ctx.quarterLayout (c : Ctx) (a : Src) (q : Nat) : Nat × Nat × Nat :=
  let r := fun k => (((c.group a 2).getD k RVal.zero).lane (8 * q)).toNat
  (r 0, r 1, r 2)

/-- Check 1 of R360 for a quarter. -/
def Ctx.mmMarks (c : Ctx) (o : TM) (sparse : Bool) (q : Nat) : Option Trap :=
  let lay := (c.group o.a 2 ++ c.group o.b 2).findSome? fun r => r.markIn (BitVec.ofNat 32 (2 ^ (8 * q)))
  match lay with
  | some e => some ⟨e.2.code, 8 * q, 0⟩
  | none =>
    if sparse then
      (((c.group o.a 3).getD 3 RVal.zero).markIn (BitVec.ofNat 32 (0xFF * 2 ^ (8 * q)))).map fun e => ⟨e.2.code, e.1, 0⟩
    else none

/-- Check 2 of R360 for a quarter. -/
def Ctx.mmLayout (c : Ctx) (o : TM) (q : Nat) : Option Trap :=
  firstTrap [o.a, o.b] fun a =>
    let (w0, w1, w2) := c.quarterLayout a q
    match readLayout w0 w1 w2 with
    | some _ => none
    | none => some ⟨5, 8 * q, wordForm (field w2 16 4) (layoutBase w0)⟩

/-- A performing quarter after check 3. -/
def Ctx.mmQuarter (c : Ctx) (o : TM) (sparse : Bool) (fa fb : Narrow) (q : Nat) : Option MmQ :=
  let (a0, a1, a2) := c.quarterLayout o.a q
  let (b0, b1, b2) := c.quarterLayout o.b q
  (readLayout a0 a1 a2).bind fun la => (readLayout b0 b1 b2).bind fun lb =>
    (mmClass sparse (o.mode.getLsbD 1) la lb fa fb).map fun x => ⟨q, la, lb, x.1, x.2.1, x.2.2⟩

/-- A quarter's metadata words. -/
def Ctx.metaRows (c : Ctx) (o : TM) (q : Nat) : List Nat :=
  (List.range 8).map fun i => (((c.group o.a 3).getD 3 RVal.zero).lane (8 * q + i)).toNat

/-- The marks of bytes of a quarter's operands. -/
def State.mmPoison (s : State) (core : Nat) (m : MmQ) (sparse : Bool) : Option MCls :=
  s.firstMark (((operandBytes m.la m.cls (if sparse then 8 else m.k)).map fun a => scratchCell core m.la.mode a) ++
    ((operandBytes m.lb m.cls m.k).map fun a => scratchCell core m.lb.mode a))

/-- The checks 1 to 6 of R360, in order. -/
def Ctx.mmChecks (c : Ctx) (s : State) (o : TM) (sparse : Bool) (fa fb : Narrow) : Option Trap :=
  let qs := quarters c.act
  let lcore := s.logical c.w
  let ms := qs.filterMap (c.mmQuarter o sparse fa fb)
  firstTrap qs (c.mmMarks o sparse) <|>
  firstTrap qs (c.mmLayout o) <|>
  firstTrap qs (fun q => if (c.mmQuarter o sparse fa fb q).isSome then none else some ⟨8, 8 * q, 0⟩) <|>
  firstTrap ms (fun m => (lowest (badBytes c.g lcore m sparse)).map fun b => ⟨5, 8 * m.q, wordForm b.2 b.1⟩) <|>
  (if sparse then firstTrap qs fun q => ((List.range 8).find? fun i => !metaOk ((c.metaRows o q).getD i 0)).map
      fun i => ⟨7, 8 * q + i, 0⟩ else none) <|>
  firstTrap ms (fun m => (s.mmPoison c.w.core m sparse).map fun k => ⟨k.code, 8 * m.q, 0⟩)

/-- The use of a matrix instruction. -/
def useTM (o : TM) (sparse : Bool) : Use :=
  ⟨legalTM o, false, true, [o.a, o.b], groupRegs o.a (if sparse then 3 else 2) ++ groupRegs o.b 2, .discard, o.g.toNat, o.e, 4, []⟩

/-- A format register (R236). -/
def Warp.fmt (w : Warp) (k : Nat) : Narrow := Narrow.ofWord (w.fmts.get 0 k).toNat

/-- mmq and mmqs (R357, R359, R360). -/
def matrixMultiply (o : TM) (sparse : Bool) (s : State) : Out :=
  issue (useTM o sparse) s fun c => c.matrix s <|
    let fa := c.w.fmt (2 * o.k.toNat)
    let fb := c.w.fmt (2 * o.k.toNat + 1)
    let h := o.mode.getLsbD 1
    let z := o.mode.getLsbD 0
    match c.mmChecks s o sparse fa fb with
    | some t => c.trap s t
    | none =>
      let ms := (quarters c.act).filterMap (c.mmQuarter o sparse fa fb)
      let rs := ms.map fun m => (m.q, s.mmTile c.w m sparse h z fa fb o.n.toNat (if sparse then c.metaRows o m.q else []))
      let fl := rs.foldl (fun f r => r.2.foldl (fun f x => f ||| x.fl) f) 0
      c.arith s fl fun s =>
        let s := s.updWarp c.key fun w =>
          rs.foldl (fun w r => w.putTile o.n.toNat r.1 (r.2.map fun x => BitVec.ofNat 32 x.bits)) w
        c.finish (c.occupy s (if ms.any fun m => decide (m.cls = .half) then 4 else 2))

/-- mmq (R357). -/
def execMmq (o : TM) (s : State) : Out := matrixMultiply o false s
/-- mmqs (R359). -/
def execMmqs (o : TM) (s : State) : Out := matrixMultiply o true s

/-! ### cmpr -/

/-- The kept indices of a group, ascending (R361). -/
def cmprKeep (es : List Int) : List Nat :=
  let byMag := sortBy (fun (a b : Nat) => decide ((es.getD b 0).natAbs < (es.getD a 0).natAbs)) (List.range 8).reverse
  sortBy (fun (a b : Nat) => decide (a < b)) ((sortBy (fun (a b : Nat) =>
    decide ((es.getD b 0).natAbs < (es.getD a 0).natAbs ∨ ((es.getD b 0).natAbs = (es.getD a 0).natAbs ∧ a < b))) byMag).take 4)

/-- The eight elements of group m. -/
def cmprElems (a : RVal) (m : Nat) : List Int :=
  (List.range 8).map fun e => signedField (field (a.lane (2 * m + e / 4)).toNat (8 * (e % 4)) 8) 8

/-- P and M of a group. -/
def cmprP (es : List Int) (keep : List Nat) : Word :=
  wordOfNat (leNat (keep.map fun i => BitVec.ofInt 8 (es.getD i 0)))
def cmprM (keep : List Nat) : Word :=
  wordOfNat ((List.range 4).foldl (fun n j => n + keep.getD j 0 * 8 ^ j) 0)

/-- The lanes of a pair are both read when either is active. -/
def pairMask (m : Mask) : Mask := Mask.ofFn fun l => m.getLsbD (l / 2 * 2) || m.getLsbD (l / 2 * 2 + 1)

/-- cmpr (R361). -/
def execCmpr (o : T2d) (s : State) : Out :=
  let d := (dstReg o.d).getD 0
  issue { useT2d o false with regs := [d + 1], spare := [d + 1] } s fun c =>
    match markTrap [(c.val 0, pairMask c.act)] with
    | some t => c.trap s t
    | none =>
      let ks := (List.range 16).map fun m => let es := cmprElems (c.val 0) m; (es, cmprKeep es)
      let p : RVal := ⟨.g (laneList.map fun l => let k := ks.getD (l / 2) ([], []); cmprP k.1 k.2), []⟩
      let m : RVal := ⟨.g (laneList.map fun l => cmprM (ks.getD (l / 2) ([], [])).2), []⟩
      let e := latchOf s.fresh (c.now + 4) (c.dstTag o.d 2 c.act)
      let s := c.putVec s o.d 4 p c.act
      .next (c.commit (s.land c.key c.x (c.now + 4) (.vec (.reg (d + 1)) (some m) c.act)) e)

/-! ### Accumulator access (R362) and format registers (R363) -/

/-- accz (R362). -/
def execAccz (o : N3) (s : State) : Out :=
  issue ⟨true, false, true, [], [], .discard, 0, o.e, 4, []⟩ s fun c => c.matrix s <|
    c.finish (c.occupy (s.updWarp c.key fun w =>
      (quarters c.st.mask).foldl (fun w q => w.putTile o.n.toNat q []) w) 2)

/-- Registers d to d + 7 of a group. -/
def dstGroup (d : Dst) (n : Nat) : List Nat := match dstReg d with
  | some r => (List.range n).map (r + ·)
  | none => []

/-- accrd (R362). -/
def execAccrd (o : Accrd) (s : State) : Out :=
  issue ⟨legalAccrd o, false, true, [], dstGroup o.d 8, o.d, o.g.toNat, o.e, 4, dstGroup o.d 8⟩ s fun c => c.matrix s <|
    let e := latchOf s.fresh (c.now + 10) (c.dstTag o.d 2 c.act)
    let s := (List.range 8).foldl (fun s r =>
      let v : RVal := ⟨.g (laneList.map fun l => c.w.acc! o.n.toNat (l / 8) r (l % 8)), []⟩
      s.land c.key c.x (c.now + 10) (.vec (.reg ((dstReg o.d).getD 0 + r)) (some v) c.act)) s
    .next (c.commit (c.occupy s 2) e)

/-- accwr (R362). -/
def execAccwr (o : NA) (s : State) : Out :=
  issue ⟨legalAccwr o, false, true, [o.a], groupRegs o.a 7, .discard, 0, o.e, 4, []⟩ s fun c => c.matrix s <|
    let r := c.group o.a 7
    c.unmarked s r <|
      let n := o.n.toNat
      c.finish (c.occupy (s.updWarp c.key fun w => (quarters c.act).foldl (fun w q =>
        w.putTile n q ((List.range 64).map fun e =>
          let l := 8 * q + e % 8
          if c.act.getLsbD l then (r.getD (e / 8) RVal.zero).lane l else w.acc! n q (e / 8) (e % 8))) w) 2)

/-- fmtw (R363). -/
def execFmtw (o : NA) (s : State) : Out :=
  issue ⟨legalNA o, false, true, [o.a], [], .discard, 0, o.e, 4, []⟩ s fun c =>
    match markTrap [(c.val 0, 1)] with
    | some t => c.trap s t
    | none =>
      if Narrow.validWord (c.lane0 0).toNat then c.finishEff s (.fmt o.n.toNat (c.lane0 0)) else c.trap s ⟨8, 0, 0⟩

end Sys2Proof.Machine
end

