-- ==== Sys2Proof/Machine/Stencil.lean ====
section
/-! DEFINITION. Stencil tables, presets, the inputs of an output point, and the exact stencil sum (R220 to R227). -/

namespace Sys2Proof.Machine

/-- An entry of a stencil (R221). -/
structure StTerm where
  weight : FVal
  off : List Int
  phase : Nat
deriving DecidableEq, Repr

/-- A stencil (R220, R223). -/
structure Stencil where
  terms : List StTerm
  dims : Nat
  mode : Nat
  bound : Nat
  nin : List Nat
deriving DecidableEq, Repr

/-- A power of two as a weight. -/
def pow2Weight (e : Int) : FVal := .fin false 1 e

/-- All offsets of a number of dimensions with entries from a list. -/
def offsets (vals : Nat → List Int) : Nat → List (List Int)
  | 0 => [[]]
  | n + 1 => (offsets vals n).flatMap fun l => (vals n).map fun v => l ++ [v]

/-- Three offsets, zero beyond the dimensions. -/
def pad3 (l : List Int) : List Int := (l ++ [0, 0, 0]).take 3

/-- Entries of a restriction preset: weight is the product of h(OFFk) (R223). -/
def presetRestrict (dims : Nat) : List StTerm :=
  (offsets (fun _ => [-1, 0, 1]) dims).map fun o =>
    ⟨pow2Weight (o.foldl (fun e x => if x = 0 then e - 1 else e - 2) 0), pad3 o, 0⟩

/-- Entries of a prolongation preset (R223). -/
def presetProlong (dims : Nat) : List StTerm :=
  (List.range (2 ^ dims)).flatMap fun ph =>
    (offsets (fun k => if ph.testBit k then [0, 1] else [0]) dims).map fun o =>
      ⟨pow2Weight (-(popCount ph dims : Int)), pad3 o, ph⟩

/-- A preset's DIMS, MODE and entries. -/
def preset (p : Nat) : Nat × Nat × List StTerm :=
  if p = 1 then (2, 0, presetRestrict 2)
  else if p = 2 then (3, 0, presetRestrict 3)
  else if p = 3 then (2, 1, presetProlong 2)
  else (3, 1, presetProlong 3)

/-- One entry's bytes (R221). -/
def readTerm (b : List Nat) : StTerm :=
  ⟨fp32.decode (b.getD 0 0 + b.getD 1 0 * 2 ^ 8 + b.getD 2 0 * 2 ^ 16 + b.getD 3 0 * 2 ^ 24),
   (List.range 3).map fun k => signedField (b.getD (4 + k) 0) 8, b.getD 7 0⟩

/-- A finite value. -/
def FVal.isFin : FVal → Bool
  | .fin .. => true
  | _ => false

/-- An entry obeys R221. -/
def termOk (dims mode : Nat) (t : StTerm) : Bool :=
  t.weight.isFin && t.off.all (fun o => decide (-4 ≤ o ∧ o ≤ 4)) && (t.off.drop dims).all (fun o => decide (o = 0)) &&
  decide (t.phase < if mode = 1 then 2 ^ dims else 1)

/-- Bytes of a table (R220, R221): its head alone with a preset, else its head and its entries. -/
def tableLen (b : List Nat) : Nat := if b.getD 4 0 ≠ 0 then 16 else 16 + 8 * b.getD 0 0

/-- Read a stencil table of 232 bytes; none when it is malformed (R220 to R222). -/
def readStencil (b : List Nat) : Option Stencil :=
  let n := fun i => b.getD i 0
  let nin := (List.range 3).map fun k => n (8 + 2 * k) + n (9 + 2 * k) * 2 ^ 8
  let ninOk (dims : Nat) : Bool :=
    (nin.take dims).all (fun x => decide (1 ≤ x)) && (nin.drop dims).all fun x => decide (x = 0)
  if ([5, 6, 7, 14, 15].any fun i => decide (n i ≠ 0)) || decide (2 < n 3) || decide (4 < n 4) then none
  else if n 4 ≠ 0 then
    let (dims, mode, ts) := preset (n 4)
    if n 0 = 0 ∧ n 1 = 0 ∧ n 2 = 0 ∧ ninOk dims then some ⟨ts, dims, mode, n 3, nin⟩ else none
  else
    let ts := (List.range (n 0)).map fun k => readTerm ((b.drop (16 + 8 * k)).take 8)
    if 1 ≤ n 0 ∧ n 0 ≤ 27 ∧ 1 ≤ n 1 ∧ n 1 ≤ 3 ∧ n 2 ≤ 2 ∧ ninOk (n 1) ∧ ts.all (termOk (n 1) (n 2))
    then some ⟨ts, n 1, n 2, n 3, nin⟩ else none

/-- Resolve a raw coordinate by BOUND (R225); none contributes an exact +0. -/
def resolve (bound n : Nat) (x : Int) : Option Nat :=
  if 0 ≤ x ∧ x < n then some x.toNat
  else if bound = 0 then none
  else if bound = 1 then some (if x < 0 then 0 else n - 1)
  else
    let y : Int := if x < 0 then -x else 2 * ((n : Int) - 1) - x
    some (if y < 0 then 0 else if (n : Int) ≤ y then n - 1 else y.toNat)

/-- The centre of dimension k (R224). -/
def centre (mode x : Nat) : Nat := if mode = 0 then 2 * x else if mode = 1 then x / 2 else x

/-- The phase of an output point (R224). -/
def phaseOf (dims : Nat) (x : List Nat) : Nat :=
  (List.range dims).foldl (fun p k => p + x.getD k 0 % 2 * 2 ^ k) 0

/-- The used entries of an output point with their resolved inputs (R224, R225). -/
def Stencil.points (st : Stencil) (x : List Nat) : List (FVal × Option (List Nat)) :=
  (st.terms.filter fun t => decide (st.mode ≠ 1) || decide (t.phase = phaseOf st.dims x)).map fun t =>
    (t.weight, (List.range 3).foldl (fun (r : Option (List Nat)) k => match r with
      | none => none
      | some l =>
        if k < st.dims then
          (resolve st.bound (st.nin.getD k 0) ((centre st.mode (x.getD k 0) : Int) + t.off.getD k 0)).map fun y => l ++ [y]
        else some (l ++ [x.getD k 0])) (some []))

/-- The exact stencil sum with its special inputs (R226, R227); an input of none is the exact +0 of a zero boundary. -/
def stencilSum (ts : List (FVal × Option FVal)) : FVal :=
  let ps := ts.map fun t => match t.2 with
    | some v => (t.1.mul v).1
    | none => .fin false 0 0
  let pos := ps.any fun p => p.isInf && !p.isNeg
  let neg := ps.any fun p => p.isInf && p.isNeg
  if ps.any (·.isNan) || (pos && neg) then .nan false
  else if pos || neg then .inf neg
  else match ps with
    | [] => .fin false 0 0
    | p :: r => r.foldl (fun s q => (s.add q).1) p

end Sys2Proof.Machine
end

