-- ==== Sys2Proof/Machine/Writes.lean ====
section
/-! DEFINITION. Writes take effect at their completion ticks, in write order (R188 to R192, R197), and reads observe them. -/

namespace Sys2Proof.Machine

/-- Write order within one completion tick (R190). -/
def PWrite.before (a b : PWrite) : Bool :=
  let ka := [a.wct, a.cls, a.wid, a.src, a.seq]
  let kb := [b.wct, b.cls, b.wid, b.src, b.seq]
  decide (ka < kb)

/-- Keep the old bytes of an HBM write for the choices of R41 and R198, while a grid is resident. -/
def State.remember (s : State) (as : List Nat) : State :=
  let hs := as.filter (· < hbmEnd)
  if hs.isEmpty || s.grids.isEmpty then s
  else { s with hist := s.hist ++ hs.map fun a => (s.gtc, a, s.byteAt a, s.markAt a) }

/-- One atomic operation: its old word and mark, and the state after it (R192, R339). The mark of a poisoned word stays
unless the word is replaced. -/
def State.atom (s : State) (a : Atom) : Word × Option MCls × State :=
  let old := wordOfNat (leNat (a.addrs.map s.byteAt))
  let m := s.firstMark a.addrs
  let new := atomNew a.fn old a.opnd a.cmp
  let cells := a.addrs.zip (leBytes a.addrs.length new.toNat)
  let s := (s.remember a.addrs).sawBad a.addrs
  (old, m, s.putCells (cells.map fun c => (c.1, c.2, if a.fn = 6 then none else s.markAt c.1)))

/-- Perform atomic operations in order: the old words and marks by lane. -/
def State.atoms (s : State) (l : List Atom) : Tab Word × Tab MCls × State :=
  l.foldl (fun r a =>
    let (old, m, s) := r.2.2.atom a
    (r.1.put a.lane old, match m with
      | some c => r.2.1.put a.lane c
      | none => r.2.1, s)) ([], [], s)

/-- Add to a 64-bit counter (R216). -/
def State.addTo (s : State) (a inc : Nat) : State :=
  let as := (List.range 8).map (a + ·)
  let s := s.remember as
  let v := (s.natAt a 8 + inc) % 2 ^ 64
  (s.sawBad as).putCells (as.zip ((leBytes 8 v).map fun b => (b, s.firstMark as)))

/-- Write the bits of a mask in one byte (R206, R208): a mark that comes with them marks the byte, and one that was there stays unless the whole
byte is replaced. -/
def State.putBits (s : State) (c : Nat × Byte × Byte × Option MCls) : State :=
  s.putByte c.1 ((s.byteAt c.1 &&& ~~~ c.2.2.1) ||| (c.2.1 &&& c.2.2.1))
    (c.2.2.2 <|> (if c.2.2.1 = 255 then none else s.markAt c.1))

/-- The bytes that a write covers. -/
def PWrite.addrs (w : PWrite) : List Nat :=
  w.cells.map (·.1) ++ w.bits.map (·.1) ++ w.atoms.flatMap (·.addrs) ++ match w.add with
    | some (b, _) => (List.range 8).map (b + ·)
    | none => []

/-- The bytes of a tick's writes as they stood before the first of them. -/
def State.keepBase (s : State) (as : List Nat) : State :=
  { s with base := s.base ++ ((dedup as).filter fun a => !(s.base.any fun b => decide (b.1 = a))).map fun a => (a, s.byteAt a, s.markAt a) }

/-- A reply record in hand gets the old word of its atomic operation (R54). -/
def State.fillAnswer (s : State) (id : Nat) (old : Word) (m : Option MCls) : State :=
  { s with recs := s.recs.map fun (r : RecOut) =>
      if r.cmd.isNone ∧ r.member = id then { r with data := leBytes 16 old.toNat, poisoned := m.isSome } else r }

/-- One write takes effect. -/
def State.applyWrite (s : State) (w : PWrite) : State :=
  let s := ((s.keepBase w.addrs).remember (w.cells.map (·.1) ++ w.bits.map (·.1))).putCells w.cells
  let s := w.bits.foldl State.putBits s
  let (olds, marks, s) := s.atoms w.atoms
  let s := match w.add with
    | some (a, i) => s.addTo a i
    | none => s
  match w.ret with
  | .landing k id => s.deliver k id ⟨.g (laneList.map fun l => olds.get 0 l), marks⟩
  | .answer id => s.fillAnswer id (olds.get 0 0) (marks.find? 0)
  | .none => s

/-- All writes with a completion tick up to `t` take effect, in write order; they are kept to the end of the tick. -/
def State.applyDue (s : State) (t : Nat) : State :=
  let due := sortBy PWrite.before (s.writes.filter fun w => decide (w.wct ≤ t))
  due.foldl State.applyWrite { s with writes := s.writes.filter fun w => decide (t < w.wct), applied := due, base := [] }

/-- The writes of the present tick take effect again, from the bytes as the tick found them. -/
def State.redo (s : State) : State :=
  let now := s.gtc
  let s : State := { s.putCells s.base with
    hist := s.hist.filter fun h => decide (h.1 < now) || !(s.base.any fun b => decide (b.1 = h.2.1))
    base := [] }
  (sortBy PWrite.before s.applied).foldl State.applyWrite s

/-- A write whose completion tick is the present one, known only now, takes its place in the write order of the tick (R190 to
R192): when one that follows it there has touched its bytes, the tick's writes are done again. -/
def State.writeNow (s : State) (w : PWrite) : State :=
  let as := w.addrs
  if s.applied.any fun x => w.before x && x.addrs.any as.contains then { s with applied := s.applied ++ [w] }.redo
  else
    let s := s.applyWrite w
    { s with applied := s.applied ++ [w] }

/-- Put a write in flight, or in its place among the writes of the present tick. -/
def State.issueWrite (s : State) (w : PWrite) : State := if w.wct ≤ s.gtc then s.writeNow w else { s with writes := s.writes ++ [w] }

/-- The bytes of a message copy, in slot n of a half (R179, R180). -/
def MailMsg.cells (m : MailMsg) (half n : Nat) : List (Nat × Byte × Option MCls) :=
  (List.range 128).map fun k =>
    (scratchCell m.core 0 (0x5F0000 + 0x8000 * half + 128 * (n % 256) + k),
     BitVec.ofNat 8 (field (m.words.getD (k / 4) 0).toNat (8 * (k % 4)) 8), m.marks.find? (k / 4))

/-- Deliver one copy (R179, R180): discarded where the target core holds no position of the grid. -/
def State.deliverMail (s : State) (m : MailMsg) : State :=
  match s.grids.find? m.grid with
  | none => s
  | some g =>
    match g.bankOn (m.core - (s.tenant g.part).slotBase) with
    | none => s
    | some h =>
      let n := s.mbox.get 0 (m.core * 2 + h)
      { (s.putCells (m.cells h n)) with mbox := s.mbox.put (m.core * 2 + h) ((n + 1) % 2 ^ 32) }

/-- Copies due by a tick are delivered in write order (R180, R190). -/
def State.deliverMails (s : State) (t : Nat) : State :=
  let due := sortBy (fun (a b : MailMsg) => decide ([a.wct, a.wid, a.src, a.id] < [b.wct, b.wid, b.src, b.id]))
    (s.mails.filter fun m => decide (m.wct ≤ t))
  due.foldl State.deliverMail { s with mails := s.mails.filter fun m => decide (t < m.wct) }

/-- Values that a byte held at completion ticks in (from, to], and the value at `from`, newest first. -/
def State.heldValues (s : State) (a lo : Nat) : List Byte :=
  s.byteAt a :: (s.hist.filter fun h => decide (lo < h.1) && decide (h.2.1 = a)).reverse.map fun h => h.2.2.1

/-- The byte that an invariant load returns (R198): once a write broke the promise, any value held since. -/
def State.invariantByte (s : State) (a lo : Nat) : Byte × State :=
  let vs := s.heldValues a lo
  if vs.length ≤ 1 then (s.byteAt a, s)
  else
    let (d, s) := s.drawn Config.draw
    (vs.getD (d % vs.length) 0, s)

/-- The bytes of a lane. -/
def State.readBytes (s : State) (as : List Nat) (inv : Bool) (lo : Nat) : List Byte × State :=
  if inv then as.foldl (fun r a => let (b, s) := r.2.invariantByte a lo; (r.1 ++ [b], s)) ([], s) else (as.map s.byteAt, s)

/-- A load reads at its read time (R189, R191, R341). -/
def State.readLoad (s : State) (r : PRead) : State :=
  let (words, marks, s') := r.lanes.foldl (fun acc (e : Nat × List Nat) =>
    let (bs, s) := acc.2.2.readBytes e.2 r.invariant r.first
    (acc.1.put e.1 (loadWord r.size r.signed (leNat bs)), match s.firstMark e.2 with
      | some m => acc.2.1.put e.1 m
      | none => acc.2.1, s)) ((r.noise, [], s) : Tab Word × Tab MCls × State)
  let v : Vec := if r.full then .u (words.get 0 0) else .g (laneList.map fun l => words.get 0 l)
  (s'.sawBad (r.lanes.flatMap (·.2))).deliver r.warp r.id ⟨v, marks⟩

/-- Loads whose read time is the current tick. -/
def State.readDue (s : State) (t : Nat) : State :=
  (s.reads.filter fun r => decide (r.rt ≤ t)).foldl State.readLoad
    { s with reads := s.reads.filter fun r => decide (t < r.rt) }

end Sys2Proof.Machine
end

