-- ==== Sys2Proof/Machine/Engine.lean ====
section
/-! DEFINITION. What an engine data command moves: its sides, its elements in nominal order, the bytes each of them reads
and writes, its beats, and the values that its destination receives (R204 to R212, R224 to R232). -/

namespace Sys2Proof.Machine

/-! ### Containers (R204) -/

/-- Bytes of a container's unit: an element, a byte of two N4 codes, a word of 21 N6 codes. -/
def contSize (c : Nat) : Nat := [4, 2, 2, 4, 1, 1, 16, 1].getD c 1
/-- Codes of a packed unit. -/
def contPer (c : Nat) : Nat := if c = 5 then 2 else if c = 6 then 21 else 1
/-- Bits of a packed code. -/
def contBits (c : Nat) : Nat := if c = 5 then 4 else 6
/-- The container holds narrow codes. -/
def contNarrow (c : Nat) : Bool := decide (4 ≤ c ∧ c ≤ 7)
/-- Element-size code of a scratch-side container (R245). -/
def contEsize (c : Nat) : Option Nat :=
  [some 2, some 1, some 1, some 2, some 0, none, none, some 3].getD c none

/-- The value of a code of a container with its scale code (R207, R241). -/
def contDecode (c : Nat) (nf : Narrow) (code scale : Nat) : FVal :=
  if c = 0 then fp32.decode code
  else if c = 1 then bf16.decode code
  else if c = 2 then fp16.decode code
  else if c = 3 then let i := signedField code 32; .fin (i < 0) i.natAbs 0
  else scaled (nf.decode code) (e5m3.decode scale)

/-- One rounding to a container (R207, R241 to R243). -/
def contEncode (c : Nat) (nf : Narrow) (v : FVal) : Nat :=
  if c = 0 then (fp32.roundVal .ne v).bits
  else if c = 1 then (bf16.roundVal .ne v).bits
  else if c = 2 then (fp16.roundVal .ne v).bits
  else if c = 3 then toInt32 v
  else nf.encode v

/-- An aperture element's code (R231, R232). -/
def contNoise (c : Nat) (nf : Narrow) (va : Nat) (lo hi step : Word) : Nat :=
  let v := noiseFp32 va (contSize c) lo hi step
  if c = 0 then v
  else if c = 1 then (bf16.roundVal .ne (fp32.decode v)).bits
  else if c = 2 then (fp16.roundVal .ne (fp32.decode v)).bits
  else noiseNarrow nf v

/-! ### Sides -/

/-- A side of a data command. -/
inductive Side where
  | scratch (l : Layout)
  | hbm (va : Nat)
  | rows (va : Nat)
  | queue
deriving DecidableEq, Repr

def EngCmd.word (c : EngCmd) (k : Nat) : Nat := (c.words.getD k 0).toNat
/-- DIR of the control word (R364). -/
def EngCmd.dir (c : EngCmd) : Nat := field (c.word 0) 14 2
/-- A virtual address of a register pair. -/
def EngCmd.va (c : EngCmd) (k : Nat) : Nat := c.word k + field (c.word (k + 1)) 0 20 * 2 ^ 32
/-- The narrow format of the template. -/
def EngCmd.nf (c : EngCmd) : Narrow := Narrow.ofWord c.tpl.nfmt
/-- A layout of three words from word k. -/
def EngCmd.layout (c : EngCmd) (k : Nat) : Option Layout := readLayout (c.word k) (c.word (k + 1)) (c.word (k + 2))

/-- A layout as a side; a word that breaks R263 never passes issue. -/
def scratchSide (l : Option Layout) : Side := .scratch (l.getD ⟨0, 0, 0, 0, 0, 0⟩)

/-- The source side (R365, R366). -/
def EngCmd.source (c : EngCmd) : Side :=
  if c.fn = 1 then .rows (c.va 3)
  else if c.fn = 2 then scratchSide (c.layout 5)
  else if c.dir = 0 then .hbm (c.va 3)
  else scratchSide (c.layout 5)

/-- The destination side (R366). -/
def EngCmd.dest (c : EngCmd) : Side :=
  if c.tpl.toq then .queue
  else if c.fn = 1 then scratchSide (c.layout 5)
  else if c.fn = 2 then .rows (c.va 3)
  else if c.dir = 0 then scratchSide (c.layout 5)
  else if c.dir = 1 then .hbm (c.va 3)
  else scratchSide (c.layout 8)

/-- HBM is the side. -/
def Side.isHbm : Side → Bool
  | .hbm _ => true
  | .rows _ => true
  | _ => false

/-- The origin (R210). -/
def EngCmd.origin (c : EngCmd) : List Nat := if c.tpl.clip then [c.word 11, c.word 12, c.word 13] else [0, 0, 0]

/-- The source or destination carries block scales (R204, R206). -/
def EngCmd.srcScaled (c : EngCmd) : Bool :=
  decide (c.tpl.sfmt = 7) || (contNarrow c.tpl.sfmt && c.tpl.scales && c.source.isHbm)
def EngCmd.dstScaled (c : EngCmd) : Bool :=
  decide (c.tpl.dfmt = 7) || (contNarrow c.tpl.dfmt && c.tpl.scales && c.dest.isHbm)

/-! ### Elements -/

/-- A tile element, or a pad of an interleaved HBM destination, by its coordinates. -/
structure Coord where
  i0 : Nat
  i1 : Nat
  i2 : Nat
  pad : Bool
deriving DecidableEq, Repr

/-- Coordinates as a list. -/
def Coord.list (i : Coord) : List Nat := [i.i0, i.i1, i.i2]

/-- HBM-side coordinates of a tile element (R209). -/
def hbmCoord (g : Nat) (i : Coord) : Coord := if g ≤ 1 then i else { i with i0 := i.i1 * g + i.i0 % g, i1 := i.i0 / g }

/-- The elements in the nominal order of the destination (R206, R209). -/
def EngCmd.coords (c : EngCmd) : List Coord :=
  let t := c.tpl
  let g := t.ilv
  if 1 < g ∧ c.dest.isHbm then
    (List.range (t.e 2)).flatMap fun i2 => (List.range (ceilDiv (t.e 0) g)).flatMap fun h1 =>
      (List.range (g * t.e 1)).map fun h0 =>
        let i0 := h1 * g + h0 % g
        ⟨i0, h0 / g, i2, decide (t.e 0 ≤ i0)⟩
  else
    (List.range (t.e 2)).flatMap fun i2 => (List.range (t.e 1)).flatMap fun i1 =>
      (List.range (t.e 0)).map fun i0 => ⟨i0, i1, i2, false⟩

/-- The index word of an element's row is poisoned (R218). -/
def EngCmd.lost (c : EngCmd) (i : Coord) : Bool := (c.idxMarks.find? i.i1).isSome

/-- An element is clipped (R210). -/
def EngCmd.clipped (c : EngCmd) (i : Coord) : Bool :=
  c.tpl.clip &&
  ((List.range 3).any (fun k => decide (c.tpl.tn k ≤ c.origin.getD k 0 + i.list.getD k 0)) ||
   ((decide (c.fn = 1) || decide (c.fn = 2)) && !c.lost i && decide (c.tpl.tn 1 ≤ c.idx.getD i.i1 0)))

/-- The nominal size of the destination (R206, R209). -/
def EngCmd.nominal (c : EngCmd) : Nat :=
  let t := c.tpl
  let (n, lines) := if 1 < t.ilv ∧ c.dest.isHbm then (t.ilv * t.e 1, ceilDiv (t.e 0) t.ilv * t.e 2) else (t.e 0, t.e 1 * t.e 2)
  lines * ceilDiv n (contPer t.dfmt) * contSize t.dfmt

/-- Where an element stands: bytes on the model's address line, its place in a packed unit, its scale byte; an aperture
address; or an address that may not be accessed. -/
inductive Loc where
  | mem (cells : List Nat) (nib : Option Nat) (scale : Option Nat)
  | noise (va : Nat)
  | bad (addr : Nat)
deriving DecidableEq, Repr

/-- Scratch bytes of n bytes, if the grid may access them (R174). -/
def EngCmd.scratchBytes (s : State) (c : EngCmd) (g : Grid) (mode addr n : Nat) (write : Bool) : Option (List Nat) :=
  let lcore := c.core - (s.tenant c.part).slotBase
  if (List.range n).all fun k => if write then g.mayWrite lcore mode (addr + k) else g.mayRead lcore mode (addr + k)
  then some ((List.range n).map fun k => scratchCell c.core mode (addr + k)) else none

/-- One byte of HBM through a window (R182), in the regions that the partition owned at issue (R113). -/
def EngCmd.hbmByte (c : EngCmd) (g : Grid) (va : Nat) (write : Bool) : Option Nat :=
  ((g.window c.core va).bind fun p => if write && !p.wr then none else p.translate va).filter fun pa =>
    c.regions.contains (pa / 2 ^ 30)

/-- Bytes of HBM through windows; none when one byte lies outside them or may not be written. -/
def EngCmd.hbmBytes (c : EngCmd) (g : Grid) (va n : Nat) (write : Bool) : Option (List Nat) :=
  let l := (List.range n).map fun k => c.hbmByte g (va + k) write
  if l.all (·.isSome) then some (l.filterMap id) else none

/-- A scratch-side element (R206, R246). -/
def EngCmd.scratchLoc (s : State) (c : EngCmd) (g : Grid) (l : Layout) (cont : Nat) (i : Coord) (write : Bool) : Loc :=
  let n := contSize cont
  let a := if cont = 7 then l.base + i.i0 + i.i1 * l.s1 else l.base + (i.i0 * l.s0 + i.i1 * l.s1 + i.i2 * l.s2) * n
  let sc := if cont = 7 then some (l.scale i.i1 (i.i0 / 32)) else none
  match c.scratchBytes s g l.mode a n write with
  | none => .bad (wordForm l.mode a)
  | some cs => match sc with
    | none => .mem cs none none
    | some b => match c.scratchBytes s g l.mode b 1 write with
      | some [x] => .mem cs none (some x)
      | _ => .bad (wordForm l.mode b)

/-- The command may read the aperture (R228, R232). -/
def EngCmd.apertureOk (c : EngCmd) : Bool :=
  decide (c.fn ≠ 3) && (decide (c.tpl.sfmt ≤ 2) || (decide (c.tpl.sfmt = 4) && !c.tpl.scales))

/-- An HBM-side element (R206, R209). -/
def EngCmd.hbmLoc (c : EngCmd) (g : Grid) (va : Nat) (rows : Bool) (cont : Nat) (i : Coord) (write : Bool) : Loc :=
  let h := hbmCoord c.tpl.ilv i
  let n := contSize cont
  let line := va + (if rows then c.idx.getD h.i1 0 else h.i1) * c.tpl.hstr1 + h.i2 * c.tpl.hstr2
  let a := line + h.i0 / contPer cont * n
  let sc := if contNarrow cont && c.tpl.scales then some (line + c.tpl.hsoff + h.i0 / 32) else none
  let nib := if 1 < contPer cont then some (h.i0 % contPer cont) else none
  if isAperture a && !write && c.apertureOk then .noise a
  else match c.hbmBytes g a n write with
    | none => .bad a
    | some cs => match sc with
      | none => .mem cs nib none
      | some b => match c.hbmByte g b write with
        | some x => .mem cs nib (some x)
        | none => .bad b

/-- An element's place on a side. -/
def EngCmd.loc (s : State) (c : EngCmd) (g : Grid) (side : Side) (cont : Nat) (i : Coord) (write : Bool) : Loc :=
  match side with
  | .scratch l => c.scratchLoc s g l cont i write
  | .hbm va => c.hbmLoc g va false cont i write
  | .rows va => c.hbmLoc g va true cont i write
  | .queue => .mem [] none none

/-- An input or output place that cannot be accessed. -/
def Loc.isBad : Loc → Bool
  | .bad _ => true
  | _ => false

/-! ### The plan -/

/-- One element of the plan: what it reads (with its weight), where it goes (`dst` is none for a clipped element of a scatter), and the
fault that its row meets after issue (R218). -/
structure PEl where
  i : Coord
  clip : Bool
  ins : List (FVal × Option Loc)
  dst : Option Loc
  bad : Option (MCls × Nat)
deriving DecidableEq, Repr

/-- No element. -/
def PEl.blank : PEl := ⟨⟨0, 0, 0, false⟩, true, [], none, none⟩

/-- One thing written: bytes of the address line (none for a queue), the elements that it packs, or the scale of a unit;
its nominal element number and its destination beat. -/
structure Item where
  cells : List Nat
  els : List Nat
  scale : Option Nat
  beats : List Nat
deriving DecidableEq, Repr

/-- The plan of a data command; `moved` when its codes and scales move unchanged. -/
structure Plan where
  els : List PEl
  unitOf : List Nat
  units : List (List Nat)
  srcBeats : List Nat
  items : List Item
  dstBeats : List Nat
  nd : Nat
  bad : Option (MCls × Nat)
  terms : Nat
  moved : Bool
deriving DecidableEq, Repr

/-- The stencil of an mgx command (R222). -/
def EngCmd.stencil (c : EngCmd) : Option Stencil := if c.fn = 3 then readStencil (c.sten.map (·.toNat)) else none

/-- A stencil table that cannot be used (R218, R222): the class of its lowest poisoned byte, or a malformed one's. -/
def EngCmd.malformed (c : EngCmd) : Option MCls :=
  if c.fn ≠ 3 then none else c.stenMarks.head? <|> (if c.stencil.isNone then some .format else none)

/-- The inputs of an element (R206, R224). -/
def EngCmd.inputs (s : State) (c : EngCmd) (g : Grid) (i : Coord) : List (FVal × Option Loc) :=
  if c.fn = 3 then
    match c.stencil with
    | none => []
    | some st =>
      let x := (List.range 3).map fun k => c.origin.getD k 0 + i.list.getD k 0
      (st.points x).map fun t => (t.1, t.2.map fun y =>
        c.loc s g c.source c.tpl.sfmt ⟨y.getD 0 0, y.getD 1 0, y.getD 2 0, false⟩ false)
  else [(.fin false 1 0, some (c.loc s g c.source c.tpl.sfmt i false))]

/-- The fault of a place that cannot be accessed. -/
def Loc.fault : Loc → Option (MCls × Nat)
  | .bad a => some (.access, a)
  | _ => none

/-- The fault of an element's row (R218): the class of a poisoned byte of its index word, or a place that cannot be accessed. -/
def EngCmd.rowFault (c : EngCmd) (i : Coord) (ins : List (FVal × Option Loc)) (dst : Loc) : Option (MCls × Nat) :=
  ((c.idxMarks.find? i.i1).map fun m => (m, 0)) <|> dst.fault <|> ins.findSome? fun t => t.2.bind Loc.fault

/-- One element of the plan. With a poisoned index word a row is neither read nor, for a scatter, written (R218). -/
def EngCmd.element (s : State) (c : EngCmd) (g : Grid) (i : Coord) : PEl :=
  let cl := i.pad || c.clipped i
  let dst := c.loc s g c.dest c.tpl.dfmt i true
  let ins := if cl || c.malformed.isSome || c.lost i then [] else c.inputs s g i
  let skip := decide (c.fn = 2) && (cl || c.lost i) || dst.isBad
  ⟨i, cl, ins, if skip then none else some dst, if cl then none else c.rowFault i ins dst⟩

/-- Source beats that an input touches: HBM beats by physical address, aperture beats apart (R211). -/
def Loc.srcBeats : Loc → List Nat
  | .mem cells _ sc => dedup ((cells ++ sc.toList).filterMap fun a => if a < hbmEnd then some (a / 64) else none)
  | .noise va => [2 ^ 60 + va / 64]
  | .bad _ => []

/-- Source beats of the code alone, and of the block scale alone. -/
def Loc.codeBeats : Loc → List Nat
  | .mem cells nib _ => (Loc.mem cells nib none).srcBeats
  | l => l.srcBeats
def Loc.scaleBeats : Loc → List Nat
  | .mem _ _ (some a) => (Loc.mem [a] none none).srcBeats
  | _ => []

/-- Source beats of an element, in order. -/
def PEl.srcBeats (e : PEl) : List Nat := dedup (e.ins.flatMap fun t => match t.2 with
  | some l => l.srcBeats
  | none => [])

/-- The block of an element when its destination carries block scales (R244): line coordinates and block number. -/
def EngCmd.blockKey (c : EngCmd) (e : PEl) : Option (Nat × Nat × Nat) :=
  if c.dstScaled && !e.clip then
    let h := if c.dest.isHbm then hbmCoord c.tpl.ilv e.i else e.i
    some (h.i1, h.i2, h.i0 / 32)
  else none

/-- Group elements into units: a block of scaled codes, or one element. -/
def groupUnits (keys : List (Option (Nat × Nat × Nat))) : List (List Nat) × List Nat :=
  let r := keys.zipIdx.foldl (fun (r : List (Option (Nat × Nat × Nat) × List Nat) × List Nat) e =>
    match e.1 with
    | some k => match r.1.findIdx? (fun u => decide (u.1 = some k)) with
      | some u => (r.1.modify u fun x => (x.1, x.2 ++ [e.2]), r.2 ++ [u])
      | none => (r.1 ++ [(some k, [e.2])], r.2 ++ [r.1.length])
    | none => (r.1 ++ [(none, [e.2])], r.2 ++ [r.1.length])) ([], [])
  (r.1.map (·.2), r.2)

/-- Cells of a destination. -/
def Loc.cells : Loc → List Nat
  | .mem cs _ _ => cs
  | _ => []
def Loc.scaleCell : Loc → Option Nat
  | .mem _ _ sc => sc
  | _ => none
def Loc.nib : Loc → Option Nat
  | .mem _ n _ => n
  | _ => none

/-- The line of an element on an HBM side (R206, R209). -/
def PEl.line (e : PEl) (ilv : Nat) : Nat × Nat := ((hbmCoord ilv e.i).i1, (hbmCoord ilv e.i).i2)

/-- The things that the destination receives, in nominal order, without their beats: codes, the packed words of a line at their first
element, and the scale of a block after its last element. -/
def planItems (els : List PEl) (units : List (List Nat)) (unitOf : List Nat) (scaled : Bool) (ilv : Nat) : List Item :=
  let ix := els.zipIdx
  ix.flatMap fun e =>
    match e.1.dst with
    | none => []
    | some d =>
      let code : List Item := match d.nib with
        | none => [⟨d.cells, [e.2], none, []⟩]
        | some _ =>
          let grp := (ix.filter fun f => match f.1.dst with
            | some d' => decide (d'.cells = d.cells) && decide (f.1.line ilv = e.1.line ilv)
            | none => false).map (·.2)
          if grp.head? = some e.2 then [⟨d.cells, grp, none, []⟩] else []
      let u := unitOf.getD e.2 0
      let sc : List Item := match d.scaleCell with
        | some a => if scaled && !e.1.clip && decide ((units.getD u []).getLast? = some e.2) then [⟨[a], [], some u, []⟩] else []
        | none => []
      code ++ sc

/-- Codes and scales move unchanged (R207). -/
def EngCmd.moves (c : EngCmd) : Bool :=
  decide (c.fn ≠ 3) && (decide (c.tpl.sfmt = c.tpl.dfmt) || (contNarrow c.tpl.sfmt && contNarrow c.tpl.dfmt))

/-- The plan of a data command (R211). -/
def EngCmd.plan (s : State) (c : EngCmd) (g : Grid) : Plan :=
  let els := c.coords.map (c.element s g)
  let (units, unitOf) := groupUnits (els.map c.blockKey)
  let srcBeats := dedup (els.flatMap (·.srcBeats))
  let raw := planItems els units unitOf c.dstScaled c.tpl.ilv
  let hbm := c.dest.isHbm
  let dstBeats := if hbm then dedup (raw.flatMap fun it => it.cells.map (· / 64)) else []
  let n := contSize c.tpl.dfmt
  let nominalBeat (it : Item) : Nat :=
    let e := match it.scale with
      | some u => ((units.getD u []).getLast?).getD 0
      | none => it.els.headD 0
    e * n / 64 + 1
  let beatsOfItem (it : Item) : List Nat :=
    if hbm then (dedup (it.cells.map fun a => dstBeats.idxOf (a / 64) + 1)) else [nominalBeat it]
  let items := raw.map fun it => { it with beats := beatsOfItem it }
  ⟨els, unitOf, units, srcBeats, items, dstBeats, if hbm then dstBeats.length else ceilDiv c.nominal 64,
   els.findSome? (·.bad),
   if c.fn = 3 then (match c.malformed, c.stencil with
     | none, some st => st.terms.length
     | _, _ => 27) else 0, c.moves⟩

/-- Source beats that hold inputs of an item (R207, R211): of codes moved unchanged their own bytes, and of a scale moved unchanged the scales of its
block; otherwise all that the units of its elements read. -/
def Plan.inputBeats (p : Plan) (it : Item) : List Nat :=
  let of (es : List Nat) (f : Loc → List Nat) : List Nat :=
    es.flatMap fun e => (p.els.getD e .blank).ins.flatMap fun t => (t.2.map f).getD []
  match it.scale with
  | some u => of (p.units.getD u []) (if p.moved then Loc.scaleBeats else Loc.srcBeats)
  | none => if p.moved then of it.els Loc.codeBeats
    else of ((dedup (it.els.map fun e => p.unitOf.getD e 0)).flatMap fun u => p.units.getD u []) Loc.srcBeats

/-- last(j) of R211: the highest source beat that holds an input of beat j. -/
def Plan.last (p : Plan) (j : Nat) : Nat :=
  ((p.items.filter fun it => it.beats.contains j).flatMap p.inputBeats).foldl (fun m b => max m (p.srcBeats.idxOf b + 1)) 0

/-- Scratch bytes that the command reads as data at s + 8 (R211). -/
def Plan.scratchReads (p : Plan) : List Nat :=
  dedup (p.els.flatMap fun e => e.ins.flatMap fun t => match t.2 with
    | some (.mem cs _ sc) => (cs ++ sc.toList).filter fun a => decide (hbmEnd ≤ a)
    | _ => [])

/-! ### Values -/

/-- Bytes and the first mark of cells as captured. -/
def EngCmd.captured (c : EngCmd) (cells : List Nat) : List Byte × Option MCls :=
  let l := cells.map fun a => c.snap.get (0, none) a
  (l.map (·.1), l.findSome? (·.2))

/-- A source element as read: code, scale code, and the marks of both (R207, R208, R218). -/
structure ReadEl where
  code : Nat
  scale : Nat
  mark : Option MCls
  smark : Option MCls
deriving DecidableEq, Repr

/-- An element without a source. -/
def ReadEl.blank : ReadEl := ⟨0, scaleOne, none, none⟩

/-- Read a source element. -/
def EngCmd.readLoc (c : EngCmd) : Loc → ReadEl
  | .noise va => ⟨contNoise c.tpl.sfmt c.nf va c.seedLo c.seedHi c.nstep, scaleOne, none, none⟩
  | .bad _ => ⟨0, scaleOne, some .access, none⟩
  | .mem cells nib sc =>
    let bytes := cells.map fun a => c.snap.get (0, none) a
    let n := leNat (bytes.map (·.1))
    let (scale, smark) := match sc with
      | some a => let b := c.snap.get (0, none) a; (b.1.toNat, b.2)
      | none => (scaleOne, none)
    match nib with
    | none => ⟨n, scale, bytes.findSome? (·.2), smark⟩
    | some k =>
      let w := contBits c.tpl.sfmt
      let part := (bytes.drop (w * k / 8)).take ((w * k + w - 1) / 8 - w * k / 8 + 1)
      let fmt := if c.tpl.sfmt = 6 ∧ field n 126 2 ≠ 0 then some MCls.format else none
      ⟨field n (w * k) w, scale, part.findSome? (·.2) <|> fmt, smark⟩

/-- The low bits of a code that a destination holds. -/
def EngCmd.codeMask (c : EngCmd) (code : Nat) : Nat :=
  if contNarrow c.tpl.dfmt then code % 2 ^ c.nf.w else code % 2 ^ (8 * contSize c.tpl.dfmt)

/-- The codes and marks of a unit's elements, and its scale code with its mark (R207, R210, R222, R226, R228, R244). A poisoned byte
marks what it feeds (R218): a code moved unchanged its own code, a scale moved unchanged the scale, and an input of a block that is
converted with a scale every code of it. -/
def EngCmd.unitValues (c : EngCmd) (es : List PEl) : List (Nat × Option MCls) × (Nat × Option MCls) :=
  match c.malformed with
  | some m => (es.map fun _ => (0, some m), (0, some m))
  | none =>
    if es.all (·.clip) then (es.map fun _ => (c.codeMask c.tpl.fill, none), (scaleOne, none))
    else
      let rd := es.map fun e => e.ins.map fun t => (t.1, t.2.map c.readLoc)
      let row : List (Option MCls) := es.map fun e => e.bad.map (·.1)
      let first := rd.map fun ts => (ts.head?.bind (·.2)).getD .blank
      let sf := c.tpl.sfmt
      let df := c.tpl.dfmt
      if c.moves then
        ((first.zip row).map fun p => (c.codeMask p.1.code, p.1.mark <|> p.2),
         if c.srcScaled then ((first.headD .blank).scale, first.findSome? (·.smark) <|> row.findSome? id)
         else (scaleOne, row.findSome? id))
      else
        let marks := (rd.zip row).map fun p => (p.1.findSome? fun t => t.2.bind fun r => r.mark <|> r.smark) <|> p.2
        let anyMark := marks.findSome? id
        let dec (r : ReadEl) : FVal := contDecode sf c.nf r.code r.scale
        let vals := rd.map fun ts =>
          if c.fn = 3 then stencilSum (ts.map fun t => (t.1, t.2.map dec))
          else match ts.head?.bind (·.2) with
            | some r => dec r
            | none => .fin false 0 0
        if c.dstScaled then
          let (sc, codes) := encodeBlock c.nf vals
          (codes.map fun x => (x, anyMark), (sc, anyMark))
        else ((vals.map (contEncode df c.nf)).zip marks, (scaleOne, anyMark))

/-- The code of one element and its mark. -/
def Plan.code (p : Plan) (c : EngCmd) (e : Nat) : Nat × Option MCls :=
  let u := p.units.getD (p.unitOf.getD e 0) []
  let es := u.map fun k => p.els.getD k .blank
  (c.unitValues es).1.getD (u.idxOf e) (0, none)

/-- The scale of a unit. -/
def Plan.scaleOf (p : Plan) (c : EngCmd) (u : Nat) : Nat × Option MCls :=
  (c.unitValues ((p.units.getD u []).map fun k => p.els.getD k .blank)).2

/-- What an item writes: bytes with marks, and the bits of them that the command does not write (R206, R208): those of
clipped elements of a scatter keep their value, and the unused half of a last N4 byte is a free value. -/
structure ItemOut where
  bytes : List (Nat × Byte × Option MCls)
  keep : Nat
deriving DecidableEq, Repr

/-- The bits of a packed unit that its elements occupy. -/
def packedBits (w : Nat) (ks : List Nat) : Nat := ks.foldl (fun m k => m + (2 ^ w - 1) * 2 ^ (w * k)) 0

/-- The bytes of one item. -/
def Plan.itemOut (p : Plan) (c : EngCmd) (free : Nat) (it : Item) : ItemOut :=
  match it.scale with
  | some u => let v := p.scaleOf c u; ⟨it.cells.map fun a => (a, BitVec.ofNat 8 v.1, v.2), 0⟩
  | none =>
    let n := contSize c.tpl.dfmt
    let ks := it.els.filterMap fun e => ((p.els.getD e .blank).dst.bind Loc.nib).map fun k => (k, p.code c e)
    if contPer c.tpl.dfmt = 1 then
      let v := p.code c (it.els.headD 0)
      ⟨it.cells.zip ((leBytes n v.1).map fun b => (b, v.2)), 0⟩
    else
      let w := contBits c.tpl.dfmt
      let word := ks.foldl (fun x k => x + k.2.1 % 2 ^ w * 2 ^ (w * k.1)) 0
      let used := packedBits w (ks.map (·.1))
      let e0 := p.els.getD (it.els.headD 0) .blank
      let start := e0.i.i0 - (e0.dst.bind Loc.nib).getD 0
      let clipped := if c.fn = 2 then packedBits w ((List.range (contPer c.tpl.dfmt)).filter fun m =>
        decide (start + m < c.tpl.e 0) && !(ks.any fun k => decide (k.1 = m))) else 0
      let spare := if c.tpl.dfmt = 5 then (0xFF - used - clipped) &&& (free % 256) else 0
      let mark (b : Nat) : Option MCls := ks.findSome? fun (k : Nat × Nat × Option MCls) =>
        (if w * k.1 / 8 ≤ b ∧ b ≤ (w * k.1 + w - 1) / 8 then k.2.2 else none : Option MCls)
      ⟨it.cells.zipIdx.map fun a => (a.1, BitVec.ofNat 8 (field (word + spare) (8 * a.2) 8), mark a.2), clipped⟩

end Sys2Proof.Machine
end

