-- ==== Sys2Proof/Machine/Hbm.lean ====
section
/-! DEFINITION. HBM loads, stores and atomics of the access stream, with their translation and their slots (R181 to R187,
R202, R340 to R343). -/

namespace Sys2Proof.Machine

/-- What translation gives a lane's address: a physical address and its permission, a fault, or a page still to be
fetched. -/
inductive Xlate where
  | pa (a : Nat) (wr : Bool)
  | fault
  | missing (page : Nat)
deriving DecidableEq, Repr

/-- Translate through windows, then through the fault buffer (R182, R185). -/
def State.xlate (s : State) (w : Warp) (g : Grid) (va : Nat) : Xlate :=
  match g.window w.core va with
  | some p => match p.translate va with
    | some a => .pa a p.wr
    | none => .fault
  | none =>
    match s.fillFor w.core w.part va with
    | some f => match f.page.bind fun p => (p.translate va).map fun a => (a, p.wr) with
      | some (a, wr) => .pa a wr
      | none => .fault
    | none => .missing (va / 0x10000)

/-- A fill holds, or will hold, a page of a partition. -/
def Fill.covers (f : Fill) (part page : Nat) : Bool :=
  f.part = part && (f.va = page || match f.page with
    | some p => (p.translate (page * 0x10000)).isSome
    | none => false)

/-- A completed fill whose woken streams have all retried (R185). -/
def Fill.idle (f : Fill) : Bool := (f.page.isSome || f.fault) && f.waiters.isEmpty

/-- Remove the first entry of a list that meets a test. -/
def removeFirst {α : Type} (f : α → Bool) : List α → List α
  | [] => []
  | x :: xs => if f x then xs else x :: removeFirst f xs

/-- Allocate or join a fill for a page (R185): 64 entries, the oldest idle completed fill replaced. -/
def allocFill (fs : List Fill) (part page : Nat) (who : Nat × Strm) : List Fill :=
  if fs.any (·.covers part page) then
    fs.map fun f => if f.covers part page && !f.waiters.contains who then { f with waiters := f.waiters ++ [who] } else f
  else if fs.length < 64 then fs ++ [⟨page, part, none, false, [who]⟩]
  else if fs.any (·.idle) then removeFirst (·.idle) fs ++ [⟨page, part, none, false, [who]⟩]
  else fs

/-- Fills for the missing pages of a parked stream. -/
def State.wantFills (s : State) (core part : Nat) (who : Nat × Strm) (pages : List Nat) : State :=
  { s with fills := s.fills.put core (pages.foldl (fun fs p => allocFill fs part p who) (s.fills.get [] core)) }

/-- A woken stream retries: it leaves its fills, and a fill that ended with a fault is gone once reported (R185, R186). -/
def State.retryFills (s : State) (core : Nat) (who : Nat × Strm) : State :=
  if (s.fills.get [] core).isEmpty then s
  else
    let fs := (s.fills.get [] core).map fun f => { f with waiters := f.waiters.filter (· ≠ who) }
    { s with fills := s.fills.put core (fs.filter fun f => !(f.fault && f.waiters.isEmpty)) }

/-- Outstanding access-stream HBM instructions of a core by their completion ticks, the latest issued first (R202). -/
def State.hbmOutstanding (s : State) (core : Nat) : List Nat := (s.hbmOut.get [] core).filter fun t => decide (s.gtc < t)

/-- An HBM instruction is outstanding until a tick (R202). -/
def State.addOutstanding (s : State) (core t : Nat) : State :=
  { s with hbmOut := s.hbmOut.put core (t :: s.hbmOutstanding core) }

/-- The park at the limit of R202: until the oldest outstanding instruction completes. -/
def State.hbmLimitPark (s : State) (core : Nat) : Park := .hbmLimit (((s.hbmOutstanding core).getLast?).getD s.gtc)

/-- Lane l's virtual address from an address pair, and whether it is below 2^52 (R277, R340). -/
def pairVa (lo hi : RVal) (l : Nat) : Nat := (lo.lane l).toNat + field (hi.lane l).toNat 0 20 * 2 ^ 32
def pairOk (hi : RVal) (l : Nat) : Bool := field (hi.lane l).toNat 20 12 = 0

/-- Step 3 of R335 for one lane's address: `n` bytes; `apOk` tells whether the aperture may be accessed. -/
def hbmAddrOk (n : Nat) (apOk : Bool) (lo hi : RVal) (l : Nat) : Bool :=
  let va := pairVa lo hi l
  pairOk hi l && !isReservedVa va && decide (va % n = 0) && (apOk || !isAperture va)

/-- The physical addresses of the active lanes outside the aperture. -/
def State.lanePas (s : State) (w : Warp) (g : Grid) (vas : List (Nat × Nat)) : List (Nat × Nat) :=
  vas.filterMap fun e => if isAperture e.2 then none else
    match s.xlate w g e.2 with
    | .pa a _ => some (e.1, a)
    | _ => none

/-- The checks of an HBM instruction in the order of R335, then the limit of R202; `k` receives the lanes' virtual and
physical addresses. -/
def hbmAccess (c : Ctx) (s : State) (lo hi : RVal) (n : Nat) (apOk write : Bool)
    (k : State → List (Nat × Nat) → List (Nat × Nat) → Out) : Out :=
  let who := (c.key, c.x)
  let fault (s : State) (l : Nat) : Out := c.trap s ⟨6, l, pairVa lo hi l⟩
  match (Mask.list c.act).find? fun l => !hbmAddrOk n apOk lo hi l with
  | some l => fault s l
  | none =>
    let vas := (Mask.list c.act).map fun l => (l, pairVa lo hi l)
    let hv := vas.filter fun e => !isAperture e.2
    let missing := dedup (hv.filterMap fun e => match s.xlate c.w c.g e.2 with
      | .missing p => some p
      | _ => none)
    let s' := s.retryFills c.w.core who
    if missing ≠ [] then c.park (s'.wantFills c.w.core c.w.part who missing) (.fill missing)
    else match hv.find? fun e => match s.xlate c.w c.g e.2 with
        | .pa _ wr => write && !wr
        | _ => true with
      | some e => fault s' e.1
      | none =>
        if 1024 ≤ (s.hbmOutstanding c.w.core).length then c.park s' (s.hbmLimitPark c.w.core)
        else k s' vas (s.lanePas c.w c.g vas)

/-- The model addresses of the n bytes of a physical address. -/
def paCells (n a : Nat) : List Nat := (List.range n).map (a + ·)

/-- Bytes of an ldg size key (R341). -/
def ldgBytes (k : Nat) : Nat := if k = 0 then 4 else if k = 3 ∨ k = 4 then 1 else 2

/-- The word that an aperture lane reads for a size key (R231, R341). -/
def apertureWord (k va : Nat) (st : Stream) : Word :=
  let v := noiseFp32 va (ldgBytes k) st.nseedLo st.nseedHi st.nstep
  if k = 0 then wordOfNat v
  else wordOfNat ((if k = 1 then bf16 else fp16).roundVal .ne (fp32.decode v)).bits

/-- ldg and ldgi (R198, R341). -/
def hbmLoad (o : Ldg) (inv : Bool) (s : State) : Out :=
  issue ⟨legalLdg o, true, false, [o.a], groupRegs o.a 1, o.d, o.g.toNat, o.e, 4, []⟩ s fun c =>
    let r := c.group o.a 1
    let lo := r.getD 0 RVal.zero
    let hi := r.getD 1 RVal.zero
    let k := o.s.toNat
    let n := ldgBytes k
    c.unmarked s r <| hbmAccess c s lo hi n (decide (k ≤ 2)) false fun s vas pas =>
      let (latest, s) := s.takeBeats c.w.core (c.now + 48) (beatsOf (pas.flatMap fun e => paCells n e.2))
      let d := max (c.now + 640) (latest + 128)
      let full := decide (lo.v.tag = 0) && decide (hi.v.tag = 0) && decide (c.act = Mask.full)
      let id := s.fresh
      let e := latchOf id d (c.dstTag o.d (if full then 0 else 2) c.act)
      let s := c.putLater s o.d d (if full || decide (c.act = 0) then 0 else 2)
      let s := s.addOutstanding c.w.core d
      let rd : PRead := ⟨c.now + 48, c.key, id, n, decide (k = 4) || decide (k = 5),
        pas.map fun e => (e.1, paCells n e.2),
        (vas.filter fun e => isAperture e.2).map fun e => (e.1, apertureWord k e.2 c.st), full, inv,
        c.g.firstIssue.getD c.now⟩
      .next (c.commit { s with reads := s.reads ++ [rd] } e)

/-- ldg (R341). -/
def execLdg (o : Ldg) (s : State) : Out := hbmLoad o false s
/-- ldgi (R198, R341). -/
def execLdgi (o : Ldg) (s : State) : Out := hbmLoad o true s

/-- stg (R342). -/
def execStg (o : St) (s : State) : Out :=
  issue ⟨legalStg o, true, false, [o.a, o.b], groupRegs o.a 1, .discard, o.g.toNat, o.e, 4, []⟩ s fun c =>
    let r := c.group o.a 1
    let lo := r.getD 0 RVal.zero
    let hi := r.getD 1 RVal.zero
    c.unmarked s (r ++ [c.val 1]) <| hbmAccess c s lo hi 4 false true fun s _ pas =>
      if c.act = 0 then c.finish (s.addOutstanding c.w.core (c.now + 680))
      else
        let (latest, s) := s.takeBeats c.w.core (c.now + 48) (beatsOf (pas.map (·.2)))
        let wct := max (c.now + 680) (latest + 168)
        let cells := pas.flatMap fun e =>
          (paCells 4 e.2).zip ((leBytes 4 ((c.val 1).lane e.1).toNat).map fun b => (b, none))
        c.finish (c.mark ((c.write s wct cells [] .none).addOutstanding c.w.core wct) 2 wct)

/-- atg (R343). -/
def execAtg (o : TA) (s : State) : Out :=
  let cas := decide (o.fn = 7)
  issue ⟨legalAtg o, true, false, [o.a, o.b], groupRegs o.a (if cas then 2 else 1), o.d, 0, o.e, 4, []⟩ s fun c =>
    let r := c.group o.a (if cas then 2 else 1)
    let lo := r.getD 0 RVal.zero
    let hi := r.getD 1 RVal.zero
    c.unmarked s (r ++ [c.val 1]) <| hbmAccess c s lo hi 4 false true fun s _ pas =>
      let (latest, s) := s.takeBeats c.w.core (c.now + 48) (beatsOf (pas.map (·.2)))
      let wct := max (c.now + 680) (latest + 168)
      let id := s.fresh
      let none := decide (o.d = .discard)
      let e := if none then Latch.voidEntry else latchOf id (wct + 48) (c.dstTag o.d 2 c.act)
      let s := if none then s else c.putLater s o.d (wct + 48) (if c.act = 0 then 0 else 2)
      if c.act = 0 then .next (c.commit ((s.addOutstanding c.w.core wct).deliver c.key id RVal.zero) e)
      else
        let addr := fun l => (List.find? (fun e => decide (e.1 = l)) pas).map (·.2)
        let s := c.write s wct [] (c.atoms o.fn.toNat (c.val 1) (r.getD 2 RVal.zero) fun l =>
          match addr l with
          | some a => paCells 4 a
          | _ => []) (if none then .none else .landing c.key id)
        .next (c.commit (c.mark (s.addOutstanding c.w.core wct) 2 wct) e)

end Sys2Proof.Machine
end

