-- ==== Sys2Proof/Machine/Sync.lean ====
section
/-! DEFINITION. Barriers, waits and fences (R347 to R352), with the raising of a schedule fault (R72 to R75). -/

namespace Sys2Proof.Machine

/-! ### Schedule faults -/

/-- Ticks of a frame (R2). -/
def frameTicks : Nat := 131072

/-- Frame of a tick. -/
def frameOf (t : Nat) : Nat := t / frameTicks

/-- Leaf of a tick within its frame. -/
def leafOf (t : Nat) : Nat := t / 4096 % 32

/-- The active image (R68). -/
def State.activeImage (s : State) : Option PodImage := if s.sched.active then s.sched.images.find? s.sched.image else none

/-- A boundary frame of the active image (R78). -/
def State.isBoundary (s : State) (f : Nat) : Bool :=
  match s.activeImage with
  | some i => decide (s.sched.base ≤ f) && decide ((f - s.sched.base) % i.period = 0)
  | none => false

/-- The least of an optional number and a number. -/
def minOpt (a : Option Nat) (b : Nat) : Nat := match a with
  | some x => min x b
  | none => b

/-- A schedule fault of a cause (R73, R75, R97): recorded at once; in a round's states it fixes the fault frame. -/
def State.schedFault (s : State) (cause : Nat) : State :=
  let s := s.post none 3
  let f := frameOf s.gtc
  let f := if leafOf s.gtc = 0 && s.isBoundary f then f - 1 else f
  let r : Sched := { s.sched with cause := cause }
  if r.state = .idle ∨ r.state = .halted then { s with sched := r }
  else { s with sched := { r with
    faultAt := some (r.faultAt.getD s.gtc)
    knownFirst := some (minOpt r.knownFirst f)
    firstCause := if minOpt r.knownFirst (f + 1) ≤ f then r.firstCause else cause
    faulted := if r.faulted.contains r.podNumber then r.faulted else r.podNumber :: r.faulted } }

/-- A LATE fault (R72, R350): a schedule fault in a POD grid, otherwise the end of that grid with code 23. -/
def State.lateFault (s : State) (gid : Nat) (g : Grid) : State :=
  if g.hdr.pod then s.schedFault 4 else s.stopGrid gid 23

/-! ### Barriers -/

/-- Key of a warp's arrival count on a set in one stream. -/
def arrivalKey (wid : Nat) (x : Strm) (set : Nat) : Nat := (wid * 2 + strmIdx x) * 256 + set

/-- Key of a phase of a set in one stream's sequence. -/
def phaseKey (set : Nat) (x : Strm) (p : Nat) : Nat := (set * 2 + strmIdx x) * 2 ^ 32 + p

/-- Release tick of a phase, once fixed. -/
def Grid.released (g : Grid) (set : Nat) (x : Strm) (p : Nat) : Option Nat :=
  (g.phases.find? (phaseKey set x p)).bind (·.released)

/-- A phase was released at or before a tick. -/
def Grid.releasedBy (g : Grid) (set : Nat) (x : Strm) (p t : Nat) : Bool :=
  match g.released set x p with
  | some r => decide (r ≤ t)
  | none => false

/-- An arrival of a stream on a set (R347). -/
def State.arriveSet (s : State) (gid : Nat) (g : Grid) (w : Warp) (x : Strm) (set : Nat) : State :=
  let key := arrivalKey (s.wid w) x set
  let p := g.arrivals.get 0 key
  let ms := s.setMembers gid g w.core set
  let dm := maxHops (s.tenant w.part).shape (s.setCores gid g w.core set)
  let ph := g.phases.get ⟨0, 0, none⟩ (phaseKey set x p)
  let n := ph.count + 1
  let rel := if n = ms.length then some (if dm = 0 then s.gtc + 4 else s.gtc + 24 + 2 * dm) else ph.released
  s.updGrid gid fun g => { g with arrivals := g.arrivals.put key (p + 1)
                                  phases := g.phases.put (phaseKey set x p) ⟨n, s.gtc, rel⟩ }

/-- The set of a barrier instruction's slot. -/
def Warp.setOf (w : Warp) (n : Nat) : Nat := w.setslots.getD n 255

/-- The re-presented instruction issues with no further effect (R321). -/
def State.grant (s : State) (key : Nat) (x : Strm) : State := s.updStream key x fun st => { st with granted := true }

/-- A stream parks until its completion tick, its side effects done (R321). -/
def Ctx.parkGranted (c : Ctx) (s : State) (p : Park) : Out := c.park (s.grant c.key c.x) p

/-- Arrivals of bar and arrive: an arrival two phases ahead parks before arriving (R347). -/
def Ctx.arriveOn (c : Ctx) (s : State) (set : Nat) (k : State → Nat → Out) : Out :=
  let p := c.g.arrivals.get 0 (arrivalKey (s.wid c.w) c.x set)
  if 2 ≤ p ∧ !c.g.releasedBy set c.x (p - 2) c.now then c.park s (.arrive set (p - 2))
  else
    let s := s.updStream c.key c.x fun st => { st with arrived := st.arrived.put set true }
    k (s.arriveSet c.w.grid c.g c.w c.x set) p

/-- The use of an instruction of a set slot. -/
def useN2 (o : N2) : Use := ⟨true, true, true, [], [], .discard, 0, o.e, 4, []⟩

/-- bar (R348). -/
def execBar (o : N2) (s : State) : Out :=
  issue (useN2 o) s fun c =>
    let set := c.w.setOf o.n.toNat
    if set = 255 then c.trap s Trap.illegal
    else if c.st.granted then c.finish s
    else c.arriveOn s set fun s p => c.parkGranted s (.barrier set p)

/-- arrive (R348). -/
def execArrive (o : N2) (s : State) : Out :=
  issue (useN2 o) s fun c =>
    let set := c.w.setOf o.n.toNat
    if set = 255 then c.trap s Trap.illegal
    else c.arriveOn s set fun s _ => c.finish s

/-- waitb (R348): the phase of the stream's latest arrival. -/
def execWaitb (o : N2) (s : State) : Out :=
  issue (useN2 o) s fun c =>
    let set := c.w.setOf o.n.toNat
    if set = 255 then c.trap s Trap.illegal
    else
      let k := c.g.arrivals.get 0 (arrivalKey (s.wid c.w) c.x set)
      if c.st.granted ∨ k = 0 ∨ c.g.releasedBy set c.x (k - 1) c.now then c.finish s
      else c.parkGranted s (.barrier set (k - 1))

/-! ### Waits -/

/-- The use of an instruction of one group of registers; it reads lane 0 alone (R320). -/
def useA1 (o : A1) (n : Nat) (legal : Bool) : Use := ⟨legal, true, true, [o.a], groupRegs o.a n, .discard, 0, o.e, 4, []⟩

/-- Lane 0 of register k of a group. -/
def Ctx.word (c : Ctx) (a : Src) (n k : Nat) : Nat := (((c.group a n).getD k RVal.zero).lane 0).toNat

/-- A marked word in lane 0 of a group (R334, R320). -/
def Ctx.group0 (c : Ctx) (s : State) (a : Src) (n : Nat) (k : Out) : Out :=
  match markTrap ((c.group a n).map fun r => (r, 1)) with
  | some t => c.trap s t
  | none => k

/-- The counter of a wait has reached its target (R349). -/
def State.reached (s : State) (addr target : Nat) : Bool := decide (target ≤ s.natAt addr 8)

/-- Wait on a counter of 8 bytes of the model's address line; a poisoned counter is not consumed unmarked (R334). -/
def Ctx.waitCounter (c : Ctx) (s : State) (hbm : Bool) (addr target : Nat) : Out :=
  match s.firstMark ((List.range 8).map (addr + ·)) with
  | some m => c.trap (s.sawBad ((List.range 8).map (addr + ·))) ⟨m.code, 0, 0⟩
  | none => if s.reached addr target then c.finish s else c.parkGranted s (.counter hbm addr target)

/-- waitc (R349). -/
def execWaitc (o : A1) (s : State) : Out :=
  issue (useA1 o 2 (legalGroup o)) s fun c =>
    if c.st.granted then c.finish s else c.group0 s o.a 2 <|
      let w := (c.group o.a 2).getD 0 RVal.zero |>.lane 0
      if !laneOk c.g (s.logical c.w) false false 8 w || decide (w.toNat % 8 ≠ 0) then c.trap s ⟨5, 0, w.toNat⟩
      else c.waitCounter s false ((wordCells c.w.core 8 w).headD 0) (c.word o.a 2 1 + c.word o.a 2 2 * 2 ^ 32)

/-- waitc of an HBM counter (R349). -/
def execWaitcHbm (o : A1) (s : State) : Out :=
  issue { useA1 o 3 (legalGroup o) with inExe := false } s fun c =>
    if c.st.granted then c.finish s else c.group0 s o.a 3 <|
      let lo := c.word o.a 3 0
      let hi := c.word o.a 3 1
      let va := lo + hi % 2 ^ 20 * 2 ^ 32
      match (c.g.window c.w.core va).bind fun p => p.translate va with
      | some pa =>
        if 2 ^ 20 ≤ hi ∨ va % 8 ≠ 0 then c.trap s ⟨6, 0, va⟩
        else c.waitCounter s true pa (c.word o.a 3 2 + c.word o.a 3 3 * 2 ^ 32)
      | none => c.trap s ⟨6, 0, va⟩

/-- A timed point is reached (R72, R350): one that is late beyond DS raises LATE. -/
def Ctx.atPoint (c : Ctx) (s : State) (t : Nat) : Out :=
  if c.g.hdr.ds < c.now - t then
    if c.g.hdr.pod then .next ((c.commit s Latch.voidEntry).schedFault 4) else .next (s.lateFault c.w.grid c.g)
  else c.finish s

/-- waitt (R350): a timed point. -/
def execWaitt (o : A1) (s : State) : Out :=
  issue (useA1 o 1 (legalGroup o)) s fun c =>
    if c.st.granted then c.atPoint s c.st.fenceTick else c.group0 s o.a 1 <|
      let t := c.word o.a 1 0 + c.word o.a 1 1 * 2 ^ 32
      if t ≤ c.now then c.atPoint s t
      else
        let s := s.updStream c.key c.x fun st => { st with fenceTick := t, timed := true }
        if t - c.now ≤ 8 then c.waitTo (s.grant c.key c.x) t else c.parkGranted s (.until t)

/-! ### Fences -/

/-- Commands of a warp that a fence issued at tick `t` covers (R194). -/
def State.covered (s : State) (key t : Nat) : List EngCmd :=
  match s.warp? key with
  | none => []
  | some w => (s.cmdsE.map (·.2)).filter fun c =>
      decide (c.warp = key ∧ c.inst = w.start ∧ c.grid = w.grid ∧ c.issue < t)

/-- Completion ticks of a command's writes of a scope (R193). -/
def EngCmd.scoped (c : EngCmd) (scope : Nat) : List (Option Nat) :=
  (c.wcts.filter fun e => e.1 ≤ scope).map (·.2)

/-- H of R194 when every covered completion tick is known; `m` is the mark of the scope by the writes issued before the fence. -/
def State.fenceH (s : State) (key t scope m : Nat) : Option Nat :=
  ((s.covered key t).flatMap fun c => c.scoped scope).foldl (fun a w => match a, w with
    | some x, some y => some (max x y)
    | _, _ => none) (some m)

/-- The trap that a fence takes on completion (R194, R218): a fabric failure first, then the earliest engine fault. -/
def Ctx.fenceEnd (c : Ctx) (s : State) (done : Nat) : Out :=
  if c.w.failed.any (· ≤ done) then
    c.trap (s.updWarp c.key fun w => { w with failed := w.failed.filter fun t => decide (done < t) }) ⟨11, 0, 0⟩
  else
    let due := sortBy (fun (a b : Nat × MCls × Nat) => decide (a.1 < b.1)) (c.w.faulted.filter fun e => e.1 ≤ done)
    match due with
    | e :: _ =>
      c.trap (s.updWarp c.key fun w => { w with faulted := w.faulted.erase e })
        ⟨e.2.1.code, if e.2.1 = .access then 255 else 0, e.2.2⟩
    | [] => c.finish s

/-- fence (R194, R351). -/
def execFence (o : N2) (s : State) : Out :=
  issue { useN2 o with inExe := false } s fun c =>
    let scope := o.n.toNat
    if c.st.granted then c.fenceEnd s c.st.fenceTick
    else
      let m := c.w.markBefore scope c.now
      match s.fenceH c.key c.now scope m with
      | some h =>
        if h ≤ c.now then c.fenceEnd s c.now
        else
          let s := s.updStream c.key c.x fun st => { st with fenceTick := h, timed := false }
          if h - c.now ≤ 8 then c.waitTo (s.grant c.key c.x) h else c.parkGranted s (.until h)
      | none =>
        let s := s.updStream c.key c.x fun st => { st with fenceTick := c.now, timed := false }
        c.parkGranted s (.fence scope m)

/-- qfence (R196, R352). -/
def execQfence (o : A1) (s : State) : Out :=
  issue (useA1 o 0 (legalA1 o)) s fun c =>
    match markTrap [(c.val 0, 1)] with
    | some t => c.trap s t
    | none =>
      let m := (c.lane0 0).toNat % 2 ^ 16
      if m = 0 then c.finish s
      else c.finish { s with joins := s.joins ++ [({ core := c.w.core, grid := c.w.grid, pos := c.w.pos, inst := c.w.start, ord := s.fresh, mask := m } : Join)] }.bump

/-! ### Release of parked streams -/

/-- A completion tick is known and not later than `t`. -/
def byTick (o : Option Nat) (t : Nat) : Bool := match o with
  | some d => decide (d ≤ t)
  | none => false

/-- Bundles that count against a core's stage store (R214): those staged and not sent, and those that a `coll` has still to form. -/
def State.stageHeld (s : State) (core : Nat) : Nat :=
  ((s.stage.filter fun e => decide (e.1 / 16 = core)).map fun e => e.2.length).sum +
  (((s.cmdsE.map (·.2)).filter fun c => decide (c.core = core ∧ c.fn = 9 ∧ c.mStart = 0) && c.tpl.op.testBit 2).map fun c => c.tpl.e 0).sum

/-- A counter is poisoned (R334): a stream that waits for it takes up its instruction again, and traps. -/
def State.counterMarked (s : State) (a : Nat) : Bool := (s.firstMark ((List.range 8).map (a + ·))).isSome

/-- The cause of a park has cleared at the current tick (R155, R321). The pops of a tick come before its reservations (R151). -/
def State.clears (s : State) (key : Nat) (w : Warp) (x : Strm) : Park → Bool
  | .popEmpty q => (w.live q).any (fun r => decide (r.issued < s.gtc)) || (w.strm (queueProducer q)).gone
  | .pushFull q n => decide ((w.live q).length + n ≤ queueDepth q) || (w.strm (queueConsumer q)).gone
  | .fill pages => match s.gridOf w with
    | some g => pages.all fun p => decide (s.xlate w g (p * 0x10000) ≠ .missing p)
    | none => false
  | .until t => decide (t ≤ s.gtc)
  | .barrier set p => match s.gridOf w with
    | some g => g.releasedBy set x p s.gtc
    | none => false
  | .arrive set p => match s.gridOf w with
    | some g => g.releasedBy set x p s.gtc
    | none => false
  | .counter _ a t => s.reached a t || s.counterMarked a
  | .fence scope m => match s.fenceH key (w.strm x).fenceTick scope m with
    | some h => decide (h ≤ s.gtc)
    | none => false
  | .hbmLimit t => decide (t ≤ s.gtc)
  | .engLimit o => match s.cmdsE.find? o with
    | some c => byTick c.done s.gtc
    | none => true
  | .stage n => decide (s.stageHeld w.core + n ≤ 64)
  | .debug => false

/-- Release a stream whose cause has cleared: a fence notes its completion tick H. -/
def State.releaseStream (s : State) (key : Nat) (x : Strm) : State :=
  match s.warp? key with
  | none => s
  | some w =>
    match (w.strm x).phase with
    | .parked p =>
      if s.clears key w x p then
        s.updStream key x fun st => { st with phase := .released
                                              granted := st.granted && !(match p with
                                                | .counter _ a _ => s.counterMarked a
                                                | _ => false)
                                              fenceTick := match p with
                                                | .fence scope m => (s.fenceH key st.fenceTick scope m).getD s.gtc
                                                | _ => st.fenceTick }
      else s
    | _ => s

end Sys2Proof.Machine
end

