-- ==== Sys2Proof/Machine/EngIssue.lean ====
section
/-! DEFINITION. Issuing engine commands: blocks, control words, checks and the entry into a queue (R201 to R207, R212,
R364 to R371). -/

namespace Sys2Proof.Machine

/-- Registers of a command's block, by function (R288, R365). -/
def blockLen (fn : Nat) : Nat := [14, 14, 14, 14, 14, 8, 8, 8, 8, 6, 8, 3].getD fn 3
/-- KIND of a function's template (R203); launch and cntadd read none. -/
def kindOf (fn : Nat) : Option Nat := [some 0, some 1, some 2, some 3, some 4, some 5, some 5, some 5, some 5, some 6].getD fn none
/-- DIR values of a function (R366). -/
def dirsOf (fn : Nat) : List Nat := if fn = 0 ∨ fn = 3 then [0, 1, 2] else if fn = 2 then [1] else [0]

/-- Fields of the control word (R364). -/
def ctlEq (w : Nat) : Nat := field w 28 4
def ctlTpl (w : Nat) : Nat := field w 18 10
def ctlCsp (w : Nat) : Nat := field w 16 2
def ctlDir (w : Nat) : Nat := field w 14 2
def ctlInc (w : Nat) : Nat := field w 0 14

def EngCmd.csp (c : EngCmd) : Nat := ctlCsp (c.word 0)
def EngCmd.inc (c : EngCmd) : Nat := ctlInc (c.word 0)

/-- Check 2 of R371. -/
def controlOk (fn ntpl w kind : Nat) : Bool :=
  decide (ctlCsp w ≠ 3) && (decide (ctlCsp w ≠ 0) || decide (ctlInc w = 0)) && (dirsOf fn).contains (ctlDir w) &&
  match kindOf fn with
  | none => decide (ctlTpl w = 0)
  | some k => decide (ctlTpl w < ntpl) && decide (kind = k)

/-- A check: the failing address when it fails. -/
abbrev Check := Option Nat

/-- Fail with an address unless a test holds. -/
def need (ok : Bool) (addr : Nat) : Check := if ok then none else some addr

/-- The first failure. -/
def checks (l : List Check) : Check := l.findSome? id

/-- A scratch span of n bytes at an address word (R174, R175). -/
def EngCmd.span (s : State) (c : EngCmd) (g : Grid) (w n align : Nat) (write : Bool) : Check :=
  match addrWord (wordOfNat w) with
  | none => some w
  | some (m, a) => need (decide (a % align = 0) && (c.scratchBytes s g m a n write).isSome) w

/-- The bytes of a span. -/
def EngCmd.spanBytes (c : EngCmd) (w n : Nat) : List Nat :=
  (List.range n).map fun k => scratchCell c.core (field w 24 4) (field w 0 23 + k)

/-- The counter's check (R364, R216). -/
def EngCmd.checkCounter (s : State) (c : EngCmd) (g : Grid) : Check :=
  if c.csp = 1 then checks [need (decide (c.word 2 = 0)) (c.word 1), c.span s g (c.word 1) 8 8 true]
  else if c.csp = 2 then
    checks [need (decide (field (c.word 2) 20 12 = 0)) (c.va 1), need (decide (c.va 1 % 8 = 0)) (c.va 1),
            need (c.hbmBytes g (c.va 1) 8 true).isSome (c.va 1)]
  else none

/-- The counter's bytes on the address line. -/
def EngCmd.counterAt (c : EngCmd) (g : Grid) : Nat :=
  if c.csp = 1 then (c.spanBytes (c.word 1) 8).headD 0 else ((c.hbmByte g (c.va 1) true)).getD 0

/-- A layout word's check (R263, R264, R204). -/
def EngCmd.checkLayout (c : EngCmd) (k cont : Nat) : Check :=
  match c.layout k with
  | none => some (c.word k)
  | some l => need (decide (contEsize cont = some l.esize) && (decide (cont ≠ 7) || decide (l.s0 = 1))) (c.word k)

/-- A container on its side (R204, R206, R212). -/
def EngCmd.checkSide (c : EngCmd) (side : Side) (cont k : Nat) : Check :=
  match side with
  | .scratch _ => c.checkLayout k cont
  | .queue => need (decide (cont ≤ 4)) 0
  | .hbm va => checks [need (decide (cont ≠ 7)) va, need (decide (field (c.word 4) 20 12 = 0)) va,
                       need (decide (cont ≠ 6) || decide (va % 16 = 0)) va]
  | .rows va => checks [need (decide (cont ≠ 7)) va, need (decide (field (c.word 4) 20 12 = 0)) va,
                        need (decide (cont ≠ 6) || decide (va % 16 = 0)) va]

/-- A source in the noise aperture has a format that may be read there (R232), whatever its elements. -/
def EngCmd.checkAperture (c : EngCmd) : Check :=
  match c.source with
  | .hbm va => need (!isAperture va || c.apertureOk) va
  | .rows va => need (!isAperture va || c.apertureOk) va
  | _ => none

/-- The failing address of a place. -/
def Loc.fail : Loc → Check
  | .bad a => some a
  | _ => none

/-- Every element of a side that the command names at issue may be accessed; rows named by an index list are judged when
they are read (R218). -/
def EngCmd.checkElements (s : State) (c : EngCmd) (g : Grid) : Check :=
  c.coords.findSome? fun i =>
    (if i.pad || c.clipped i || decide (c.fn = 3) || decide (c.fn = 1) then none
     else (c.loc s g c.source c.tpl.sfmt i false).fail) <|>
    (if c.fn = 2 then none else (c.loc s g c.dest c.tpl.dfmt i true).fail)

/-- Check 3 of R371 for copy, gather, scatter and mgx. -/
def EngCmd.checkData (s : State) (c : EngCmd) (g : Grid) : Check :=
  let t := c.tpl
  let wide (f : Nat) : Bool := [0, 1, 2, 4, 7].contains f
  let m := ceilDiv c.nominal 128
  let dk := if c.fn = 1 then 5 else if c.dir = 2 then 8 else 5
  checks
    [need (decide (c.fn ≠ 3) || (wide t.sfmt && wide t.dfmt)) 0,
     need (!(t.toq && decide (c.dir = 1))) 0,
     c.checkAperture, c.checkSide c.source t.sfmt 5, c.checkSide c.dest t.dfmt dk,
     need (decide (c.nominal ≤ 2 ^ 23)) 0, need (!t.toq || decide (m ≤ 8)) 0,
     if c.fn = 1 ∨ c.fn = 2 then
       checks [need (decide (t.e 1 ≤ 4096) && decide (t.e 2 = 1)) 0, c.span s g (c.word 8) (4 * t.e 1) 4 false]
     else none,
     if c.fn = 3 then
       c.span s g (field t.aux 0 23) 232 8 false
     else none,
     c.checkElements s g]

/-! ### mmv (R39, R205) -/

/-- Bytes of a row of B without its padding, and its pitch (R39). -/
def EngCmd.rowBytes (c : EngCmd) : Nat :=
  let k := c.tpl.e 0
  (if c.tpl.sfmt = 5 then k / 2 else k * contSize c.tpl.sfmt) + (if contNarrow c.tpl.sfmt then k / 32 else 0)
def EngCmd.pitch (c : EngCmd) : Nat := roundUp c.rowBytes 64

/-- The physical address of B. -/
def EngCmd.bPa (c : EngCmd) (g : Grid) : Nat := ((c.hbmByte g (c.va 3) false)).getD 0

/-- Bytes of A: codes, then scales (R39, R246), as addresses with the mode of the layout. -/
def EngCmd.aAddrs (c : EngCmd) : List Nat :=
  match c.layout 5 with
  | none => []
  | some l => ((List.range (c.tpl.e 0)).flatMap fun k => (List.range l.size).map (l.elem 0 k + ·)) ++
              (if l.esize = 3 then (List.range (c.tpl.e 0 / 32)).map fun b => l.scale 0 b else [])

/-- Mode of A's layout. -/
def EngCmd.aMode (c : EngCmd) : Nat := ((c.layout 5).map (·.mode)).getD 0

/-- Check 3 of R371 for mmv. -/
def EngCmd.checkMmv (s : State) (c : EngCmd) (g : Grid) : Check :=
  let va := c.va 3
  let pa := c.bPa g
  checks
    [need (decide (field (c.word 4) 20 12 = 0)) va, c.checkLayout 5 c.tpl.dfmt,
     c.aAddrs.findSome? fun a => need (c.scratchBytes s g c.aMode a 1 false).isSome (wordForm c.aMode a),
     c.span s g (c.word 8) (4 * c.tpl.e 1) 4 true,
     match c.hbmBytes g va (c.tpl.e 1 * c.pitch) false with
     | some as => need (s.isLocal pa && as.all fun a => decide (a / 2 ^ 27 = pa / 2 ^ 27)) va
     | none => some va]

/-! ### Fabric, coll and launch (R367 to R369) -/

/-- Bytes that lie in one landing region of the issuing core (R55, R367). -/
def Grid.lands (g : Grid) (lcore addr n : Nat) : Bool :=
  g.land.any fun r => decide (r.1 = lcore ∧ r.2.1 ≤ addr ∧ addr + n ≤ r.2.1 + r.2.2)

/-- The bytes where a reply of the fabric lands: landings use mode 0 (R175). -/
def EngCmd.landBytes (c : EngCmd) (w n : Nat) : List Nat := (List.range n).map fun k => scratchCell c.core 0 (field w 0 23 + k)

/-- A local landing address word: in one landing region (R367), and in units that the warp may write (R174). -/
def EngCmd.checkLanding (s : State) (c : EngCmd) (g : Grid) (w n align : Nat) : Check :=
  match addrWord (wordOfNat w) with
  | none => some w
  | some (_, a) => need (decide (a % align = 0) && g.lands (c.core - (s.tenant c.part).slotBase) a n &&
      (c.scratchBytes s g 0 a n true).isSome) w

/-- Check 3 of R371 for the fabric commands: 5 fput, 6 fget, 7 fatom, 8 fmcast. -/
def EngCmd.checkFabric (s : State) (c : EngCmd) (g : Grid) : Check :=
  let n := c.tpl.e 0
  checks
    [need (decide (c.fn ≠ 7) || decide (n = 16)) 0,
     need (decide (c.fn ≠ 8) || (decide (1 ≤ c.tpl.e 1) && decide (c.tpl.e 1 ≤ 64))) 0,
     if c.fn = 8 then c.span s g (c.word 3) (4 * c.tpl.e 1) 1 false else need (decide (field (c.word 3) 17 15 = 0)) (c.word 3),
     need (decide (field (c.word 4) 23 9 = 0)) (c.word 4),
     if c.fn = 5 ∨ c.fn = 8 then c.span s g (c.word 5) n 1 false else none,
     if c.fn = 6 then c.checkLanding s g (c.word 5) n 1 else none,
     if c.fn = 7 then c.checkLanding s g (c.word 7) 4 4 else none,
     if c.fn = 8 then c.span s g (c.word 6) 8 8 true else none]

/-- OP bits of coll (R203). -/
def Template.collOp (t : Template) : Nat := field t.op 0 2
def Template.stages (t : Template) : Bool := t.op.testBit 2
def Template.writes (t : Template) : Bool := t.op.testBit 3

/-- Check 3 of R371 for coll. -/
def EngCmd.checkColl (s : State) (c : EngCmd) (g : Grid) : Check :=
  let n := 4096 * c.tpl.e 0
  checks
    [c.span s g (c.word 3) n 1 false,
     if c.tpl.collOp = 0 then none else c.span s g (c.word 4) n 1 false,
     if c.tpl.writes then c.span s g (c.word 5) n 1 true else none]

/-- Check 3 of R371 for launch. -/
def EngCmd.checkLaunch (s : State) (c : EngCmd) (g : Grid) : Check :=
  checks
    [need (decide (field (c.word 4) 20 12 = 0)) (c.va 3), need (decide (c.va 3 % 8 = 0)) (c.va 3),
     need (c.hbmByte g (c.va 3) false).isSome (c.va 3), c.span s g (c.word 7) 8 8 true]

/-- Check 3 of R371. -/
def EngCmd.check (s : State) (c : EngCmd) (g : Grid) : Check :=
  checks
    [c.checkCounter s g,
     if c.fn ≤ 3 then c.checkData s g
     else if c.fn = 4 then c.checkMmv s g
     else if c.fn ≤ 8 then c.checkFabric s g
     else if c.fn = 9 then c.checkColl s g
     else if c.fn = 10 then c.checkLaunch s g
     else need (decide (c.csp = 1) || decide (c.csp = 2)) 0]

/-! ### Entry into the queue -/

/-- Commands of a core: its queues serve every warp on it (R200). -/
def State.coreCmds (s : State) (core : Nat) : List EngCmd := (s.cmdsE.map (·.2)).filter fun d => decide (d.core = core)

/-- A command of the same instance. -/
def EngCmd.sameInst (c d : EngCmd) : Bool := decide (d.grid = c.grid ∧ d.pos = c.pos ∧ d.inst = c.inst)

/-- The previous command of a new command's queue; none for the first command of the queue in its instance (R201). -/
def State.prevOf (s : State) (c : EngCmd) : Option Nat :=
  let l := (s.coreCmds c.core).filter fun d => decide (d.queue = c.queue)
  if l.any c.sameInst then some ((l.map (·.ord)).foldl max 0) else none

/-- The commands that a new command waits for (R201): the previous one of its queue, and those that the latest `qfence` after it joins. DEDUCED
(log entry 57): R196 leaves the ticks to R201, whose J is that of the latest `qfence` alone. -/
def State.depsOf (s : State) (c : EngCmd) : List Nat :=
  let l := s.coreCmds c.core
  let prev := s.prevOf c
  let after := s.joins.filter fun j => decide (j.core = c.core) && j.mask.testBit c.queue && match prev with
    | some p => decide (p < j.ord)
    | none => decide (j.grid = c.grid ∧ j.pos = c.pos ∧ j.inst = c.inst)
  let last := after.foldl (fun (r : Option Join) j => match r with
    | some k => if k.ord < j.ord then some j else some k
    | none => some j) none
  prev.toList ++ match last with
    | some j => (l.filter fun d => decide (d.ord < j.ord) && j.mask.testBit d.queue).map (·.ord)
    | none => []

/-- The scopes of the marks that a command owes (R193). -/
def EngCmd.owes (c : EngCmd) : List (Nat × Option Nat) :=
  (if c.fn ≤ 3 then [(if c.dest.isHbm then 2 else 1, none)]
   else if c.fn = 5 then [(3, none)]
   else if c.fn ≤ 8 ∨ c.fn = 10 then [(1, none)]
   else if c.fn = 9 ∧ c.tpl.writes then [(1, none)]
   else []) ++
  (if c.inc = 0 then [] else [(if c.csp = 1 then 1 else 2, none)])

/-- Entries of a TOQ destination (R212). -/
def EngCmd.entries (c : EngCmd) : Nat := ceilDiv c.nominal 128

/-- Reserve the entries of a TOQ command (R212): their numbers. -/
def State.reserveEntries (s : State) (key q n : Nat) : List Nat × State :=
  (List.range n).foldl (fun (r : List Nat × State) _ =>
    (r.1 ++ [r.2.fresh], (r.2.updWarp key fun w => w.reserve q ⟨r.2.fresh, r.2.gtc, none, none, 2, false, none⟩).bump)) ([], s)

/-- The command joins its queue on its issue tick (R364). -/
def Ctx.enqueue (c : Ctx) (s : State) (e : EngCmd) : Out :=
  let toq := decide (e.fn ≤ 3) && e.tpl.toq
  let (rids, s) := if toq then s.reserveEntries c.key e.tpl.qreg e.entries else ([], s)
  let k := e.core * 16 + e.queue
  let tag := c.g.ecount.get 0 k
  let s := s.updGrid c.w.grid fun g => { g with ecount := g.ecount.put k (tag + 1) }
  let e : EngCmd := { e with ord := s.fresh, deps := s.depsOf e, rids := rids, wcts := e.owes, tag := tag % 2 ^ 16 }
  c.finish ({ s with cmdsE := s.cmdsE.put s.fresh e }).bump

/-- Outstanding commands of a core, in order of issue (R202). -/
def State.engOutstanding (s : State) (core : Nat) : List Nat :=
  sortBy (fun (a b : Nat) => decide (a < b)) (((s.coreCmds core).filter fun c => match c.done with
    | some d => decide (s.gtc < d)
    | none => true).map (·.ord))

/-- Check 5 of R371: outstanding limits, queue entries, the stage store. -/
def Ctx.engRoom (c : Ctx) (s : State) (e : EngCmd) : Gate :=
  if 256 ≤ (s.engOutstanding e.core).length then .park (.engLimit ((s.engOutstanding e.core).headD 0))
  else match (if e.fn ≤ 3 ∧ e.tpl.toq then pushGate c.w e.tpl.qreg e.entries else Gate.go) with
    | .go => if e.fn = 9 ∧ e.tpl.stages ∧ 64 < s.stageHeld e.core + e.tpl.e 0 then .park (.stage (e.tpl.e 0)) else .go
    | r => r

/-- Lane 0 of the registers of a command's block (R320, R364). -/
def Ctx.engWords (c : Ctx) (fn : Nat) (o : A1) : List Word := (c.group o.a (blockLen fn - 1)).map fun x => x.lane 0

/-- The template that a command names (R203, R364). -/
def Ctx.engTemplate (c : Ctx) (s : State) (fn : Nat) (o : A1) : Template :=
  if (kindOf fn).isSome then s.template c.w.grid c.g c.w.core (ctlTpl ((c.engWords fn o).getD 0 0).toNat) else Template.blank

/-- The command that an instruction issues, before it has its place in its queue (R364, R365). -/
def Ctx.engCmd (c : Ctx) (s : State) (fn : Nat) (o : A1) : EngCmd where
  warp := c.key
  strm := c.x
  core := c.w.core
  part := c.w.part
  grid := c.w.grid
  pos := c.w.pos
  inst := c.w.start
  wid := s.wid c.w
  queue := ctlEq ((c.engWords fn o).getD 0 0).toNat
  ord := 0
  fn := fn
  tpl := c.engTemplate s fn o
  words := c.engWords fn o
  issue := c.now
  deps := []
  s := none
  readAt := none
  addAt := none
  done := none
  finished := false
  killed := false
  seedLo := c.st.nseedLo
  seedHi := c.st.nseedHi
  nstep := c.st.nstep
  regions := (s.tenant c.w.part).regions
  idx := []
  idxMarks := []
  sten := []
  stenMarks := []
  src := []
  dst := []
  snap := []
  size := 0
  rids := []
  clip := false
  fault := none
  wcts := []
  added := false
  mStart := 0
  mEnd := 0
  failMask := if s.sched.state = .run then 0 else 2 ^ 64 - 1
  waiting := []
  tag := 0
  child := none

/-- The use of an engine command. -/
def useEng (fn : Nat) (o : A1) : Use :=
  ⟨legalGroup o, true, true, [o.a], groupRegs o.a (blockLen fn - 1), .discard, 0, o.e, 4, []⟩

/-- An engine command is presented (R364, R371). -/
def engineCommand (fn : Nat) (o : A1) (s : State) : Out :=
  issue (useEng fn o) s fun c =>
    match (c.group o.a (blockLen fn - 1)).findSome? fun x => x.markIn 1 with
    | some m => c.trap s ⟨m.2.code, 255, 0⟩
    | none =>
      let e := c.engCmd s fn o
      if !controlOk fn c.g.hdr.ntpl ((c.engWords fn o).getD 0 0).toNat e.tpl.kind then c.trap s ⟨6, 255, 0⟩
      else match e.check s c.g with
        | some a => c.trap s ⟨6, 255, a⟩
        | none =>
          if fn ≤ 3 ∧ e.tpl.toq ∧ c.x = .exe then c.trap s ⟨4, e.tpl.qreg, 0⟩
          else match c.engRoom s e with
            | .trap t => c.trap s t
            | .park p => c.park s p
            | .slip => .next (s.slip c.key)
            | .go => c.enqueue s e

/-- copy (R211). -/
def execCopy (o : A1) (s : State) : Out := engineCommand 0 o s
/-- gather (R206). -/
def execGather (o : A1) (s : State) : Out := engineCommand 1 o s
/-- scatter (R206). -/
def execScatter (o : A1) (s : State) : Out := engineCommand 2 o s
/-- mgx (R226). -/
def execMgx (o : A1) (s : State) : Out := engineCommand 3 o s
/-- mmv (R40). -/
def execMmv (o : A1) (s : State) : Out := engineCommand 4 o s
/-- fput (R213). -/
def execFput (o : A1) (s : State) : Out := engineCommand 5 o s
/-- fget (R213). -/
def execFget (o : A1) (s : State) : Out := engineCommand 6 o s
/-- fatom (R213). -/
def execFatom (o : A1) (s : State) : Out := engineCommand 7 o s
/-- fmcast (R56). -/
def execFmcast (o : A1) (s : State) : Out := engineCommand 8 o s
/-- coll (R214). -/
def execColl (o : A1) (s : State) : Out := engineCommand 9 o s
/-- launch (R369). -/
def execLaunchInstr (o : A1) (s : State) : Out := engineCommand 10 o s
/-- cntadd (R370). -/
def execCntadd (o : A1) (s : State) : Out := engineCommand 11 o s

end Sys2Proof.Machine
end

