-- ==== Sys2Proof/Machine/System.lean ====
section
/-! DEFINITION. Special registers, ctag, and the save and restore instructions (R217, R372 to R381). -/

namespace Sys2Proof.Machine

/-! ### Special registers -/

/-- The commands of a core's queue that started by now, in order of start (R217). -/
def State.startedOf (s : State) (core q : Nat) : List EngCmd :=
  sortBy (fun (a b : EngCmd) => decide (a.ord < b.ord)) ((s.cmdsE.map (·.2)).filter fun c =>
    decide (c.core = core ∧ c.queue = q) && byTick c.s s.gtc)

/-- A command of a warp's instance. -/
def EngCmd.ofInst (c : EngCmd) (w : Warp) : Bool := decide (c.grid = w.grid ∧ c.pos = w.pos ∧ c.inst = w.start)

/-- The beats or bundles of a command written by a tick. -/
def EngCmd.beatsBy (c : EngCmd) (t : Nat) : Nat := (c.dst.filter fun b => byTick b.w t).length

/-- BYTES of R217: commands are numbered by their function (R288). -/
def EngCmd.bytesBy (c : EngCmd) (t : Nat) : Nat :=
  let fin := byTick c.done t
  if c.fn ≤ 3 then min (64 * c.beatsBy t) c.size
  else if c.fn = 9 then 4096 * c.beatsBy t
  else if c.fn = 4 then (if fin then 4 * c.tpl.e 1 else 0)
  else if c.fn ≤ 8 then (if fin then c.tpl.e 0 else 0)
  else 0

/-- sr.cwpn (R217, R372): the core's latest started command of the queue; 0 before the first of the warp's instance. -/
def State.cwp (s : State) (w : Warp) (q : Nat) : Word :=
  let l := s.startedOf w.core q
  if !l.any (·.ofInst w) then 0
  else match l.getLast? with
  | none => 0
  | some c => wordOfNat (bit c.clip 31 + bit (c.fault.isSome && byTick c.done s.gtc) 30 + c.bytesBy s.gtc % 2 ^ 24)

/-- sr.shape (R170). -/
def shapeWord (sh : Nat) : Word := wordOfNat (2 ^ 24 + sh * 2 ^ 16 + shapeX sh * 2 ^ 8 + shapeY sh)

/-- Key of a mailbox half's counter (R179). -/
def mboxKey (core half : Nat) : Nat := core * 2 + half

/-- The value of a special register (R372). -/
def Ctx.special (c : Ctx) (s : State) (n : Nat) : RVal :=
  let u (x : Nat) : RVal := RVal.ofWord (wordOfNat x)
  match n with
  | 0 => u c.now
  | 1 => u (c.now / 2 ^ 32)
  | 2 => ⟨.a 0 1, []⟩
  | 3 => u c.w.w
  | 4 => u c.w.pos
  | 5 => u (s.logical c.w)
  | 6 => RVal.ofWord (shapeWord (s.tenant c.w.part).shape)
  | 7 => u lanes
  | 8 => u c.w.mPod
  | 9 => u (c.w.mPod / 2 ^ 32)
  | 10 => u (min 0xFFFFFFFF (s.slips.get 0 (c.key / 32 * 4 + c.key % 4) - c.w.slipBase))
  | 11 => RVal.ofWord c.st.nseedLo
  | 12 => RVal.ofWord c.st.nseedHi
  | 13 => RVal.ofWord c.st.nstep
  | 14 => RVal.ofWord c.w.fflags
  | 15 => RVal.ofWord c.w.fcnt
  | 16 => RVal.ofWord c.st.trapcause
  | 17 => RVal.ofWord c.st.trappc
  | 18 => RVal.ofWord c.st.trapaddrLo
  | 19 => RVal.ofWord c.st.trapaddrHi
  | 20 => u (leNat (c.w.setslots.map fun n => BitVec.ofNat 8 n))
  | 21 => u (s.mbox.get 0 (mboxKey c.w.core ((c.g.bankOn (s.logical c.w)).getD 0)))
  | n => RVal.ofWord (s.cwp c.w (n - 32))

/-- rdsr (R372). -/
def execRdsr (o : Rdsr) (s : State) : Out :=
  issue ⟨legalRdsr o, true, true, [], [], o.d, 0, o.e, 4, []⟩ s fun c => c.finishVec s o.d 1 (c.special s o.s.toNat)

/-- wrsr (R372, R373). -/
def execWrsr (o : Wrsr) (s : State) : Out :=
  issue ⟨legalWrsr o, true, true, [o.a], [], .discard, 0, o.e, 4, []⟩ s fun c =>
    match markTrap [(c.val 0, 1)] with
    | some t => c.trap s t
    | none => c.finishEff s (.sr o.s.toNat (c.lane0 0))

/-! ### ctag -/

/-- The word of ctag (R374). -/
def ctagWord (ready void empty marked : Bool) (tag : Nat) : Word :=
  wordOfNat (bit ready 7 + bit void 6 + bit empty 5 + bit marked 4 + tag)

/-- What ctag reports of its source. -/
def Ctx.tagOf (c : Ctx) : Src → Word
  | .v n => let r := c.st.reg n.val; ctagWord true false false (!r.marks.isEmpty) r.v.tag
  | .b n => match c.st.latches[n.val]? with
    | some ⟨.val, t, v, _⟩ => ctagWord (decide (t ≤ c.now)) false false (decide (t ≤ c.now) && !v.marks.isEmpty)
        v.v.tag
    | some ⟨.void, _, _, _⟩ => ctagWord true true false false 3
    | _ => ctagWord false false true false 3
  | .q n => match (c.w.startQueue n.val c.now).head? with
    | some r =>
      let v := r.val.getD RVal.zero
      ctagWord r.landed false false (r.landed && !v.marks.isEmpty) (if r.landed then v.v.tag else r.tag)
    | none => ctagWord false false true false 3
  | _ => 0

/-- ctag (R374): it pops nothing and judges no latch. -/
def execCtag (o : Ctag) (s : State) : Out :=
  issue ⟨legalCtag o, true, true, [], srcRegs [o.a], o.d, 0, o.e, 4, srcRegs [o.a]⟩ s fun c =>
    c.finishVec s o.d 1 (RVal.ofWord (c.tagOf o.a))

/-! ### Records (R375) -/

/-- A pointer's mode and address for a record of n bytes, or its trap. -/
def Ctx.pointer (c : Ctx) (s : State) (p : RVal) (n : Nat) (write : Bool) : Trap ⊕ (Nat × Nat) :=
  match markTrap [(p, 1)] with
  | some t => .inl t
  | none =>
    let w := p.lane 0
    match addrWord w with
    | some a => if laneOk c.g (s.logical c.w) write true n w then .inr a else .inl ⟨5, 0, w.toNat⟩
    | none => .inl ⟨5, 0, w.toNat⟩

/-- The pointer after a record: ADDR advanced, in every lane. -/
def advance (w : Word) (n : Nat) : RVal :=
  RVal.ofWord ((w &&& 0xFF800000) ||| wordOfNat ((field w.toNat 0 23 + n) % 2 ^ 23))

/-- Issue with the pointer written at issue + 1, in the latch chain. -/
def Ctx.finishPtr (c : Ctx) (s : State) (d : Dst) (n : Nat) : Out :=
  let v := advance ((c.dval d).lane 0) n
  .next (c.commit (c.putVec s d 1 v Mask.full) (latchOf s.fresh (c.now + 1) 0))

/-- The words of a record as bytes. -/
def wordBytes' (ws : List Word) : List Byte := ws.flatMap fun w => leBytes 4 w.toNat

/-- A save (R375): the record is written with WCT issue + lat and raises the warp mark. -/
def Ctx.save (c : Ctx) (s : State) (d : Dst) (lat : Nat) (ws : List Word) : Out :=
  let n := 4 * ws.length
  match c.pointer s (c.dval d) n true with
  | .inl t => c.trap s t
  | .inr a =>
    let cells := ((spanOf n a).map fun b => scratchCell c.w.core b.1 b.2).zip ((wordBytes' ws).map fun b => (b, none))
    c.finishPtr (c.mark (c.write s (c.now + lat) cells [] .none) 0 (c.now + lat)) d n

/-- The words of a record in scratch, or the trap of its lowest poisoned byte (R375). -/
def State.record (s : State) (core n : Nat) (a : Nat × Nat) : Trap ⊕ List Nat :=
  let cells := (spanOf n a).map fun b => scratchCell core b.1 b.2
  match s.firstMark cells with
  | some m => .inl ⟨m.code, 0, 0⟩
  | none => .inr ((List.range (n / 4)).map fun k => leNat (((cells.drop (4 * k)).take 4).map s.byteAt))

/-- A restore (R375): `form` judges the record. -/
def Ctx.restore (c : Ctx) (s : State) (d : Dst) (n : Nat) (form : List Nat → Bool) (k : List Nat → Out) : Out :=
  match c.pointer s (c.dval d) n false with
  | .inl t => c.trap s t
  | .inr a => match s.record c.w.core n a with
    | .inl t => c.trap s t
    | .inr ws => if form ws then k ws else c.trap s ⟨8, 0, 0⟩

/-- The use of a save or restore through pointer d. -/
def useD1 (o : D1) : Use := ⟨legalD1 o, true, true, [], (dstReg o.d).toList, o.d, 0, o.e, 4, []⟩

/-! ### spill and fill (R376) -/

/-- The data words of a value (R161, R376). -/
def Vec.words : Vec → List Word
  | .u x => [x]
  | .a b sg => [b, sg]
  | .g ws => (List.range lanes).map fun l => ws.getD l 0

/-- MASK and MCLS of a value's marks. -/
def RVal.markWords (r : RVal) : Word × Nat :=
  (Mask.ofFn fun l => (r.marks.find? l).isSome,
   match r.markIn Mask.full with
   | some e => e.2.save
   | none => 0)

/-- A value from a tag, a class, a mask and data. -/
def recordVal (tag cls : Nat) (mask : Word) (data : List Nat) : RVal :=
  let d := fun k => wordOfNat (data.getD k 0)
  ⟨if tag = 0 then .u (d 0) else if tag = 1 then .a (d 0) (d 1) else .g ((List.range lanes).map d),
   (Mask.list mask).map fun l => (l, MCls.ofSave cls)⟩

/-- spill (R376). -/
def execSpill (o : SF) (s : State) : Out :=
  issue ⟨legalSpill o, true, true, [o.a], (dstReg o.d).toList, o.d, 0, o.e, 4, srcRegs [o.a]⟩ s fun c =>
    let r := c.val 0
    let (mask, cls) := r.markWords
    c.save s o.d 8 (wordOfNat (r.v.tag * 2 ^ 30 + cls * 2 ^ 28) :: mask :: r.v.words)

/-- Bytes of a spill record by its tag. -/
def spillBytes (tag : Nat) : Nat := if tag = 0 then 12 else if tag = 1 then 16 else 136

/-- The bank words of a record. -/
def recordBanks (n : Nat) (a : Nat × Nat) : List (Nat × Nat) := dedup ((spanOf n a).map fun b => scratchBank b.1 b.2)

/-- fill (R376): the whole register is restored, with its marks, at issue + 12 + (k - 1). -/
def execFill (o : SF) (s : State) : Out :=
  issue ⟨legalFill o, true, true, [o.a], [], o.d, 0, o.e, 4, []⟩ s fun c =>
    let p := c.val 0
    match c.pointer s p 4 false with
    | .inl t => c.trap s t
    | .inr a => match s.record c.w.core 4 a with
      | .inl t => c.trap s t
      | .inr h =>
        let tag := field (h.getD 0 0) 30 2
        if tag = 3 then
          match c.pointer s p 8 false with
          | .inl t => c.trap s t
          | .inr a => match s.record c.w.core 8 a with
            | .inl t => c.trap s t
            | .inr _ => c.trap s ⟨8, 0, 0⟩
        else
          let n := spillBytes tag
          match c.pointer s p n false with
          | .inl t => c.trap s t
          | .inr a => match s.record c.w.core n a with
            | .inl t => c.trap s t
            | .inr ws =>
              let h := ws.getD 0 0
              if field h 0 28 ≠ 0 then c.trap s ⟨8, 0, 0⟩
              else
                let v := recordVal tag (field h 28 2) (wordOfNat (ws.getD 1 0)) (ws.drop 2)
                let lat := 11 + conflictK (recordBanks n a)
                .next (c.commit (c.putVec s o.d lat v Mask.full) (latchOf s.fresh (c.now + lat) v.v.tag))

/-! ### Predicates, divergence, barriers, latches -/

/-- A guard's byte (R377). -/
def guardByte (b : Option GBind) : Nat := match b with
  | some g => 128 + bit g.neg 6 + g.pred
  | none => 0

/-- psave (R377). -/
def execPsave (o : D1) (s : State) : Out :=
  issue (useD1 o) s fun c =>
    let g := leNat ((List.range 3).map fun k => BitVec.ofNat 8 (guardByte (c.st.guards.find? (k + 1))))
    c.save s o.d 8 (((List.range 48).map c.st.pred) ++ [wordOfNat g])

/-- The binding of a guard byte. -/
def guardOf (b : Nat) : Option GBind := if b.testBit 7 then some ⟨field b 0 6, b.testBit 6⟩ else none

/-- prest (R377): predicates and bindings take effect at issue + 1. -/
def execPrest (o : D1) (s : State) : Out :=
  issue (useD1 o) s fun c =>
    c.restore s o.d 196 (fun ws => let g := ws.getD 48 0
        decide (field g 24 8 = 0) && (List.range 3).all fun k =>
          !(field g (8 * k) 8).testBit 7 || decide (field g (8 * k) 6 ≤ 47))
      fun ws =>
        let s := (List.range 48).foldl (fun s p =>
          s.land c.key c.x (c.now + 1) (.pred p (wordOfNat (ws.getD p 0)) Mask.full)) s
        let s := (List.range 3).foldl (fun s k =>
          s.land c.key c.x (c.now + 1) (.guard (k + 1) (guardOf (field (ws.getD 48 0) (8 * k) 8)))) s
        c.finishPtr s o.d 196

/-- The 16 stack entries of dsave, from the bottom (R378). -/
def stackWords (st : List DivEntry) : List Word :=
  (List.range 16).flatMap fun e => match st.reverse[e]? with
    | some d => [d.mask, wordOfNat (bit d.call 31 + d.addr % 2 ^ 23)]
    | none => [0, 0]

/-- dsave (R378). -/
def execDsave (o : D1) (s : State) : Out :=
  issue (useD1 o) s fun c =>
    c.save s o.d 8 (c.st.mask :: wordOfNat (c.st.stack.length + c.st.savedDepth * 2 ^ 8) :: c.st.savedMask ::
      stackWords c.st.stack)

/-- drest (R378). -/
def execDrest (o : D1) (s : State) : Out :=
  issue (useD1 o) s fun c =>
    c.restore s o.d 140 (fun ws => let d := ws.getD 1 0
        decide (field d 0 5 ≤ 16) && decide (field d 8 5 ≤ 16) && decide (field d 5 3 = 0) && decide (field d 13 19 = 0) &&
        (List.range 16).all fun e => decide (field (ws.getD (4 + 2 * e) 0) 23 8 = 0))
      fun ws =>
        let d := ws.getD 1 0
        let entries : List DivEntry := (List.range (field d 0 5)).map fun e =>
          ⟨(ws.getD (4 + 2 * e) 0).testBit 31, wordOfNat (ws.getD (3 + 2 * e) 0), field (ws.getD (4 + 2 * e) 0) 0 23⟩
        c.finishPtr (s.updStream c.key c.x fun st => { st with
          mask := wordOfNat (ws.getD 0 0)
          stack := entries.reverse
          savedMask := wordOfNat (ws.getD 2 0)
          savedDepth := field d 8 5 }) o.d 140

/-- The stream's arrivals on a set slot (R379). -/
def Ctx.slotArrivals (c : Ctx) (s : State) (k : Nat) : Nat :=
  let set := c.w.setOf k
  if set = 255 then 0 else c.g.arrivals.get 0 (arrivalKey (s.wid c.w) c.x set)

/-- bsave (R379). -/
def execBsave (o : D1) (s : State) : Out :=
  issue (useD1 o) s fun c => c.save s o.d 8 ((List.range 4).map fun k => wordOfNat (c.slotArrivals s k))

/-- Arrivals recorded by brest: phases 0 to n - 1 at the current tick (R379). -/
def State.recordArrivals (s : State) (gid : Nat) (w : Warp) (x : Strm) (set n : Nat) : State :=
  let s := s.updGrid gid fun g => { g with arrivals := g.arrivals.put (arrivalKey (s.wid w) x set) 0 }
  (List.range n).foldl (fun s _ => match s.grids.find? gid with
    | some g => s.arriveSet gid g w x set
    | none => s) s

/-- brest (R379). -/
def execBrest (o : D1) (s : State) : Out :=
  issue (useD1 o) s fun c =>
    c.restore s o.d 16 (fun ws => (List.range 4).all fun k => decide (ws.getD k 0 = 0) || decide (c.w.setOf k ≠ 255))
      fun ws =>
        let ks := (List.range 4).filter fun k => decide (ws.getD k 0 ≠ 0)
        if ks.any fun k => (c.st.arrived.find? (c.w.setOf k)).isSome then c.trap s Trap.illegal
        else
          let s := ks.foldl (fun s k =>
            (s.recordArrivals c.w.grid c.w c.x (c.w.setOf k) (ws.getD k 0)).updStream c.key c.x fun st =>
              { st with arrived := st.arrived.put (c.w.setOf k) true }) s
          c.finishPtr s o.d 16

/-- The 34 words of a latch slot (R380). -/
def latchWords (l : Latch) : List Word :=
  match l.kind with
  | .void => [wordOfNat (2 ^ 29), 0] ++ List.replicate 32 0
  | .empty => [wordOfNat (2 ^ 28), 0] ++ List.replicate 32 0
  | .val =>
    let (mask, cls) := l.v.markWords
    let d := l.v.v.words
    [wordOfNat (l.v.v.tag * 2 ^ 30 + cls * 2 ^ 26), mask] ++ d ++ List.replicate (32 - d.length) 0

/-- lsave (R380): it issues no earlier than the latest ready tick of the shadow. -/
def execLsave (o : D1) (s : State) : Out :=
  issue (useD1 o) s fun c =>
    let r := c.st.shadow.foldl (fun t l => if l.kind = .val then max t l.ready else t) 0
    if c.now < r then c.waitTo s r else c.save s o.d 8 (c.st.shadow.flatMap latchWords)

/-- A latch slot is well formed (R380). -/
def latchForm (ws : List Nat) : Bool :=
  let h := ws.getD 0 0
  decide (field h 0 26 = 0) && !(h.testBit 29 && h.testBit 28) &&
  (decide (field h 30 2 ≠ 3) || h.testBit 29 || h.testBit 28)

/-- The latch of a slot, ready at a tick. -/
def latchOfSlot (ready lid : Nat) (ws : List Nat) : Latch :=
  let h := ws.getD 0 0
  if h.testBit 29 then Latch.voidEntry
  else if h.testBit 28 then Latch.none
  else ⟨.val, ready, recordVal (field h 30 2) (field h 26 2) (wordOfNat (ws.getD 1 0)) (ws.drop 2), lid⟩

/-- lrest (R380). -/
def execLrest (o : D1) (s : State) : Out :=
  issue (useD1 o) s fun c =>
    c.restore s o.d 544 (fun ws => (blocksOf 34 4 ws).all latchForm) fun ws =>
      c.finishPtr (s.bump.updStream c.key c.x fun st =>
        { st with shadow := (blocksOf 34 4 ws).map (latchOfSlot (c.now + 1) s.fresh) }) o.d 544

/-! ### Accumulator save (R381) -/

/-- asave (R381). -/
def execAsave (o : ND) (s : State) : Out :=
  issue ⟨legalND o, false, true, [], (dstReg o.d).toList, o.d, 0, o.e, 4, []⟩ s fun c => c.matrix s <|
    let ws := (List.range 256).map fun e => c.w.accs.get 0 (o.n.toNat * 256 + e)
    match c.pointer s (c.dval o.d) 1024 true with
    | .inl t => c.trap s t
    | .inr _ => c.save (c.occupy s 2) o.d 12 ws

/-- arest (R381). -/
def execArest (o : ND) (s : State) : Out :=
  issue ⟨legalND o, false, true, [], (dstReg o.d).toList, o.d, 0, o.e, 4, []⟩ s fun c => c.matrix s <|
    c.restore s o.d 1024 (fun _ => true) fun ws =>
      c.finishPtr (c.occupy (s.updWarp c.key fun w => { w with
        accs := (List.range 256).foldl (fun t e => t.put (o.n.toNat * 256 + e) (wordOfNat (ws.getD e 0))) w.accs }) 2) o.d 1024

end Sys2Proof.Machine
end

