-- ==== Sys2Proof/Machine/EngRun.lean ====
section
/-! DEFINITION. Engine commands at work, tick by tick: starts, captured reads, slots, writes, counters and completion (R40,
R41, R201, R211 to R219, R367). -/

namespace Sys2Proof.Machine

/-- Change one engine command. -/
def State.updCmd (s : State) (ord : Nat) (f : EngCmd → EngCmd) : State := { s with cmdsE := s.cmdsE.modify ord f }

/-- Change the issuing warp, while its instance lasts. -/
def State.cmdWarp (s : State) (c : EngCmd) (f : Warp → Warp) : State :=
  s.updWarp c.warp fun w => if w.grid = c.grid ∧ w.start = c.inst then f w else w

/-- s of R201, once every term is known. -/
def State.startOf (s : State) (c : EngCmd) : Option Nat :=
  c.deps.foldl (fun r d => match r, s.cmdsE.find? d with
    | some t, some x => x.done.map (max t)
    | r, none => r
    | none, _ => none) (some c.issue)

/-- Fix the completion tick of a command's data writes (`k` = 0) or of its last entry, the counter add. -/
def EngCmd.fixData (c : EngCmd) (w : Nat) : EngCmd := { c with wcts := match c.wcts with
  | (sc, _) :: r => (sc, some w) :: r
  | [] => [] }
def EngCmd.fixCount (c : EngCmd) (w : Nat) : EngCmd :=
  if c.inc = 0 then c else { c with wcts := c.wcts.dropLast ++ (c.wcts.getLast?.map fun e => (e.1, some w)).toList }

/-- A command that has data writes to fix. -/
def EngCmd.hasData (c : EngCmd) : Bool := decide (c.fn ≤ 8) || decide (c.fn = 10) || (decide (c.fn = 9) && c.tpl.writes)

/-- A command's grid as its issue found it: what it may access was judged then, and a position that ends later takes nothing
from it (R134, R204). -/
def State.cmdGrid (s : State) (c : EngCmd) : Option Grid :=
  (s.grids.find? c.grid).map fun g =>
    { g with poss := g.poss.map fun (e : Nat × PosState) => (e.1, { e.2 with phase := .running }) }

/-- Commands in the order in which a tick takes them: core, queue, age (R29, R40). -/
def State.engOrder (s : State) : List Nat :=
  (sortBy (fun (a b : EngCmd) => decide ([a.core, a.queue, a.ord] < [b.core, b.queue, b.ord])) (s.cmdsE.map (·.2))).map (·.ord)

/-! ### Captured reads -/

/-- Bytes with their marks. -/
def State.capture (s : State) (as : List Nat) : Tab (Byte × Option MCls) := as.map fun a => (a, s.byteAt a, s.markAt a)

/-- Scratch bytes that a command reads at s + 8 (R189). -/
def EngCmd.scratchReads (s : State) (c : EngCmd) (g : Grid) : List Nat :=
  if c.fn ≤ 3 then (c.plan s g).scratchReads
  else if c.fn = 4 then c.aAddrs.map fun a => scratchCell c.core c.aMode a
  else if c.fn = 5 then c.spanBytes (c.word 5) (c.tpl.e 0)
  else if c.fn = 8 then dedup (c.spanBytes (c.word 5) (c.tpl.e 0) ++ c.spanBytes (c.word 3) (4 * c.tpl.e 1))
  else if c.fn = 9 then
    dedup (c.spanBytes (c.word 3) (4096 * c.tpl.e 0) ++
      (if c.tpl.collOp = 0 then [] else c.spanBytes (c.word 4) (4096 * c.tpl.e 0)))
  else []

/-- Capture what a command reads on this tick. -/
def State.captureCmd (s : State) (c : EngCmd) : State :=
  match s.cmdGrid c with
  | some g =>
    let scr := if c.readAt = some s.gtc then c.scratchReads s g else []
    let hbm := (c.src.filter fun b => decide (b.rt = s.gtc ∧ b.beat < 2 ^ 60)).flatMap fun b =>
      (List.range 64).map (b.beat * 64 + ·)
    if scr.isEmpty && hbm.isEmpty then s
    else (s.sawBad hbm).updCmd c.ord fun c => { c with snap := c.snap ++ s.capture (scr ++ hbm) }
  | none => s

/-! ### Slots of HBM destinations -/

/-- w(j) of HBM beats whose slots and predecessors are known (R211). -/
def settleWrites (prev : Option Nat) : List DstBeat → List DstBeat
  | [] => []
  | b :: r =>
    let w := match b.w, b.slot, prev with
      | some w, _, _ => some w
      | none, some sl, some p => some (max (b.arr + 632) (max (sl + 168) (p + 1)))
      | _, _, _ => none
    { b with w := w } :: settleWrites w r

/-- Slots of the destination beats that arrive 48 t from now (R29, R211), in ascending j when several of one command do, as all of a copy from
scratch to HBM. DESIGN CHOICE (log entry 65): R29 orders requests of one tick by engine queue alone. -/
def State.destSlots (s : State) (ord : Nat) : State :=
  match s.cmdsE.find? ord with
  | none => s
  | some c =>
    if (c.dst.any fun b => decide (b.arr = s.gtc + 48) && b.slot.isNone) && c.dest.isHbm && decide (c.fn ≤ 3) then
      let (dst, s) := c.dst.foldl (fun (r : List DstBeat × State) b =>
        if b.arr = s.gtc + 48 ∧ b.slot.isNone then
          let (t, s) := r.2.takeSlot c.core b.beat b.arr
          (r.1 ++ [{ b with slot := some t }], s)
        else (r.1 ++ [b], r.2)) ([], s)
      let dst := settleWrites c.s dst
      let fin := (dst.getLast?).bind (·.w)
      s.updCmd ord fun c => let c : EngCmd := { c with dst := dst, done := fin }
        match fin with
        | some w => c.fixData w
        | none => c
    else s

/-- Marks of HBM beats that have arrived, with every earlier one (R193). -/
def State.raiseBeats (s : State) (ord : Nat) : State :=
  match s.cmdsE.find? ord with
  | none => s
  | some c =>
    let r := c.dst.foldl (fun (r : Nat × List DstBeat × Nat) b =>
      let a := max r.1 b.arr
      match b.w with
      | some w => if !b.raised && decide (a ≤ s.gtc) then (a, r.2.1 ++ [{ b with raised := true }], max r.2.2 w)
                  else (a, r.2.1 ++ [b], r.2.2)
      | none => (a, r.2.1 ++ [b], r.2.2)) (0, [], 0)
    if r.2.2 = 0 then s
    else (s.updCmd ord fun c => { c with dst := r.2.1 }).cmdWarp c fun w => w.raiseBy c.issue s.gtc 2 r.2.2

/-! ### Writes -/

/-- An engine write (R190): source 2 + queue; commands in issue order, within one its elements in order, then its counter's add. -/
def EngCmd.pwrite (c : EngCmd) (wct k : Nat) (cells : List (Nat × Byte × Option MCls)) (atoms : List Atom)
    (add : Option (Nat × Nat)) : PWrite :=
  ⟨wct, 0, c.wid, 2 + c.queue, c.ord * 2 ^ 40 + k, cells, atoms, .none, add, some c.ord, c.part, []⟩

/-- The place of a command's counter add among its writes. -/
def addPlace : Nat := 2 ^ 40 - 1

/-- The bytes of one item with the masks of the bits that it writes. -/
def ItemOut.masked (o : ItemOut) : List (Nat × Byte × Byte × Option MCls) :=
  o.bytes.zipIdx.map fun e => (e.1.1, e.1.2.1, BitVec.ofNat 8 (255 - field o.keep (8 * e.2) 8), e.1.2.2)

/-- Bytes of a queue entry from the items (R212). -/
def Plan.entryBytes (p : Plan) (c : EngCmd) (k : Nat) : List (Byte × Option MCls) :=
  let n := contSize c.tpl.dfmt
  (List.range 128).map fun b =>
    let o := 128 * k + b
    if o / n < p.els.length then
      let v := p.code c (o / n)
      (BitVec.ofNat 8 (field v.1 (8 * (o % n)) 8), v.2)
    else (0, none)

/-- An entry as a queue value with tag G (R212). -/
def entryVal (bs : List (Byte × Option MCls)) : RVal :=
  let w (l : Nat) := (bs.drop (4 * l)).take 4
  ⟨.g (laneList.map fun l => wordOfNat (leNat ((w l).map (·.1)))),
   laneList.filterMap fun l => ((w l).findSome? (·.2)).map fun m => (l, m)⟩

/-- Entries of a queue destination that beat j completes are filled. -/
def State.fillEntries (s : State) (c : EngCmd) (p : Plan) (j : Nat) : State :=
  c.rids.zipIdx.foldl (fun s r =>
    if min (2 * r.2 + 2) p.nd = j then
      s.cmdWarp c fun w => w.fillResv c.tpl.qreg r.1 none (some (entryVal (p.entryBytes c r.2)))
    else s) s

/-- A command meets a poisoned source byte (R218). -/
def EngCmd.met (c : EngCmd) (m : Option MCls) : EngCmd := { c with fault := c.fault <|> m.map fun x => (x, 0) }

/-- Issue the write of destination beat j (R206, R211, R218): its items in nominal order, a byte of which some item keeps bits in that order
too, so that of two elements at one location the later one prevails. -/
def State.writeBeat (s : State) (c : EngCmd) (p : Plan) (j w : Nat) : State :=
  let its := p.items.filter fun it => it.beats.contains j
  let (free, s) := s.drawn Config.draw
  let outs := its.flatMap fun it => (p.itemOut c free it).masked.filter fun b =>
    !c.dest.isHbm || decide ((p.dstBeats[j - 1]?).getD 0 = b.1 / 64)
  let part := (outs.filter fun b => decide (b.2.2.1 ≠ 255)).map (·.1)
  let cells := (outs.filter fun b => !part.contains b.1).map fun b => (b.1, b.2.1, b.2.2.2)
  let mark := match c.dest with
    | .queue => its.findSome? fun it => it.els.findSome? fun e => (p.code c e).2
    | _ => outs.findSome? (·.2.2.2)
  let s := s.updCmd c.ord fun c => c.met mark
  match c.dest with
  | .queue => s.fillEntries c p j
  | d => if c.killed && !d.isHbm then s
         else s.issueWrite { c.pwrite w j cells [] none with bits := outs.filter fun b => part.contains b.1 }

/-- Word of a combined bundle (R214). -/
def collWord (sf op a b : Nat) : Nat :=
  let half (f : Nat → Nat → Nat) : Nat := f (a % 2 ^ 16) (b % 2 ^ 16) + f (a / 2 ^ 16) (b / 2 ^ 16) * 2 ^ 16
  if op = 0 then a
  else if sf = 3 then
    ((if op = 1 then wordOfNat a + wordOfNat b
      else if op = 2 then iminWord (wordOfNat a) (wordOfNat b) else imaxWord (wordOfNat a) (wordOfNat b)) : Word).toNat
  else if sf = 0 then (if op = 1 then fp32.add a b else fp32.minMax (decide (op = 3)) a b).bits
  else half fun x y => (if op = 1 then bf16.add x y else bf16.minMax (decide (op = 3)) x y).bits

/-- Bytes of the unit of a coll that a source byte feeds (R214, R218): itself where A is copied, its BF16 element, or its word. -/
def EngCmd.collUnit (c : EngCmd) : Nat := if c.tpl.collOp = 0 then 1 else if c.tpl.sfmt = 1 then 2 else 4

/-- Bundle i of a coll: bytes with marks; a poisoned source byte poisons what it feeds (R214, R218). -/
def EngCmd.bundle (c : EngCmd) (i : Nat) : List (Byte × Option MCls) :=
  let a := c.spanBytes (c.word 3 + 4096 * i) 4096
  let b := if c.tpl.collOp = 0 then a else c.spanBytes (c.word 4 + 4096 * i) 4096
  (List.range 1024).flatMap fun k =>
    let as := (a.drop (4 * k)).take 4
    let bs := (b.drop (4 * k)).take 4
    let u := c.collUnit
    let mark (j : Nat) : Option MCls :=
      (c.captured ((as.drop (j / u * u)).take u)).2 <|> (c.captured ((bs.drop (j / u * u)).take u)).2
    (leBytes 4 (collWord c.tpl.sfmt c.tpl.collOp (leNat (c.captured as).1) (leNat (c.captured bs).1))).zipIdx.map fun v => (v.1, mark v.2)

/-- Stage the bundles of a coll as they are read (R214). -/
def State.stageColl (s : State) (c : EngCmd) (t : Nat) : State :=
  let key := c.core * 16 + c.queue
  let n := ((s.grids.find? c.grid).map fun g => g.formed.get 0 key).getD 0
  let new : List Staged := (List.range (c.tpl.e 0)).map fun i =>
    let b := c.bundle i
    ⟨c.grid, n + i, t + 16 + 8 * (i + 1), b.map (·.1), b.any (·.2.isSome)⟩
  let s := (s.updCmd c.ord fun c => { c with mStart := 1 }).updGrid c.grid fun g =>
    { g with formed := g.formed.put key (n + c.tpl.e 0) }
  { s with stage := s.stage.update [] key (· ++ new) }

/-- A byte of HBM with its mark at an earlier tick, by the writes remembered since. -/
def State.byteThen (s : State) (a t : Nat) : Byte × Option MCls :=
  match s.hist.find? fun h => decide (t < h.1) && decide (h.2.1 = a) with
  | some h => h.2.2
  | none => (s.byteAt a, s.markAt a)

/-- A line of B as an mmv reads it (R41): the latest write by start, or a later one before end. -/
def State.mmvLine (s : State) (line start fin : Nat) : List (Byte × Option MCls) × State :=
  let ts := start :: dedup ((s.hist.filter fun h =>
    decide (start < h.1 ∧ h.1 < fin) && decide (h.2.1 / 64 = line)).map (·.1))
  let bytes (t : Nat) := (List.range 64).map fun k => s.byteThen (line * 64 + k) t
  if ts.length ≤ 1 then (bytes start, s)
  else let (d, s) := s.drawn Config.draw; (bytes (ts.getD (d % ts.length) start), s)

/-- The bytes of B with their marks as an mmv reads them, by the lines that hold them (R39, R41). -/
def State.mmvB (s : State) (c : EngCmd) (g : Grid) : List (Byte × Option MCls) × State :=
  let as := (c.hbmBytes g (c.va 3) (c.tpl.e 1 * c.pitch) false).getD []
  let (ls, s) := (dedup (as.map (· / 64))).foldl (fun (r : Tab (List (Byte × Option MCls)) × State) l =>
    let (b, s) := r.2.mmvLine l c.mStart c.mEnd
    (r.1.put l b, s)) (([], s) : Tab (List (Byte × Option MCls)) × State)
  (as.map fun a => (ls.get [] (a / 64)).getD (a % 64) (0, none), s.sawBad as)

/-- A's value and scale of each element (R205). -/
def EngCmd.mmvA (c : EngCmd) : List FVal × List FVal :=
  let l := c.aAddrs.map fun a => (c.snap.get (0, none) (scratchCell c.core c.aMode a)).1.toNat
  let k := c.tpl.e 0
  let fa := Narrow.ofWord c.tpl.aux
  let vals := if contNarrow c.tpl.dfmt then (l.take k).map fa.decode
    else (List.range k).map fun e => (if c.tpl.dfmt = 1 then bf16 else fp16).decode (l.getD (2 * e) 0 + 256 * l.getD (2 * e + 1) 0)
  (vals, if c.tpl.dfmt = 7 then (l.drop k).map e5m3.decode else (List.range (k / 32)).map fun _ => e5m3.decode scaleOne)

/-- One result of an mmv (R39, R247): blocks in ascending K order. -/
def EngCmd.mmvRow (c : EngCmd) (a : List FVal × List FVal) (row : List Byte) : Nat :=
  let k := c.tpl.e 0
  let nar := contNarrow c.tpl.sfmt
  let bs := if nar then 32 else 16
  let code (e : Nat) : Nat := if c.tpl.sfmt = 5 then field (row.getD (e / 2) 0).toNat (4 * (e % 2)) 4
    else if c.tpl.sfmt = 4 then (row.getD e 0).toNat else (row.getD (2 * e) 0).toNat + 256 * (row.getD (2 * e + 1) 0).toNat
  let bval (e : Nat) : FVal := if nar then c.nf.decode (code e) else (if c.tpl.sfmt = 1 then bf16 else fp16).decode (code e)
  let off := if c.tpl.sfmt = 5 then k / 2 else k
  (List.range (k / bs)).foldl (fun acc blk =>
    let one := e5m3.decode scaleOne
    let sb := if nar then e5m3.decode (row.getD (off + blk) 0).toNat else one
    let sa := if nar then a.2.getD blk one else one
    (accFloat acc ((List.range bs).map fun i => (a.1.getD (blk * bs + i) one, bval (blk * bs + i))) sa sb).bits) 0

/-- Issue the results of an mmv (R40): each with WCT done. -/
def State.writeMmv (s : State) (c : EngCmd) (g : Grid) (done : Nat) : State :=
  let (b, s) := s.mmvB c g
  let a := c.mmvA
  let am := (c.captured (c.aAddrs.map fun x => scratchCell c.core c.aMode x)).2
  let rows := (List.range (c.tpl.e 1)).map fun r =>
    let line := (b.drop (r * c.pitch)).take c.rowBytes
    (c.mmvRow a (line.map (·.1)), am <|> line.findSome? (·.2))
  let s := s.updCmd c.ord fun c => c.met (rows.findSome? (·.2))
  let dst := c.spanBytes (c.word 8) (4 * c.tpl.e 1)
  let cells := dst.zip (rows.flatMap fun r => (leBytes 4 r.1).map fun v => (v, r.2))
  if c.killed then s else s.issueWrite (c.pwrite done 0 cells [] none)

/-- Write a bundle of a coll. -/
def State.writeBundle (s : State) (c : EngCmd) (i w : Nat) : State :=
  let b := c.bundle i
  let s := s.updCmd c.ord fun c => c.met (b.findSome? (·.2))
  if c.killed ∨ ¬ c.tpl.writes then s
  else s.issueWrite (c.pwrite w i ((c.spanBytes (c.word 5 + 4096 * i) 4096).zip b) [] none)

/-- Issue the writes whose completion ticks lie at most 9 t ahead, before any command plans what it reads on such a tick (R191): everything that they
depend on has been read by then. -/
def State.emitCmd (s : State) (ord : Nat) : State :=
  match s.cmdsE.find? ord with
  | none => s
  | some c =>
    match s.cmdGrid c with
    | none => s
    | some g =>
      let due (b : DstBeat) : Bool := !b.written && match b.w with
        | some w => decide (w ≤ s.gtc + 9)
        | none => false
      if c.fn = 4 then
        match c.done with
        | some d => if c.size ≠ 0 ∧ d ≤ s.gtc + 9 then (s.updCmd ord fun c => { c with size := 0 }).writeMmv c g d else s
        | none => s
      else if c.dst.any due then
        let s := s.updCmd ord fun c => { c with dst := c.dst.map fun b => if due b then { b with written := true } else b }
        let p := if c.fn ≤ 3 then c.plan s g else ⟨[], [], [], [], [], [], 0, none, 0, false⟩
        c.dst.zipIdx.foldl (fun s b =>
          match b.1.w with
          | some w => if due b.1 then (if c.fn = 9 then s.writeBundle c b.2 w else s.writeBeat c p (b.2 + 1) w) else s
          | none => s) s
      else s

/-! ### Counters (R216) -/

/-- The tick on which an HBM counter's add is issued: s for cntadd, otherwise done. -/
def EngCmd.addTick (c : EngCmd) : Option Nat := if c.fn = 11 then c.s else c.done

/-- A failed fabric command adds at s + 8, whatever its counter (R367). -/
def EngCmd.addsAtDone (c : EngCmd) : Bool := decide (c.csp = 1) || (decide (5 ≤ c.fn ∧ c.fn ≤ 8) && decide (c.done = c.s.map (· + 8)))

/-- The add of a scratch counter, or of a failed fabric command, once done is known: its WCT is done (R216, R367). -/
def State.countNow (s : State) (ord : Nat) : State :=
  match s.cmdsE.find? ord with
  | none => s
  | some c => match s.cmdGrid c, c.done with
    | some g, some d =>
      if c.inc = 0 ∨ c.added ∨ !c.addsAtDone then s
      else
        let s := (s.updCmd ord fun c => { (c.fixCount d) with added := true }).cmdWarp c fun w => w.raiseBy c.issue s.gtc (if c.csp = 1 then 1 else 2) d
        if c.killed ∧ c.csp = 1 then s else s.issueWrite (c.pwrite d addPlace [] [] (some (c.counterAt g, c.inc)))
    | _, _ => s

/-- The add of an HBM counter, an atg issued at done, and at s for cntadd (R215, R216): its slot is taken as it issues. -/
def State.countHbm (s : State) (ord : Nat) : State :=
  match s.cmdsE.find? ord with
  | none => s
  | some c => match s.cmdGrid c, c.addTick with
    | some g, some t0 =>
      if c.csp ≠ 2 ∨ c.added ∨ c.addsAtDone ∨ t0 ≠ s.gtc ∨ (c.inc = 0 ∧ c.fn ≠ 11) then s
      else
        let (t, s) := s.takeSlot c.core (c.counterAt g / 64) (t0 + 48)
        let wct := max (t0 + 680) (t + 168)
        let s := s.updCmd ord fun c =>
          let c : EngCmd := { (c.fixCount wct) with added := true, addAt := some (t0 + 48) }
          if c.fn = 11 then { c with done := some wct } else c
        if c.inc = 0 then s else s.issueWrite (c.pwrite wct addPlace [] [] (some (c.counterAt g, c.inc)))
    | _, _ => s

/-- The mark of an HBM counter's add, when the request arrives (R193). -/
def State.raiseCount (s : State) (ord : Nat) : State :=
  match s.cmdsE.find? ord with
  | none => s
  | some c =>
    if c.inc ≠ 0 ∧ c.addAt = some s.gtc then
      match c.wcts.getLast? with
      | some (_, some w) => s.cmdWarp c fun x => x.raiseBy c.issue s.gtc 2 w
      | _ => s
    else s

/-! ### A tick of the engines -/

/-- Reads of this tick: captures, and the bundles of a coll (R214); marks of requests that arrive on it (R193). -/
def State.engineReads (s : State) : State :=
  s.engOrder.foldl (fun s o =>
    let s := (s.raiseBeats o).raiseCount o
    match s.cmdsE.find? o with
    | none => s
    | some c =>
      let s := s.captureCmd c
      if c.fn = 9 ∧ c.tpl.stages ∧ c.readAt = some s.gtc then
        match s.cmdsE.find? o with
        | some c => s.stageColl c (s.gtc - 8)
        | none => s
      else s) s

/-- A command is complete: done, its marks fixed and past, its beats issued. -/
def EngCmd.complete (c : EngCmd) (t : Nat) : Bool :=
  byTick c.done t && c.finished && c.wcts.all (fun e => byTick e.2 t) && c.dst.all (·.written)

/-- Complete commands go, except those that sr.cwp and R201 still need: the latest started one of each queue of a core, and of each
queue of a resident instance. -/
def State.pruneCmds (s : State) : State :=
  let l := s.cmdsE.map (·.2)
  { s with cmdsE := s.cmdsE.filter fun e =>
      let c := e.2
      let later (d : EngCmd) : Bool := decide (d.core = c.core ∧ d.queue = c.queue ∧ c.ord < d.ord) && d.s.isSome
      !c.complete (s.gtc - 1) || !l.any later ||
      ((s.warps.any fun w => decide (w.2.core = c.core) && c.ofInst w.2) && !l.any fun d => later d && c.sameInst d)
           joins := s.joins.filter fun j => s.warps.any fun w => decide (w.2.core = j.core) }

/-- A command whose completion tick has come is finished; a fault found after issue is handed to its warp, for its next fence
(R218). -/
def State.doneCmd (s : State) (ord : Nat) : State :=
  match s.cmdsE.find? ord with
  | none => s
  | some c => match c.done with
    | some d =>
      if c.finished ∨ s.gtc < d then s
      else
        let s := s.updCmd ord fun c => { c with finished := true }
        match c.fault with
        | some m => s.cmdWarp c fun w => { w with faulted := w.faulted ++ [(d, m.1, m.2)] }
        | none => s
    | none => s

/-- ENGINE_DONE (R216, R218): every command whose completion tick has come is finished. -/
def execEngineDone (s : State) : Out := .next (s.engOrder.foldl State.doneCmd s)

end Sys2Proof.Machine
end

