-- ==== Sys2Proof/Machine/Registers.lean ====
section
/-! DEFINITION. The management register block: what every register reads, and the writes that act by their Access codes
alone (R4, R5, R20, R38, R57, R62, R63, R74, R82, R85, R93, R107, R108, R121, R122, R184, R334). -/

namespace Sys2Proof.Machine

/-- A port's state. -/
def State.port (s : State) (p : Nat) : Port := s.ports.get Port.fresh p
/-- A ring's state. -/
def State.ring (s : State) (i : Nat) : Ring := s.rings.get Ring.fresh i
def State.updRing (s : State) (i : Nat) (f : Ring → Ring) : State := { s with rings := s.rings.update Ring.fresh i f }
/-- A logical queue's state. -/
def State.lqueue (s : State) (q : Nat) : LQueue := s.queues.get LQueue.fresh q
def State.updQueue (s : State) (q : Nat) (f : LQueue → LQueue) : State := { s with queues := s.queues.update LQueue.fresh q f }

/-- SCHED_STATUS.STATE (R74). -/
def SchedState.code : SchedState → Nat
  | .idle => 0
  | .run => 1
  | .fault => 2
  | .agree => 3
  | .realign => 4
  | .halted => 5

/-- HUB_STATUS (R107). -/
def State.hubStatus (s : State) : Nat :=
  bit s.fw.ready 31 + bit s.fw.fail 30 + s.fw.phase * 2 ^ 26 + s.fw.failCode * 2 ^ 21 + bit s.fw.timeFree 20 +
  bit s.fw.slot 19 + s.fw.darkPorts.toNat

/-- FW_STATUS (R108). -/
def State.fwStatus (s : State) : Nat :=
  s.fw.state * 2 ^ 28 + s.fw.result * 2 ^ 24 + s.fw.failedQueues % 2 ^ 8 * 2 ^ 16 + s.fw.svn % 2 ^ 16

/-- HBM_STACK_STATUS (R38): REF_DEBT is the highest debt divided by 8, rounded up. -/
def Stack.status (k : Stack) : Nat :=
  bit k.ue 31 + bit k.debtFault 30 + k.band * 2 ^ 28 + k.retryPeak % 2 ^ 5 * 2 ^ 23 + min 8 (ceilDiv k.debt 8) * 2 ^ 19 +
  k.swapPeak % 2 ^ 3 * 2 ^ 16 + k.ceCount % 2 ^ 16

/-- FAB_PORT_STATUS (R57). -/
def Port.status (p : Port) : Nat :=
  bit p.dark 31 + bit p.dead 30 + bit p.authFail 29 + bit p.protoErr 28 + p.unrec % 2 ^ 8 * 2 ^ 16 + p.replays % 2 ^ 16

/-- TIME_STATUS (R62). -/
def State.timeStatus (s : State) : Nat :=
  bit s.time.locked 31 + bit s.time.holdover 30 + bit s.time.ppsOk 29 + bit s.time.refOk 28 + bit s.time.timeFault 27 +
  s.time.kerfPorts % 2 ^ 8 * 2 ^ 16 + (s.time.offset % 2 ^ 16).toNat

/-- SCHED_STATUS (R74). -/
def State.schedStatus (s : State) : Nat :=
  s.sched.state.code * 2 ^ 29 + s.sched.cause * 2 ^ 24 + s.sched.loadErr * 2 ^ 20 + s.sched.image % 2 ^ 4 * 2 ^ 16 +
  s.sched.rounds % 2 ^ 16

/-- Partitions with a property, one bit each. -/
def State.partBits (s : State) (f : Tenant → Bool) : Nat :=
  bit (f (s.tenant 0)) 0 + bit (f (s.tenant 1)) 1 + bit (f (s.tenant 2)) 2 + bit (f (s.tenant 3)) 3

/-- SEC_STATUS (R121). -/
def State.secStatus (s : State) : Nat :=
  let sealed := s.partBits (·.sealed)
  let td := s.partBits (·.tdebug)
  (if s.sec.revoked then 2 else if sealed ≠ 0 then 1 else 0) * 2 ^ 30 +
  (if s.sec.vendor then 2 else if td ≠ 0 then 1 else 0) * 2 ^ 28 + sealed * 2 ^ 24 + td * 2 ^ 20

/-- Core slots that hold a task (R118): those of the positions that hold resources. -/
def State.taskCores (s : State) : List Nat :=
  s.grids.flatMap fun (e : Nat × Grid) => (e.2.poss.filter fun (q : Nat × PosState) => q.2.placed).map fun (q : Nat × PosState) =>
    (s.tenant e.2.part).slotBase + e.2.lcore q.1

/-- A core holds no task (R118). -/
def State.coresIdle (s : State) : Bool := (List.range 256).any fun c => !s.taskCores.contains c

/-- The power state (R118): D3HOT and DEVICE_IDLE are held; from READY on, gating shows. -/
def State.powerState (s : State) : Nat :=
  if s.link.d3 then 3 else if s.sec.power = 2 then 2 else if s.fw.ready && s.coresIdle then 1 else 0

/-- PWR_CFG (R122). -/
def State.pwrCfg (s : State) : Nat := s.powerState * 2 ^ 30 + s.sec.cap % 2 ^ 12

/-- PT_ROOT of a partition (R184). -/
def Tenant.ptRootReg (t : Tenant) : Nat := t.ptRoot / 2 ^ 15 * 2 ^ 15 % 2 ^ 39 + bit t.ptValid 0

/-- MERGE_CFG (R85). -/
def LQueue.cfg (q : LQueue) : Nat := bit q.enable 31 + q.prio * 2 ^ 28 + q.watchdog % 2 ^ 24

/-- A dispatched command of a queue has not completed (R85). -/
def State.queueBusy (s : State) (q : Nat) : Bool :=
  s.cmds.any fun (e : Nat × Cmd) => decide (e.2.lq = q) && e.2.node.isNone && e.2.d.isSome && e.2.fin.isNone

/-- QUEUE_STATUS (R85). -/
def State.queueStatus (s : State) (k : Nat) : Nat :=
  let q := s.lqueue k
  bit q.halted 31 + bit (s.queueBusy k) 29 + q.err % 2 ^ 8 * 2 ^ 16 + q.errRing % 2 ^ 10

/-- RING_CFG (R82). -/
def Ring.cfg (r : Ring) : Nat :=
  bit r.enable 31 + r.lq * 2 ^ 24 + r.log2 * 2 ^ 20 + r.part * 2 ^ 18 + r.vector % 2 ^ 11

/-- JOURNAL_CFG (R93). -/
def State.journalCfg (s : State) : Nat := bit s.journal.enable 31 + bit s.journal.full 30 + s.journal.log2 % 2 ^ 5

/-- JOURNAL_HEAD (R93): entries counted from the completion tick of their first write. -/
def State.journalHead (s : State) : Nat :=
  s.journal.taken - (s.journal.heads.filter fun t => decide (s.gtc < t)).length -
    (s.poolq.filter fun r => match r.what with
      | .entry _ => true
      | _ => false).length

/-- What a management register reads, by its offset (R4, R5): WO fields and offsets without a register read 0. -/
def State.readReg (s : State) (o : Nat) : Nat :=
  if o = 0x0 then s.hubStatus
  else if o = 0x8 then s.fw.stage
  else if o = 0x18 then s.fwStatus
  else if o = 0x40 then s.supplyStatus
  else if 0x100 ≤ o ∧ o < 0x140 ∧ o % 8 = 0 then (s.stack ((o - 0x100) / 8)).status
  else if 0x140 ≤ o ∧ o < 0x180 ∧ o % 8 = 0 then (s.stack ((o - 0x140) / 8)).ueAddr
  else if 0x200 ≤ o ∧ o < 0x280 ∧ o % 8 = 0 then (s.port ((o - 0x200) / 8)).status
  else if o = 0x300 then s.timeStatus
  else if o = 0x308 then s.time.domain
  else if o = 0x310 then s.schedStatus
  else if o = 0x318 then s.sched.first % 2 ^ 47
  else if o = 0x320 then s.time.epoch.toNat
  else if o = 0x328 then s.sched.resume % 2 ^ 47
  else if o = 0x400 then s.secStatus
  else if o = 0x408 then s.pwrCfg
  else if 0x500 ≤ o ∧ o < 0x540 ∧ o % 16 = 0 then (s.tenant ((o - 0x500) / 16)).ptRootReg
  else if o = 0x600 then s.regEccLatent * 2 ^ 16 + s.regEccConsumed
  else if 0x1000 ≤ o ∧ o < 0x1400 ∧ o % 16 = 0 then (s.lqueue ((o - 0x1000) / 16)).cfg
  else if 0x1000 ≤ o ∧ o < 0x1400 ∧ o % 16 = 8 then s.queueStatus ((o - 0x1000) / 16)
  else if o = 0x1400 then s.journal.base
  else if o = 0x1408 then s.journalCfg
  else if o = 0x1410 then s.journalHead
  else if 0x10000 ≤ o ∧ o < 0x18000 then
    let r := s.ring ((o - 0x10000) / 32)
    if o % 32 = 0 then r.base else if o % 32 = 8 then r.cfg else if o % 32 = 16 then r.head
    else if o % 32 = 24 then r.seq else 0
  else 0

/-! ### Accesses through the BARs (R80) -/

/-- The class code of the function (R80). -/
def classCode : Nat := 0x120000

/-- Sizes of BAR0/1, BAR2/3 and BAR4/5 (R80). -/
def barSize (bar : Fin 3) : Nat := if bar = 0 then 2 ^ 20 else if bar = 1 then 2 ^ 22 else 2 ^ 26

/-- An access of 4 or 8 bytes, naturally aligned, inside its BAR (R80). -/
def accessOk (bar : Fin 3) (size o : Nat) : Bool := decide ((size = 4 ∨ size = 8) ∧ o % size = 0 ∧ o < barSize bar)

/-- What a host's read completes with (R80): data, Unsupported Request status, or nothing while the dies are in reset. -/
inductive HostRead where
  | value (v : Nat)
  | unsupported
  | silent
deriving DecidableEq, Repr

/-- What the stack holds of a beat (R114): in a sealed partition's regions its AES-256-XTS cipher text, with PA[38:6] as the tweak. -/
def State.storedBeat (s : State) (beat : Nat) : List Byte :=
  let plain := s.bytesAt (beat * 64) 64
  match (List.range 4).find? fun p => (s.tenant p).sealed && (s.tenant p).regions.contains (beat * 64 / 2 ^ 30) with
  | some p => Config.xtsSeal (s.tenant p).xtsKey beat plain
  | none => plain

/-- The journal window over a region that a partition has sealed gives the host no plain text (R114, R115): it reads what the stack holds. DESIGN
CHOICE (log entry 50): the manual says only that data leaves a sealed partition in no other form than sealed records. -/
def State.journalRead (s : State) (a size : Nat) : Nat := leNat (((s.storedBeat (a / 64)).drop (a % 64)).take size)

/-- A read by the host (R80, R93): a register's half or whole, the kept tail behind a doorbell word (log entry 58), or the journal
window, which reads zero beyond the journal. -/
def State.hostRead (s : State) (bar : Fin 3) (size o : Nat) : HostRead :=
  if !s.live then .silent
  else if !accessOk bar size o then .unsupported
  else if bar = 0 then .value (s.readReg (o / 8 * 8) / 2 ^ (o % 8 * 8) % 2 ^ (8 * size))
  else if bar = 1 then .value (if o % 4096 = 0 then Config.doorbellRead (s.ring (o / 4096)).tail % 2 ^ 32 else 0)
  else .value (if o + size ≤ 32 * 2 ^ s.journal.log2 then s.journalRead (s.journal.base + o) size else 0)

/-- The 64-bit value that a write of 4 or 8 bytes at an offset leaves in a register that held `cur`. -/
def mergeWrite (cur size o v : Nat) : Nat :=
  if size = 8 then v
  else if o % 8 = 0 then cur / 2 ^ 32 * 2 ^ 32 + v % 2 ^ 32
  else cur % 2 ^ 32 + v % 2 ^ 32 * 2 ^ 32

/-- What a write of the low word of a register with a behaviour of its own starts (R63, R82, R85, R93, R108, R122, R184). -/
def registerSteps (o v : Nat) : List Instr :=
  let w := BitVec.ofNat 32 v
  if o = 0x10 then
    (if v.testBit 31 then [.verify] else []) ++ (if v.testBit 30 then [.activate (v.testBit 29)] else [])
  else if o = 0x308 then [.timeCfgWrite w]
  else if o = 0x408 then [.pwrCfgWrite w]
  else if 0x500 ≤ o ∧ o < 0x540 ∧ o % 16 = 8 then if v.testBit 0 then [.flush (Fin.ofNat 4 ((o - 0x500) / 16))] else []
  else if 0x1000 ≤ o ∧ o < 0x1400 ∧ o % 16 = 0 then [.mergeCfgWrite (Fin.ofNat 64 ((o - 0x1000) / 16)) w]
  else if 0x1000 ≤ o ∧ o < 0x1400 ∧ o % 16 = 8 then if v.testBit 30 then [.clear (Fin.ofNat 64 ((o - 0x1000) / 16))] else []
  else if o = 0x1408 then [.journalCfgWrite w]
  else if 0x10000 ≤ o ∧ o < 0x18000 ∧ o % 32 = 8 then [.ringCfgWrite (Fin.ofNat 1024 ((o - 0x10000) / 32)) w]
  else []

/-- A write to a register whose fields act by their Access codes alone (R4, R5): `v` is the register's new value, `ones` the written
bits. -/
def State.plainWrite (s : State) (o v ones : Nat) : State :=
  if o = 0x8 then s.updFw fun f => { f with stage := v % 2 ^ 39 }
  else if o = 0x40 then
    s.updPkg fun p => { p with seqErr := p.seqErr && !ones.testBit 31
                               droop := p.droop && !ones.testBit 30
                               railDroop := p.railDroop &&& ~~~ (BitVec.ofNat 10 (ones / 2 ^ 10)) }
  else if 0x100 ≤ o ∧ o < 0x140 ∧ o % 8 = 0 then
    s.updStack ((o - 0x100) / 8) fun k => { k with ue := k.ue && !ones.testBit 31
                                                   debtFault := k.debtFault && !ones.testBit 30
                                                   retryPeak := field v 23 5
                                                   swapPeak := field v 16 3
                                                   ceCount := field v 0 16 }
  else if 0x200 ≤ o ∧ o < 0x280 ∧ o % 8 = 0 then
    s.updPort ((o - 0x200) / 8) fun p => { p with dead := v.testBit 30
                                                  authFail := p.authFail && !ones.testBit 29
                                                  protoErr := p.protoErr && !ones.testBit 28
                                                  unrec := field v 16 8
                                                  replays := field v 0 16 }
  else if o = 0x300 then s.updTime fun t => { t with timeFault := t.timeFault && !ones.testBit 27 }
  else if o = 0x310 then s.updSched fun c => { c with rounds := field v 0 16 }
  else if o = 0x320 then s.updTime fun t => { t with epoch := BitVec.ofNat 64 v }
  else if o = 0x600 then { s with regEccLatent := field v 16 16, regEccConsumed := field v 0 16 }
  else if o = 0x1400 then { s with journal := { s.journal with base := v % 2 ^ 39 } }
  else if 0x10000 ≤ o ∧ o < 0x18000 ∧ o % 32 = 0 then s.updRing ((o - 0x10000) / 32) fun r => { r with base := v % 2 ^ 64 }
  else if 0x10000 ≤ o ∧ o < 0x18000 ∧ o % 32 = 24 then s.updRing ((o - 0x10000) / 32) fun r => { r with seq := v % 2 ^ 32 }
  else s

/-- A write of BAR0/1: PT_ROOT and the registers of `registerSteps` act by steps of their own, the others by their Access codes. -/
def State.writeReg (s : State) (size o v : Nat) : State :=
  let r := o / 8 * 8
  let new := mergeWrite (s.readReg r) size o v
  if 0x500 ≤ r ∧ r < 0x540 ∧ r % 16 = 0 then
    { s with pending := .ptRootWrite (Fin.ofNat 4 ((r - 0x500) / 16)) (BitVec.ofNat 64 new) :: s.pending }
  else
    let t := s.plainWrite r new (mergeWrite 0 size o v)
    if o % 8 = 0 then { t with pending := registerSteps o v ++ t.pending } else t

/-- REGISTER_WRITE (R4, R5, R80): a write by the host. One that no BAR takes has Unsupported Request status and is discarded. The manual
gives POD_EPOCH, HBM_UE_ADDR, SCHED_FIRST and SCHED_RESUME no Access code: POD_EPOCH is written, the other three are read-only.
DESIGN CHOICE (log entry 58). -/
def execRegisterWrite (bar : Fin 3) (size : Nat) (offset : BitVec 26) (val : BitVec 64) (s : State) : Out :=
  s.onLive fun s =>
    let o := offset.toNat
    let v := val.toNat % 2 ^ (8 * size)
    .next <|
      if !accessOk bar size o || decide (bar = 2) then s.updLink fun l => { l with replies := l.replies ++ [.unsupportedAccess] }
      else if bar = 0 then s.writeReg size o v
      else if o % 4096 = 0 then { s with pending := .doorbell (Fin.ofNat 1024 (o / 4096)) (BitVec.ofNat 32 v) :: s.pending }
      else s

end Sys2Proof.Machine
end

