-- ==== Sys2Proof/Machine/Host.lean ====
section
/-! DEFINITION. Rings, the merge unit, packet checks, dispatch, the accession journal and the host commands that are not
launches (R82 to R95). -/

namespace Sys2Proof

/-! ### Packets (R86, R87) -/

def Packet.opcode (p : Packet) : Nat := field p.hdr.toNat 0 8
def Packet.overlap (p : Packet) : Bool := p.hdr.getLsbD 8
def Packet.notify (p : Packet) : Bool := p.hdr.getLsbD 9
def Packet.indirect (p : Packet) : Bool := p.hdr.getLsbD 10
def Packet.reuse (p : Packet) : Bool := p.hdr.getLsbD 11
def Packet.seq (p : Packet) : Nat := field p.hdr.toNat 32 32
/-- Word k of the body: bytes 8k to 8k + 7. -/
def Packet.word (p : Packet) (k : Nat) : Nat := ([p.hdr, p.w1, p.w2, p.w3, p.w4, p.w5, p.w6, p.w7].getD k 0).toNat

/-- The bits that a packet's opcode gives a meaning, for words 1 to 4 of the body (R86, R91, R92). -/
def Packet.used (p : Packet) : List Nat :=
  let a := 2 ^ 52 - 1
  let all := 2 ^ 64 - 1
  match p.opcode with
  | 0x01 => if p.indirect then [a, all, a, 2 ^ 32 - 1] else [a, all, 0, 0]
  | 0x02 => [a, 2 ^ 16 - 1, 0, 0]
  | 0x03 => [a, all, 0, 0]
  | 0x04 => [a, all, 0, 0]
  | 0x05 => [a, 2 ^ 36 - 1, 0, 0]
  | 0x06 => [2 ^ 4 - 1, 2 ^ 47 - 1, 0, 0]
  | 0x07 => [0x13F, 0, 0, 0]
  | 0x10 => [a, 0xFFFF0007FFFFFFFF, 0, 0]
  | 0x11 => [a, 0xFFFF0007FFFFFFFF, 2 ^ 32 - 1, 0]
  | _ => [0, 0, 0, 0]

/-- A reserved field or bit is not zero (R86). -/
def Packet.reservedBad (p : Packet) : Bool :=
  decide (field p.hdr.toNat 12 20 ≠ 0) || (decide (p.opcode ≠ 1) && (p.indirect || p.reuse)) ||
  ((p.used ++ [0, 0, 0]).zipIdx.any fun e => decide (p.word (e.2 + 1) &&& (2 ^ 64 - 1 - e.1) ≠ 0))

/-- A known opcode (R86). -/
def opcodeKnown (o : Nat) : Bool := decide (o ≤ 7) || decide (0x10 ≤ o ∧ o ≤ 0x12)

/-- The rejection code of R87 and R88 for a packet of a ring, or 0. -/
def Packet.reject (p : Packet) (seq : Nat) : Nat :=
  if !opcodeKnown p.opcode then 1
  else if 0x10 ≤ p.opcode then 5
  else if p.reservedBad then 2
  else if p.seq ≠ seq then 3
  else 0

end Sys2Proof

namespace Sys2Proof.Machine

/-! ### The journal (R93, R94) -/

/-- Status codes of the journal (R93). -/
def Status.code : Status → Nat
  | .accepted => 1
  | .dispatched => 2
  | .running => 3
  | .done => 4
  | .rejected => 5
  | .failed => 6
  | .killed => 7
  | .preempted => 8
  | .aborted => 9

/-- A final status (R93). -/
def Status.final : Status → Bool
  | .accepted => false
  | .dispatched => false
  | .running => false
  | _ => true

/-- Bytes 24 to 31 of an entry. -/
def statusBytes (st : Status) (code tick : Nat) : List Byte := leBytes 8 (st.code * 2 ^ 56 + code % 2 ^ 8 * 2 ^ 48 + tick % 2 ^ 48)

/-- The physical address of entry n (R93). -/
def State.journalEntry (s : State) (n : Nat) : Nat := s.journal.base + 32 * (n % 2 ^ s.journal.log2)

/-- The cells that a pool request will write. -/
def PoolFor.cellsOf : PoolFor → List (Nat × Byte)
  | .cells cs => cs
  | .entry cs => cs
  | _ => []

/-- The status that an entry slot holds (R94): of the latest write of it that was issued, or else what stands in memory. -/
def State.slotStatus (s : State) (entry : Nat) : Nat :=
  let a := entry + 31
  (((s.poolq.reverse.findSome? fun r => (r.what.cellsOf.find? fun c => decide (c.1 = a)).map (·.2)) <|>
    (s.writes.reverse.findSome? fun w => (w.cells.find? fun c => decide (c.1 = a)).map (·.2.1))).getD (s.byteAt a)).toNat

/-- The entry slot at JOURNAL_HEAD holds a status that is neither 0 nor final (R94). -/
def State.slotBusy (s : State) : Bool :=
  let v := s.slotStatus (s.journalEntry s.journal.taken)
  decide (v ≠ 0 ∧ ¬(4 ≤ v ∧ v ≤ 9))

/-- A final status raises the MSI-X vector of the packet's ring when the packet says NOTIFY (R86). -/
def State.notify (s : State) (c : Cmd) : State :=
  if c.pkt.notify then s.updLink fun l => { l with msix := l.msix ++ [(s.ring c.ring).vector] } else s

/-- One write of a journal entry, a pool request of the second class (R31, R93). -/
def State.journalWrite (s : State) (c : Cmd) (off : Nat) (bs : List Byte) (first : Bool) : State :=
  let a := c.entry + off
  let cs := (List.range bs.length).map fun k => (a + k, bs.getD k 0)
  s.askPool ⟨1, c.part, c.lq, a, bs.length, if first then .entry cs else .cells cs⟩

/-- The whole entry of a packet at its take (R93). -/
def entryBytes (c : Cmd) (st : Status) (code tick : Nat) : List Byte :=
  leBytes 2 (c.lq * 2 ^ 10 + c.ring) ++ leBytes 1 c.pkt.opcode ++ [0] ++ leBytes 4 c.pkt.seq ++ leBytes 8 c.take ++
  leBytes 8 0 ++ statusBytes st code tick

/-- Change one command. -/
def State.updCommand (s : State) (id : Nat) (f : Cmd → Cmd) : State := { s with cmds := s.cmds.modify id f }

/-- A status was written: FULL may end (R94). -/
def State.slotFinal (s : State) : State := { s with journal := { s.journal with full := s.journal.full && s.slotBusy } }

/-- A later status of a command, in its journal entry when it has one of its own (R93). -/
def State.writeStatus (s : State) (c : Cmd) (st : Status) (code : Nat) : State :=
  if c.node.isSome then s
  else
    let s := s.journalWrite c 24 (statusBytes st code s.gtc) false
    if st.final then s.slotFinal else s

/-- A command ends with a final status: its journal status, its interrupt and its event for firmware (R86, R93, R97). -/
def State.endCmd (s : State) (id : Nat) (st : Status) (code : Nat) : State :=
  match s.cmds.find? id with
  | none => s
  | some c =>
    if c.fin.isSome then s
    else
      let s := s.updCommand id fun c => { c with status := st, code := code, fin := some s.gtc }
      let s := (s.writeStatus c st code).notify c
      if c.node.isNone then s.post (some c.lq) 1 else s

/-! ### Rings (R82, R83) -/

/-- Slots of a ring (R82). -/
def Ring.size (r : Ring) : Nat := 2 ^ (r.log2 + 6)

/-- A queue is rejected (R83, R88). -/
def State.rejectQueue (s : State) (q ring code : Nat) : State :=
  (s.updQueue q fun x => { x with halted := true, err := code, errRing := ring }).post (some q) 2

/-- The device wakes from DEVICE_IDLE (R118, R119). -/
def State.wake (s : State) : State :=
  if s.sec.power = 2 ∧ s.sec.wakeAt.isNone then s.updSec fun c => { c with wakeAt := some (s.gtc + 13000) } else s

/-- Packets from RING_HEAD to the tail (R83). -/
def Ring.ahead (r : Ring) (tail : Nat) : Nat := (BitVec.ofNat 32 tail - BitVec.ofNat 32 r.head).toNat

/-- A new tail: a packet at or beyond it is fetched no more (R83). -/
def Ring.setTail (r : Ring) (tail : Nat) : Ring :=
  { r with tail := tail, fetched := r.fetched.filter fun (e : Nat × Packet) => decide (r.ahead e.1 < r.ahead tail) }

/-- DOORBELL (R83). -/
def execDoorbell (ring : Fin 1024) (tail : BitVec 32) (s : State) : Out :=
  s.onLive fun s =>
    let r := s.ring ring.val
    let s := s.wake
    if r.ahead tail.toNat ≤ r.size then .next (s.updRing ring.val fun r => r.setTail tail.toNat)
    else .next (s.rejectQueue r.lq ring.val 4)

/-- Packets can be fetched from host memory (R81, R106, R118). -/
def State.mayFetch (s : State) : Bool := s.live && s.fw.ready && s.link.busMaster && !s.link.d3

/-- Index of the next packet to fetch of a ring (R83). -/
def Ring.nextFetch (r : Ring) : Nat := (r.head + r.fetched.length) % 2 ^ 32

/-- PACKET_FETCH (R83): the next packet of a ring, in index order. -/
def execPacketFetch (ring : Fin 1024) (pkt : Packet) (s : State) : Out :=
  let r := s.ring ring.val
  if s.mayFetch && r.enable && decide (r.fetched.length < r.ahead r.tail) then
    .next (s.updRing ring.val fun r => { r with fetched := r.fetched.put r.nextFetch pkt })
  else .next s

/-- RING_CFG_WRITE (R82). ENABLE going from 0 to 1 keeps the tail: what it covers from RING_HEAD 0 on is fetched without a new
doorbell. DESIGN CHOICE (log entry 58): the manual says nothing of the tail there. -/
def execRingCfgWrite (ring : Fin 1024) (val : BitVec 32) (s : State) : Out :=
  s.onLive fun s =>
  let v := val.toNat
  let r := s.ring ring.val
  let lq := field v 24 6
  let lg := field v 20 4
  let part := field v 18 2
  let en := v.testBit 31 && decide (lg ≤ 10)
  if r.enable ∧ (lq ≠ r.lq ∨ lg ≠ r.log2 ∨ part ≠ r.part) then .next s
  else .next (s.updRing ring.val fun r =>
    let r : Ring := { r with enable := en, lq := lq, log2 := lg, part := part, vector := field v 0 11 }
    if en && !(s.ring ring.val).enable then { r with head := 0, fetched := [] } else r)

/-! ### The merge unit (R84, R87, R88) -/

/-- Rings of a queue that hold a fetched packet at their head, in ascending order. -/
def State.holding (s : State) (q : Nat) : List Nat :=
  (s.rings.filter fun (e : Nat × Ring) => e.2.enable && decide (e.2.lq = q) && (e.2.fetched.find? e.2.head).isSome).map (·.1)

/-- A queue may take a packet on this tick, but for the slot of R94. -/
def State.mayTake (s : State) (q : Nat) : Bool :=
  let x := s.lqueue q
  s.live && s.fw.ready && s.journal.enable && x.enable && !x.halted && decide (x.chain.length < 64) && !s.eventHeld &&
  decide (s.sec.power ≠ 2) && s.sec.wakeAt.isNone && !s.pkg.stopped && !(s.holding q).isEmpty

/-- The ring that yields the next packet of a queue (R84). -/
def State.nextRing (s : State) (q : Nat) : Option Nat :=
  let l := s.holding q
  match (s.lqueue q).visited with
  | some v => (l.find? fun i => decide (v < i)) <|> l.head?
  | none => l.head?

/-- The place of the turn after a visit: empty rings behind it are visited at once; after the highest member a new turn
begins (R84). -/
def State.afterVisit (s : State) (q i : Nat) : Option Nat := ((s.holding q).find? fun k => decide (i < k)).map (· - 1)

/-- A new command record. -/
def Cmd.fresh (lq ring part : Nat) (p : Packet) (take entry : Nat) : Cmd where
  lq := lq
  ring := ring
  part := part
  seq := p.seq
  pkt := p
  take := take
  d := none
  status := .accepted
  code := 0
  fin := none
  entry := entry
  node := none
  nodes := []
  loops := []
  grid := none
  stagers := []
  child := none
  nextNode := 0
  addr := 0
  due := none
  data := []
  waiting := []

/-- The resident copy of an image (R129): staged, and staged for the partition. -/
def State.resident (s : State) (part addr : Nat) : Option LaunchCopy :=
  s.copies.find? fun c => decide (c.part = part ∧ c.addr = addr ∧ c.staged ≠ 0 ∧ c.staged ≤ s.gtc)

/-- A grid uses a copy that is resident: it is staged at its take (R129). -/
def State.attach (s : State) (gid : Nat) (c : LaunchCopy) : State :=
  let s := s.updGrid gid fun g => { g with s0 := some s.gtc, staged := some s.gtc, total := c.size, hdr := readHeader c.bytes, unmapped := c.unmapped }
  { s with copies := s.copies.map fun (d : LaunchCopy) =>
      if d.part = c.part ∧ d.addr = c.addr ∧ d.staged = c.staged then { d with users := gid :: d.users } else d }

/-- The grid of a LAUNCH packet. -/
def gridOfPacket (part lq prio take : Nat) (p : Packet) : Grid :=
  { Grid.fresh part lq prio (field (p.word 1) 0 52) take none (p.word 2) with
    reuse := p.reuse
    indirect := if p.indirect then some (field (p.word 3) 0 52, field (p.word 4) 0 32) else none }

/-- A grid is created for a taken LAUNCH (R129): its take tick is now; with REUSE it uses a resident copy. -/
def State.addGrid (s : State) (part lq prio : Nat) (p : Packet) (cmd : Option Nat) : Nat × State :=
  let g : Grid := { gridOfPacket part lq prio s.gtc p with cmd := cmd }
  let gid := s.fresh
  let s := { s with grids := s.grids.put gid g }.bump
  (gid, if p.reuse then (match s.resident part g.image with
    | some c => s.attach gid c
    | none => s) else s)

/-- PACKET_TAKE (R84, R87, R88, R93, R94): one packet of a queue is taken, journalled and checked. -/
def execPacketTake (lq : Fin 64) (s : State) : Out :=
  let q := lq.val
  if !s.mayTake q then .next s
  else if s.slotBusy then .next { s with journal := { s.journal with full := true } }
  else match s.nextRing q with
    | none => .next s
    | some i =>
      let r := s.ring i
      match r.fetched.find? r.head with
      | none => .next s
      | some p =>
        let n := s.journal.taken
        let c := Cmd.fresh q i r.part p s.gtc (s.journalEntry n)
        let code := p.reject r.seq
        let s := s.updRing i fun r => { r with head := (r.head + 1) % 2 ^ 32, fetched := r.fetched.del r.head
                                               seq := if code = 0 then (r.seq + 1) % 2 ^ 32 else r.seq }
        let s := s.updQueue q fun x => { x with visited := s.afterVisit q i }
        let s := { s with journal := { s.journal with taken := n + 1, full := false } }
        if code ≠ 0 then .next (((s.journalWrite c 0 (entryBytes c .rejected code s.gtc) true).notify c).rejectQueue q i code)
        else
          let id := s.fresh
          let s := s.bump
          let s := s.journalWrite c 0 (entryBytes c .accepted 0 s.gtc) true
          let s := s.updQueue q fun x => { x with chain := x.chain ++ [id] }
          if p.opcode = 1 then
            let (g, s) := s.addGrid r.part q (s.lqueue q).prio p (some id)
            .next { s with cmds := s.cmds.put id { c with grid := some g } }
          else .next { s with cmds := s.cmds.put id c }

/-! ### Dispatch (R89) -/

/-- The arm of `Instr` that gives a dispatched command its effect (R86, R92). -/
def commandStep (op cmd : Nat) : Instr :=
  match op with
  | 0x00 => .nop cmd
  | 0x01 => .launch cmd
  | 0x02 => .graph cmd
  | 0x03 => .wait cmd
  | 0x04 => .write cmd
  | 0x05 => .schedLoad cmd
  | 0x06 => .schedActivate cmd
  | 0x07 => .preempt cmd
  | 0x10 => .cond cmd
  | 0x11 => .loop cmd
  | _ => .endNode cmd

/-- A command may dispatch on this tick, after the command before it (R89). -/
def State.released (s : State) (c : Cmd) (prev : Option Nat) : Bool :=
  match prev.bind s.cmds.find? with
  | none => true
  | some p => match p.d with
    | none => false
    | some d => decide (d < s.gtc) && (c.pkt.overlap || (match p.fin with
        | some f => decide (f ≤ s.gtc)
        | none => false))

/-- A partition's regions are being zeroed (R114, R117): for its SEAL or its release, or, when it is sealed or about to be, for vendor debug. -/
def State.beingZeroed (s : State) (p : Nat) : Bool :=
  (s.sec.zeroing.any fun (z : ZeroFor × Nat × Nat) => decide (z.2.1 = p ∧ z.1 ≠ .vendor)) ||
  ((s.tenant p).sealed && s.sec.zeroing.any fun (z : ZeroFor × Nat × Nat) => decide (z.1 = .vendor))

/-- The next command of a queue dispatches on this tick (R85, R89, R109). DEDUCED (log entry 50): no context of a partition begins while its regions
are being zeroed, so that none outlives the keys (R114, R117). -/
def State.mayDispatch (s : State) (q : Nat) : Option Nat :=
  let x := s.lqueue q
  if !s.live || !x.enable || s.fw.held || s.pkg.stopped then none
  else match x.chain with
    | [] => none
    | id :: _ => match s.cmds.find? id with
      | none => none
      | some c => if s.released c x.cur && !s.beingZeroed c.part then some id else none

/-- A command that is dispatched: its tick, its journal write and its effect to come (R89, R93). -/
def State.dispatchCmd (s : State) (id : Nat) (c : Cmd) : State :=
  let s := s.updCommand id fun c => { c with d := some s.gtc, status := .dispatched }
  let s := if c.node.isSome then s
    else s.journalWrite c 16 (leBytes 8 s.gtc ++ statusBytes .dispatched 0 s.gtc) false
  { s with pending := commandStep c.pkt.opcode id :: s.pending }

/-- MERGE_CFG_WRITE (R85): clearing ENABLE aborts the taken packets that are not yet dispatched. -/
def execMergeCfgWrite (lq : Fin 64) (val : BitVec 32) (s : State) : Out :=
  s.onLive fun s =>
  let q := lq.val
  let v := val.toNat
  let en := v.testBit 31
  let s := if (s.lqueue q).enable && !en then
      let s := (s.lqueue q).chain.foldl (fun s id =>
        let s := match (s.cmds.find? id).bind (·.grid) with
          | some g => s.dropGrid g .aborted
          | none => s
        (s.endCmd id .aborted 0)) s
      let ids := (s.lqueue q).chain
      let s := { s with cmds := s.cmds.filter fun e => !ids.contains e.1 }
      s.updQueue q fun x => { x with chain := [] }
    else s
  .next (s.updQueue q fun x => { x with enable := en, prio := field v 28 3, watchdog := field v 0 24 })

/-- CLEAR (R85): the queue resumes. -/
def execClear (lq : Fin 64) (s : State) : Out :=
  s.onLive fun s => .next (s.updQueue lq.val fun x => { x with halted := false, err := 0, errRing := 0 })

/-- JOURNAL_CFG_WRITE (R93). An entry keeps its place, and a slot the status that it holds, when ENABLE goes from 0 to 1 (R94). -/
def execJournalCfgWrite (val : BitVec 32) (s : State) : Out :=
  s.onLive fun s =>
  let v := val.toNat
  let lg := field v 0 5
  let en := v.testBit 31 && decide (10 ≤ lg ∧ lg ≤ 20)
  let j := s.journal
  if en && !j.enable then .next { s with journal := { j with enable := true, log2 := lg, taken := 0, heads := [], full := false } }
  else .next { s with journal := { j with enable := en, log2 := lg } }

/-! ### Commands (R86) -/

/-- The physical address of `n` bytes of a partition that lie in one page, aligned as asked (R86, R91). -/
def State.hostAddr (s : State) (part va n : Nat) (write : Bool) : Option Nat :=
  if va % n ≠ 0 then none
  else match s.translate part va with
    | some (pa, wr) => if write && !wr then none else some pa
    | none => none

/-- What a command reads at its ADDR may be an uncorrectable beat (R36): of its word and of the walk to it. -/
def State.sawHost (s : State) (c : Cmd) (n : Nat) : State := s.sawVas c.part ((List.range n).map (field (c.pkt.word 1) 0 52 + ·))

/-- Run a command's effect when it is dispatched on this tick. -/
def State.onCmd (s : State) (id : Nat) (f : Cmd → State) : Out :=
  match s.cmds.find? id with
  | some c => if c.fin.isNone ∧ c.d = some s.gtc then .next (f c) else .next s
  | none => .next s

/-- A graph ends (R92): the images staged for its nodes are no longer used by it, once no dispatched node waits for one (R129). -/
def State.endGraph (s : State) (gid : Nat) (st : Status) (code : Nat) : State :=
  match s.cmds.find? gid with
  | none => s
  | some g =>
    let s := (g.stagers.map (·.2)).foldl (fun s k => s.endStager k) s
    s.endCmd gid st code

/-- A command ends; a node that ends FAILED or KILLED ends its graph on its tick with the same status and code (R86, R92, log entry
38). -/
def State.endNodeCmd (s : State) (id : Nat) (st : Status) (code : Nat) : State :=
  match s.cmds.find? id with
  | none => s
  | some c =>
    let s := s.endCmd id st code
    match c.node with
    | some (g, _) => if st = .failed ∨ st = .killed then s.endGraph g st code else s
    | none => s

/-- NOP (R86): done at D. -/
def execNop (cmd : Nat) (s : State) : Out := s.onCmd cmd fun _ => s.endCmd cmd .done 0

/-- The condition of a WAIT holds (R86). -/
def State.waitHolds (s : State) (c : Cmd) : Bool := decide (c.pkt.word 2 ≤ s.natAt c.addr 8)

/-- WAIT (R86): done at once when its condition holds at D. -/
def execWait (cmd : Nat) (s : State) : Out :=
  s.onCmd cmd fun c => match s.hostAddr c.part (field (c.pkt.word 1) 0 52) 8 false with
    | none => s.endNodeCmd cmd .failed 16
    | some pa =>
      let c : Cmd := { c with addr := pa }
      let s := s.sawHost c 8
      let s := { s with cmds := s.cmds.put cmd c }
      if s.waitHolds c then s.endNodeCmd cmd .done 0 else s

/-- Commands in progress of an opcode. -/
def State.inProgress (s : State) (op : Nat) : List (Nat × Cmd) :=
  s.cmds.filter fun (e : Nat × Cmd) => decide (e.2.pkt.opcode = op) && e.2.d.isSome && e.2.fin.isNone

/-- The words that WAIT commands test on this tick may be uncorrectable beats (R36). -/
def State.sawWaits (s : State) : State :=
  if s.cmds.isEmpty then s else s.sawBad ((s.inProgress 3).flatMap fun (e : Nat × Cmd) => (List.range 8).map (e.2.addr + ·))

/-- E of R86, when the queue bounds the wait. DESIGN CHOICE (log entry 66): WATCHDOG as it stands on the tick that tests it; R86 does not say which
value bounds a wait under way when it is written. -/
def State.waitEnd (s : State) (c : Cmd) : Option Nat :=
  let w := (s.lqueue c.lq).watchdog
  if w = 0 then none else c.d.map (· + w * 1300)

/-- A wait that is satisfied on this tick, within its bound. -/
def State.waitDone (s : State) (c : Cmd) : Bool :=
  s.waitHolds c && match s.waitEnd c with
    | some e => decide (s.gtc ≤ e)
    | none => true

/-- A wait whose bound has passed. -/
def State.waitLate (s : State) (c : Cmd) : Bool := match s.waitEnd c with
  | some e => decide (e < s.gtc)
  | none => false

/-- WAIT_SATISFIED (R86): the waits whose conditions hold end DONE. -/
def execWaitSatisfied (s : State) : Out :=
  .next (((s.inProgress 3).filter fun e => s.waitDone e.2).foldl (fun s e => s.endNodeCmd e.1 .done 0) s)

/-- WAIT_WATCHDOG (R86): the waits whose bounds have passed end KILLED. -/
def execWaitWatchdog (s : State) : Out :=
  .next (((s.inProgress 3).filter fun e => s.waitLate e.2).foldl (fun s e => s.endNodeCmd e.1 .killed 0) s)

/-- WRITE (R86): one 8-byte store by the third class of the pool. -/
def execWrite (cmd : Nat) (s : State) : Out :=
  s.onCmd cmd fun c => match s.hostAddr c.part (field (c.pkt.word 1) 0 52) 8 true with
    | none => s.endNodeCmd cmd .failed 16
    | some pa => (s.sawWalks c.part [field (c.pkt.word 1) 0 52]).askPool ⟨2, c.part, c.lq, pa, 8, .hostWrite cmd⟩

/-- WRITE_COMPLETION (R86): the WRITE commands whose stores complete on this tick end DONE. -/
def execWriteCompletion (s : State) : Out :=
  .next (((s.inProgress 4).filter fun e => match e.2.due with
    | some t => decide (t ≤ s.gtc)
    | none => false).foldl (fun s e => s.endNodeCmd e.1 .done 0) s)

/-! ### Graphs (R92) -/

/-- A node's packet passes the checks of R87 and R92. DEDUCED (log entry 38): CMP 6 or 7, or a LIMIT of 0, fails the whole graph at D like a TARGET
against the rules of R92, which names no failure of its own for them. -/
def nodeOk (n i : Nat) (p : Packet) : Bool :=
  opcodeKnown p.opcode && !p.reservedBad && decide (p.seq = i) &&
  !([0x02, 0x05, 0x06, 0x07].contains p.opcode) && (decide (i + 1 ≠ n) || decide (p.opcode = 0x12)) &&
  (let t := field (p.word 2) 48 16
   let cmp := field (p.word 2) 32 3
   if p.opcode = 0x10 then decide (cmp ≤ 5 ∧ i < t ∧ t < n)
   else if p.opcode = 0x11 then decide (cmp ≤ 5 ∧ t ≤ i ∧ field (p.word 3) 0 32 ≠ 0)
   else true)

/-- The physical address of node i of a graph. -/
def State.nodeAt (s : State) (c : Cmd) (i : Nat) : Option Nat :=
  s.hostAddr c.part (field (c.pkt.word 1) 0 52 + 64 * i) 64 false

/-- A packet in memory. -/
def State.packetAt (s : State) (a : Nat) : Packet :=
  let w (k : Nat) : BitVec 64 := BitVec.ofNat 64 (s.natAt (a + 8 * k) 8)
  ⟨w 0, w 1, w 2, w 3, w 4, w 5, w 6, w 7⟩

/-- Staging of the LAUNCH nodes of a graph begins at its D, in node order (R129). -/
def State.stageNodes (s : State) (id : Nat) (c : Cmd) : State :=
  c.nodes.zipIdx.foldl (fun s e =>
    if e.1.opcode = 1 then
      let (g, s) := s.addGrid c.part c.lq (s.lqueue c.lq).prio e.1 none
      s.updCommand id fun c => { c with stagers := c.stagers.put e.2 g }
    else s) s

/-- The next node of a graph dispatches (R92). -/
def State.dispatchNode (s : State) (gid : Nat) (g : Cmd) : State :=
  match g.nodes[g.nextNode]? with
  | none => s
  | some p =>
    let id := s.fresh
    let c : Cmd := { Cmd.fresh g.lq g.ring g.part p s.gtc g.entry with node := some (gid, g.nextNode) }
    let s := s.bump
    let s := { s with cmds := s.cmds.put id c }
    let s := s.updCommand gid fun g => { g with child := some id, nextNode := g.nextNode + 1, status := .running, code := g.nextNode }
    let s := s.writeStatus { g with status := .running } .running g.nextNode
    s.dispatchCmd id c

/-- GRAPH (R92): the packets are read at D and checked in full; node 0 dispatches. -/
def execGraph (cmd : Nat) (s : State) : Out :=
  s.onCmd cmd fun c =>
    let n := field (c.pkt.word 2) 0 16
    if n = 0 ∨ 256 < n then s.endCmd cmd .failed 18
    else
      let pas := (List.range n).map (s.nodeAt c)
      if pas.any (·.isNone) then s.endCmd cmd .failed 16
      else
        let pas := pas.filterMap id
        let ps := pas.map s.packetAt
        let s := s.sawWalks c.part ((List.range n).map fun i => field (c.pkt.word 1) 0 52 + 64 * i)
        let s := pas.foldl (fun s a => s.askPool ⟨4, c.part, c.lq, a, 64, .read⟩) s
        if !(ps.zipIdx.all fun e => nodeOk n e.2 e.1) then s.endCmd cmd .failed 18
        else
          let c : Cmd := { c with nodes := ps }
          let s := { s with cmds := s.cmds.put cmd c }
          (s.stageNodes cmd c).dispatchNode cmd c

/-- The graphs whose next node may dispatch on this tick (R89, R92). -/
def State.readyGraphs (s : State) : List (Nat × Cmd) :=
  if !s.live || s.pkg.stopped then []
  else (s.inProgress 2).filter fun e => match e.2.nodes[e.2.nextNode]?, e.2.child with
    | some p, some ch => s.released { e.2 with pkt := p } (some ch) && !s.beingZeroed e.2.part
    | _, _ => false

/-- DISPATCH (R89, R92): the next node of a graph in progress, or else the next command of the queue. -/
def execDispatch (lq : Fin 64) (s : State) : Out :=
  let q := lq.val
  match List.find? (fun (e : Nat × Cmd) => decide (e.2.lq = q)) s.readyGraphs with
  | some e => .next (s.dispatchNode e.1 e.2)
  | none =>
    match s.mayDispatch q with
    | none => .next s
    | some id => match s.cmds.find? id with
      | none => .next s
      | some c =>
        let s := match (s.lqueue q).cur with
          | some o => match s.cmds.find? o with
            | some p => if p.fin.isSome then { s with cmds := s.cmds.del o } else s
            | none => s
          | none => s
        .next ((s.updQueue q fun x => { x with chain := x.chain.drop 1, cur := some id }).dispatchCmd id c)

/-- The comparison of COND and LOOP (R92). -/
def predicateHolds (cmp w v : Nat) : Bool :=
  if cmp = 0 then decide (w = v)
  else if cmp = 1 then decide (w ≠ v)
  else if cmp = 2 then decide (w < v)
  else if cmp = 3 then decide (v ≤ w)
  else if cmp = 4 then decide (signedField w 32 < signedField v 32)
  else decide (signedField v 32 ≤ signedField w 32)

/-- Where a test node looks (R92): its predicate's outcome, or no usable word. -/
def State.nodeTest (s : State) (c : Cmd) : Option Bool :=
  (s.hostAddr c.part (field (c.pkt.word 1) 0 52) 4 false).map fun pa =>
    predicateHolds (field (c.pkt.word 2) 32 3) (s.natAt pa 4) (field (c.pkt.word 2) 0 32)

/-- COND (R92). -/
def execCond (cmd : Nat) (s : State) : Out :=
  s.onCmd cmd fun c => match c.node, s.nodeTest c with
    | some (g, i), some h =>
      let s := s.sawHost c 4
      let t := field (c.pkt.word 2) 48 16
      (s.updCommand g fun g => { g with nextNode := if h then t else i + 1 }).endCmd cmd .done 0
    | _, _ => s.endNodeCmd cmd .failed 16

/-- LOOP (R92). -/
def execLoop (cmd : Nat) (s : State) : Out :=
  s.onCmd cmd fun c => match c.node, s.nodeTest c with
    | some (g, i), some h =>
      let s := s.sawHost c 4
      let t := field (c.pkt.word 2) 48 16
      let taken := ((s.cmds.find? g).map fun g => g.loops.get 0 i).getD 0
      if h ∧ taken < field (c.pkt.word 3) 0 32 then
        (s.updCommand g fun g => { g with nextNode := t, loops := g.loops.put i (taken + 1) }).endCmd cmd .done 0
      else if h then s.endNodeCmd cmd .failed 19
      else (s.updCommand g fun g => { g with loops := g.loops.put i 0 }).endCmd cmd .done 0
    | _, _ => s.endNodeCmd cmd .failed 16

/-- END (R92): the graph completes at D. -/
def execEndNode (cmd : Nat) (s : State) : Out :=
  s.onCmd cmd fun c => match c.node with
    | some (g, _) => (s.endCmd cmd .done 0).endGraph g .done 0
    | none => s.endCmd cmd .done 0

end Sys2Proof.Machine
end

