-- ==== Sys2Proof/Machine/Launch.lean ====
section
/-! DEFINITION. Launches: staging and the checks of an image, the LAUNCH and PREEMPT commands, freezes, the resume image, the
end of a grid (R90, R91, R125 to R129, R140 to R144, R369). -/

namespace Sys2Proof.Machine

/-! ### The checks of an image (R127, R128) -/

/-- Bytes at device virtual addresses, none where the address is unusable; each 64 KiB page is looked up once. -/
def State.readVas (s : State) (part : Nat) (vas : List Nat) : List (Option Byte) :=
  let tab : Tab (Option Nat) := (dedup (vas.map (· / 0x10000))).map fun p => (p, (s.translate part (p * 0x10000)).map (·.1))
  vas.map fun va => (tab.get none (va / 0x10000)).map fun pa => s.byteAt (pa + va % 0x10000)

/-- The fields of the header lie in their ranges (R125, R127). -/
def Header.rangeOk (h : Header) : Bool :=
  decide (h.format = 1 ∧ h.kind ≤ 1 ∧ 1 ≤ h.ncore ∧ h.ncore ≤ 256 ∧ 1 ≤ h.tpc ∧ h.tpc ≤ 32 ∧ 1 ≤ h.wpt ∧ h.wpt ≤ 32) &&
  decide (1 ≤ h.duty ∧ h.duty ≤ 8 ∧ h.scru ≤ 94 ∧ h.wbase ≤ 31 ∧ h.ntpl ≤ 1024 ∧ 1 ≤ h.iters ∧ h.iters ≤ 2 ^ 24) &&
  (!h.det || decide (1 ≤ h.tmax)) &&
  decide (h.codelen % 2 = 0 ∧ 2 ≤ h.codelen ∧ h.codelen ≤ 61440 ∧ h.savesz % 64 = 0)

/-- The k pieces of n bytes at the front of a list. -/
def pieces (n : Nat) : Nat → List Byte → List (List Byte)
  | 0, _ => []
  | k + 1, bs => bs.take n :: pieces n k (bs.drop n)

/-- A header's other rules (R125, R127), by its bytes and the cores of the shape. -/
def Header.rulesOk (h : Header) (bs : List Byte) (cores : Nat) : Bool :=
  let nw := h.tpc * h.wpt
  let even (e : Nat) : Bool := decide (e % 2 = 0 ∧ e < h.codelen)
  ((bs.drop 160).take 96).all (· = 0) && decide (h.flags < 4 ∧ h.regs < 8) &&
  [h.code, h.tpl, h.sets, h.cores, h.save, h.resume, h.cursors, h.boundary].all (fun a => decide (a < 2 ^ 52)) &&
  (decide (h.kind = 1) || decide (h.cursors = 0)) &&
  decide (nw ≤ 32 ∧ h.wbase + nw ≤ 32 ∧ h.cbase + h.ncore ≤ cores) &&
  decide (h.sbase + h.tpc * h.scru ≤ 95 ∧ h.cunit < 95) &&
  !(decide (h.sbase ≤ h.cunit) && decide (h.cunit < h.sbase + h.tpc * h.scru)) &&
  (List.range 4).all (fun p =>
    decide (((List.range nw).filter fun k => (h.wbase + k) % 4 = p).length * h.xblocks ≤ 32)) &&
  even h.entryA && even h.entryE && even h.restoreA && even h.restoreE &&
  (if h.pod then decide (h.boundary ≠ 0 ∧ h.boundary % 64 = 0) else decide (h.boundary = 0)) &&
  h.fmt.all Narrow.validWord

/-- A template's fields lie in their ranges and meet the rules of its kind (R39, R203 to R206, R214, R237, R246, R366). -/
def Template.ok (t : Template) : Bool :=
  let k := t.kind
  decide (k ≤ 6 ∧ t.sfmt ≤ 7 ∧ t.dfmt ≤ 7 ∧ t.flags < 64 ∧ t.qreg ≤ 5 ∧ t.rsv6 = 0 ∧ t.rsv56 = 0) &&
  decide (1 ≤ t.ilv ∧ t.ilv ≤ 64) && (decide (t.ilv = 1) || decide (k = 0)) &&
  (if k = 6 then decide (t.op < 16) else if k = 5 then decide (t.op < 8) else decide (t.op = 0)) &&
  t.ext.all (fun e => decide (1 ≤ e ∧ e ≤ 2 ^ 23)) &&
  t.ten.all (fun e => if t.clip then decide (1 ≤ e ∧ e ≤ 2 ^ 31) else decide (e = 0)) &&
  Narrow.validWord t.nfmt && (!t.toq || decide (k ≤ 1)) &&
  (!(decide (t.sfmt = 7) || decide (t.dfmt = 7)) || decide (t.e 2 = 1)) &&
  (decide (5 ≤ k) || !(decide (t.sfmt = 5) || decide (t.dfmt = 5)) || decide ((Narrow.ofWord t.nfmt).w ≤ 4)) &&
  (decide (5 ≤ k) || !(decide (t.sfmt = 6) || decide (t.dfmt = 6)) || decide ((Narrow.ofWord t.nfmt).w ≤ 6)) &&
  (if k = 3 then decide (t.aux < 2 ^ 23) else if k = 4 then Narrow.validWord t.aux else decide (t.aux = 0)) &&
  (if k = 4 then
     (if t.sfmt = 4 ∨ t.sfmt = 5 then decide ((t.dfmt = 4 ∨ t.dfmt = 7) ∧ t.flags = 2)
      else decide ((t.sfmt = 1 ∨ t.sfmt = 2) ∧ t.dfmt = t.sfmt ∧ t.flags = 0)) &&
     decide (t.e 0 % 32 = 0 ∧ 32 ≤ t.e 0 ∧ t.e 0 ≤ 65536 ∧ t.e 1 ≤ 4096)
   else if k = 5 then decide (16 ≤ t.e 0 ∧ t.e 0 ≤ 2048 ∧ t.e 0 % 16 = 0)
   else if k = 6 then decide (t.e 0 ≤ 16 ∧ (t.sfmt = 0 ∨ t.sfmt = 1 ∨ t.sfmt = 3) ∧ 4 ≤ t.op)
   else true)

/-- The set table's rules (R135). -/
def setsOk (h : Header) (bs : List Byte) : Bool :=
  let es := (pieces 16 256 bs).map fun b => readSet b 0
  let live := (es.take 255).filter fun e => decide (e.pos ≠ 0 ∧ e.warps ≠ 0)
  es.all (fun e => decide (e.rest = 0)) && ((bs.drop 4080).take 16).all (· = 0) &&
  (decide (live.length ≤ 4) ||
   (List.range h.ncore).all fun c => (List.range h.tpc).all fun i => (List.range h.wpt).all fun w =>
     decide ((live.filter fun e => e.has (h.cbase + c) i w).length ≤ 4))

/-- The windows of a core record (R126): first address, pages, page size. -/
def windowsOf (rec : List Byte) : List (Nat × Nat × Nat) :=
  (pieces 16 64 rec).filterMap fun b =>
    if getLE b 8 2 = 0 then none
    else some (field (getLE b 0 8) 0 52, getLE b 8 2, if (getLE b 0 8).testBit 52 then 0x200000 else 0x10000)

/-- The landing regions of a core record: base and size. -/
def landsOf (rec : List Byte) : List (Nat × Nat) :=
  (pieces 8 4 (rec.drop 1024)).filterMap fun b =>
    let q := getLE b 0 8
    if field q 23 23 = 0 then none else some (field q 0 23, field q 23 23)

/-- A core record's rules (R126, R127). -/
def recordOk (rec : List Byte) : Bool :=
  (pieces 16 64 rec).all (fun b => decide (field (getLE b 0 8) 53 11 = 0) && decide (getLE b 10 6 = 0)) &&
  (pieces 8 4 (rec.drop 1024)).all fun b =>
    let q := getLE b 0 8
    decide (field q 46 18 = 0 ∧ field q 0 23 % 4096 = 0 ∧ field q 23 23 % 4096 = 0) &&
    (decide (field q 23 23 = 0) || decide (field q 0 23 + field q 23 23 ≤ 95 * 65536))

/-- The next n pages of one window as the page table gives them (R182, R183): each is a leaf of the window's own page size. -/
def State.windowPages (s : State) (part sz : Nat) : Nat → Nat → List Page → Option (List Page)
  | 0, _, acc => some acc.reverse
  | n + 1, va, acc =>
    if !(s.tenant part).ptValid || decide (0x8000000000000 ≤ va) then none
    else match s.walkNow part va 4 0 (s.tenant part).ptRoot with
      | none => none
      | some p => if p.size = sz then s.windowPages part sz n (va + sz) (p :: acc) else none

/-- One window; none when it is misaligned, or a page is unmapped or of another size. -/
def State.window (s : State) (part : Nat) (w : Nat × Nat × Nat) : Option (List Page) :=
  let (va, n, sz) := w
  if va % sz ≠ 0 then none else s.windowPages part sz n va []

/-- Z of R79 for P positions. -/
def boundarySize (p : Nat) : Nat := roundUp (256 + 8 * p) 64

/-- The span of the boundary images is mapped and writable (R79). -/
def State.boundaryOk (s : State) (part : Nat) (h : Header) : Bool :=
  !h.pod || decide (h.boundary % 2 ^ 52 = 0) ||
  (let n := 2 * boundarySize h.npos
   let a := h.boundary % 2 ^ 52
   (List.range ((a + n - 1) / 0x10000 + 1 - a / 0x10000)).all fun k =>
     match s.translate part ((a / 0x10000 + k) * 0x10000) with
     | some (_, wr) => wr
     | none => false)

/-- The first fault of an image in the order of R127, but for the count, with its pages by device core and its landing
regions by logical core. -/
def State.judgeImage (s : State) (g : Grid) (bs : List Byte) : Option Nat × List (Nat × Page) × List (Nat × Nat × Nat) :=
  let h := g.hdr
  if g.unmapped ∧ g.total ≤ 256 then (some 16, [], [])
  else if !layoutReadable s.fw.layout h.layout then (some 24, [], [])
  else if !h.rangeOk then (some 25, [], [])
  else if g.unmapped then (some 16, [], [])
  else
    let recs := (pieces 1056 h.ncore (bs.drop h.coreOff)).zipIdx
    let base := (s.tenant g.part).slotBase + h.cbase
    let wins := recs.flatMap fun r => (windowsOf r.1).map fun w => (base + r.2, s.window g.part w)
    if wins.any (fun w => w.2.isNone) || !s.boundaryOk g.part h then (some 16, [], [])
    else
      let tpls := (pieces 64 h.ntpl (bs.drop h.tplOff)).map readTemplate
      let cursors := if h.kind = 1 then pieces 8 h.npos (bs.drop h.curOff) else []
      if h.rulesOk bs (shapeCores (s.tenant g.part).shape) && tpls.all Template.ok && setsOk h (bs.drop h.setOff) &&
          recs.all (fun r => recordOk r.1) && cursors.all (fun b => decide (getLE b 0 8 < 2 ^ 33)) then
        (none, wins.flatMap fun w => (w.2.getD []).map fun p => (w.1, p),
         recs.flatMap fun r => (landsOf r.1).map fun l => (h.cbase + r.2, l.1, l.2))
      else (some 25, [], [])

/-- The cursor of each position: NEXT and CUT (R141). -/
def cursorsOf (h : Header) (bs : List Byte) : List (Nat × Bool) :=
  if h.kind = 1 then
    (pieces 8 h.npos (bs.drop h.curOff)).map fun b => (getLE b 0 4, (getLE b 4 1).testBit 0)
  else (List.range h.npos).map fun _ => (0, false)

/-- The faults that the group count decides (R91, R127, R132, R142). -/
def countFault (g : Grid) (n : Nat) (cs : List (Nat × Bool)) : Option Nat :=
  let h := g.hdr
  let es := (List.range h.npos).map fun j => posEntries n h.iters h.npos j
  if (cs.zip es).any fun c => decide (c.2 < c.1.1) || (c.1.2 && decide (c.2 ≤ c.1.1)) then some 25
  else if h.gmax < n || (match g.indirect with
      | some (_, m) => decide (m < n)
      | none => false) then some 17
  else if (List.range h.ncore).any fun c => decide (4096 < ((es.drop (c * h.tpc)).take h.tpc).foldl (· + ·) 0) then some 17
  else none

/-! ### The end of a grid -/

/-- A PREEMPT waits for a grid no longer; the last one completes it (R140). -/
def State.preemptDone (s : State) (gid : Nat) : State :=
  (s.inProgress 7).foldl (fun s (e : Nat × Cmd) =>
    if e.2.waiting.contains gid then
      let l := e.2.waiting.filter (· ≠ gid)
      let s := s.updCommand e.1 fun c => { c with waiting := l }
      if l.isEmpty then s.endCmd e.1 .done 0 else s
    else s) s

/-- A command whose completion tick is this tick: its data mark and a scratch counter's add take effect now (R213, R215,
R216). -/
def State.finishCmd (s : State) (ord : Nat) (scope : Nat) : State :=
  match s.cmdsE.find? ord with
  | none => s
  | some c =>
    if c.done.isSome then s
    else
      let now := s.gtc
      ((s.updCmd ord fun c => { (c.fixData now) with done := some now }).cmdWarp c fun w => w.raiseBy c.issue now scope now).countNow ord |>.doneCmd ord

/-- A status word that an engine writes with this tick as WCT (R56, R369); a killed grid's scratch takes none (R219). -/
def State.statusWord (s : State) (c : EngCmd) (w : Nat) (bs : List Byte) : State :=
  if c.killed then s
  else s.writeNow (c.pwrite s.gtc 0 ((c.spanBytes w 8).zip (bs.map fun b => (b, none))) [] none)

/-- The launch command of a grid completes: its status word is written with this tick as WCT (R369). -/
def State.childDone (s : State) (ord : Nat) (st : Status) (code : Nat) : State :=
  match s.cmdsE.find? ord with
  | none => s
  | some c => (s.statusWord c (c.word 7) (statusBytes st code s.gtc)).finishCmd ord 1

/-- Firmware's table after a grid's end (R78, R109): a pending image is settled unless an activation
deleted it, boundary images go unless a halt needs them. -/
def State.settleImages (s : State) (gid : Nat) (g : Grid) (st : Status) (code : Nat) : State :=
  s.updFw fun f => { f with images :=
    (f.images.filter fun i => decide (i.grid ≠ gid) || (i.frame.isSome && decide (code = 23))) ++
    (if st = .preempted && !(match g.freeze with
      | some f => f.dropped
      | none => false) then [⟨gid, g.hdr.layout, g.lq, g.hdr.resume, none, false, g.part, g.start⟩] else []) }

/-- A grid reaches a final status on this tick (R90, R140, R369). -/
def State.finalGrid (s : State) (gid : Nat) (st : Status) (code : Nat) : State :=
  match s.grids.find? gid with
  | none => s
  | some g =>
    if g.status.isSome then s
    else
      let s := (s.dropGrid gid st).settleImages gid g st code
      let s := match g.cmd with
        | some c => s.endNodeCmd c st code
        | none => s
      let s := match g.eng with
        | some o => s.childDone o st code
        | none => s
      s.preemptDone gid

/-! ### Staging (R129) -/

/-- The grid whose image is being staged, or whose staging is the next to begin. -/
def State.nextStaging (s : State) : Option (Nat × Grid) :=
  List.find? (fun (e : Nat × Grid) => e.2.staged.isNone && e.2.stager.isNone && (e.2.s0.isSome || e.2.status.isNone || s.wanted e.1)) s.grids

/-- Bytes that copies in use hold, and the copies left when enough unused ones are evicted, oldest-staged first, for n more. -/
def evict (copies : List LaunchCopy) (n : Nat) : Option (List LaunchCopy) :=
  let size (l : List LaunchCopy) : Nat := l.foldl (fun a c => a + c.size) 0
  if 2 ^ 23 < size (copies.filter fun c => !c.users.isEmpty || decide (c.staged = 0)) + n then none
  else
    let idle := sortBy (fun (a b : LaunchCopy) => decide (a.staged < b.staged)) (copies.filter fun c => c.users.isEmpty && decide (c.staged ≠ 0))
    some (idle.foldl (fun l c => if 2 ^ 23 < size l + n then l.erase c else l) copies)

/-- Staging begins: B follows from the header as it stands, and a copy is opened when there is room. -/
def State.openStaging (s : State) (gid : Nat) (g : Grid) : Option State :=
  let bs := s.readVas g.part ((List.range 256).map (g.image + ·))
  let bad := bs.any (·.isNone)
  let h := readHeader (bs.map fun b => b.getD 0)
  let n := if bad || !h.rangeOk then 256 else h.staged
  (evict s.copies n).map fun l =>
    let c : LaunchCopy := ⟨g.part, g.image, [], [gid], 0, n, bad⟩
    ({ s with copies := l ++ [c] } : State).updGrid gid fun g => { g with s0 := some s.gtc, total := n, hdr := h, unmapped := bad }

/-- The staging beats that bring bytes at device virtual addresses on this tick (R31, R32, R36). -/
def State.stagingBeats (s : State) (part : Nat) (vas : List Nat) : State :=
  let pas := vas.filterMap fun va => (s.translate part va).map (·.1)
  (beatsOf pas).foldl (fun s b => s.noteBeat s.gtc b none) (s.sawVas part vas)

/-- One data tick of a staging in progress (R129); an older layout that the header gives is converted (R128). -/
def State.moveStaging (s : State) (gid : Nat) (g : Grid) : State :=
  let n := min 1024 (g.total - g.moved)
  let vas := (List.range n).map fun k => g.hdr.srcVa g.image (g.moved + k)
  let bs := s.readVas g.part vas
  let new := bs.map fun (b : Option Byte) => b.getD 0
  let bad := bs.any (·.isNone)
  let last := decide (g.total ≤ g.moved + n)
  let old := !(g.unmapped && decide (g.total ≤ 256)) && layoutReadable s.fw.layout g.hdr.layout && decide (g.hdr.layout ≠ s.fw.layout)
  let t := s.gtc + 640 + if old then 13000 else 0
  let s := s.stagingBeats g.part vas
  let s := { s with
    stageEnd := s.gtc + 1
    copies := s.copies.map fun (c : LaunchCopy) =>
      if c.staged = 0 then { c with bytes := c.bytes ++ new, staged := if last then t else 0, unmapped := c.unmapped || bad } else c }
  s.updGrid gid fun g =>
    { g with moved := g.moved + n, unmapped := g.unmapped || bad, staged := if last then some t else none }

/-- A staging can move on this tick. -/
def State.stagingDue (s : State) : Option (Nat × Grid) :=
  if s.live && isData s.gtc && decide (s.stageEnd ≤ s.gtc) then s.nextStaging else none

/-- STAGING (R129): the image at the head of the take order moves 1,024 B on a data tick. -/
def execStaging (s : State) : Out :=
  .next <| match s.stagingDue with
    | none => s
    | some (gid, g) =>
      if g.s0.isSome then s.moveStaging gid g
      else match s.openStaging gid g with
        | none => s
        | some t => match t.grids.find? gid with
          | some g => t.moveStaging gid g
          | none => t

/-! ### Staged and dispatched -/

/-- The checks at the later of D and the staged tick (R127); a grid that passes gets its positions (R132, R142). -/
def State.admitGrid (s : State) (gid : Nat) : State :=
  match s.grids.find? gid with
  | none => s
  | some g =>
    if g.status.isSome || g.d.isNone || !g.checked || !g.poss.isEmpty then s
    else
      let h := g.hdr
      let cs := cursorsOf h (s.imageBytes gid)
      let n := g.count.getD h.gcount
      match g.imageFault <|> countFault g n cs with
      | some c => s.finalGrid gid .failed c
      | none =>
        let poss : Tab PosState := cs.zipIdx.map fun c =>
          (c.2, ⟨if c.1.1 < posEntries n h.iters h.npos c.2 then .waiting else .released, c.1.1, c.1.2, false, 2, []⟩)
        let none := poss.all fun (e : Nat × PosState) => decide (e.2.phase = .released)
        s.updGrid gid fun g => { g with groups := n, poss := poss, lastExit := if none then s.gtc else 0 }

/-- A freeze of a grid whose header is now known (R140). -/
def Freeze.known (f : Freeze) (pod : Bool) (now : Nat) : Freeze :=
  if pod then { f with z := f.podZ, acted := f.acted && decide (f.podZ ≤ now) } else f

/-- The image of a staged grid is judged; it counts as written in the running firmware's layout from now on (R128). -/
def State.checkGrid (s : State) (gid : Nat) (g : Grid) : State :=
  let (f, pages, land) := s.judgeImage g (s.imageBytes gid)
  s.updGrid gid fun g =>
    { g with
      checked := true
      imageFault := f
      pages := pages
      land := land
      freeze := g.freeze.map fun z => z.known g.hdr.pod s.gtc
      hdr := { g.hdr with layout := s.fw.layout } }

/-- A dispatch of a graph node takes over what was staged for the node (R129). -/
def State.adopt (s : State) (gid sid : Nat) (g : Grid) : State :=
  let s := s.updGrid gid fun c =>
    { c with
      s0 := g.s0
      staged := g.staged
      checked := g.checked
      imageFault := g.imageFault
      unmapped := g.unmapped
      total := g.total
      hdr := g.hdr
      pages := g.pages
      land := g.land
      freeze := c.freeze.map fun z => z.known g.hdr.pod s.gtc }
  { s with copies := s.copies.map fun (c : LaunchCopy) => if c.users.contains sid then { c with users := gid :: c.users } else c }

/-- Grids whose staged tick has come and which are not yet checked. -/
def State.stagedNow (s : State) : List (Nat × Grid) :=
  s.grids.filter fun (e : Nat × Grid) => byTick e.2.staged s.gtc && !e.2.checked && e.2.stager.isNone

/-- One grid is staged: it is checked, and every grid that waited for it with it. -/
def State.stagedGrid (s : State) (gid : Nat) : State :=
  match s.grids.find? gid with
  | none => s
  | some g =>
    let s := s.checkGrid gid g
    match s.grids.find? gid with
    | none => s
    | some g =>
      let clones := (s.grids.filter fun (e : Nat × Grid) => decide (e.2.stager = some gid) && !e.2.checked).map (·.1)
      let s := clones.foldl (fun s c => (s.adopt c gid g).admitGrid c) s
      s.admitGrid gid

/-- STAGED (R127 to R129): the images whose staged tick has come are checked, and a grid that is dispatched goes on or fails. -/
def execStaged (s : State) : Out := .next ((s.stagedNow.map (·.1)).foldl State.stagedGrid s)

/-- The grid of a LAUNCH command: the one of its take, or a new one for a dispatch of a graph node. DESIGN CHOICE (log entry 66): it keeps the PRIORITY
that its queue has at D (R89). -/
def State.launchGrid (s : State) (id : Nat) (c : Cmd) : Nat × State :=
  match c.grid with
  | some g => (g, s.updGrid g fun g => { g with d := some s.gtc, slip0 := s.slips, prio := (s.lqueue c.lq).prio })
  | none =>
    let sid := match c.node with
      | some (g, i) => (s.cmds.find? g).bind fun p => p.stagers.find? i
      | none => none
    let g : Grid := { gridOfPacket c.part c.lq (s.lqueue c.lq).prio s.gtc c.pkt with
      cmd := some id
      d := some s.gtc
      slip0 := s.slips
      stager := sid }
    let gid := s.fresh
    let s := { s with grids := s.grids.put gid g }.bump
    let s := s.updCommand id fun c => { c with grid := some gid }
    match sid with
    | some k => (gid, match s.grids.find? k with
      | some h => if h.checked then s.adopt gid k h else s
      | none => s)
    | none => (gid, s)

/-- The group count of an INDIRECT launch (R91): read at D. -/
def State.readCount (s : State) (gid : Nat) (g : Grid) : State :=
  match g.indirect with
  | none => s
  | some (a, _) => match s.hostAddr g.part a 4 false with
    | none => s.finalGrid gid .failed 16
    | some pa =>
      let s := s.sawVas g.part ((List.range 4).map (a + ·))
      let n := s.natAt pa 4
      if n = 0 then s.finalGrid gid .done 0 else s.updGrid gid fun g => { g with count := some n }

/-- LAUNCH (R90, R91): the grid is dispatched; a stored image that it names awaits resumption no longer (R109). -/
def execLaunch (cmd : Nat) (s : State) : Out :=
  s.onCmd cmd fun c =>
    let (gid, s) := s.launchGrid cmd c
    match s.grids.find? gid with
    | none => s
    | some g =>
      let s := s.updFw fun f => { f with images := f.images.filter fun i => !(decide (i.addr = g.image ∧ i.part = g.part) && !i.pending) }
      let s := s.readCount gid g
      let root := g.stager.getD gid
      let s := if s.stagedNow.any fun e => e.1 = root then s.stagedGrid root else s
      s.admitGrid gid

/-! ### Pre-emption (R140 to R144) -/

/-- The first tick of the first frame at or after a tick whose schedule frame is 0, or the tick itself without an active
image (R140). -/
def State.podFreezeTick (s : State) (d : Nat) : Nat :=
  match s.activeImage with
  | some i =>
    let f := ceilDiv d frameTicks
    if s.sched.state = .idle ∨ s.sched.state = .halted then d
    else if f ≤ s.sched.base then s.sched.base * frameTicks
    else (s.sched.base + roundUp (f - s.sched.base) i.period) * frameTicks
  | none => d

/-- The freeze tick of a grid has come (R140). -/
def Grid.freezeDue (g : Grid) (now : Nat) : Bool :=
  g.status.isNone && match g.freeze with
    | some f => !f.acted && decide (f.z ≤ now)
    | none => false

/-- Z has come: no instance starts any more (R140). -/
def Grid.frozen (g : Grid) : Bool := match g.freeze with
  | some f => f.acted
  | none => false

/-- The drain bound of a grid (R143). -/
def State.drainBound (s : State) (g : Grid) : Option Nat :=
  let n := if g.hdr.det then g.hdr.tmax else (s.lqueue g.lq).watchdog
  if n = 0 then none else some (n * 1300)

/-- What happens to a grid whose Z has come (R140, R141, R143): nothing of it starts, its bound runs, and a checkpoint request is
pending for each of its warps. -/
def State.freezeGrid (s : State) (gid : Nat) : State :=
  match s.grids.find? gid with
  | none => s
  | some g =>
    if !g.freezeDue s.gtc then s
    else
      let s := s.updGrid gid fun g => { g with freeze := g.freeze.map fun f =>
        { f with acted := true, bound := (s.drainBound g).map (f.z + ·) } }
      match g.freeze with
      | some f =>
        if f.ckpt then
          { s with warps := s.warps.map fun (e : Nat × Warp) =>
              if e.2.grid = gid then
                (e.1, { e.2 with acc := { e.2.acc with ckptReq := !e.2.acc.gone }, exe := { e.2.exe with ckptReq := !e.2.exe.gone } })
              else e }
        else s
      | none => s

/-- FREEZE (R140, R141, R143). -/
def execFreeze (grid : Nat) (s : State) : Out := .next (s.freezeGrid grid)

/-- A position releases its resources on this tick (R134, R140): after its last entry at H, and at once when a freeze or a
stop takes its next instance away. -/
def Grid.releases (g : Grid) (j : Nat) (p : PosState) (now : Nat) : Bool :=
  let off := g.frozen || g.stopped || g.killed || g.status.isSome
  match p.phase with
  | .between h => decide (h ≤ now) && (off || decide (g.entries j ≤ p.next))
  | .loading _ => off
  | _ => false

/-- The positions of a grid that release their resources on this tick, as events. -/
def State.releasesOf (s : State) (gid : Nat) : List Instr :=
  match s.grids.find? gid with
  | none => []
  | some g => (g.poss.filter fun (q : Nat × PosState) => g.releases q.1 q.2 s.gtc).map fun (q : Nat × PosState) => .resourceRelease gid q.1

/-- PREEMPT (R140): every dispatched grid of a queue without a final status is frozen, at once where Z is this tick; a second one changes
nothing (R144). -/
def execPreempt (cmd : Nat) (s : State) : Out :=
  s.onCmd cmd fun c =>
    let lq := field (c.pkt.word 1) 0 6
    let ckpt := (c.pkt.word 1).testBit 8
    let gs := s.grids.filter fun (e : Nat × Grid) => decide (e.2.lq = lq) && e.2.d.isSome && e.2.status.isNone
    if gs.isEmpty then s.endCmd cmd .done 0
    else
      let now := s.gtc
      let pz := s.podFreezeTick now
      let s := gs.foldl (fun s e => s.updGrid e.1 fun g => match g.freeze with
        | some _ => g
        | none => { g with freeze := some ⟨if g.checked && g.hdr.pod then pz else now, pz, ckpt, false, none, false, false⟩ }) s
      let s := s.updCommand cmd fun c => { c with waiting := gs.map (·.1) }
      let s := gs.foldl (fun s e => s.freezeGrid e.1) s
      { s with pending := gs.flatMap (fun e => s.releasesOf e.1) ++ s.pending }

/-- A position runs an instance. -/
def PosState.runs (p : PosState) : Bool := decide (p.phase = .running)

/-- A frozen grid leaves an entry unstarted, or a position cut (R141). -/
def Grid.needsImage (g : Grid) : Bool :=
  g.frozen && !g.stopped && !g.killed && g.poss.any fun (e : Nat × PosState) => e.2.cut || decide (e.2.next < g.entries e.1)

/-- X of R141. -/
def Grid.lastTick (g : Grid) : Nat :=
  max (max g.lastExit (g.staged.getD 0)) (match g.freeze with
    | some f => f.z
    | none => 0)

/-- The resume image is due (R141): on X + 1. -/
def Grid.imageDue (g : Grid) (now : Nat) : Bool :=
  g.status.isNone && g.checked && g.needsImage && !(g.poss.any fun (e : Nat × PosState) => e.2.runs) &&
  decide (g.lastTick < now) && match g.freeze with
    | some f => !f.image
    | none => false

/-- A context image of a grid as it stands (R79, R141): its header with KIND 1, its count, its layout and its cursors, and one
cursor record for each position. -/
def Grid.contextImage (g : Grid) (addr : Nat) (cursor : PosState → Nat) : List Byte :=
  let h : Header := { g.hdr with kind := 1, gcount := g.groups, cursors := addr + 256 }
  h.bytes ++ g.poss.flatMap fun (e : Nat × PosState) => leBytes 8 (cursor e.2)

/-- The cursor record of a pre-empted position (R141). -/
def PosState.cursor (p : PosState) : Nat := if p.cut then p.next - 1 + 2 ^ 32 else p.next

/-- Cells of bytes at device virtual addresses; none when one may not be written. -/
def State.cellsAt (s : State) (part va : Nat) (bs : List Byte) : Option (List (Nat × Byte)) :=
  let n := bs.length
  let tab : Tab (Option Nat) := (List.range ((va + n - 1) / 0x10000 + 1 - va / 0x10000)).map fun k =>
    let p := va / 0x10000 + k
    (p, (s.translate part (p * 0x10000)).bind fun r => if r.2 then some r.1 else none)
  let l := (List.range n).map fun k => (tab.get none ((va + k) / 0x10000)).map fun pa => (pa + (va + k) % 0x10000, bs.getD k 0)
  if l.all (·.isSome) then some (l.filterMap id) else none

/-- RESUME_IMAGE_WRITE (R141): issued on X + 1 with WCT X + 681; the grid ends PREEMPTED at its retire tick. DESIGN CHOICE (log entry 54): its beats move
on the first data tick from their arrival on; R28 gives them no slot. -/
def execResumeImageWrite (grid : Nat) (s : State) : Out :=
  .next <| match s.grids.find? grid with
    | none => s
    | some g =>
      if !g.imageDue s.gtc then s
      else
        let wct := s.gtc + 680
        let s := match s.cellsAt g.part g.hdr.resume (g.contextImage g.hdr.resume PosState.cursor) with
          | some cs =>
            let s := s.sawWalks g.part ((List.range cs.length).map (g.hdr.resume + ·))
            let s := (beatsOf (cs.map fun (c : Nat × Byte) => c.1)).foldl (fun (s : State) b => s.noteBeat (nextData (s.gtc + 48)) b none) s
            s.poolWrite wct g.lq (cs.map fun (c : Nat × Byte) => (c.1, c.2, none))
          | none => s
        s.updGrid grid fun g => { g with maxWct := max g.maxWct wct, freeze := g.freeze.map fun f => { f with image := true } }

/-! ### Stops (R75, R143, R219) -/

/-- Discarded commands that did not start by the stop tick go (R219). -/
def State.dropKilled (s : State) : State := { s with cmdsE := s.cmdsE.filter fun (e : Nat × EngCmd) => !(e.2.killed && e.2.s.isNone) }

/-- A kill or a halt discards engine commands (R219): those that have started, or start on this tick, write HBM and the fabric alone; the
others go, once the starts of the tick are over. -/
def State.killCmds (s : State) (gid : Nat) : State :=
  let mine (c : EngCmd) : Bool := decide (c.grid = gid)
  let ords := ((s.cmdsE.map (·.2)).filter mine).map (·.ord)
  let s : State := if s.feTodo.contains .starts then s else ({ s with cmdsE := s.cmdsE.filter fun (e : Nat × EngCmd) => !(mine e.2 && e.2.s.isNone) })
  { s with
    cmdsE := s.cmdsE.map fun (e : Nat × EngCmd) => if mine e.2 then (e.1, { e.2 with killed := true }) else e
    writes := s.writes.map fun (w : PWrite) =>
      if (match w.eng with
        | some o => ords.contains o
        | none => false) then
        { w with
          cells := w.cells.filter fun c => decide (c.1 < hbmEnd)
          bits := w.bits.filter fun c => decide (c.1 < hbmEnd)
          atoms := w.atoms.filter fun a => a.addrs.all fun x => decide (x < hbmEnd)
          add := w.add.filter fun a => decide (a.1 < hbmEnd) }
      else w }

/-- Something is still on its way into a register or a queue of a warp after a tick (R134). -/
def State.inFlight (s : State) (key : Nat) (w : Warp) : Bool :=
  (w.landings.any fun l => decide (s.gtc < l.tick) && match l.eff with
    | .vec .drop _ _ => false
    | _ => true) ||
  (s.cmdsE.any fun (e : Nat × EngCmd) => decide (e.2.warp = key ∧ e.2.inst = w.start ∧ e.2.grid = w.grid ∧ e.2.fn ≤ 3) && e.2.tpl.toq &&
    !byTick e.2.done s.gtc)

/-- Warps of a position's instance. -/
def State.warpsOf (s : State) (gid j : Nat) : List (Nat × Warp) :=
  s.warps.filter fun (e : Nat × Warp) => decide (e.2.grid = gid ∧ e.2.pos = j)

/-- The instance of a position has exited on this tick X (R134): its position waits for H, and its warps' marks count for the
retire tick (R90). -/
def State.noteExit (s : State) (gid j : Nat) : State :=
  let ws := s.warpsOf gid j
  let x := s.gtc
  let h := if ws.any fun e => s.inFlight e.1 e.2 then x + 97 else x + 1
  let wct := ws.foldl (fun m e => max m e.2.mPod) 0
  let cores := dedup (ws.map (·.2.core))
  let s := { s with warps := s.warps.filter fun (e : Nat × Warp) => !(decide (e.2.grid = gid) && decide (e.2.pos = j)) }
  let s := s.updSec fun c => { c with outs := cores.foldl (fun t k =>
    if s.warps.any fun (e : Nat × Warp) => e.2.core = k then t else t.put k x) c.outs }
  s.updGrid gid fun g => { g with
    lastExit := max g.lastExit x
    maxWct := max g.maxWct wct
    poss := g.poss.modify j fun p => { p with phase := .between h } }

/-- Instances whose last warp has exited. -/
def State.exitedInstances (s : State) : List (Nat × Nat) :=
  let done := s.warps.filter fun (e : Nat × Warp) => e.2.acc.gone && e.2.exe.gone
  (dedup (done.map fun e => (e.2.grid, e.2.pos))).filter fun p =>
    (s.warpsOf p.1 p.2).all fun e => e.2.acc.gone && e.2.exe.gone

/-- The end of a tick: instances that exited on it are noted. -/
def State.noteExits (s : State) : State := s.exitedInstances.foldl (fun s p => s.noteExit p.1 p.2) s

/-- Every warp of a grid stops at once with its commands, and no instance starts any more (R114, R117, R143, R219). -/
def State.killGrid (s : State) (gid : Nat) : State :=
  (((s.updGrid gid fun g => { g with killed := true }).stopWarps gid).killCmds gid).noteExits

/-- A grid's drain bound ends with this tick while an instance still runs (R143). -/
def State.drainDue (s : State) (g : Grid) : Bool := match g.freeze with
  | some f => f.acted && byTick f.bound s.gtc && !g.killed && !g.stopped && g.status.isNone && g.poss.any (fun (e : Nat × PosState) => e.2.runs)
  | none => false

/-- DRAIN_BOUND_EXPIRY (R143, R144): after everything else of the tick Z + bound, the grids whose bounds end are killed. -/
def execDrainBoundExpiry (s : State) : Out :=
  .next ((s.grids.filter fun (e : Nat × Grid) => s.drainDue e.2).foldl (fun s (e : Nat × Grid) => s.killGrid e.1) s)

/-! ### Retire (R90) -/

/-- Nothing of the grid runs or will start. -/
def Grid.finished (g : Grid) : Bool :=
  !g.poss.isEmpty && g.poss.all fun (e : Nat × PosState) =>
    let left := decide (e.2.next < g.entries e.1) && !(g.frozen || g.stopped || g.killed)
    match e.2.phase with
    | .waiting => !left
    | .loading _ => false
    | .running => false
    | .between _ => !left
    | .released => true

/-- The retire tick has come (R90): one more than the latest exit, mark and engine completion. -/
def State.retireDue (s : State) (gid : Nat) (g : Grid) : Bool :=
  g.status.isNone && g.checked && g.finished && decide (max g.lastExit g.maxWct < s.gtc) &&
  !(g.needsImage && (match g.freeze with
    | some f => !f.image
    | none => false)) &&
  s.cmdsE.all fun (e : Nat × EngCmd) => decide (e.2.grid ≠ gid) ||
    (byTick e.2.done (s.gtc - 1) && (e.2.killed || e.2.wcts.all fun w => byTick w.2 (s.gtc - 1)))

/-- The final status of a grid that retires (R90). -/
def Grid.outcome (g : Grid) : Status × Nat :=
  if g.killed then (.killed, 0)
  else if g.stopped then (.failed, g.failCode)
  else if g.frozen && (match g.freeze with
    | some f => f.image
    | none => false) then (.preempted, 0)
  else (.done, 0)

/-- GRID_RETIRE (R90). -/
def execGridRetire (grid : Nat) (s : State) : Out :=
  .next <| match s.grids.find? grid with
    | none => s
    | some g => if s.retireDue grid g then s.finalGrid grid g.outcome.1 g.outcome.2 else s

end Sys2Proof.Machine
end

