-- ==== Sys2Proof/Machine/Place.lean ====
section
/-! DEFINITION. The distributor: placement of task positions, the start of instances and the release of resources (R120, R130,
R133 to R139, R178, R179, R402). -/

namespace Sys2Proof.Machine

/-- First core-wide warp index of a position (R130). -/
def Grid.warp0 (g : Grid) (j : Nat) : Nat := g.hdr.wbase + j % g.hdr.tpc * g.hdr.wpt

/-- A position that holds resources: its grid, its number and its state. -/
structure Holder where
  gid : Nat
  g : Grid
  j : Nat
  p : PosState
deriving DecidableEq, Repr

/-- Every position that holds resources. -/
def State.holders (s : State) : List Holder :=
  s.grids.flatMap fun (e : Nat × Grid) => (e.2.poss.filter fun (q : Nat × PosState) => q.2.placed).map fun q =>
    ⟨e.1, e.2, q.1, q.2⟩

/-- Two spans do not overlap. -/
def apart (a n b m : Nat) : Bool := decide (a + n ≤ b) || decide (b + m ≤ a) || decide (n = 0) || decide (m = 0)

/-- The slots and units of a new position are free beside a holder's (R130, R136). -/
def Holder.leaves (h : Holder) (g : Grid) (j : Nat) : Bool :=
  apart (h.g.warp0 h.j) h.g.hdr.wpt (g.warp0 j) g.hdr.wpt &&
  apart (h.g.unit0 h.j) h.g.hdr.scru (g.unit0 j) g.hdr.scru &&
  apart (h.g.unit0 h.j) h.g.hdr.scru g.hdr.cunit 1 && apart h.g.hdr.cunit 1 (g.unit0 j) g.hdr.scru &&
  (decide (h.g.hdr.cunit ≠ g.hdr.cunit) || decide (h.g.image = g.image)) && decide (h.g.hdr.duty = g.hdr.duty)

/-- The bank that a grid takes on a core (R136): that of its image, or a free one. -/
def bankFor (hs : List Holder) (g : Grid) : Option Nat :=
  match hs.find? fun h => decide (h.g.image = g.image) with
  | some h => some h.p.bank
  | none => [0, 1].find? fun b => !(hs.any fun h => decide (h.p.bank = b))

/-- The power test (R120). -/
def State.powerOk (s : State) (hs : List Holder) (g : Grid) (core : Nat) : Bool :=
  let cs := (g.part, core, g.hdr.duty) :: hs.map fun h => (h.g.part, h.g.lcore h.j, h.g.hdr.duty)
  decide (25 * ((dedup cs).map fun c => c.2.2).foldl (· + ·) 0 ≤ 64 * (s.sec.cap - 1200))

/-- The lowest aligned free block of n blocks of a file (R137). -/
def freeBlock (used : List (Nat × Nat)) (total n : Nat) : Option Nat :=
  ((List.range (total / n)).map (· * n)).find? fun b => used.all fun u => apart u.1 u.2 b n

/-- Execute and access blocks in use in a partition of a core. -/
def blocksUsed (hs : List Holder) (p : Nat) : List (Nat × Nat) × List (Nat × Nat) :=
  let bs := hs.flatMap fun h => (h.p.blocks.filter fun b => decide ((h.g.warp0 h.j + b.1) % 4 = p)).map fun b =>
    ((b.2.1, h.g.hdr.xblocks), (b.2.2, h.g.hdr.ablocks))
  (bs.map (·.1), bs.map (·.2))

/-- Register blocks for every warp of a position (R137). -/
def allocBlocks (hs : List Holder) (g : Grid) (j : Nat) : Option (List (Nat × Nat × Nat)) :=
  (List.range g.hdr.wpt).foldl (fun r w => r.bind fun l =>
    let p := (g.warp0 j + w) % 4
    let u := blocksUsed hs p
    let own := l.filter fun b => decide ((g.warp0 j + b.1) % 4 = p)
    match freeBlock (u.1 ++ own.map fun b => (b.2.1, g.hdr.xblocks)) 32 g.hdr.xblocks,
          freeBlock (u.2 ++ own.map fun b => (b.2.2, g.hdr.ablocks)) 16 g.hdr.ablocks with
    | some x, some a => some (l ++ [(w, x, a)])
    | _, _ => none) (some [])

/-- The partition of the resident POD grids (R402): those of which a position holds resources, also after the grid's final status (R134, R393). -/
def State.podPart (s : State) : Option Nat :=
  (List.find? (fun (e : Nat × Grid) => e.2.hdr.pod && e.2.poss.any fun (q : Nat × PosState) => !q.2.blocks.isEmpty)
    s.grids).map fun e => e.2.part

/-- What a position gets when it fits now (R120, R136 to R138, R402): its bank and register blocks. -/
def State.fits (s : State) (g : Grid) (j : Nat) : Option (Nat × List (Nat × Nat × Nat)) :=
  let all := s.holders
  let core := g.lcore j
  let hs := all.filter fun h => decide (h.g.part = g.part ∧ h.g.lcore h.j = core)
  let pod := !g.hdr.pod || (match s.podPart with
    | some p => decide (p = g.part)
    | none => true)
  if pod && hs.all (fun h => h.leaves g j) && s.powerOk all g core then
    match bankFor hs g, allocBlocks hs g j with
    | some b, some l => some (b, l)
    | _, _ => none
  else none

/-- Clear a span of a core's scratch (R178). -/
def State.clearScratch (s : State) (core lo n : Nat) : State :=
  let a := scratchBase core + lo
  { s with mem := Mem.clear s.mem a n, poison := s.poison.filter fun e => decide (e.1 < a ∨ a + n ≤ e.1) }

/-- Placement of one position whose first instance issues at `first` (R136, R139, R178, R179): it loads the banks and the unit that no other holds on
the core. -/
def State.place (s : State) (gid : Nat) (g : Grid) (j first : Nat) (bank : Nat) (blocks : List (Nat × Nat × Nat)) : State :=
  let lc := g.lcore j
  let core := (s.tenant g.part).slotBase + lc
  let hs := s.holders.filter fun h => decide (h.g.part = g.part ∧ h.g.lcore h.j = lc)
  let newBank := !(hs.any fun h => decide (h.p.bank = bank))
  let newUnit := !(hs.any fun h => decide (h.g.hdr.cunit = g.hdr.cunit))
  let s := s.clearScratch core (g.unit0 j * 65536) (g.hdr.scru * 65536)
  let s := if newBank then
      let s := s.clearScratch core (0x5F0000 + 0x8000 * bank) 0x8000
      { s with mbox := s.mbox.put (core * 2 + bank) 0, banks := s.banks.put (core * 2 + bank) (s.bankOf gid g) }
    else s
  let s := if newUnit then
      let code := ((s.imageBytes gid).drop 256).take g.hdr.codelen
      (s.clearScratch core (g.hdr.cunit * 65536) 65536).putCells (plainCells (scratchBase core + g.hdr.cunit * 65536) code)
    else s
  s.updGrid gid fun g => { g with poss := g.poss.modify j fun p => { p with phase := .loading first, bank := bank, blocks := blocks } }

/-- Positions of a grid that wait for placement (R138 to R140). -/
def Grid.waiting (g : Grid) : List Nat :=
  if g.status.isSome || g.frozen || g.stopped || g.killed then []
  else (g.poss.filter fun (q : Nat × PosState) => decide (q.2.phase = .waiting)).map (·.1)

/-- A pending placement: one position, or every position of a grid with a start tick (R139). -/
structure Pending where
  gid : Nat
  g : Grid
  js : List Nat
deriving DecidableEq, Repr

/-- Order of service (R138). -/
def Pending.before (a b : Pending) : Bool :=
  let k (u : Pending) : List Nat := [7 - u.g.prio, u.g.d.getD 0, u.g.lq, u.js.headD 0, u.gid]
  decide (k a < k b)

/-- The pending placements in their order. -/
def State.pendingPlaces (s : State) : List Pending :=
  sortBy Pending.before (s.grids.flatMap fun (e : Nat × Grid) =>
    let w := e.2.waiting
    if w.isEmpty then [] else if e.2.start = 0 then w.map fun j => ⟨e.1, e.2, [j]⟩ else [⟨e.1, e.2, w⟩])

/-- Place one position if it fits. -/
def State.placeOne (s : State) (gid j first : Nat) : Option State :=
  (s.grids.find? gid).bind fun g => (s.fits g j).map fun r => s.place gid g j first r.1 r.2

/-- Place what a pending placement asks for, if all of it fits (R139). -/
def State.placeAll (s : State) (u : Pending) : Option State :=
  let first := max (s.gtc + 104) u.g.start
  u.js.foldl (fun r j => r.bind fun s => s.placeOne u.gid j first) (some s)

/-- Work can be placed (R106, R119). -/
def State.mayPlace (s : State) : Bool := s.live && s.fw.ready && !s.pkg.stopped && decide (s.sched.held = 0)

/-- The next placement of this tick: one that does not fit blocks every later one on its cores (R138). -/
def State.nextPlace (s : State) : Option (Pending × State) :=
  if !s.mayPlace then none
  else (s.pendingPlaces.foldl (fun (r : List (Nat × Nat) × Option (Pending × State)) u =>
    match r.2 with
    | some _ => r
    | none =>
      let cs := u.js.map fun j => (u.g.part, u.g.lcore j)
      if cs.any r.1.contains then (r.1 ++ cs, none)
      else match s.placeAll u with
        | some t => (r.1, some (u, t))
        | none => (r.1 ++ cs, none)) ([], none)).2

/-- PLACEMENT (R139): the next position in the order of R138 that fits; one of a grid with a start tick places them all. -/
def execPlacement (s : State) : Out :=
  .next <| match s.nextPlace with
    | some (_, t) => t
    | none => s

/-! ### Instances (R133 to R135, R142, R147) -/

/-- The tick on which the next instance of a position starts. -/
def PosState.startAt (p : PosState) : Option Nat := match p.phase with
  | .loading f => some f
  | .between h => some (h + 24)
  | _ => none

/-- A position's next instance starts on this tick. -/
def Grid.starts (g : Grid) (j : Nat) (p : PosState) (now : Nat) : Bool :=
  byTick p.startAt now && decide (p.next < g.entries j) && g.status.isNone && !g.frozen && !g.stopped && !g.killed

/-- A warp at the start of an instance (R133, R135, R137, R142). -/
def State.newWarp (s : State) (gid : Nat) (g : Grid) (j w : Nat) (e : Entry) (cut : Bool) : Warp :=
  let h := g.hdr
  let k := g.warp0 j + w
  let core := (s.tenant g.part).slotBase + g.lcore j
  let save := if cut then h.save + (j * h.wpt + w) * h.savesz else 0
  let regs : Tab RVal := [e.group, e.first, e.count, e.word3, save, save / 2 ^ 32].zipIdx.map fun v => (v.2, RVal.ofWord (wordOfNat v.1))
  let pc (a : Nat) : Nat := h.cunit * 65536 + a
  let st (a : Nat) : Stream := { Stream.fresh with regs := regs, pc := pc a }
  { part := g.part
    core := core
    k := k
    grid := gid
    pos := j
    w := w
    xregs := h.xregs
    aregs := h.aregs
    acc := st (if cut then h.restoreA else h.entryA)
    exe := st (if cut then h.restoreE else h.entryE)
    queues := []
    fmts := h.fmt.zipIdx.map fun v => (v.2, wordOfNat v.1)
    accs := []
    fflags := 0
    fcnt := 0
    mWarp := 0
    mTask := 0
    mDev := 0
    mPod := 0
    prior := ⟨0, 0, 0, 0, 0⟩
    landings := []
    setslots := slotsOf (setsOfWarp (s.setBytes gid g core) (g.lcore j) (j % h.tpc) w)
    slipBase := g.slip0.get 0 (core * 4 + k % 4)
    failed := []
    faulted := []
    start := s.gtc }

/-- The warps of a position join their front ends (R147). -/
def State.joinWarp (s : State) (w : Warp) : State :=
  let s := { s with warps := s.warps.put (warpKey w.core w.k) w }
  [Strm.acc, Strm.exe].foldl (fun s x => s.updFe (feKey w.core (w.k % 4) x) fun f => { f with joined := f.joined ++ [w.k / 4] }) s

/-- INSTANCE_START (R133, R134, R139, R147). -/
def execInstanceStart (grid pos : Nat) (s : State) : Out :=
  .next <| match s.grids.find? grid with
    | none => s
    | some g => match g.poss.find? pos with
      | none => s
      | some p =>
        if !g.starts pos p s.gtc then s
        else match posEntry g.groups g.hdr.iters g.npos pos p.next with
          | none => s
          | some e =>
            let ws := (List.range g.hdr.wpt).map fun w => s.newWarp grid g pos w e p.restore
            let s := ws.foldl State.joinWarp s
            let s := s.updSec fun c => { c with gated := c.gated.filter fun k => !(ws.any fun w => decide (w.core = k)) }
            let now := s.gtc
            s.updGrid grid fun g => { g with
              firstIssue := some (g.firstIssue.getD now)
              poss := g.poss.modify pos fun p =>
                { p with phase := .running, next := p.next + 1, restore := false, cut := false } }

/-- RESOURCE_RELEASE (R134). -/
def execResourceRelease (grid pos : Nat) (s : State) : Out :=
  .next <| match s.grids.find? grid with
    | none => s
    | some g => match g.poss.find? pos with
      | none => s
      | some p =>
        if g.releases pos p s.gtc then
          s.updGrid grid fun g => { g with poss := g.poss.modify pos fun p => { p with phase := .released, bank := 2 } }
        else s

end Sys2Proof.Machine
end

