-- ==== Sys2Proof/Machine/Schedule.lean ====
section
/-! DEFINITION. The pod schedule: images, their checks and their activation, rounds of resynchronisation, the realignment of
the GTC, boundary images and relaunches (R66 to R79, R86). -/

namespace Sys2Proof.Machine

/-! ### Positions of a leaf (R46, R49, R50) -/

/-- First and last leaf tick of position k. -/
def posStart (k : Nat) : Nat := 160 + 32 * k / 5
def posEnd (k : Nat) : Nat := 160 + (32 * k + 31) / 5

/-- The replay position of a protected position (R49). -/
def replayPos (k : Nat) : Nat :=
  (((List.range 76).map (8 * · + 7)).find? fun q => decide (posEnd k + 272 ≤ posStart q)).getD 607

/-- A late position (R46). -/
def isLate (k : Nat) : Bool := decide (564 ≤ k)

/-- The R50 tick of position k, counted from tick 0 of its leaf. -/
def landTick (k : Nat) : Nat := (if isLate k then posEnd k else posEnd (replayPos k)) + 32

/-- A data position that a schedule may use in a leaf (R46, R69). -/
def usable (leaf k : Nat) : Bool := decide (k ≤ 614 ∧ k % 8 ≠ 7) && !(decide (leaf = 0) && decide (k ≤ 6))

/-! ### Images (R66, R67, R69) -/

/-- A run record (R67). -/
def readRun (frame leaf port : Nat) (tx : Bool) (v : Nat) : Run where
  frame := frame
  leaf := leaf
  port := port
  tx := tx
  use := field v 126 2
  staged := v.testBit 125
  first := field v 115 10
  count := field v 105 10 + 1
  core := field v 97 8
  eq := field v 93 4
  addr := field v 70 23
  outLeaf := field v 65 5
  outPort := field v 61 4
  outPos := field v 51 10
  dest := field v 41 9

/-- Positions of a run. -/
def Run.positions (r : Run) : List Nat := (List.range r.count).map (r.first + ·)

/-- The run records at the front of a list of bytes, and whether the terminator comes before its end (R66). -/
def runWords : Nat → List Byte → List Nat × Bool
  | 0, _ => ([], false)
  | n + 1, bs =>
    if bs.length < 16 then ([], false)
    else
      let v := leNat (bs.take 16)
      if v = 0 then ([], true)
      else
        let r := runWords n (bs.drop 16)
        (v :: r.1, r.2)

/-- The lists of an image's section: frame, leaf, port, direction, the words, and whether the list is whole (R66). -/
def sectionLists (sec : List Byte) (period : Nat) : List (Nat × Nat × Nat × Bool × List Nat × Bool) :=
  (pieces 4 (period * 1024) sec).zipIdx.filterMap fun e =>
    let o := leNat e.1
    if o = 0 then none
    else some (e.2 / 1024, e.2 / 32 % 32, e.2 / 2 % 16, decide (e.2 % 2 = 0), runWords (sec.length / 16 + 1) (sec.drop o))

/-- Runs of one list ascend, do not overlap and name usable positions alone (R69, code 3). -/
def runsOrdered (leaf : Nat) : Nat → List Run → Bool
  | _, [] => true
  | lo, r :: rs => decide (lo ≤ r.first) && r.positions.all (usable leaf) && runsOrdered leaf (r.first + r.count) rs

/-- The relayed bundles of a section (R53): the tick of the period on which each enters the relay store, and the tick on which
its outgoing position starts. -/
def relaySpans (rs : List Run) : List (Nat × Nat) :=
  (rs.filter fun r => !r.tx && decide (r.use = 2)).flatMap fun r => (List.range r.count).map fun i =>
    let t := (r.frame * 32 + r.leaf) * 4096
    (t + landTick (r.first + i), t + r.outLeaf * 4096 + posStart (r.outPos + i))

/-- Bundles in the relay store on a tick of a period. -/
def relayHeld (period t : Nat) (l : List (Nat × Nat)) : Nat :=
  let n := period * frameTicks
  (l.filter fun e => (decide (e.1 ≤ t) && decide (t < e.2)) || (decide (e.1 ≤ t + n) && decide (t + n < e.2))).length

/-- Codes of R69 that an image's bytes earn on this device, and the image. A relay whose outgoing position carries nothing (a replay position,
a control position, one past 614, or port 0 of leaf 0) earns code 6, and bits [15:13] of an avoid entry count as reserved (code 2). DESIGN CHOICE
(log entry 44): R69 gives code 6 to the 16 t rule and the two-hop limit alone, and R66 does not name those bits. -/
def State.judgeSchedule (s : State) (bs : List Byte) (index : Nat) : List Nat × PodImage :=
  let n := bs.length
  let ndev := getLE bs 6 2
  let period := getLE bs 8 2
  let navoid := getLE bs 10 2
  let sec := getLE bs 12 4
  let others := s.sched.images.filter fun (e : Nat × PodImage) => e.1 ≠ index
  let links := (pieces 2 (min navoid ((n - 256) / 2)) (bs.drop 256)).map leNat
  let fit := min period ((n - sec) / 4096)
  let lists := sectionLists (bs.drop sec) fit
  let runs := lists.map fun l => (l, l.2.2.2.2.1.map fun v => (v, readRun l.1 l.2.1 l.2.2.1 l.2.2.2.1 v))
  let all := runs.flatMap fun l => l.2
  let rs := all.map (·.2)
  let spans := relaySpans rs
  let codes :=
    (if 6 ≤ n ∧ (getLE bs 0 4 ≠ 1 ∨ getLE bs 4 2 ≠ 1) then [1] else []) ++
    ((if ((bs.drop 48).take 208).any (· ≠ 0) ∨ links.any (fun w => decide (2 ^ 13 ≤ w)) ∨
          all.any (fun v => decide (field v.1 0 41 ≠ 0) || v.1.testBit 50) then [2] else []) ++
      (if runs.any (fun l => !runsOrdered l.1.2.1 0 (l.2.map (·.2))) then [3] else []) ++
      (if rs.any (fun r => decide (r.use = 1) && !(r.tx && r.staged) && decide (0x5F0000 < r.addr + 4096 * r.count)) then [4] else []) ++
      (if spans.any (fun e => decide (4096 < relayHeld (max 1 period) e.1 spans)) then [5] else []) ++
      (if spans.any (fun e => decide (e.2 < e.1 + 16)) ||
          rs.any (fun r => !r.tx && decide (r.use = 2) && !((List.range r.count).all fun i =>
            !(decide (r.outPort = 0 ∧ (r.leaf + r.outLeaf) % 32 = 0)) && usable ((r.leaf + r.outLeaf) % 32) (r.outPos + i))) then [6] else []) ++
      (if others.any (fun e => decide (e.2.ndev ≠ ndev)) ∨ s.sched.podSize.any (fun n => decide (n ≠ ndev)) ∨ ndev ≤ s.sched.podNumber then (if 8 ≤ n then [7] else []) else []) ++
      (if index = s.sched.image ∧ s.sched.state.busy then [8] else []) ++
      (if n < 256 ∨ ndev < 1 ∨ 512 < ndev ∨ period < 1 ∨ 4096 < period ∨ 8192 < navoid ∨ n < 256 + 2 * navoid ∨
          n < sec + 4096 * period ∨ lists.any (fun l => !l.2.2.2.2.2) then [9] else []))
  (codes, ⟨ndev, period, links.map fun w => (w / 16, w % 16), leNat ((bs.drop 16).take 32), rs⟩)

/-- Bytes of a span at device virtual addresses, when all of it is usable. -/
def State.spanAt (s : State) (part va n : Nat) : Option (List Byte) :=
  let l := s.readVas part ((List.range n).map (va + ·))
  if l.all (·.isSome) then some (l.filterMap id) else none

/-- SCHED_LOAD (R69, R86): the bytes are read at D; the check ends by D + 13,000,000 + ceil(LENGTH / 64). -/
def execSchedLoad (cmd : Nat) (s : State) : Out :=
  s.onCmd cmd fun c =>
    let va := field (c.pkt.word 1) 0 52
    let n := field (c.pkt.word 2) 0 32
    match s.spanAt c.part va n with
    | none => s.endCmd cmd .failed 16
    | some bs =>
      let s := s.sawWalks c.part ((List.range n).map (va + ·))
      let beats := dedup ((List.range n).map fun k => (va + k) / 64 * 64)
      let s := beats.foldl (fun s b => match s.translate c.part b with
        | some (pa, _) => s.askPool ⟨4, c.part, c.lq, pa, 64, .read⟩
        | none => s) s
      let (d, s) := s.drawn Config.draw
      s.updCommand cmd fun c => { c with data := bs, due := some (s.gtc + d % (13000001 + ceilDiv n 64)) }

/-- SCHED_LOAD_DONE (R69): the image is accepted, or rejected with the lowest code that applies. -/
def execSchedLoadDone (cmd : Nat) (s : State) : Out :=
  .next <| match s.cmds.find? cmd with
    | none => s
    | some c =>
      if c.pkt.opcode ≠ 5 ∨ c.fin.isSome ∨ !byTick c.due s.gtc then s
      else
        let index := field (c.pkt.word 2) 32 4
        let (codes, img) := s.judgeSchedule c.data index
        match codes with
        | [] => (s.updSched fun x => { x with loadErr := 0, images := x.images.put index img }).endCmd cmd .done 0
        | k :: ks => (s.updSched fun x => { x with loadErr := ks.foldl min k }).endCmd cmd .failed 20

/-- SCHED_ACTIVATE (R86). -/
def execSchedActivate (cmd : Nat) (s : State) : Out :=
  s.onCmd cmd fun c =>
    let index := field (c.pkt.word 1) 0 4
    let base := field (c.pkt.word 2) 0 47
    let st := s.sched.state
    if (st = .idle ∨ st = .halted) ∧ frameOf s.gtc + 2 ≤ base ∧ (s.sched.images.find? index).isSome then
      s.updCommand cmd fun c => { c with addr := index, due := some (base * frameTicks) }
    else s.endCmd cmd .failed 21

/-- The state after an image becomes active (R68, R86): a fresh run without a round. -/
def Sched.start (c : Sched) (index base : Nat) : Sched :=
  { c with
    state := .run
    active := true
    image := index
    base := base
    knownFirst := none
    firstCause := 0
    faultAt := none
    faulted := []
    deadLinks := []
    agreeOk := true
    chosen := none }

/-- Activations whose frame begins. -/
def State.activations (s : State) : List (Nat × Cmd) := (s.inProgress 6).filter fun (e : Nat × Cmd) => byTick e.2.due s.gtc

/-- ACTIVATION_TAKES_EFFECT (R86): at the first tick of frame BASE. -/
def execActivationTakesEffect (s : State) : Out :=
  .next (s.activations.foldl (fun s (e : Nat × Cmd) =>
    (s.updSched fun c => c.start e.2.addr (e.2.due.getD 0 / frameTicks)).endCmd e.1 .done 0) s)

/-! ### Rounds (R75 to R77) -/

/-- First tick of a frame. -/
def frameTick (f : Nat) : Nat := f * frameTicks

/-- A POD grid stops for a schedule fault (R75, R90, R144, R219): its commands, staged bundles and scratch are discarded. -/
def State.haltGrid (s : State) (gid : Nat) (g : Grid) : State :=
  let s := s.updGrid gid fun g => { g with stopped := true, failCode := if g.stopped then g.failCode else 23 }
  let s := ((s.stopWarps gid).killCmds gid).noteExits
  let s : State := { s with stage := s.stage.map fun (e : Nat × List Staged) => (e.1, e.2.filter fun b => decide (b.grid ≠ gid)) }
  let base := (s.tenant g.part).slotBase
  g.poss.foldl (fun s (q : Nat × PosState) =>
    if q.2.placed then s.clearScratch (base + g.lcore q.1) (g.unit0 q.1 * 65536) (g.hdr.scru * 65536) else s) s

/-- The resident or waiting POD contexts. -/
def State.podGrids (s : State) : List (Nat × Grid) :=
  s.grids.filter fun (e : Nat × Grid) => e.2.hdr.pod && e.2.checked && e.2.d.isSome && e.2.status.isNone && !e.2.poss.isEmpty

/-- A command is marked failed (R55, R194). -/
def State.markFailed (s : State) (c : EngCmd) : State :=
  let t := s.gtc
  s.cmdWarp c fun w => { w with failed := w.failed ++ [t] }

/-- The scope of the mark that a fabric command raises at its end without data at the origin (R193): the status word of a multicast goes to the
warp's own core. -/
def EngCmd.fabricScope (c : EngCmd) : Nat := if c.fn = 8 then 1 else 3

/-- Every member of a multicast. -/
def EngCmd.allMembers (c : EngCmd) : Nat := 2 ^ c.tpl.e 1 - 1

/-- A fabric command fails without its routes (R75, R367): the status word of a multicast names every member; a command whose completion
tick is fixed keeps it. -/
def State.failNow (s : State) (c : EngCmd) : State :=
  if c.done.isSome then (s.updCmd c.ord fun c => { c with failMask := if c.fn = 8 then c.allMembers else c.failMask }).markFailed c
  else ((if c.fn = 8 then s.statusWord c (c.word 6) (leBytes 8 c.allMembers) else s).finishCmd c.ord c.fabricScope).markFailed c

/-- Fabric commands under way fail when the request routes do (R75, R367): those that have started and are not complete, with the records
that wait. -/
def State.failRoutes (s : State) : State :=
  (s.cmdsE.filter fun (e : Nat × EngCmd) => decide (5 ≤ e.2.fn ∧ e.2.fn ≤ 8) && e.2.s.isSome && !byTick e.2.done s.gtc).foldl
    (fun s (e : Nat × EngCmd) => s.failNow e.2) { s with recs := s.recs.filter fun r => r.cmd.isNone }

/-- A leaf boundary. -/
def isLeaf (t : Nat) : Bool := decide (leafTick t = 0)

/-- RUN becomes FAULT on this tick (R75): a fault was raised before it. -/
def State.faultDue (s : State) : Bool :=
  decide (s.sched.state = .run) && isLeaf s.gtc && (match s.sched.faultAt with
    | some t => decide (t < s.gtc)
    | none => false) && decide (s.sched.held = 0)

/-- The link of a leaf is too long (R44): more than 128 t in one direction. -/
def Port.far (p : Port) (leaf : Nat) : Bool := decide (128 < p.delays.get 0 leaf)

/-- The dead links of this device, by its pod number (R44, R51, R66): an entry names a port, also when the link of a single leaf is too
long. DESIGN CHOICE (log entry 63): R66's entry has no place for a leaf. -/
def State.ownDead (s : State) : List (Nat × Nat) :=
  (s.ports.filter fun (e : Nat × Port) => e.2.dead || (List.range 32).any e.2.far).map fun e => (s.sched.podNumber, e.1)

/-! ### Control records (R70) -/

/-- A number of 64 bits, all ones when there is none. -/
def orOnes (o : Option Nat) : List Byte := leBytes 8 (o.getD (2 ^ 64 - 1))

/-- IMAGE_ID of the chosen image, or else of the active one (R70). -/
def State.imageId (s : State) : Nat :=
  ((match s.sched.chosen with
    | some k => s.sched.images.find? k
    | none => s.activeImage).map fun (i : PodImage) => i.imageId).getD 0

/-- F_RESUME once it is agreed (R70, R75). -/
def Sched.agreed (c : Sched) : Option Nat := match c.state with
  | .agree => some c.resume
  | .realign => some c.resume
  | _ => none

/-- The payload that carries this device's control record for a frame (R70). -/
def State.controlBytes (s : State) (frame : Nat) : List Byte :=
  let dead := (dedup (s.ownDead ++ s.sched.deadLinks)).take 1952
  let set (d : Nat) : Bool := s.sched.faulted.contains d
  let bs := leBytes 4 1 ++ leBytes 2 s.sched.podNumber ++ leBytes 1 s.sched.state.code ++ leBytes 1 s.sched.firstCause ++
    leBytes 8 frame ++ orOnes s.sched.knownFirst ++ orOnes s.sched.agreed ++ leBytes 32 s.imageId ++
    leBytes 2 (s.time.offset % 2 ^ 16).toNat ++ leBytes 2 dead.length ++ leBytes 60 0 ++
    (List.range 64).flatMap (fun k => leBytes 1 (((List.range 8).map fun b => bit (set (8 * k + b)) b).foldl (· + ·) 0)) ++
    dead.flatMap fun l => leBytes 2 (l.1 * 16 + l.2)
  bs ++ leBytes (4096 - bs.length) 0

/-- The states in which every bundle is replaced by the control record (R70, R75). -/
def SchedState.poisons : SchedState → Bool
  | .fault => true
  | .agree => true
  | _ => false

/-- ENTER_FAULT (R75): from now on every bundle that begins is poisoned; those read before go out so too. -/
def execEnterFault (s : State) : Out :=
  .next <| if !s.faultDue then s
  else
    let f := s.sched.knownFirst.getD (frameOf s.gtc)
    let s := s.updSched fun c => { c with state := .fault, first := f, resume := f + 4 }
    (s.podGrids.foldl (fun s (e : Nat × Grid) => s.haltGrid e.1 e.2) s).failRoutes

/-- The chosen image of a round (R77). -/
def State.chooseImage (s : State) (dead : List (Nat × Nat)) : Option Nat :=
  (List.find? (fun (e : Nat × PodImage) => dead.all e.2.avoid.contains) s.sched.images).map (·.1)

/-- The device enters HALTED (R75). -/
def Sched.halt (c : Sched) : Sched := { c with state := .halted, active := false }

/-- FAULT becomes AGREE on this tick (R75). -/
def State.agreeDue (s : State) : Bool :=
  decide (s.sched.state = .fault) && isLeaf s.gtc && match s.sched.knownFirst with
    | some f => decide (frameTick (f + 2) ≤ s.gtc)
    | none => false

/-- ENTER_AGREE (R75, R77): F_first, the dead links and the chosen image are fixed. -/
def execEnterAgree (s : State) : Out :=
  .next <| if !s.agreeDue then s
  else
    let f := s.sched.knownFirst.getD 0
    let dead := dedup (s.ownDead ++ s.sched.deadLinks)
    let pick := s.chooseImage dead
    s.updSched fun c =>
      let c : Sched := { c with state := .agree, first := f, resume := f + 4, deadLinks := dead, chosen := pick, agreeOk := true }
      if pick.isNone then c.halt else c

/-- AGREE becomes REALIGN or HALTED on this tick (R75). -/
def State.realignDue (s : State) : Bool := decide (s.sched.state = .agree) && isLeaf s.gtc && decide (frameTick (s.sched.first + 3) ≤ s.gtc)

/-- ENTER_REALIGN (R75). -/
def execEnterRealign (s : State) : Out :=
  .next <| if !s.realignDue then s
  else s.updSched fun c => if c.agreeOk then { c with state := .realign } else c.halt

/-! ### The device hold (R76) -/

/-- The nearest integer to a number of sixteenths, ties to even. -/
def roundSixteenths (o : Int) : Int :=
  let q := o / 16
  let r := o % 16
  if r < 8 then q else if r = 8 then (if q % 2 = 0 then q else q + 1) else q + 1

/-- A tick that was due at v or later falls h ticks later. -/
def later (v h t : Nat) : Nat := if v ≤ t then t + h else t

/-- The slots that a core holds at v or later, each with the slot to which the hold moves it (R76): h ticks later, or else the next slot of its core
and stack, and the slots after it follow in order. `r` is the residue of the pair's slots. -/
def slotMoves (r h : Nat) : Nat → List Nat → Tab Nat
  | _, [] => []
  | lo, t :: ts =>
    let u := slotSearch [] r 4096 (max (t + h) lo)
    (t, u) :: slotMoves r h (u + 1) ts

/-- The moved slots of a core; no two of its stacks have slots on one tick (R28). -/
def State.movesOf (s : State) (v h core : Nat) : Tab Nat :=
  (List.range 8).flatMap fun k =>
    slotMoves ((core + k) % 8) h 0 (sortBy (fun (a b : Nat) => decide (a < b)) ((s.slots.get [] (core * 8 + k)).filter fun t => decide (v ≤ t)))

/-- What a hold does to the ticks of one core: v, h and the core's moved slots. -/
structure Hold where
  v : Nat
  h : Nat
  slots : Tab Nat

/-- A tick that was due at v or later falls h ticks later. -/
def Hold.tick (m : Hold) (t : Nat) : Nat := later m.v m.h t

/-- A slot's tick. -/
def Hold.slot (m : Hold) (t : Nat) : Nat := m.slots.get t t

/-- A date that lies `lag` after the latest slot of its request, and follows that slot (R30, R76): 128 for a load, 168 for a store, 216 for the old
value of an atomic. -/
def Hold.date (m : Hold) (lag t : Nat) : Nat := match m.slots.find? (t - lag) with
  | some u => max (m.tick t) (u + lag)
  | none => m.tick t

/-- A stream waits for a tick that its program names: the T of a waitt, which no hold moves (R76). -/
def Stream.byTarget (st : Stream) : Bool := st.granted && st.timed

/-- A parked stream's tick, and its latches; `lag` tells the lag of a result in flight. -/
def Stream.hold (m : Hold) (lag : Nat → Nat) (st : Stream) : Stream :=
  let l (x : List Latch) : List Latch := x.map fun e => { e with ready := m.date (lag e.lid) e.ready }
  { st with
    latches := l st.latches
    shadow := l st.shadow
    hshadow := l st.hshadow
    fenceTick := if st.byTarget then st.fenceTick else m.date 168 st.fenceTick
    phase := match st.phase with
      | .parked (.until t) => .parked (.until (if st.byTarget then t else m.tick t))
      | .parked (.hbmLimit t) => .parked (.hbmLimit (m.date 128 t))
      | .parked (.fence scope t) => .parked (.fence scope (m.date 168 t))
      | p => p }

/-- The result in flight that fills a reservation. -/
def Warp.fillerOf (w : Warp) (rid : Nat) : Nat :=
  ((w.landings.find? fun l => match l.eff with
    | .vec (.queue _ k) _ _ => decide (k = rid)
    | _ => false).map (·.id)).getD 0

/-- A warp's landings, queues and marks. -/
def Warp.hold (m : Hold) (lag : Nat → Nat) (w : Warp) : Warp :=
  { w with
    acc := w.acc.hold m lag
    exe := w.exe.hold m lag
    landings := w.landings.map fun l => { l with tick := m.date (lag l.id) l.tick }
    queues := w.queues.map fun q => (q.1, q.2.map fun r => { r with land := r.land.map (m.date (lag (w.fillerOf r.rid))) })
    mWarp := m.date 168 w.mWarp
    mTask := m.date 168 w.mTask
    mDev := m.date 168 w.mDev
    mPod := m.date 168 w.mPod
    prior := ⟨w.prior.tick, m.date 168 w.prior.warp, m.date 168 w.prior.task, m.date 168 w.prior.dev, m.date 168 w.prior.pod⟩
    failed := w.failed.map m.tick
    faulted := w.faulted.map fun e => (m.tick e.1, e.2) }

/-- A grid's releases, loads and marks. -/
def Grid.hold (v h : Nat) (g : Grid) : Grid :=
  { g with
    phases := g.phases.map fun (e : Nat × PhaseState) => (e.1, { e.2 with released := e.2.released.map (later v h) })
    maxWct := later v h g.maxWct
    freeze := g.freeze.map fun f => { f with bound := f.bound.map (later v h) }
    poss := g.poss.map fun (e : Nat × PosState) => (e.1, { e.2 with phase := match e.2.phase with
      | .loading f => .loading (if f = g.start ∧ g.start ≠ 0 then f else later v h f)
      | .between t => .between (later v h t)
      | p => p }) }

/-- A source beat: it comes 128 t after its slot at the earliest (R211). -/
def SrcBeat.hold (m : Hold) (b : SrcBeat) : SrcBeat :=
  if 2 ^ 60 ≤ b.beat then { b with r := m.tick b.r } else { b with rt := m.slot b.rt, r := max (m.tick b.r) (m.slot b.rt + 128) }

/-- Destination beats, in order: each follows its source, its slot and the beat before it (R211). -/
def holdBeats (m : Hold) (src : List SrcBeat) : Nat → List DstBeat → List DstBeat
  | _, [] => []
  | lo, b :: bs =>
    let r := if b.last = 0 then 0 else ((src[b.last - 1]?).map (·.r)).getD 0
    let slot := b.slot.map m.slot
    let w := b.w.map fun w => if w < m.v then w else match slot with
      | some t => max (m.tick w) (max (t + 168) lo)
      | none => max (m.tick w) (max r lo)
    { b with arr := max (m.tick b.arr) (if b.slot.isNone && decide (b.arr ≠ 0) then r + 8 else 0), slot := slot, w := w } ::
      holdBeats m src ((w.getD 0) + 1) bs

/-- An engine command's ticks (R76, R211): a data command's last beat ends it. -/
def EngCmd.hold (m : Hold) (c : EngCmd) : EngCmd :=
  let src := c.src.map (SrcBeat.hold m)
  let dst := if c.fn ≤ 3 then holdBeats m src 0 c.dst else c.dst.map fun b => { b with w := b.w.map m.tick }
  let last := if c.fn ≤ 3 then (dst.getLast?.bind (·.w)).getD 0 else 0
  let fin (t : Nat) : Nat := max (if c.fn = 11 then m.date 168 t else m.tick t) last
  { c with
    done := c.done.map fin
    mStart := m.tick c.mStart
    mEnd := m.tick c.mEnd
    readAt := c.readAt.map m.tick
    addAt := c.addAt.map m.tick
    src := src
    dst := dst
    wcts := match c.wcts with
      | e :: r => (e.1, e.2.map fun t => if c.hasData then fin t else m.date 168 t) :: r.map fun x => (x.1, x.2.map (m.date 168))
      | [] => [] }

/-- The wait of a front end, unless its turn's stream waits for a tick that the program names. -/
def State.heldFront (s : State) (v h : Nat) (k : Nat) (f : FrontEnd) : FrontEnd :=
  let x : Strm := if k % 2 = 0 then .acc else .exe
  let named : Bool := match f.turn with
    | some slot => (s.warp? (warpKey (k / 8) (slot * 4 + k / 2 % 4))).any fun (w : Warp) => (w.strm x).byTarget
    | none => false
  { f with waitUntil := if named then f.waitUntil else later v h f.waitUntil, busyUntil := later v h f.busyUntil }

/-- What the beats of a data command, as a hold has moved them, leave in the warp that issued it: its queue entries land with them, and its marks follow
(R193, R211, R212). -/
def State.heldBeats (s : State) (v : Nat) (c : EngCmd) : State :=
  let n := c.dst.length
  let late (b : DstBeat) : Nat := match b.w with
    | some w => if v ≤ w ∧ b.raised then w else 0
    | none => 0
  let mark := c.dst.foldl (fun x b => max x (late b)) 0
  let s := if c.tpl.toq && decide (n ≠ 0) then
      c.rids.zipIdx.foldl (fun s r => s.cmdWarp c fun w => w.fillResv c.tpl.qreg r.1 ((c.dst[min (2 * r.2 + 2) n - 1]?).bind (·.w)) none) s
    else s
  if mark = 0 then s else s.cmdWarp c fun w => w.raiseBy c.issue s.gtc (if c.dest.isHbm then 2 else 1) mark

/-- Every tick of a context that was due at v or later falls h ticks later (R76). -/
def State.shift (s : State) (v h : Nat) : State :=
  let moves : Tab Hold := (dedup (s.slots.map fun (e : Nat × List Nat) => e.1 / 8)).map fun c => (c, ⟨v, h, s.movesOf v h c⟩)
  let of (core : Nat) : Hold := moves.get ⟨v, h, []⟩ core
  let olds := s.writes.filterMap fun w => match w.ret with
    | .landing _ id => some id
    | _ => none
  let lag (id : Nat) : Nat := if olds.contains id then 216 else 128
  let coreOf (w : PWrite) : Nat := (s.tenant w.part).slotBase + w.wid / 32
  let s : State := { s with
    warps := s.warps.map fun (e : Nat × Warp) => (e.1, e.2.hold (of e.2.core) lag)
    writes := s.writes.map fun w => { w with wct := if w.cls = 0 then (of (coreOf w)).date 168 w.wct else later v h w.wct }
    reads := s.reads.map fun r => { r with rt := later v h r.rt }
    mails := s.mails.map fun m => { m with wct := later v h m.wct }
    fes := s.fes.map fun (e : Nat × FrontEnd) => (e.1, s.heldFront v h e.1 e.2)
    slots := s.slots.map fun (e : Nat × List Nat) => (e.1, e.2.map (of (e.1 / 8)).slot)
    beats := s.beats.map fun (e : Nat × Nat × Option Nat) => (match e.2.2 with
      | some c => (of c).slot e.1
      | none => e.1, e.2)
    hbmOut := s.hbmOut.map fun (e : Nat × List Nat) => (e.1, e.2.map fun t => max ((of e.1).date 128 t) ((of e.1).date 168 t))
    mulFree := s.mulFree.map fun (e : Nat × Nat) => (e.1, later v h e.2)
    stage := s.stage.map fun (e : Nat × List Staged) => (e.1, e.2.map fun b => { b with ready := later v h b.ready })
    walks := s.walks.map fun (e : Nat × Walk) => (e.1, { e.2 with done := later v h e.2.done })
    grids := s.grids.map fun (e : Nat × Grid) => (e.1, e.2.hold v h)
    journal := { s.journal with heads := s.journal.heads.map (later v h) }
    cmds := s.cmds.map fun (e : Nat × Cmd) => (e.1, if e.2.pkt.opcode = 4 then { e.2 with due := e.2.due.map (later v h) } else e.2)
    cmdsE := s.cmdsE.map fun (e : Nat × EngCmd) => (e.1, e.2.hold (of e.2.core)) }
  s.cmdsE.foldl (fun s (e : Nat × EngCmd) => if e.2.fn ≤ 3 ∧ !e.2.dst.isEmpty then s.heldBeats v e.2 else s) s

/-- The realignment is due (R76): tick 0 of leaf 16 of F_first + 3. -/
def State.gtcRealignDue (s : State) : Bool :=
  decide (s.sched.state = .realign) && s.sched.hold.isNone && decide (s.gtc = frameTick (s.sched.first + 3) + 16 * 4096)

/-- The step of a realignment (R76): the offset is PTP's, or in HOLDOVER that of the kerf edges. -/
def State.gtcStep (s : State) : Int := roundSixteenths (if s.time.holdover then s.time.kerf else s.time.ptp)

/-- The device is held from this tick on, before anything due on it takes effect (R76). -/
def State.holdsNow (s : State) : Bool := s.gtcRealignDue && decide (s.gtcStep.natAbs ≤ 32)

/-- GTC_REALIGN (R76). -/
def State.realign (s : State) : State :=
  if !s.gtcRealignDue then s
  else
    let v := s.gtc
    let d := s.gtcStep
    if 32 < d.natAbs then s.updSched Sched.halt
    else
      let n : Int := 64 + d % 8
      let h := (n - d).toNat
      let s := (s.shift v h).updSched fun c => { c with held := n.toNat, hold := some (v, h) }
      { s with gtc := ((v : Int) - d).toNat }

/-- GTC_REALIGN (R76). -/
def execGtcRealign (s : State) : Out := .next s.realign

/-- The hold is over (R76): the GTC reads v + h. -/
def State.holdOver (s : State) : Bool := match s.sched.hold with
  | some (v, h) => decide (0 < s.sched.held) && decide (v + h ≤ s.gtc)
  | none => false

/-- DEVICE_HOLD_END (R76). -/
def execDeviceHoldEnd (s : State) : Out := .next (if s.holdOver then s.updSched fun c => { c with held := 0 } else s)

/-! ### Relaunch and boundary images (R78, R79) -/

/-- The start tick of a relaunch (R78): the context's, relative to the first tick of its period, from the first tick of the
resume frame. -/
def relaunchStart (start base period resume : Nat) : Nat :=
  if start = 0 then 0
  else frameTick resume + (((start : Int) - frameTick base) % (frameTick period : Nat)).toNat

/-- A context is at work. -/
def State.atWork (s : State) (gid : Nat) : Bool :=
  s.grids.any fun (e : Nat × Grid) => decide (e.1 = gid) && e.2.status.isNone && !e.2.stopped

/-- The contexts that firmware relaunches: the latest boundary image of each with a frame of F_first or before (R78). -/
def State.relaunches (s : State) : List StoredImage :=
  let ok := s.fw.images.filter fun i => match i.frame with
    | some x => decide (x ≤ s.sched.first) && !s.atWork i.grid
    | none => false
  ok.filter fun i => !(ok.any fun j => decide (j.grid = i.grid) && decide (i.frame.getD 0 < j.frame.getD 0))

/-- One context is relaunched from its boundary image (R78, R129). Its stored images stay, as those of the relaunched context, with its start
tick as moved. -/
def State.relaunch (s : State) (base period : Nat) (i : StoredImage) : State :=
  let gid := s.fresh
  let moved (x : Nat) : Nat := relaunchStart x base period s.sched.resume
  let g := Grid.fresh i.part i.lq (s.lqueue i.lq).prio i.addr s.gtc (some s.gtc) (moved i.start)
  ({ s with grids := s.grids.put gid { g with slip0 := s.slips } }.updFw fun f =>
    { f with images := f.images.map fun (x : StoredImage) =>
        if x.grid = i.grid ∧ x.frame.isSome then { x with grid := gid, start := moved x.start } else x }).bump

/-- REALIGN becomes RUN on this tick (R75). -/
def State.resumeDue (s : State) : Bool := decide (s.sched.state = .realign) && decide (frameTick s.sched.resume ≤ s.gtc)

/-- RESUME_RUN (R75, R77, R78): the two latest boundary images of each context stay. -/
def execResumeRun (s : State) : Out :=
  .next <| if !s.resumeDue then s
  else
    let l := s.relaunches
    let period := (s.activeImage.map (·.period)).getD 1
    let s := l.foldl (fun s i => s.relaunch s.sched.base period i) s
    let s := s.updFw fun f => { f with images := f.images.filter fun (i : StoredImage) => i.frame.isNone || s.atWork i.grid }
    s.updSched fun c => { (c.start (c.chosen.getD c.image) c.resume) with rounds := min 0xFFFF (c.rounds + 1), hold := none, held := 0 }

/-- A boundary image is recorded on this tick (R79). -/
def State.boundaryDue (s : State) : Bool :=
  decide (s.sched.state = .run) && decide (s.gtc % frameTicks = 0) && s.isBoundary (frameOf s.gtc)

/-- Entries of a position whose instances have exited (R79). -/
def PosState.exited (p : PosState) : Nat := if p.runs then p.next - 1 else p.next

/-- The boundary image of one context: its writes are pool requests of the first class (R31, R79). -/
def State.boundaryOf (s : State) (gid : Nat) (g : Grid) : State :=
  let a := g.hdr.boundary + g.bcount % 2 * boundarySize g.npos
  let f := frameOf s.gtc
  let s := match s.cellsAt g.part a (g.contextImage a PosState.exited) with
    | none => s
    | some cs =>
      let s := s.sawWalks g.part ((List.range cs.length).map (a + ·))
      (dedup (cs.map fun (c : Nat × Byte) => c.1 / 64)).foldl (fun s b =>
        s.askPool ⟨0, g.part, g.lq, b * 64, 64, .cells (cs.filter fun (c : Nat × Byte) => decide (c.1 / 64 = b))⟩) s
  let older (i : StoredImage) : Bool := match i.frame with
    | some x => s.fw.images.any fun (j : StoredImage) => decide (j.grid = gid) && decide (x < j.frame.getD 0)
    | none => false
  let keep := s.fw.images.filter fun (i : StoredImage) => !(decide (i.grid = gid) && (older i || (i.frame.isSome && decide (i.addr = a))))
  let im : StoredImage := ⟨gid, g.hdr.layout, g.lq, a, some f, false, g.part, g.start⟩
  (s.updFw fun w => { w with images := keep ++ [im] }).updGrid gid
    fun g => { g with bcount := g.bcount + 1 }

/-- BOUNDARY_IMAGE (R79): for each resident POD context. -/
def execBoundaryImage (s : State) : Out :=
  .next <| if !s.boundaryDue then s
  else (s.podGrids.filter fun (e : Nat × Grid) => !e.2.stopped && e.2.poss.any fun (q : Nat × PosState) => !q.2.blocks.isEmpty).foldl
    (fun s (e : Nat × Grid) => s.boundaryOf e.1 e.2) s

end Sys2Proof.Machine
end

