-- ==== Sys2Proof/Machine/Time.lean ====
section
/-! DEFINITION. Global time: timing-port messages, the servo, kerf-edge observations, PPS, holdover and the TIME fault (R58 to
R63, R104). -/

namespace Sys2Proof

/-- A message that gives an offset estimate. -/
def PtpMsg.estimates (m : PtpMsg) : Bool := match m.kind with
  | .syncOneStep => true
  | .followUp => true
  | .delayResp => true
  | _ => false

/-- A Sync message. -/
def PtpMsg.sync (m : PtpMsg) : Bool := match m.kind with
  | .syncOneStep => true
  | .syncTwoStep => true
  | _ => false

/-- A log message interval of the profile (R59). -/
def PtpMsg.rateOk (m : PtpMsg) : Bool := decide (-7 ≤ m.logSync ∧ m.logSync ≤ 0)

end Sys2Proof

namespace Sys2Proof.Machine

/-- Ticks of a second (R58). -/
def second : Nat := 1300000000

/-- The offset lies within ±3 t (R60, R62). -/
def inLock (o : Int) : Bool := decide (o.natAbs ≤ 48)

/-- A TIME fault (R60, R62). -/
def State.timeFaulted (s : State) : State := (s.updTime fun t => { t with timeFault := true }).schedFault 7

/-- The servo weighs a new offset estimate (R60): LOCKED follows the estimate, an estimate beyond ±3 t in RUN is a TIME
fault, and phase 4 ends when the servo locks (R104). -/
def State.servo (s : State) (o : Int) : State :=
  let e := Config.servo s.time.servo o
  let s := s.updTime fun t => { t with servo := t.servo + 1, offset := e, locked := inLock e }
  let s := if s.sched.state = .run ∧ !inLock e then s.timeFaulted else s
  if s.inPhase 4 && s.time.counting && inLock e then s.enterPhase5 else s

/-- The timing port runs: from phase 4 on (R103, R104). -/
def State.timing (s : State) : Bool := s.live && decide (4 ≤ s.fw.phase) && !s.fw.fail

/-- The pod time of a TAI instant in nanoseconds, in 1/16 t and in ticks (R58); POD_EPOCH holds the epoch's second. -/
def State.podTime16 (s : State) (tai : Nat) : Int := ((tai : Int) - s.time.epoch.toNat * 10 ^ 9) * 13 * 16 / 10
def State.podTime (s : State) (tai : Nat) : Nat := (s.podTime16 tai / 16).toNat

/-- The offset that a message yields (R60): this device's time of its arrival less the pod time, in 1/16 t. -/
def State.offset16 (s : State) (m : PtpMsg) : Int := (s.gtc : Int) * 16 + m.frac.val - s.podTime16 m.tai

/-- A message meets the profile (R59, R63). -/
def State.meetsProfile (s : State) (m : PtpMsg) : Bool :=
  m.transportOk && decide (m.domain = s.time.domain) && match m.kind with
    | .syncOneStep => m.rateOk
    | .syncTwoStep => m.rateOk
    | .other => false
    | _ => true

/-- An Announce counts for three of its intervals. PRESUMED (log entry 64): the default profile of IEEE 1588. -/
def announceTicks (logInterval : Int) : Nat :=
  3 * (if 0 ≤ logInterval then second * 2 ^ logInterval.toNat else second / 2 ^ (-logInterval).toNat)

/-- An Announce is heard (R59): its sender's data set replaces the former one. -/
def State.heard (s : State) (m : PtpMsg) : State :=
  let x : Master := ⟨m.domain, m.source, m.rank, s.gtc + announceTicks m.logSync⟩
  s.updTime fun t => { t with masters := t.masters.filter (fun (y : Master) => decide (y.domain ≠ x.domain ∨ y.source ≠ x.source)) ++ [x] }

/-- The best master (R59): the least data set among the grandmasters heard in the domain. -/
def State.bestMaster (s : State) : Option Master :=
  (sortBy (fun (a b : Master) => decide (a.rank < b.rank))
    (s.time.masters.filter fun (x : Master) => decide (x.domain = s.time.domain ∧ s.gtc ≤ x.till))).head?

/-- A message of the selected master (R59). -/
def State.fromMaster (s : State) (m : PtpMsg) : Bool := s.bestMaster.any fun x => decide (x.source = m.source)

/-- The GTC begins to count at a pod time (R104). -/
def State.startTime (s : State) (now : Nat) : State :=
  let old := s.gtc
  ({ s with gtc := now } : State).updTime fun t =>
    { t with counting := true, lastSync := now, lastLock := now
             masters := t.masters.map fun (x : Master) => { x with till := x.till - old + now } }

/-- A message gives an offset estimate now (R60, R61): in HOLDOVER, which a Sync ends, none does. -/
def State.gives (s : State) (m : PtpMsg) : Bool := m.estimates && s.time.counting && !s.time.holdover

/-- PTP_MESSAGE (R58 to R62, R104): a message outside the profile is discarded, and so is one of a master that is not selected; the first
offset estimate of phase 4 loads the GTC; a Sync ends HOLDOVER. -/
def execPtpMessage (msg : PtpMsg) (s : State) : Out :=
  .next <| if !s.timing || !s.meetsProfile msg then s
  else if msg.kind = .announce then s.heard msg
  else if !s.fromMaster msg then s
  else
    let s := if s.inPhase 4 && !s.time.counting && msg.estimates && msg.kind ≠ .delayResp then s.startTime (s.podTime msg.tai) else s
    let s := if msg.sync then
        let now := s.gtc
        s.wake.updTime fun t => { t with lastSync := now, holdover := false }
      else s
    if s.gives msg then
      let o := s.offset16 msg
      (s.updTime fun t => { t with ptp := o }).servo o
    else s

/-- The offset that a PPS edge shows (R21): a pod second is a multiple of a second of ticks. -/
def State.ppsOffset (s : State) : Int :=
  let r := s.gtc % second
  16 * (if 2 * r ≤ second then (r : Int) else (r : Int) - second)

/-- PPS_IN (R21, R60 to R62): an edge within ±20 ns is a phase reference while REF10M is present, but in HOLDOVER; one outside it, or a missing
one, is not. -/
def execPpsIn (within : Bool) (s : State) : Out :=
  let s := (s.updTime fun t => { t with ppsOk := within }).updPkg fun p => { p with pps := within }
  .next (if within && s.time.refOk && s.timing && s.time.counting && !s.time.holdover then s.servo s.ppsOffset else s)

/-- The rising edge of PPS_OUT falls on this tick (R21). -/
def State.ppsDue (s : State) : Bool := s.live && s.time.counting && decide (s.gtc % second = 0)

/-- PPS_OUT (R21): the output rises on a multiple of a second of ticks. -/
def execPpsOut (s : State) : Out := .next (if s.ppsDue then s.updTime fun t => { t with ppsOut := true } else s)

/-- TIME_CFG_WRITE (R63). -/
def execTimeCfgWrite (val : BitVec 32) (s : State) : Out :=
  s.onLive fun s => .next (s.updTime fun t => { t with domain := field val.toNat 0 7 })

/-- A second has gone with neither a valid Sync nor a locked port, in RUN (R60). -/
def State.timeFaultDue (s : State) : Bool :=
  decide (s.sched.state = .run) && decide (max s.time.lastSync s.time.lastLock + second ≤ s.gtc)

/-- TIME_FAULT_TIMEOUT (R60): the second starts again afterwards. -/
def execTimeFaultTimeout (s : State) : Out :=
  .next <| if !s.timeFaultDue then s
  else
    let now := s.gtc
    s.timeFaulted.updTime fun t => { t with lastLock := now }

/-- Eight seconds without a valid Sync (R62). -/
def State.holdoverDue (s : State) : Bool :=
  s.timing && s.time.counting && !s.time.holdover && decide (s.time.lastSync + 8 * second ≤ s.gtc)

/-- HOLDOVER (R62). -/
def execHoldover (s : State) : Out := .next (if s.holdoverDue then s.updTime fun t => { t with holdover := true } else s)

/-! ### Kerf edges (R61) -/

/-- Observations of a leaf. -/
def State.kerfObs (s : State) (leaf : Nat) : List Int :=
  s.ports.filterMap fun (e : Nat × Port) => match e.2.kerf with
    | some (l, o) => if l = leaf then some o else none
    | none => none

/-- Sort integers. -/
def sortInts (l : List Int) : List Int := sortBy (fun (a b : Int) => decide (a < b)) l

/-- The observations that count: with 8 or more, the two highest and the two lowest go. -/
def kerfUsed (l : List Int) : List Int := if 8 ≤ l.length then ((sortInts l).drop 2).take (l.length - 4) else l

/-- PORT_LOCK (R45, R49, R61): the observation is the arrival less leaf tick 156, in 1/16 t; a port that locks by tick 160 is
locked for the leaf, and each observation gives a new mean, rounded down. DESIGN CHOICE (log entry 46): R61 gives no rounding, and the receiver of a
DEAD port neither locks nor observes; R57 says only that such a port transmits nothing. -/
def execPortLock (port : Fin 16) (tau16 : Nat) (s : State) : Out :=
  .next <| if !s.live || !s.time.counting || (s.port port.val).dead || (s.port port.val).far (leafOf s.gtc) then s
  else
    let leaf := s.gtc / 4096
    let now := s.gtc
    let o : Int := (tau16 : Int) - 156 * 16
    let inTime := decide (leafTick s.gtc ≤ 160)
    let s := s.updPort port.val fun p => { p with kerf := some (leaf, o), locked := if inTime then some leaf else p.locked }
    let used := kerfUsed (s.kerfObs leaf)
    let s := s.updTime fun t => { t with kerfPorts := used.length, lastLock := if inTime then now else t.lastLock }
    if used.isEmpty then s
    else
      let o := used.foldl (· + ·) 0 / (used.length : Int)
      (s.updTime fun t => { t with kerf := o }).servo o

end Sys2Proof.Machine
end

