-- ==== Sys2Proof/Machine/Fabric.lean ====
section
/-! DEFINITION. The optical fabric: partners, transmission, reception, replay, landings, relays, request records, failure notices,
multicast, keys and control records (R42 to R57, R61, R67, R70, R213, R393, R401, R402). -/

namespace Sys2Proof

/-! Fields of a descriptor (R54). -/

def FabRecord.kind (r : FabRecord) : Nat := field r.desc.toNat 124 4
def FabRecord.afn (r : FabRecord) : Nat := field r.desc.toNat 121 3
def FabRecord.len (r : FabRecord) : Nat := 16 * (field r.desc.toNat 114 7 + 1)
def FabRecord.odev (r : FabRecord) : Nat := field r.desc.toNat 105 9
def FabRecord.ocore (r : FabRecord) : Nat := field r.desc.toNat 97 8
def FabRecord.oq (r : FabRecord) : Nat := field r.desc.toNat 93 4
def FabRecord.tag (r : FabRecord) : Nat := field r.desc.toNat 77 16
def FabRecord.dcore (r : FabRecord) : Nat := field r.desc.toNat 32 8
def FabRecord.daddr (r : FabRecord) : Nat := field r.desc.toNat 0 23
/-- Reserved KIND, or a reserved field that is not zero (R55). -/
def FabRecord.bad (r : FabRecord) : Bool :=
  decide (7 ≤ r.kind) || decide (field r.desc.toNat 40 37 ≠ 0) || decide (field r.desc.toNat 23 9 ≠ 0)

end Sys2Proof

namespace Sys2Proof.Machine

/-! ### Partners (R43) -/

/-- Pod size: as assigned with the pod number, or else NDEV of the loaded images, which all carry the same one (R42, R69). -/
def State.podSize (s : State) : Nat :=
  s.sched.podSize.getD (((s.sched.images.head?).map fun (e : Nat × PodImage) => e.2.ndev).getD 0)

/-- The pod number that a port pairs with in a leaf of the frame. -/
def State.partner (s : State) (port leaf : Nat) : Nat := s.sched.podNumber ^^^ (32 * port + leaf)

/-- The partner exists, and is another device. -/
def State.paired (s : State) (port leaf : Nat) : Bool :=
  decide (s.partner port leaf < s.podSize) && decide (s.partner port leaf ≠ s.sched.podNumber)

/-- Leaves since GTC 0. -/
def leafNo (t : Nat) : Nat := t / 4096

/-- The port locked in the leaf of a tick (R45, R49). -/
def State.lockedIn (s : State) (port t : Nat) : Bool := decide ((s.port port).locked = some (leafNo t))

/-- The link of a port in a leaf is dead: its port is, or its path is too long (R44, R51). -/
def State.linkDead (s : State) (port leaf : Nat) : Bool := (s.port port).dead || (s.port port).far leaf

/-- A port sends in the leaf of a tick (R24, R43, R44, R51, R75). -/
def State.sends (s : State) (port t : Nat) : Bool :=
  s.mayTransmit && s.fw.tuned && s.paired port (leafOf t) && !s.linkDead port (leafOf t) &&
  !(decide (s.sched.state = .halted) && decide (s.sched.resume ≤ frameOf t))

/-! ### Dark and dead ports (R51, R57) -/

/-- PORT_DARK applies: leaf tick 160 of a leaf in which the partner exists. -/
def State.darkCheck (s : State) (port : Nat) : Bool :=
  s.live && s.fw.tuned && decide (leafTick s.gtc = 160) && s.paired port (leafOf s.gtc)

/-- What is left of the leaf before, another partner's, goes (R48, R49). -/
def Port.nextLeaf (p : Port) : Port := { p with verdicts := [], resend := [] }

/-- PORT_DARK (R44, R51, R57): a port that has not locked is dark, also over a link that is too long, and raises UNRECOVERED unless it or its link
is dead. -/
def execPortDark (port : Fin 16) (s : State) : Out :=
  let p := port.val
  .next <| if !s.darkCheck p then s
  else
    let s := s.updPort p Port.nextLeaf
    if s.lockedIn p s.gtc then s.updPort p fun x => { x with dark := false, darkLeaves := 0 }
    else
      let dead := s.linkDead p (leafOf s.gtc)
      let s := s.updPort p fun x => { x with dark := true, darkLeaves := x.darkLeaves + 1 }
      if dead then s else s.schedFault 6

/-- A port dies (R51): it has been dark for three leaves in a row, the present one the last; a host that clears DEAD afterwards leaves it
so until it is dark again. -/
def State.dying (s : State) (port : Nat) : Bool :=
  s.darkCheck port && !(s.port port).dead && decide (3 ≤ (s.port port).darkLeaves)

/-- PORT_DEAD (R51). -/
def execPortDead (port : Fin 16) (s : State) : Out :=
  .next (if s.dying port.val then s.updPort port.val fun x => { x with dead := true } else s)

/-! ### Runs (R67, R68) -/

/-- The run of the active image for a position, if a run names it. -/
def State.runAt (s : State) (t port : Nat) (tx : Bool) (pos : Nat) : Option Run :=
  match s.activeImage with
  | none => none
  | some i =>
    if frameOf t < s.sched.base then none
    else
      let f := (frameOf t - s.sched.base) % i.period
      i.runs.find? fun (r : Run) => decide (r.frame = f ∧ r.leaf = leafOf t ∧ r.port = port) && decide (r.tx = tx) &&
        decide (r.first ≤ pos ∧ pos < r.first + r.count)

/-- The scratch address that a run gives a position. -/
def Run.addrOf (r : Run) (pos : Nat) : Nat := r.addr + 4096 * (pos - r.first)

/-- Positions of POD grids that hold resources on a core. -/
def State.podHolders (s : State) (lcore : Nat) : List Holder :=
  s.holders.filter fun (h : Holder) => h.g.hdr.pod && decide (s.podPart = some h.g.part) && decide (h.g.lcore h.j = lcore)

/-- A scratch unit holds a position of a POD grid (R393). -/
def Holder.inUnit (h : Holder) (u : Nat) : Bool := decide (h.g.unit0 h.j ≤ u ∧ u < h.g.unit0 h.j + h.g.hdr.scru)

/-- The cells of a run's area on the core that it names: none for a byte in a unit without a POD position (R393, R402). -/
def State.runCells (s : State) (core addr : Nat) : List (Option Nat) :=
  let hs := s.podHolders core
  let dev := (s.tenant (s.podPart.getD 0)).slotBase + core
  (List.range 4096).map fun k =>
    let a := addr + k
    if hs.any fun h => h.inUnit (a / 65536) then some (scratchCell dev 0 a) else none

/-! ### Transmission (R46, R48, R52, R67, R70, R214, R401) -/

/-- The position whose start is a leaf tick. -/
def posAt (lt : Nat) : Option Nat :=
  if lt < 160 then none
  else
    let k := ((lt - 160) * 5 + 31) / 32
    if posStart k = lt ∧ k ≤ 614 then some k else none

/-- A replay position (R46). -/
def isReplay (k : Nat) : Bool := decide (k % 8 = 7)

/-- The data position that is read on this tick, 192 t before its start. -/
def State.readPos (s : State) : Option Nat := (posAt (leafTick (s.gtc + 192))).filter fun k => !isReplay k

/-- What a position carries: payload, poison bit and data-poison bit. -/
structure Content where
  payload : List Byte
  poison : Bool
  dataPoison : Bool
deriving DecidableEq, Repr

/-- A bundle of zeros. -/
def Content.empty : Content := ⟨leBytes 4096 0, false, false⟩

/-- A transmit buffer run that reads scratch (R67, R393, R401). -/
def State.readRunBytes (s : State) (r : Run) (pos : Nat) : Content :=
  let cs := s.runCells r.core (r.addrOf pos)
  ⟨cs.map fun (c : Option Nat) => (c.map s.byteAt).getD 0, false, cs.any fun (c : Option Nat) => match c with
    | some a => (s.markAt a).isSome
    | none => false⟩

/-- A staged position (R67, R214, R393): the m-th that the core transmits for the queue while a POD grid holds a position on it sends
the m-th bundle that this grid staged there; a bundle that is not ready is late. -/
def State.sendStaged (s : State) (r : Run) : Content × State :=
  match (s.podHolders r.core).head? with
  | none => (Content.empty, s)
  | some h =>
    let key := ((s.tenant h.g.part).slotBase + r.core) * 16 + r.eq
    let m := h.g.sent.get 0 key
    let s := s.updGrid h.gid fun g => { g with sent := g.sent.put key (m + 1) }
    match (s.stage.get [] key).find? fun (b : Staged) => decide (b.grid = h.gid ∧ b.num = m ∧ b.ready ≤ s.gtc) with
    | some b => (⟨b.data, false, b.poisoned⟩, { s with stage := s.stage.update [] key fun l => l.erase b })
    | none => ({ Content.empty with poison := true }, s.schedFault 5)

/-! ### Request records (R54) -/

/-- Bytes of data that a kind carries (R54). -/
def recordData (kind len : Nat) : Nat :=
  if kind = 1 ∨ kind = 3 then len else if kind = 4 ∨ kind = 5 then 16 else 0

/-- A descriptor. -/
def descOf (kind afn len odev ocore oq tag dcore daddr : Nat) : Nat :=
  kind * 2 ^ 124 + afn * 2 ^ 121 + (len / 16 - 1) % 2 ^ 7 * 2 ^ 114 + odev % 2 ^ 9 * 2 ^ 105 + ocore % 2 ^ 8 * 2 ^ 97 +
  oq % 2 ^ 4 * 2 ^ 93 + tag % 2 ^ 16 * 2 ^ 77 + dcore % 2 ^ 8 * 2 ^ 32 + daddr % 2 ^ 23

/-- The bytes of a record. -/
def RecOut.bytes (r : RecOut) : List Byte := leBytes 16 r.desc ++ r.data

/-- The origin core and queue of a record: their records keep their order (R54). -/
def RecOut.queue (r : RecOut) : Nat := field r.desc 93 4 + field r.desc 97 8 * 16 + field r.desc 105 9 * 4096

/-- The records that fit into a bundle to a device that starts on a tick, in their order; a record passes none of its own queue
(R54). -/
def packRecords (dest start : Nat) : List RecOut → Nat → List Nat → List RecOut × List RecOut
  | [], _, _ => ([], [])
  | r :: rs, room, held =>
    if r.dest = dest ∧ r.ready ≤ start ∧ r.bytes.length ≤ room ∧ r.queue ∉ held then
      let (a, b) := packRecords dest start rs (room - r.bytes.length) held
      (r :: a, b)
    else
      let (a, b) := packRecords dest start rs room (if r.dest = dest then r.queue :: held else held)
      (a, r :: b)

/-- Ticks of the period up to the next time that an offset in it comes round, from a tick on. -/
def untilNext (base period off t : Nat) : Nat :=
  let n := max 1 period * frameTicks
  (off + n - (t - frameTick base) % n) % n

/-- The runs of a device's section: this device's own, or another one's of the same pod image (R66). -/
def State.sectionOf (s : State) (i : PodImage) (dev : Nat) : List Run :=
  if dev = s.sched.podNumber then i.runs
  else (Config.farSection i.imageId dev).map fun e => readRun e.1 e.2.1 e.2.2.1 e.2.2.2.1 e.2.2.2.2

/-- The R50 tick, at the device for which it is meant, of the bundle that a device sends at a position of a run in a leaf that begins on tick `t`
(R50, R53, R54): directly, or through the relay at the other end of the link. -/
def State.arrivalOf (s : State) (i : PodImage) (dev dest : Nat) (r : Run) (pos t : Nat) : Option Nat :=
  let hop := dev ^^^ (32 * r.port + r.leaf)
  if hop = dest then some (t + landTick pos)
  else
    ((s.sectionOf i hop).find? fun (q : Run) => !q.tx && decide (q.use = 2 ∧ q.frame = r.frame ∧ q.leaf = r.leaf ∧ q.port = r.port) &&
        decide (q.first ≤ pos ∧ pos < q.first + q.count) && decide (hop ^^^ (32 * q.outPort + (q.leaf + q.outLeaf) % 32) = dest)).map
      fun (q : Run) => t + q.outLeaf * 4096 + landTick (q.outPos + (pos - q.first))

/-- The R50 tick, here, of the first request bundle on the route from a device that starts on a tick or later (R54, R213). -/
def State.returnAt (s : State) (i : PodImage) (dest t : Nat) : Option Nat :=
  let starts := ((s.sectionOf i dest).filter fun (r : Run) => r.tx && decide (r.use = 3 ∧ r.dest = s.sched.podNumber)).flatMap fun (r : Run) =>
    r.positions.map fun k => (untilNext s.sched.base i.period ((r.frame * 32 + r.leaf) * 4096 + posStart k) t, r, k)
  ((sortBy (fun (a b : Nat × Run × Nat) => decide (a.1 < b.1)) starts).head?).bind fun (e : Nat × Run × Nat) =>
    s.arrivalOf i dest s.sched.podNumber e.2.1 e.2.2 (t + e.1 - posStart e.2.2)

/-- The tick by which the other end of a route would have answered a record that leaves at a position of a run, in a leaf that begins on tick
`t` (R56, R213). -/
def State.answerBy (s : State) (r : Run) (pos t : Nat) : Nat × State :=
  match s.activeImage.bind fun i => (s.arrivalOf i s.sched.podNumber r.dest r pos t).bind fun l => s.returnAt i r.dest (l + 200) with
  | some n => (n, s)
  | none =>
    let (d, s) := s.drawn Config.returnTick
    (t + landTick pos + 200 + d, s)

/-- A command's record is placed in a bundle at a position of a run (R56, R193, R213): a put, or the last member of a multicast, has its
completion tick fixed; a multicast's status word goes to the warp's own core. -/
def State.recordPlaced (s : State) (r : Run) (pos t : Nat) (o : RecOut) : State :=
  match o.cmd.bind s.cmdsE.find? with
  | none => s
  | some c =>
    if c.fn = 5 ∨ c.fn = 8 then
      let (n, s) := s.answerBy r pos t
      let last := max c.mEnd n
      let left := c.waiting.filter (· ≠ o.member)
      let s := s.updCmd c.ord fun c => { c with mEnd := last, waiting := left }
      if left.isEmpty ∧ c.done.isNone then
        ((s.updCmd c.ord fun c => { (c.fixData last) with done := some last }).cmdWarp c fun w => w.raiseBy c.issue s.gtc c.fabricScope last).countNow c.ord
      else s
    else s

/-- A request position (R54). A bundle with a record of poisoned data has its data-poison bit set. DEDUCED (log entry 32): R218 and R401. -/
def State.sendRequests (s : State) (r : Run) (pos : Nat) : Content × State :=
  let u := s.gtc + 192
  let (now, later) := packRecords r.dest u s.recs 4096 []
  let bs := now.flatMap RecOut.bytes
  (⟨bs ++ leBytes (4096 - bs.length) 0, false, now.any (·.poisoned)⟩,
   now.foldl (State.recordPlaced · r pos (leafNo u * 4096)) { s with recs := later })

/-- What is read for a data position of the next 192 t; a relayed bundle, a control bundle and the record of a faulting device come at its
start. -/
def State.content (s : State) (port pos : Nat) : Content × State :=
  let u := s.gtc + 192
  if (leafOf u = 0 ∧ pos ≤ 6) ∨ s.sched.state.poisons then (Content.empty, s)
  else match s.runAt u port true pos with
    | none => (Content.empty, s)
    | some r =>
      if r.use = 1 then (if r.staged then s.sendStaged r else (s.readRunBytes r pos, s))
      else if r.use = 3 then s.sendRequests r pos
      else (Content.empty, s)

/-- The position whose first flit a port launches on this tick: early by the path delay of the leaf's link, so that it arrives on the tick that its
slot names (R44). -/
def State.launching (s : State) (port : Nat) : Option Nat := posAt (leafTick s.gtc + (s.port port).delays.get 0 (leafOf s.gtc))

/-- The data position that a port launches on this tick. -/
def State.startPos (s : State) (port : Nat) : Option Nat := (s.launching port).filter fun k => !isReplay k

/-- The relayed bundle whose position at a port starts on this tick (R53). -/
def State.relayDue (s : State) (port : Nat) : Option RelayBuf :=
  match posAt (leafTick s.gtc) with
  | none => none
  | some k => s.relays.find? fun (r : RelayBuf) => decide (r.outPort = port ∧ r.outPos = k ∧ r.outLeafTick = leafNo s.gtc * 4096)

/-- What a data position carries as it is launched (R47, R70, R75): the control record or zeros in the control positions, the record with the
poison bit while the device is in FAULT or AGREE, or else what was read. -/
def State.carried (s : State) (port pos : Nat) : Content :=
  let poison := s.sched.state.poisons
  let record := s.controlBytes (frameOf s.gtc)
  if leafOf s.gtc = 0 ∧ pos ≤ 6 then { Content.empty with payload := if pos = 0 then record else leBytes 4096 0, poison := poison }
  else if poison then ⟨record, true, false⟩
  else match (s.port port).drafts.find? fun (d : Draft) => decide (d.pos = pos ∧ d.leaf = leafNo s.gtc) with
    | some d => ⟨d.payload, d.poison, d.dataPoison⟩
    | none => Content.empty

/-- The key generation of a bundle counter (R52): a rotation holds from the counter that was named on. -/
def keyGen (rots : List Nat) (counter : Nat) : Nat := (rots.filter (· ≤ counter)).length

/-- The initialisation vector and the additional data of a bundle (R52). -/
def bundleIv (tx port counter : Nat) : Nat := tx * 2 ^ 87 + port * 2 ^ 83 + counter % 2 ^ 64
def bundleAad (leaf port pos : Nat) : List Byte := leBytes 8 (leaf % 2 ^ 50 * 2 ^ 14 + port * 2 ^ 10 + pos)

/-- The cipher text and the tag of a payload under the key of its direction of the leaf's link (R52). -/
def State.seal (s : State) (port pos counter : Nat) (payload : List Byte) : List Byte × Nat :=
  let leaf := leafOf s.gtc
  Config.gcmSeal (Config.linkKey s.sched.podNumber (s.partner port leaf) port (keyGen ((s.port port).txRots.get [] leaf) counter))
    (bundleIv s.sched.podNumber port counter) (bundleAad (leafNo s.gtc) port pos) payload

/-- A bundle as a port launches it (R44, R46, R48, R52): sealed under the key of its direction, with the verdicts that wait. -/
def State.sealed (s : State) (port pos : Nat) (c : Content) : TxBundle :=
  let x := s.port port
  let e := s.seal port pos x.counter c.payload
  ⟨pos, leafNo s.gtc, s.gtc, x.counter, keyGen (x.txRots.get [] (leafOf s.gtc)) x.counter, e.1, e.2, c.poison, c.dataPoison, x.verdicts⟩

/-- A bundle is sent and kept (R48, R52). -/
def Port.sent (x : Port) (b : TxBundle) : Port :=
  { x with counter := x.counter + 1, verdicts := []
           drafts := x.drafts.filter fun (d : Draft) => decide (d.pos ≠ b.pos ∨ d.leaf ≠ b.leaf)
           store := (x.store ++ [b]).drop (x.store.length - 63), out := some b }

/-- The data position that a port launches now is sent. -/
def State.sendNow (s : State) (port pos : Nat) : State :=
  let b := s.sealed port pos (s.carried port pos)
  s.updPort port fun x => x.sent b

/-- A data position is launched on this tick at a port that sends. -/
def State.startsNow (s : State) (port pos : Nat) : Bool := decide (s.startPos port = some pos) && s.sends port s.gtc

/-- The control record's position of this tick (R70). -/
def State.controlPos (s : State) (port pos : Nat) : Bool := decide (leafOf s.gtc = 0 ∧ pos = 0 ∧ port ≠ 0)

/-- BUNDLE_TRANSMIT (R44, R46 to R48, R52, R67, R70): a data position is read 192 t before it starts, and is sent as it is launched, unless it is the
control record's. -/
def execBundleTransmit (port : Fin 16) (pos : Nat) (s : State) : Out :=
  let p := port.val
  .next <|
    let s := if s.readPos = some pos ∧ s.sends p (s.gtc + 192) then
        let (c, s) := s.content p pos
        let d : Draft := ⟨pos, leafNo (s.gtc + 192), c.payload, c.poison, c.dataPoison⟩
        s.updPort p fun x => { x with drafts := x.drafts ++ [d] }
      else s
    if s.startsNow p pos && !s.controlPos p pos then s.sendNow p pos else s

/-- CONTROL_RECORD is due (R44, R70): a port launches position 0 of leaf 0. -/
def State.controlDue (s : State) : Bool := s.live && s.fw.tuned && (List.range 16).any fun p => s.startsNow p 0 && s.controlPos p 0

/-- CONTROL_RECORD (R70): position 0 of ports 1 to 15 carries the record as it stands when the port launches it. -/
def execControlRecord (s : State) : Out :=
  .next <| if !s.controlDue then s
  else (List.range 16).foldl (fun s p => if s.startsNow p 0 && s.controlPos p 0 then s.sendNow p 0 else s) s

/-! ### Relay (R53, R70) -/

/-- The bundle of a position carries a relayed payload: the count, the verdicts and the launch that it has stay (R52, R53). -/
def State.refill (s : State) (port : Nat) (r : RelayBuf) (b : TxBundle) : TxBundle :=
  let e := s.seal port b.pos b.counter r.payload
  { b with cipher := e.1, tag := e.2, poison := r.poison, dataPoison := r.dataPoison }

/-- RELAY (R53, R70): the bundle held in the relay store is encrypted for its outgoing position, which starts now; a device in FAULT or AGREE
keeps its own record there. DEDUCED (log entry 63): R53 lets it reach the store up to 16 t before that start, which can be after the launch of the
position's first flit (R44). -/
def execRelay (port : Fin 16) (pos : Nat) (s : State) : Out :=
  let p := port.val
  .next <| match s.relayDue p with
    | none => s
    | some r =>
      if r.outPos ≠ pos then s
      else
        let leaf := leafNo s.gtc
        let mine (b : TxBundle) : Bool := decide (b.pos = pos ∧ b.leaf = leaf)
        let t := if s.sched.state.poisons || decide (leafOf s.gtc = 0 ∧ pos ≤ 6) then s
          else s.updPort p fun x => { x with store := x.store.map fun b => if mine b then s.refill p r b else b
                                             out := x.out.map fun b => if mine b then s.refill p r b else b }
        { t with relays := t.relays.erase r }

/-! ### Replay (R48, R49) -/

/-- The bundle that a port replays on this tick: the lowest failed position that shares the replay position. -/
def State.replayDue (s : State) (port : Nat) : Option Nat :=
  match s.launching port with
  | none => none
  | some q =>
    if !isReplay q then none
    else (sortBy (fun (a b : Nat) => decide (a < b)) ((s.port port).resend.filter fun k => decide (replayPos k = q))).head?

/-- REPLAY (R44, R49, R57): the stored bundle goes out again unchanged; the others of its replay position are lost. -/
def execReplay (port : Fin 16) (pos : Nat) (s : State) : Out :=
  let p := port.val
  .next <| match s.replayDue p with
    | none => s
    | some k =>
      if s.launching p ≠ some pos ∨ !s.sends p s.gtc then s
      else
        let leaf := leafNo s.gtc
        let now := s.gtc
        s.updPort p fun x =>
          { x with out := (x.store.find? fun (b : TxBundle) => decide (b.pos = k ∧ b.leaf = leaf)).map fun b =>
                     { b with launch := now }
                   replays := min 0xFFFF (x.replays + 1)
                   resend := x.resend.filter fun j => decide (replayPos j ≠ pos) }

/-! ### Reception (R48, R49, R51, R52, R70) -/

/-- An unrecovered bundle (R51) of a leaf: counted, and a schedule fault unless the link is dead. -/
def State.lose (s : State) (port leaf : Nat) : State :=
  let dead := s.linkDead port leaf
  let s := s.updPort port fun x => { x with unrec := min 0xFF (x.unrec + 1) }
  if dead then s else s.schedFault 6

/-- A number of 64 bits, none when it is all ones. -/
def ofOnes (n : Nat) : Option Nat := if n = 2 ^ 64 - 1 then none else some n

/-- The control record in a payload (R70). -/
def readControl (bs : List Byte) : CtrlRecord where
  sender := getLE bs 4 2
  state := getLE bs 6 1
  cause := getLE bs 7 1
  frame := getLE bs 8 8
  fFirst := ofOnes (getLE bs 16 8)
  fResume := ofOnes (getLE bs 24 8)
  imageId := BitVec.ofNat 256 (getLE bs 32 32)
  offset := signedField (getLE bs 64 2) 16
  faulted := (List.range 512).filter fun d => ((bs.getD (128 + d / 8) 0).toNat).testBit (d % 8)
  dead := (pieces 2 (min 1952 (getLE bs 66 2)) (bs.drop 192)).map fun b => (leNat b / 16 % 512, leNat b % 16)
  zeroTail := true

/-- The verdicts that a bundle carries for this port's own bundles (R48, R49). -/
def Port.judged (p : Port) (vs : List (Nat × Bool)) (leaf : Nat) : Port :=
  vs.foldl (fun (p : Port) v =>
    if v.2 then { p with store := p.store.filter fun (b : TxBundle) => decide (b.pos ≠ v.1 ∨ b.leaf ≠ leaf) }
    else if isLate v.1 || !(p.store.any fun (b : TxBundle) => decide (b.pos = v.1 ∧ b.leaf = leaf)) then p
    else { p with resend := if p.resend.contains v.1 then p.resend else p.resend ++ [v.1] }) p

/-- The absolute R50 tick of a position of this leaf. -/
def State.landAbs (s : State) (pos : Nat) : Nat := leafNo s.gtc * 4096 + landTick pos

/-- The bundle of a position is whole on this tick (R45, R49): on the last tick of its position, or of its replay position. -/
def State.arrives (s : State) (pos : Nat) (replayed : Bool) : Bool :=
  !isReplay pos && decide (pos ≤ 614) && !(replayed && isLate pos) &&
  decide (leafTick s.gtc = posEnd (if replayed then replayPos pos else pos))

/-- The plain text of a received bundle, when every CRC and the tag are right (R48, R52). -/
def State.opened (s : State) (port pos : Nat) (rx : RxBundle) : Option (List Byte) :=
  let leaf := leafOf s.gtc
  let tx := s.partner port leaf
  if rx.crcOk then
    Config.gcmOpen (Config.linkKey tx s.sched.podNumber port (keyGen ((s.port port).rxRots.get [] leaf) rx.counter)) (bundleIv tx port rx.counter)
      (bundleAad (leafNo s.gtc) port pos) rx.cipher rx.tag
  else none

/-- What a good bundle tells at once (R70, R73): CONTAGION, PROTO_ERR of positions 1 to 6 of the control leaf, and a control record. A record of
another FORMAT than 1 is ignored. DESIGN CHOICE (log entry 48): R70 gives one FORMAT and no effect of any other. -/
def State.readBundle (s : State) (port : Fin 16) (pos : Nat) (poison : Bool) (bs : List Byte) : State :=
  let ctl := decide (leafOf s.gtc = 0) && decide (pos ≤ 6)
  let s := if poison then s.schedFault 8 else s
  let s := if ctl && decide (pos ≠ 0) && bs.any (· ≠ 0) then s.updPort port.val fun x => { x with protoErr := true } else s
  if ((ctl && decide (pos = 0)) || (poison && !ctl)) && decide (getLE bs 0 4 = 1) then
    { s with pending := .controlRecordReceive port (readControl bs) :: s.pending }
  else s

/-- BUNDLE_RECEIVE (R45, R46, R48, R49, R51, R52, R70): a data bundle, or the replay of one, arrives at a locked port. -/
def execBundleReceive (port : Fin 16) (pos : Nat) (rx : RxBundle) (s : State) : Out :=
  let p := port.val
  .next <| if !s.live || !s.lockedIn p s.gtc || !s.paired p (leafOf s.gtc) || !s.arrives pos rx.replayed then s
  else
    let leaf := leafNo s.gtc
    let plain := s.opened p pos rx
    let good := plain.isSome
    let s := s.updPort p fun x => x.judged rx.verdicts leaf
    let s := if rx.replayed then s else s.updPort p fun x => { x with verdicts := x.verdicts ++ [(pos, rx.crcOk)] }
    let s := if rx.crcOk && !good then s.updPort p fun x => { x with authFail := true } else s
    let lost := !good && (rx.crcOk || rx.replayed || isLate pos)
    let s := if lost then s.lose p (leaf % 32) else s
    let l : LandBuf := ⟨pos, leaf, s.landAbs pos, good, lost, rx.poison, rx.dataPoison, rx.source, plain.getD []⟩
    let s := s.updPort p fun x => { x with lands := x.lands.filter (fun (b : LandBuf) => decide (b.pos ≠ pos ∨ b.leaf ≠ leaf)) ++ [l] }
    match plain with
    | none => s
    | some bs => s.readBundle port pos rx.poison bs

/-- An earlier fault frame, with its cause and the devices that it names, joins the round (R70, R75). -/
def Sched.joinFault (c : Sched) (f cause : Nat) (devs : List Nat) : Sched :=
  let known := minOpt c.knownFirst f
  { c with
    firstCause := if f ≤ c.knownFirst.getD (f + 1) then cause else c.firstCause
    knownFirst := some known
    first := if c.state = .fault then known else c.first
    resume := if c.state = .fault then known + 4 else c.resume
    faulted := dedup (c.faulted ++ devs) }

/-- A record names another round than this device's (R75). -/
def State.mismatched (s : State) (rec : CtrlRecord) : Bool :=
  decide ((s.sched.state = .agree ∨ s.sched.state = .realign) ∧ s.sched.first + 3 ≤ rec.frame ∧
    ¬ (rec.fFirst = some s.sched.first ∧ rec.fResume = some s.sched.resume ∧ rec.imageId.toNat = s.imageId))

/-- CONTROL_RECORD_RECEIVE (R70, R73 to R75): up to the end of frame F_first + 1 the dead links join what is known, and so do the earliest
fault frame and the faulted devices; from F_first + 3 on, the agreed fields must match. -/
def execControlRecordReceive (port : Fin 16) (rec : CtrlRecord) (s : State) : Out :=
  .next <| if !s.live then s else
    let s := if rec.zeroTail then s else s.updPort port.val fun x => { x with protoErr := true }
    let early := decide (s.sched.state = .run ∨ s.sched.state = .fault)
    let s := if early then s.updSched fun c => { c with deadLinks := dedup (c.deadLinks ++ rec.dead) } else s
    let s := match rec.fFirst with
      | none => s
      | some f =>
        let s := s.schedFault 8
        if early then s.updSched fun c => c.joinFault f rec.cause rec.faulted else s
    if s.mismatched rec then s.updSched fun c => if c.state = .realign then c.halt else { c with agreeOk := false } else s

/-! ### Landings (R50, R51, R53 to R55, R393, R401) -/

/-- The leaf (counted from GTC 0) of a position whose R50 tick is now. -/
def State.landLeaf (s : State) (pos : Nat) : Option Nat :=
  if leafNo s.gtc * 4096 + landTick pos = s.gtc then some (leafNo s.gtc)
  else if leafNo s.gtc * 4096 + landTick pos = s.gtc + 4096 then some (leafNo s.gtc - 1)
  else none

/-- The data positions whose R50 tick, counted from their leaf, is a number of ticks (R50). -/
def landersAt (n : Nat) : List Nat :=
  let late := ((List.range 51).map (564 + ·)).filter fun k => !isReplay k && decide (posEnd k + 32 = n)
  match ((List.range 76).map (8 * · + 7)).find? fun q => decide (posEnd q + 32 = n) with
  | none => late
  | some q => ((List.range 564).filter fun k => !isReplay k && decide (replayPos k = q)) ++ late

/-- Receive positions of a port with an R50 tick now (R49, R50): every data position of a leaf whose partner exists, and any whose bundle
waits in the buffer. -/
def State.landsNow (s : State) (port : Nat) : List Nat :=
  let lt := leafTick s.gtc
  let on (t : Nat) : Bool := s.live && s.fw.tuned && s.paired port (leafOf t)
  let cur := if on s.gtc then landersAt lt else []
  let prev := if 4096 ≤ s.gtc ∧ lt < 32 ∧ on (s.gtc - 4096) then landersAt (lt + 4096) else []
  let buf := ((s.port port).lands.filter fun (b : LandBuf) => decide (b.wct = s.gtc)).map fun (b : LandBuf) => b.pos
  sortBy (fun (a b : Nat) => decide (a < b)) (dedup (prev ++ cur ++ buf))

/-- A write of the fabric at its R50 tick, in the order of port and position, after every local write of the tick (R50, R190). -/
def State.landWrite (s : State) (port pos : Nat) (cells : List (Nat × Byte × Option MCls)) : State :=
  s.writeNow ⟨s.gtc, 1, port, pos, s.applied.length, cells, [], .none, none, none, 0, []⟩

/-- An atomic record takes effect in the same order (R54, R192); its reply, the latest record of those that wait, gets the old word. -/
def State.landAtom (s : State) (port pos : Nat) (a : Atom) (id : Nat) : State :=
  s.writeNow ⟨s.gtc, 1, port, pos, s.applied.length, [], [a], .answer id, none, none, 0, []⟩

/-- The records of a bundle from byte 0 on, up to its end, kind 0, or the first one that breaks R55 (R54, R55). DESIGN CHOICE (log entry 49): a record
whose LEN runs past the end of the bundle has zeros for the bytes that are missing. -/
def readRecords (pos : Nat) (poison : Bool) : Nat → List Byte → List FabRecord
  | 0, _ => []
  | n + 1, bs =>
    if bs.length < 16 then []
    else
      let d : BitVec 128 := BitVec.ofNat 128 (leNat (bs.take 16))
      let k := field d.toNat 124 4
      if k = 0 then []
      else
        let r0 : FabRecord := ⟨d, [], pos, poison⟩
        let m := recordData k r0.len
        let r : FabRecord := { r0 with data := (bs.drop 16).take m }
        if r.bad then [r] else r :: readRecords pos poison n (bs.drop (16 + m))

/-- What a record of a bundle asks for next: a failure notice comes from the device whose route its bundle travels, and its DCORE names the
core of the record that was not performed (log entry 13). -/
def recordStep (port : Fin 16) (source : Nat) (r : FabRecord) : Instr :=
  if r.kind = 6 ∧ !r.bad then .failureNotice port source r else .requestRecord port r

/-- The bytes of a draw, where nothing says what a byte holds. -/
def freeBytes (n d : Nat) : List Byte := (List.range n).map fun k => BitVec.ofNat 8 (field d (8 * k) 8)

/-- The bundle of a position at its R50 tick, as the landing buffer holds it; the bytes of one that did not come whole are free (R49, R51). -/
def State.landed (s : State) (port pos leaf : Nat) : LandBuf × State :=
  let b : LandBuf := ((s.port port).lands.find? fun (b : LandBuf) => decide (b.pos = pos ∧ b.leaf = leaf)).getD
    ⟨pos, leaf, s.gtc, false, false, false, false, 0, []⟩
  let s := s.updPort port fun x => { x with lands := x.lands.filter fun (b : LandBuf) => decide (b.pos ≠ pos ∨ b.leaf ≠ leaf) }
  if b.ok then (b, s)
  else
    let (d, s) := s.drawn Config.draw
    ({ b with payload := freeBytes 4096 d }, if b.raised then s else s.lose port (leaf % 32))

/-- LANDING (R49 to R51, R53, R54, R393, R401): at its R50 tick a bundle lands, enters the relay store, gives its records, or is
discarded; one that has not come whole is unrecovered. -/
def execLanding (port : Fin 16) (pos : Nat) (s : State) : Out :=
  let p := port.val
  .next <| match s.landLeaf pos with
    | none => s
    | some leaf =>
      if !(s.landsNow p).contains pos then s
      else
        let t := leaf * 4096
        let (b, s) := s.landed p pos leaf
        match s.runAt t p false pos with
        | none => s
        | some r =>
          if r.use = 1 then
            let mark := if b.ok && !b.poison && !b.dataPoison then none else some MCls.fabric
            s.landWrite p pos ((s.runCells r.core (r.addrOf pos)).zipIdx.filterMap fun (e : Option Nat × Nat) =>
              e.1.map fun a => (a, b.payload.getD e.2 0, mark))
          else if r.use = 2 then
            let x : RelayBuf := ⟨r.outPort, r.outPos + (pos - r.first), t + r.outLeaf * 4096, b.payload, !b.ok || b.poison, b.dataPoison⟩
            { s with relays := s.relays ++ [x] }
          else if r.use = 3 ∧ b.ok ∧ !b.poison then
            { s with pending := (readRecords pos b.dataPoison 256 b.payload).map (recordStep port b.source) ++ s.pending }
          else s

/-! ### Performing records (R54 to R56, R213) -/

/-- The grid on a logical core whose landing regions hold a span (R55): the first resident position's, of whatever partition. DESIGN CHOICE (log
entry 49): R55 does not say whose logical core DCORE names. -/
def State.landGrid (s : State) (lcore addr n : Nat) : Option Grid :=
  (s.holders.find? fun (h : Holder) => decide (h.g.lcore h.j = lcore) && h.g.lands lcore addr n).map fun (h : Holder) => h.g

/-- Send a record to a device (R54, R213): ready 200 t from now. -/
def State.answer (s : State) (dest desc : Nat) (data : List Byte) (poisoned : Bool) : State :=
  { s with recs := s.recs ++ [⟨s.gtc + 200, dest, desc, data, poisoned, none, 0, []⟩] }

/-- Send the data that a get asks for (R191, R213): it is read on this tick, once every write of the tick has taken effect. -/
def State.answerGet (s : State) (dest desc : Nat) (as : List Nat) : State :=
  { s with recs := s.recs ++ [⟨s.gtc + 200, dest, desc, [], false, none, 0, as⟩] }

/-- Send the reply of an atomic record; its old word comes as the record takes effect (R54). -/
def State.answerAtom (s : State) (dest desc : Nat) : State :=
  State.bump { s with recs := s.recs ++ [⟨s.gtc + 200, dest, desc, leBytes 16 0, false, none, s.fresh + 1, []⟩] }

/-- The answers to this tick's gets read their data (R213, R401). -/
def State.fetchGets (s : State) : State :=
  { s with recs := s.recs.map fun (r : RecOut) =>
      if r.fetch.isEmpty then r else { r with data := r.fetch.map s.byteAt, poisoned := (s.firstMark r.fetch).isSome, fetch := [] } }

/-- The command of this device that a reply names (R54, R367): the first, when two resident grids hold the same logical core. DESIGN CHOICE
(log entry 49): OCORE, OQ and TAG do not tell them apart. -/
def State.fabricCmd (s : State) (fn core queue tag : Nat) : Option EngCmd :=
  (s.cmdsE.map (·.2)).find? fun (c : EngCmd) => decide (c.fn = fn ∧ c.core - (s.tenant c.part).slotBase = core ∧ c.queue = queue ∧ c.tag = tag) &&
    c.s.isSome && (c.done.isNone || decide (fn = 5 ∨ fn = 8))

/-- The bytes of a get's data or an atomic's reply at the origin: they land in mode 0 (R175, R213, R367). -/
def EngCmd.replyBytes (c : EngCmd) : List Nat := if c.fn = 6 then c.landBytes (c.word 5) (c.tpl.e 0) else c.landBytes (c.word 7) 4

/-- A reply lands at its origin and completes its command (R193, R213); poisoned data is a fault found after issue (R218). -/
def State.replyLands (s : State) (c : EngCmd) (port pos : Nat) (data : List Byte) (mark : Option MCls) : State :=
  let s := if c.killed then s else s.landWrite port pos (c.replyBytes.zipIdx.map fun a => (a.1, data.getD a.2 0, mark))
  (s.updCmd c.ord fun c => c.met mark).finishCmd c.ord 1

/-- REQUEST_RECORD (R54, R55, R213, R401). -/
def execRequestRecord (port : Fin 16) (rec : FabRecord) (s : State) : Out :=
  .next <| if !s.live then s else
    let back (kind len dcore : Nat) : Nat := descOf kind 0 len rec.odev rec.ocore rec.oq rec.tag dcore 0
    let mark := if rec.poison then some MCls.fabric else none
    if rec.bad then s.updPort port.val fun x => { x with protoErr := true }
    else if rec.kind = 1 ∨ rec.kind = 2 ∨ rec.kind = 4 then
      let n := if rec.kind = 4 then 4 else rec.len
      match (if rec.kind = 4 ∧ rec.daddr % 4 ≠ 0 then none else s.landGrid rec.dcore rec.daddr n) with
      | none => s.answer rec.odev (back 6 16 rec.dcore) [] false
      | some g =>
        let core := (s.tenant g.part).slotBase + rec.dcore
        let as := (List.range n).map fun k => scratchCell core 0 (rec.daddr + k)
        if rec.kind = 1 then s.landWrite port.val rec.pos (as.zipIdx.map fun a => (a.1, rec.data.getD a.2 0, mark))
        else if rec.kind = 2 then s.answerGet rec.odev (back 3 rec.len rec.ocore) as
        else
          (s.answerAtom rec.odev (back 5 16 rec.ocore)).landAtom port.val rec.pos
            ⟨0, as, rec.afn, wordOfNat (getLE rec.data 0 4), wordOfNat (getLE rec.data 4 4)⟩ (s.fresh + 1)
    else if rec.odev ≠ s.sched.podNumber then s
    else match s.fabricCmd (if rec.kind = 3 then 6 else 7) rec.ocore rec.oq rec.tag with
      | none => s
      | some c => s.replyLands c port.val rec.pos rec.data mark

/-- A get or an atomic fails (R213): the bytes that its data would have filled are poisoned. -/
def State.replyFails (s : State) (c : EngCmd) (port pos : Nat) : State :=
  let (d, s) := s.drawn Config.draw
  ((if c.killed then s else s.landWrite port pos ((c.replyBytes.zip (freeBytes c.replyBytes.length d)).map fun a =>
    (a.1, a.2, some MCls.fabric))).markFailed c).finishCmd c.ord 1

/-- Members of a multicast on a core of a device. -/
def EngCmd.membersAt (c : EngCmd) (dev dcore : Nat) : List Nat :=
  (c.idx.zipIdx.filter fun (e : Nat × Nat) => decide (field e.1 0 9 = dev ∧ field e.1 9 8 = dcore)).map fun (e : Nat × Nat) => e.2

/-- FAILURE_NOTICE (R55, R56, R213): a put is marked failed; in place of data the named bytes are poisoned; a branch of a multicast
fails. -/
def execFailureNotice (port : Fin 16) (dev : Nat) (rec : FabRecord) (s : State) : Out :=
  let find (fn : Nat) := s.fabricCmd fn rec.ocore rec.oq rec.tag
  .next <| if !s.live || decide (rec.odev ≠ s.sched.podNumber) then s
  else match find 5, find 6, find 7, find 8 with
    | some c, _, _, _ => s.markFailed c
    | _, some c, _, _ => s.replyFails c port.val rec.pos
    | _, _, some c, _ => s.replyFails c port.val rec.pos
    | _, _, _, some c =>
      s.updCmd c.ord fun c => { c with failMask := (c.membersAt dev rec.dcore).foldl (fun m k => m ||| 2 ^ k) c.failMask }
    | _, _, _, _ => s

/-! ### Fabric commands at s + 8 (R56, R213, R367) -/

/-- A destination that fails without sending (R367): this device, no device, or no running schedule at issue. -/
def State.deadDest (s : State) (dest : Nat) : Bool :=
  let dev := field dest 0 9
  decide (dev = s.sched.podNumber) || decide (field dest 17 15 ≠ 0) || match s.activeImage with
    | some i => decide (i.ndev ≤ dev)
    | none => true

/-- A route crosses a dead port or link at this end of its first link (R44, R56). -/
def State.routeDead (s : State) (dest : Nat) : Bool :=
  match s.activeImage with
  | none => true
  | some i => i.runs.any fun (r : Run) => r.tx && decide (r.use = 3 ∧ r.dest = dest) &&
      (s.linkDead r.port r.leaf || s.sched.deadLinks.contains (s.partner r.port r.leaf, r.port))

/-- Members that fail without sending (R56, R367). -/
def State.badMembers (s : State) (c : EngCmd) (ms : List Nat) : List Nat :=
  (ms.zipIdx.filter fun (e : Nat × Nat) => c.failMask.testBit e.2 || s.deadDest e.1 || s.routeDead (field e.1 0 9)).map
    fun (e : Nat × Nat) => e.2

/-- A record of a command to one DEST; the poison of a put's source bytes goes with it (R218). -/
def State.recordOf (s : State) (c : EngCmd) (dest : Nat) (member : Nat) : RecOut :=
  let n := c.tpl.e 0
  let kind := if c.fn = 6 then 2 else if c.fn = 7 then 4 else 1
  let afn := if c.fn = 7 then c.tpl.op % 8 else 0
  let src : List Byte × Option MCls := if c.fn = 6 then ([], none)
    else if c.fn = 7 then (leBytes 4 (c.word 5) ++ leBytes 4 (c.word 6) ++ leBytes 8 0, none)
    else c.captured (c.spanBytes (c.word 5) n)
  ⟨s.gtc + 192, field dest 0 9,
   descOf kind afn n s.sched.podNumber (c.core - (s.tenant c.part).slotBase) c.queue c.tag (field dest 9 8) (field (c.word 4) 0 23),
   src.1, src.2.isSome, some c.ord, member, []⟩

/-- The records of one command on its read tick s + 8. -/
def State.sendCommand (s : State) (c : EngCmd) : State :=
  let src := if c.fn = 5 ∨ c.fn = 8 then (c.captured (c.spanBytes (c.word 5) (c.tpl.e 0))).2 else none
  if c.fn ≠ 8 then
    let s := s.updCmd c.ord fun c => { c.met src with waiting := [0] }
    { s with recs := s.recs ++ [s.recordOf c (c.word 3) 0] }
  else
    let ms := (pieces 4 (c.tpl.e 1) (c.captured (c.spanBytes (c.word 3) (4 * c.tpl.e 1))).1).map leNat
    let list := (c.captured (c.spanBytes (c.word 3) (4 * c.tpl.e 1))).2
    let bad := s.badMembers c ms
    let live := (List.range ms.length).filter fun k => !bad.contains k
    let s := s.updCmd c.ord fun c =>
      { (c.met (list <|> src)) with idx := ms, waiting := live, failMask := bad.foldl (fun m k => m ||| 2 ^ k) 0 }
    { s with recs := s.recs ++ live.map fun k => s.recordOf c (ms.getD k 0) k }

/-- Fabric commands whose read tick is now. -/
def State.fabricReads (s : State) : State :=
  s.engOrder.foldl (fun s o => match s.cmdsE.find? o with
    | none => s
    | some c => if 5 ≤ c.fn ∧ c.fn ≤ 8 ∧ c.readAt = some s.gtc ∧ c.done.isNone then s.sendCommand c else s) s

/-- Multicasts that resolve on this tick (R56). -/
def State.resolving (s : State) : List EngCmd :=
  (s.cmdsE.map (·.2)).filter fun (c : EngCmd) => decide (c.fn = 8 ∧ c.mStart = 0) && byTick c.done s.gtc

/-- A multicast resolves (R56, R194): the status word is written, and a status that is not zero marks the command failed. -/
def State.resolve (s : State) (c : EngCmd) : State :=
  let v := c.failMask % 2 ^ c.tpl.e 1
  let s := (s.statusWord c (c.word 6) (leBytes 8 v)).updCmd c.ord fun c => { c with mStart := 1 }
  if v = 0 then s else s.markFailed c

/-- MULTICAST_RESOLUTION (R56, R194). -/
def execMulticastResolution (s : State) : Out := .next (s.resolving.foldl State.resolve s)

/-- A multicast of which no member can be reached resolves on its read tick s + 8 (R56, R367). -/
def State.failMembers (s : State) (c : EngCmd) (ms bad : List Nat) : State :=
  let m := (s.firstMark (c.spanBytes (c.word 3) (4 * c.tpl.e 1))) <|> s.firstMark (c.spanBytes (c.word 5) (c.tpl.e 0))
  let c' : EngCmd := { (c.met m) with idx := ms, failMask := bad.foldl (fun m k => m ||| 2 ^ k) 0 }
  ((s.updCmd c.ord fun _ => c').resolve c').finishCmd c.ord 1

/-- Fabric commands that fail on their read tick without sending (R56, R75, R367): their completion tick is this one, so what they write stands
before the reads of the tick. -/
def State.failUnsent (s : State) : State :=
  s.engOrder.foldl (fun s o => match s.cmdsE.find? o with
    | none => s
    | some c =>
      if ¬ (5 ≤ c.fn ∧ c.fn ≤ 8 ∧ c.readAt = some s.gtc ∧ c.done.isNone) then s
      else if s.sched.state ≠ .run then s.failNow c
      else if c.fn = 8 then
        let ms := (pieces 4 (c.tpl.e 1) ((c.spanBytes (c.word 3) (4 * c.tpl.e 1)).map s.byteAt)).map leNat
        let bad := s.badMembers c ms
        if (List.range ms.length).all bad.contains then s.failMembers c ms bad else s
      else s) s

/-- KEY_ROTATION (R52): the security processor names the bundle counter from which the next key of a direction of a link holds; a link is a
port in a leaf (R43). -/
def execKeyRotation (port : Fin 512) (tx : Bool) (counter : Nat) (s : State) : Out :=
  let leaf := port.val % 32
  .next (if !s.live then s else s.updPort (port.val / 32) fun x =>
    if tx then { x with txRots := x.txRots.update [] leaf (· ++ [counter]) } else { x with rxRots := x.rxRots.update [] leaf (· ++ [counter]) })

end Sys2Proof.Machine
end

