-- ==== Sys2Proof/Machine/EngStart.lean ====
section
/-! DEFINITION. The starts of engine commands (R40, R201, R211 to R215, R367, R369) and the engines' work of a tick. -/

namespace Sys2Proof.Machine

/-! ### Memory as an engine will read it -/

/-- The next tick's memory by the writes and message copies in flight. -/
def State.aheadTick (s : State) : State :=
  let t := s.gtc + 1
  (({ s with gtc := t } : State).applyDue t).deliverMails t

/-- Memory some ticks later, by what is in flight alone. -/
def State.ahead (s : State) : Nat → State
  | 0 => s
  | n + 1 => s.aheadTick.ahead n

/-! ### Starts -/

/-- Words of an index list with the marks of their bytes (R206, R218). -/
def EngCmd.readIdx (c : EngCmd) (s : State) : EngCmd :=
  if c.fn = 1 ∨ c.fn = 2 then
    let word (k : Nat) := c.spanBytes (c.word 8 + 4 * k) 4
    { c with idx := (List.range (c.tpl.e 1)).map fun k => leNat ((word k).map s.byteAt)
             idxMarks := (List.range (c.tpl.e 1)).filterMap fun k => (s.firstMark (word k)).map fun m => (k, m) }
  else c

/-- Bytes of a stencil table, with the marks of those that are part of it (R218, R220 to R222). -/
def EngCmd.readSten (c : EngCmd) (s : State) : EngCmd :=
  if c.fn = 3 then
    let as := c.spanBytes (field c.tpl.aux 0 23) 232
    let bs := as.map s.byteAt
    { c with sten := bs, stenMarks := (as.take (tableLen (bs.map (·.toNat)))).filterMap s.markAt }
  else c

/-- Slots of the source beats (R29, R211): one request arriving at s + 48, or one for each row of a gather; a beat of
several rows belongs to the first. DESIGN CHOICE (log entry 65): within a request by ascending physical address. -/
def State.sourceSlots (s : State) (c : EngCmd) (p : Plan) : Tab Nat × State :=
  let rows : List (List Nat) :=
    if c.fn = 1 then
      ((List.range (c.tpl.e 1)).foldl (fun (r : List Nat × List (List Nat)) i1 =>
        let bs := (dedup ((p.els.filter fun e => decide (e.i.i1 = i1)).flatMap PEl.srcBeats)).filter fun b => !r.1.contains b
        (r.1 ++ bs, r.2 ++ [bs])) ([], [])).2
    else [p.srcBeats]
  let order := rows.flatMap fun r => sortBy (fun (a b : Nat) => decide (a < b)) (r.filter fun b => decide (b < 2 ^ 60))
  order.foldl (fun (r : Tab Nat × State) b =>
    let (t, s) := r.2.takeSlot c.core b (s.gtc + 48)
    (r.1.put b t, s)) ([], s)

/-- r(b) of a source beat: `n` is its number (R211). -/
def beatRead (s : Nat) (slots : Tab Nat) (n b : Nat) : SrcBeat :=
  if 2 ^ 60 ≤ b then ⟨b, 0, s + 640 + n⟩ else let t := slots.get 0 b; ⟨b, t, max (s + 640 + n) (t + 128)⟩

/-- w(j) of scratch and queue beats from r(last(j)) and the pace (R211). -/
def paceWrites (s c : Nat) (mgx : Bool) : Nat → Nat → List Nat → List Nat
  | _, _, [] => []
  | j, prev, r :: rs =>
    let pace := if mgx then s + 24 + c * j else s + 16 + j
    let w := max r (max pace (prev + 1))
    w :: paceWrites s c mgx (j + 1) w rs

/-- A command starts on a tick; what it reads of scratch it reads 8 t later (R189, R201). -/
def EngCmd.startAt (c : EngCmd) (t : Nat) : EngCmd := { c with s := some t, readAt := some (t + 8) }

/-- Start a data command (R211); `look` gives the state at s + 8, when its index list or its stencil table is read. -/
def State.startData (look : State → State) (s : State) (c : EngCmd) (g : Grid) : State :=
  let now := s.gtc
  let m := if c.fn = 0 then s else look s
  let c : EngCmd := ((c.startAt now).readIdx m).readSten m
  let p := c.plan s g
  let clip := c.tpl.clip && p.els.any fun e => !e.i.pad && e.clip
  let (slots, s) := s.sourceSlots c p
  let src := p.srcBeats.zipIdx.map fun b => beatRead now slots (b.2 + 1) b.1
  let rOf (j : Nat) : Nat := let l := p.last j; if l = 0 then now + 8 else ((src[l - 1]?).map (·.r)).getD (now + 8)
  let js := (List.range p.nd).map (· + 1)
  let hbm := c.dest.isHbm
  let ws := paceWrites now (ceilDiv p.terms 8) (decide (c.fn = 3)) 1 now (js.map rOf)
  let dst : List DstBeat := js.map fun j =>
    ⟨(p.dstBeats[j - 1]?).getD 0, p.last j, if hbm then max (now + 48) (rOf j + 8) else 0, none,
     if hbm then none else ws[j - 1]?, false, !hbm⟩
  let fin := (ws.getLast?).getD now
  let fault := (c.malformed.map fun m => (m, 0)) <|> p.bad
  let c := { c with clip := clip, src := src, dst := dst, size := c.nominal, fault := fault }
  if hbm ∧ p.nd ≠ 0 then s.updCmd c.ord fun _ => c
  else
    let s := s.updCmd c.ord fun _ => { (c.fixData fin) with done := some fin }
    let s := c.rids.zipIdx.foldl (fun s r => s.cmdWarp c fun w =>
      w.fillResv c.tpl.qreg r.1 ((ws[min (2 * r.2 + 2) p.nd - 1]?)) none) s
    s.cmdWarp c fun w => w.raiseBy c.issue now 1 (if hbm then 0 else fin)

/-- Sections of a partition, its read rate and its transfer rate (R40). -/
def mulRateB (sh : Nat) : Nat := 630 * (shapeCores sh / 16)
def mulRateA (sh : Nat) : Nat := 4 * (shapeCores sh / 16)

/-- Start an mmv (R40, R215): a, start, end and done. -/
def State.startMmv (s : State) (c : EngCmd) (g : Grid) : State :=
  let now := s.gtc
  let sh := (s.tenant c.part).shape
  let key := c.part * 8 + s.hbmStack (c.bPa g)
  let a := 1 + nthData (now + 48) (ceilDiv c.aAddrs.length (mulRateA sh))
  let start := max a (s.mulFree.get 0 key)
  let fin := 1 + nthData start (ceilDiv (c.tpl.e 1 * c.pitch) (mulRateB sh))
  let done := 49 + nthData (fin + 32) (ceilDiv (4 * c.tpl.e 1) (mulRateA sh))
  let s := { s with mulFree := s.mulFree.put key fin }
  let s := s.updCmd c.ord fun c => 
    { ((c.startAt now).fixData done) with
      done := some done
      mStart := start
      mEnd := fin
      size := 4 * c.tpl.e 1 }
  s.cmdWarp c fun w => w.raiseBy c.issue now 1 done

/-- Start a coll (R214). -/
def State.startColl (s : State) (c : EngCmd) : State :=
  let now := s.gtc
  let n := c.tpl.e 0
  let done := now + 16 + 8 * n
  let s := s.updCmd c.ord fun c =>
    let c : EngCmd := { c.startAt now with
      done := some done
      size := 4096 * n
      dst := (List.range n).map fun i => ⟨0, 0, 0, none, some (now + 16 + 8 * (i + 1)), false, true⟩ }
    if c.tpl.writes then c.fixData done else c
  if c.tpl.writes then s.cmdWarp c fun w => w.raiseBy c.issue now 1 done else s

/-- A command marked failed (R367): it completes at s + 8, and the pod mark is raised to that tick. -/
def State.failFabric (s : State) (c : EngCmd) : State :=
  let t := s.gtc + 8
  let s := s.updCmd c.ord fun c => { c with s := some s.gtc, done := some t, failMask := 1, wcts := (3, some t) :: c.wcts.drop 1 }
  s.cmdWarp c fun w => { (w.raiseBy c.issue s.gtc 3 t) with failed := w.failed ++ [t] }

/-- Start a fabric command other than fmcast (R213, R367). -/
def State.startFabric (s : State) (c : EngCmd) : State :=
  if c.fn ≠ 8 ∧ (c.failMask ≠ 0 ∨ s.deadDest (c.word 3)) then s.failFabric c
  else s.updCmd c.ord fun c => c.startAt s.gtc

/-- Start a cntadd (R215). -/
def State.startCount (s : State) (c : EngCmd) : State :=
  s.updCmd c.ord fun c => { c with s := some s.gtc, done := if c.csp = 1 then some (s.gtc + 8) else none }

/-- Start a launch (R369): the launched grid's take tick and D are both s. -/
def State.startLaunch (s : State) (c : EngCmd) (g : Grid) : State :=
  let gid := s.fresh
  let n : Grid := { Grid.fresh c.part g.lq g.prio (c.va 3) s.gtc (some s.gtc) (c.word 5 + c.word 6 * 2 ^ 32) with eng := some c.ord, slip0 := s.slips }
  ({ s with grids := s.grids.put gid n }.bump).updCmd c.ord fun c => { c with s := some s.gtc, child := some gid }

/-- A command starts (R201). -/
def State.startCmd (look : State → State) (s : State) (c : EngCmd) : State :=
  match s.cmdGrid c with
  | none => { s with cmdsE := s.cmdsE.del c.ord }
  | some g =>
    if c.fn ≤ 3 then s.startData look c g
    else if c.fn = 4 then s.startMmv c g
    else if c.fn ≤ 8 then s.startFabric c
    else if c.fn = 9 then s.startColl c
    else if c.fn = 10 then s.startLaunch c g
    else s.startCount c

/-- Start a command if its tick has come (R201). -/
def State.tryStart (look : State → State) (s : State) (ord : Nat) : State :=
  match s.cmdsE.find? ord with
  | none => s
  | some c =>
    if c.s.isSome then s
    else match s.startOf c with
      | some t => if t ≤ s.gtc then (s.startCmd look c).countNow ord else s
      | none => s

/-- Start the commands of a kind whose tick has come. -/
def State.startKind (look : State → State) (kind : EngCmd → Bool) (s : State) : State :=
  s.engOrder.foldl (fun s o => match s.cmdsE.find? o with
    | some c => if kind c then s.tryStart look o else s
    | none => s) s

/-- Start every command that takes no HBM slot and no stack multiplier at its start, as long as one start brings another; a scatter, which reads
what the others write by s + 8, after them. -/
def State.startFirst (look : State → State) (s : State) : State :=
  let all (kind : EngCmd → Bool) (s : State) : State := s.cmdsE.foldl (fun s _ => s.startKind look kind) s
  s.cmdsE.foldl (fun s _ => (all (fun c => decide (5 ≤ c.fn)) s).startKind look fun c => decide (c.fn = 2)) s

/-- The requests of one command that arrive 48 t from now take their slots: its source beats, its destination beats and the add of its
counter (R29, R211, R216). A command never has two of these on one tick. -/
def State.slotWork (look : State → State) (s : State) (ord : Nat) : State :=
  ((((s.tryStart look ord).destSlots ord).raiseBeats ord).countNow ord).countHbm ord

/-- The starts of a tick, after the access streams' requests (R29, R201): first the commands that take no slot, then the others with the
requests of the commands in progress, by core, engine queue and age. -/
def State.engineStarts (look : State → State) (s : State) : State :=
  if s.cmdsE.isEmpty then s
  else
    let s := s.startFirst look
    let s := s.engOrder.foldl (State.slotWork look) s
    s.engOrder.foldl State.doneCmd s

/-- The end of the engines' work on a tick: writes that fall due are issued, and complete commands go. -/
def State.engineWork (s : State) : State :=
  if s.cmdsE.isEmpty then { s with joins := if s.warps.isEmpty then [] else s.joins } else (s.engOrder.foldl State.emitCmd s).pruneCmds

/-- ENGINE_COMMAND_START (R201): a command whose terms are known and whose tick has come starts; the event by itself sees the memory of s + 8
by what is in flight, and a tick's own starts see it as the machine reaches it (State.lookAhead). -/
def execEngineCommandStart (cmd : Nat) (s : State) : Out := .next (s.tryStart (·.ahead 8) cmd)

end Sys2Proof.Machine
end

