-- ==== Sys2Proof/Machine/Fp.lean ====
section
/-! DEFINITION. Floating-point, packed, conversion and special-function instructions (R306 to R311). -/

namespace Sys2Proof.Machine

/-- A two-source FP32 instruction (R306, R307). -/
def fp2 (o : T3) (f : Nat → Nat → FRes) (s : State) : Out :=
  vecInstr (useT3 o false) 4 (two fun a b => (f a.toNat b.toNat).lane) s

/-- A 16-bit FP32 instruction, execute stream only (R261). -/
def fpH (o : H16) (f : Nat → Nat → FRes) (s : State) : Out :=
  vecInstr (useH16 o false) 4 (two fun a b => (f a.toNat b.toNat).lane) s

/-- A special function (R311). -/
def sfu (o : T2) (f : Nat → FRes) (s : State) : Out := vecInstr (useT2 o false) 12 (one fun a => (f a.toNat).lane) s

/-- Two BF16 halves of a word (R308). -/
def packHalves (lo hi : FRes) : LaneRes := (wordOfNat (lo.bits + hi.bits * 2 ^ 16), lo.fl ||| hi.fl)

/-- The low and high half of a word. -/
def lowHalf (a : Word) : Nat := field a.toNat 0 16
def highHalf (a : Word) : Nat := field a.toNat 16 16

/-- A packed instruction of two sources (R308). -/
def packed2 (f : Nat → Nat → FRes) (a b : Word) : LaneRes :=
  packHalves (f (lowHalf a) (lowHalf b)) (f (highHalf a) (highHalf b))

/-- The source and destination formats of a conversion pair (R283): none for FP32 on either side means fp32. -/
def cvtPair (p : Nat) : Fmt × Fmt :=
  match p with
  | 0 => (fp32, bf16)
  | 1 => (fp32, fp16)
  | 2 => (bf16, fp32)
  | 3 => (fp16, fp32)
  | 4 => (bf16, fp16)
  | _ => (fp16, bf16)

/-- One conversion (R241, R309): a 16-bit source ignores the high half. -/
def cvtRes (p : Nat) (rm : Rm) (a : Nat) : FRes :=
  let (src, dst) := cvtPair p
  dst.roundVal rm (src.decode a)

/-- fadd (R306). -/
def execFadd (o : T3) (s : State) : Out := fp2 o fp32.add s
/-- fsub (R306). -/
def execFsub (o : T3) (s : State) : Out := fp2 o fp32.sub s
/-- fmul (R306). -/
def execFmul (o : T3) (s : State) : Out := fp2 o fp32.mul s
/-- ffma (R306). -/
def execFfma (o : T3d) (s : State) : Out :=
  vecInstrD (useT3d o false) 4 (three fun a b d => (fp32.fma a.toNat b.toNat d.toNat).lane) s
/-- fmin (R307). -/
def execFmin (o : T3) (s : State) : Out := fp2 o (fp32.minMax false) s
/-- fmax (R307). -/
def execFmax (o : T3) (s : State) : Out := fp2 o (fp32.minMax true) s
/-- hadd2 (R308). -/
def execHadd2 (o : T3) (s : State) : Out := vecInstr (useT3 o false) 4 (two (packed2 bf16.add)) s
/-- hmul2 (R308). -/
def execHmul2 (o : T3) (s : State) : Out := vecInstr (useT3 o false) 4 (two (packed2 bf16.mul)) s
/-- hfma2 (R308). -/
def execHfma2 (o : T3d) (s : State) : Out :=
  vecInstrD (useT3d o false) 4 (three fun a b d =>
    packHalves (bf16.fma (lowHalf a) (lowHalf b) (lowHalf d)) (bf16.fma (highHalf a) (highHalf b) (highHalf d))) s

/-- frcp (R311). -/
def execFrcp (o : T2) (s : State) : Out := sfu o frcpRes s
/-- frsq (R311). -/
def execFrsq (o : T2) (s : State) : Out := sfu o frsqRes s
/-- fsqrt (R311). -/
def execFsqrt (o : T2) (s : State) : Out := sfu o fsqrtRes s
/-- fex2 (R311). -/
def execFex2 (o : T2) (s : State) : Out := sfu o fex2Res s
/-- flg2 (R311). -/
def execFlg2 (o : T2) (s : State) : Out := sfu o flg2Res s
/-- fsinp (R311). -/
def execFsinp (o : T2) (s : State) : Out := sfu o fsinpRes s
/-- fcosp (R311). -/
def execFcosp (o : T2) (s : State) : Out := sfu o fcospRes s
/-- ftanh (R311). -/
def execFtanh (o : T2) (s : State) : Out := sfu o ftanhRes s

/-- fcvt (R309). -/
def execFcvt (o : Cvt) (s : State) : Out :=
  vecInstr ⟨legalCvt o, false, true, [o.a], [], o.d, o.g.toNat, o.e, 4, []⟩ 4
    (one fun a => (cvtRes o.p.toNat (Rm.ofCode o.rm) a.toNat).lane) s
/-- i2f (R310). -/
def execI2f (o : T2r) (s : State) : Out :=
  vecInstr ⟨legalT2r o, false, true, [o.a], [], o.d, o.g.toNat, o.e, 4, []⟩ 4
    (one fun a => (i2fRes (Rm.ofCode o.rm) a.toNat).lane) s
/-- f2i (R310). -/
def execF2i (o : T2r) (s : State) : Out :=
  vecInstr ⟨legalT2r o, false, true, [o.a], [], o.d, o.g.toNat, o.e, 4, []⟩ 4
    (one fun a => (f2iRes (Rm.ofCode o.rm) a.toNat).lane) s

/-- 16-bit fadd (R261, R306). -/
def execFaddH16 (o : H16) (s : State) : Out := fpH o fp32.add s
/-- 16-bit fsub (R261, R306). -/
def execFsubH16 (o : H16) (s : State) : Out := fpH o fp32.sub s
/-- 16-bit fmul (R261, R306). -/
def execFmulH16 (o : H16) (s : State) : Out := fpH o fp32.mul s
/-- 16-bit fmin (R261, R307). -/
def execFminH16 (o : H16) (s : State) : Out := fpH o (fp32.minMax false) s
/-- 16-bit fmax (R261, R307). -/
def execFmaxH16 (o : H16) (s : State) : Out := fpH o (fp32.minMax true) s

end Sys2Proof.Machine
end

