-- ==== Sys2Proof/WellFormed.lean ====
section
/-! DEFINITION. Well-formed instructions: every field holds a value that the tables assign (R257 to R259, R275 to R292).
The checks themselves stand in Machine/Legal.lean. An event has no encoding and is always well-formed. -/

namespace Sys2Proof

open Machine

/-- Every operand field of the instruction is assigned. -/
def Instr.wf : Instr → Bool
  | .pwrokRise _ _ _ _ => true
  | .railDroop _ _ => true
  | .tuningAndTrainingDone _ _ _ => true
  | .memoryInitDone _ => true
  | .recoveryBlockWrite _ _ _ _ => true
  | .imageDone _ _ => true
  | .abort _ _ => true
  | .activate _ => true
  | .slackWindow _ _ => true
  | .portLock _ _ => true
  | .portDark _ => true
  | .portDead _ => true
  | .bundleTransmit _ _ => true
  | .bundleReceive _ _ _ => true
  | .replay _ _ => true
  | .landing _ _ => true
  | .relay _ _ => true
  | .requestRecord _ _ => true
  | .failureNotice _ _ _ => true
  | .keyRotation _ _ _ => true
  | .controlRecordReceive _ _ => true
  | .ptpMessage _ => true
  | .ppsIn _ => true
  | .timeCfgWrite _ => true
  | .doorbell _ _ => true
  | .packetFetch _ _ => true
  | .packetTake _ => true
  | .dispatch _ => true
  | .nop _ => true
  | .launch _ => true
  | .graph _ => true
  | .wait _ => true
  | .write _ => true
  | .schedLoad _ => true
  | .schedLoadDone _ => true
  | .schedActivate _ => true
  | .preempt _ => true
  | .cond _ => true
  | .loop _ => true
  | .endNode _ => true
  | .ringCfgWrite _ _ => true
  | .mergeCfgWrite _ _ => true
  | .clear _ => true
  | .journalCfgWrite _ => true
  | .ptRootWrite _ _ => true
  | .flush _ => true
  | .pwrCfgWrite _ => true
  | .registerWrite _ _ _ _ => true
  | .challenge _ _ _ => true
  | .getMeasurements _ _ _ _ _ => true
  | .keyExchange _ _ _ => true
  | .finish _ _ _ => true
  | .endSession _ _ => true
  | .partitionTableSet _ => true
  | .seal _ _ _ => true
  | .unseal _ _ _ => true
  | .operatorRelease _ => true
  | .tenantPtRootWrite _ _ _ _ _ => true
  | .tenantDebugUnlock _ _ _ _ => true
  | .tenantDebugExit _ _ _ => true
  | .vendorDebugToken _ _ => true
  | .debugRelease _ _ _ => true
  | .debugDeliverBreakpoint _ _ _ => true
  | .sealedTransferRecord _ _ _ _ _ _ _ _ => true
  | .coreGate => true
  | .staging => true
  | .placement => true
  | .instanceStart _ _ => true
  | .resourceRelease _ _ => true
  | .gridRetire _ => true
  | .freeze _ => true
  | .resumeImageWrite _ => true
  | .drainBoundExpiry => true
  | .idleBeat _ _ _ => true
  | .engineCommandStart _ => true
  | .iadd o => legalT3 o
  | .isub o => legalT3 o
  | .imul o => legalT3 o
  | .imulh o => legalT3 o
  | .imulhu o => legalT3 o
  | .imad o => legalT3d o
  | .imin o => legalT3 o
  | .imax o => legalT3 o
  | .iminu o => legalT3 o
  | .imaxu o => legalT3 o
  | .iabsd o => legalT3 o
  | .and o => legalT3 o
  | .or o => legalT3 o
  | .xor o => legalT3 o
  | .andn o => legalT3 o
  | .shl o => legalT3 o
  | .shr o => legalT3 o
  | .sar o => legalT3 o
  | .bfi o => legalT3d o
  | .bperm o => legalT3d o
  | .sel o => legalSel o
  | .fadd o => legalT3 o
  | .fsub o => legalT3 o
  | .fmul o => legalT3 o
  | .ffma o => legalT3d o
  | .fmin o => legalT3 o
  | .fmax o => legalT3 o
  | .hadd2 o => legalT3 o
  | .hmul2 o => legalT3 o
  | .hfma2 o => legalT3d o
  | .icmp o => legalTC o
  | .icmpu o => legalIcmpu o
  | .icmpi o => legalTCi o
  | .fcmp o => legalTC o
  | .sts o => legalSt o
  | .stsw o => legalStsw o
  | .stg o => legalStg o
  | .send o => legalSnd o
  | .ats o => legalAts o
  | .atg o => legalAtg o
  | .iaddi o => legalTI o
  | .andi o => legalTI o
  | .ori o => legalTI o
  | .xori o => legalTI o
  | .shli o => legalTIs o
  | .shri o => legalTIs o
  | .sari o => legalTIs o
  | .movil o => legalTL o
  | .movih o => legalTLd o
  | .bra _ => true
  | .call _ => true
  | .mmq o => legalTM o
  | .mmqs o => legalTM o
  | .mov o => legalT2 o
  | .popc o => legalT2 o
  | .clz o => legalT2 o
  | .brev o => legalT2 o
  | .ineg o => legalT2 o
  | .iabs o => legalT2 o
  | .bfx o => legalT2d o
  | .sext o => legalT2n o
  | .rotl o => legalT2n o
  | .frcp o => legalT2 o
  | .frsq o => legalT2 o
  | .fsqrt o => legalT2 o
  | .fex2 o => legalT2 o
  | .flg2 o => legalT2 o
  | .fsinp o => legalT2 o
  | .fcosp o => legalT2 o
  | .ftanh o => legalT2 o
  | .fcvt o => legalCvt o
  | .i2f o => legalT2r o
  | .f2i o => legalT2r o
  | .fmtw o => legalNA o
  | .cmpr o => legalT2d o
  | .accz _ => true
  | .accrd o => legalAccrd o
  | .accwr o => legalAccwr o
  | .pand o => legalPP o
  | .por o => legalPP o
  | .pxor o => legalPP o
  | .pnot o => legalP2 o
  | .pmov o => legalP2 o
  | .pvec o => legalPV o
  | .gbind o => legalGB o
  | .gbindNeg o => legalGB o
  | .shflx o => legalT2n o
  | .shflu o => legalT2n o
  | .shfld o => legalT2n o
  | .shfli o => legalT2d o
  | .bcast o => legalT2 o
  | .ballot o => legalPV o
  | .vall o => legalP2 o
  | .vany o => legalP2 o
  | .redl o => legalT2o o
  | .scanl o => legalT2o o
  | .lds o => legalLds o
  | .ldsw o => legalT2d o
  | .ldg o => legalLdg o
  | .ldgi o => legalLdg o
  | .qstat o => legalQS o
  | .sendm o => legalSndm o
  | .bar _ => true
  | .arrive _ => true
  | .waitb _ => true
  | .waitc o => legalGroup o
  | .waitcHbm o => legalGroup o
  | .waitt o => legalGroup o
  | .fence _ => true
  | .qfence o => legalA1 o
  | .yield _ => true
  | .brx o => legalAG o
  | .ret _ => true
  | .split o => legalSpl o
  | .join _ => true
  | .exit _ => true
  | .nopInstr _ => true
  | .ckpt _ => true
  | .copy o => legalGroup o
  | .gather o => legalGroup o
  | .scatter o => legalGroup o
  | .mgx o => legalGroup o
  | .mmv o => legalGroup o
  | .fput o => legalGroup o
  | .fget o => legalGroup o
  | .fatom o => legalGroup o
  | .fmcast o => legalGroup o
  | .coll o => legalGroup o
  | .launchInstr o => legalGroup o
  | .cntadd o => legalGroup o
  | .rdsr o => legalRdsr o
  | .wrsr o => legalWrsr o
  | .spill o => legalSpill o
  | .fill o => legalFill o
  | .ctag o => legalCtag o
  | .psave o => legalD1 o
  | .prest o => legalD1 o
  | .dsave o => legalD1 o
  | .drest o => legalD1 o
  | .bsave o => legalD1 o
  | .brest o => legalD1 o
  | .lsave o => legalD1 o
  | .lrest o => legalD1 o
  | .brk _ => true
  | .trap _ => true
  | .asave o => legalND o
  | .arest o => legalND o
  | .movH16 _ => true
  | .iaddH16 _ => true
  | .isubH16 _ => true
  | .imulH16 _ => true
  | .andH16 _ => true
  | .orH16 _ => true
  | .xorH16 _ => true
  | .andnH16 _ => true
  | .shlH16 _ => true
  | .shrH16 _ => true
  | .sarH16 _ => true
  | .faddH16 _ => true
  | .fsubH16 _ => true
  | .fmulH16 _ => true
  | .fminH16 _ => true
  | .fmaxH16 _ => true
  | .registerFileError _ _ _ _ => true
  | .ref10m _ => true
  | .debuggerHalt _ _ _ _ => true
  | .singleStep _ _ _ => true
  | .ideStreamBind _ _ _ => true
  | .zeroingComplete _ _ => true
  | .pwrokFall => true
  | .overtempAlert => true
  | .thermtrip => true
  | .perstAssert => true
  | .perstDeassert => true
  | .busMasterEnable => true
  | .d3hotEntry => true
  | .d0Entry => true
  | .romBoot => true
  | .pllLock => true
  | .bringupPhaseTimeout => true
  | .gtcDisciplineTimeout => true
  | .recoveryStatus _ _ => true
  | .recoveryVerifyDone => true
  | .fwEventTake => true
  | .verify => true
  | .fwVerifyDone => true
  | .fwActivateDone => true
  | .multicastResolution => true
  | .controlRecord => true
  | .ppsOut => true
  | .timeFaultTimeout => true
  | .holdover => true
  | .enterFault => true
  | .enterAgree => true
  | .enterRealign => true
  | .gtcRealign => true
  | .deviceHoldEnd => true
  | .resumeRun => true
  | .boundaryImage => true
  | .activationTakesEffect => true
  | .waitSatisfied => true
  | .waitWatchdog => true
  | .getVersion => true
  | .getCapabilities _ => true
  | .negotiateAlgorithms _ => true
  | .getDigests _ => true
  | .getCertificate _ _ => true
  | .debugNonce _ => true
  | .deviceIdleEntry => true
  | .wakeComplete => true
  | .staged => true
  | .resultLanding => true
  | .queueLanding => true
  | .parkRelease => true
  | .barrierRelease => true
  | .mailboxDelivery => true
  | .pageWalkLevel => true
  | .engineDone => true
  | .trapret => true
  | .illegalInstruction => true
  | .writeCompletion => true
  | .unsupportedRequest _ => true
  | .vddAuxLost => true

end Sys2Proof
end

