-- ==== Sys2Proof/Decode.lean ====
section
/-! DEFINITION. Decoding of instruction words, total on any bytes, and the encoder, both from the tables of chapters 14
and 15 (R254 to R261, R275 to R291). -/

namespace Sys2Proof

open Machine

/-- Why bytes are no instruction of the tables (R292). -/
inductive Reject where
  | truncated
  | unassignedMajor
  | unassignedFunction
  | unusedField
deriving DecidableEq, Repr

/-- A source field's value (R257). -/
def Src.code : Src → Nat
  | .v n => n.val
  | .b n => 112 + n.val
  | .q n => 116 + n.val
  | .zero => 124
  | .laneid => 125
  | .wid => 126
  | .reserved => 127

/-- The source that a field value below 128 selects (R257). -/
def Src.ofCode (c : Nat) : Src :=
  if h : c < 112 then .v ⟨c, h⟩
  else if h : c - 112 < 4 then .b ⟨c - 112, h⟩
  else if h : c - 116 < 8 then .q ⟨c - 116, h⟩
  else if c = 124 then .zero
  else if c = 125 then .laneid
  else if c = 126 then .wid
  else .reserved

/-- A destination field's value (R257). -/
def Dst.code : Dst → Nat
  | .v n => n.val
  | .q n => 116 + n.val
  | .discard => 124
  | .reserved n => if n.val < 4 then 112 + n.val else 121 + n.val

/-- The destination that a field value below 128 selects (R257). -/
def Dst.ofCode (c : Nat) : Dst :=
  if h : c < 112 then .v ⟨c, h⟩
  else if h : c - 112 < 4 then .reserved ⟨c - 112, by omega⟩
  else if h : c - 116 < 8 then .q ⟨c - 116, h⟩
  else if c = 124 then .discard
  else if h : c - 121 < 7 then .reserved ⟨c - 121, h⟩
  else .discard

/-- The fields that every 32-bit format shares (R256). -/
structure Fields where
  b : Nat
  a : Nat
  d : Nat
  g : Nat
  w : Nat
  e : Nat
deriving DecidableEq, Repr

/-- The fields of a word (R256). -/
def Fields.of (n : Nat) : Fields :=
  ⟨field n 25 7, field n 18 7, field n 11 7, field n 3 2, field n 2 1, field n 1 1⟩

def Fields.srcA (f : Fields) : Src := Src.ofCode f.a
def Fields.srcB (f : Fields) : Src := Src.ofCode f.b
def Fields.dst (f : Fields) : Dst := Dst.ofCode f.d
def Fields.guard (f : Fields) : BitVec 2 := BitVec.ofNat 2 f.g
def Fields.wBit (f : Fields) : Bool := decide (f.w = 1)
def Fields.eBit (f : Fields) : Bool := decide (f.e = 1)
/-- TC and TA: instr[4:2] (R278, R279). -/
def Fields.fn3 (f : Fields) : BitVec 3 := BitVec.ofNat 3 (f.g * 2 + f.w)
def Fields.accBit (f : Fields) : Bool := decide (64 ≤ f.d)
def Fields.pred (f : Fields) : BitVec 6 := BitVec.ofNat 6 f.d
/-- TL: instr[31:18] and instr[4:3] (R258). -/
def Fields.imm16 (f : Fields) : BitVec 16 := BitVec.ofNat 16 ((f.b * 128 + f.a) * 4 + f.g)
/-- TB: instr[31:11] (R258). -/
def Fields.off21 (f : Fields) : BitVec 21 := BitVec.ofNat 21 ((f.b * 128 + f.a) * 128 + f.d)

/-- An instruction whose unused fields must hold what R259 gives them. -/
def whenUsed (c : Bool) (i : Instr) : Except Reject Instr := if c then .ok i else .error .unusedField

/-- Major 56 (R282). -/
def decodeMajor56 (f : Fields) : Except Reject Instr :=
  if f.b = 0 then .ok (.mov ⟨f.dst, f.srcA, f.guard, f.wBit, f.eBit⟩)
  else if f.b = 1 then .ok (.popc ⟨f.dst, f.srcA, f.guard, f.wBit, f.eBit⟩)
  else if f.b = 2 then .ok (.clz ⟨f.dst, f.srcA, f.guard, f.wBit, f.eBit⟩)
  else if f.b = 3 then .ok (.brev ⟨f.dst, f.srcA, f.guard, f.wBit, f.eBit⟩)
  else if f.b = 4 then .ok (.ineg ⟨f.dst, f.srcA, f.guard, f.wBit, f.eBit⟩)
  else if f.b = 5 then .ok (.iabs ⟨f.dst, f.srcA, f.guard, f.wBit, f.eBit⟩)
  else if f.b = 6 then whenUsed (decide (f.w = 0)) (.bfx ⟨f.dst, f.srcA, f.guard, f.eBit⟩)
  else if 32 ≤ f.b ∧ f.b ≤ 63 then .ok (.sext ⟨BitVec.ofNat 5 (f.b - 32), f.dst, f.srcA, f.guard, f.wBit, f.eBit⟩)
  else if 64 ≤ f.b ∧ f.b ≤ 95 then .ok (.rotl ⟨BitVec.ofNat 5 (f.b - 64), f.dst, f.srcA, f.guard, f.wBit, f.eBit⟩)
  else .error .unassignedFunction

/-- Major 57 (R283). -/
def decodeMajor57 (f : Fields) : Except Reject Instr :=
  if f.b = 0 then .ok (.frcp ⟨f.dst, f.srcA, f.guard, f.wBit, f.eBit⟩)
  else if f.b = 1 then .ok (.frsq ⟨f.dst, f.srcA, f.guard, f.wBit, f.eBit⟩)
  else if f.b = 2 then .ok (.fsqrt ⟨f.dst, f.srcA, f.guard, f.wBit, f.eBit⟩)
  else if f.b = 3 then .ok (.fex2 ⟨f.dst, f.srcA, f.guard, f.wBit, f.eBit⟩)
  else if f.b = 4 then .ok (.flg2 ⟨f.dst, f.srcA, f.guard, f.wBit, f.eBit⟩)
  else if f.b = 5 then .ok (.fsinp ⟨f.dst, f.srcA, f.guard, f.wBit, f.eBit⟩)
  else if f.b = 6 then .ok (.fcosp ⟨f.dst, f.srcA, f.guard, f.wBit, f.eBit⟩)
  else if f.b = 7 then .ok (.ftanh ⟨f.dst, f.srcA, f.guard, f.wBit, f.eBit⟩)
  else if 16 ≤ f.b ∧ f.b ≤ 39 ∧ ¬(25 ≤ f.b ∧ f.b ≤ 27) ∧ ¬(29 ≤ f.b ∧ f.b ≤ 31) then .ok (.fcvt ⟨BitVec.ofNat 3 ((f.b - 16) / 4), BitVec.ofNat 2 f.b, f.dst, f.srcA, f.guard, f.wBit, f.eBit⟩)
  else if 40 ≤ f.b ∧ f.b ≤ 43 then .ok (.i2f ⟨BitVec.ofNat 2 f.b, f.dst, f.srcA, f.guard, f.wBit, f.eBit⟩)
  else if 44 ≤ f.b ∧ f.b ≤ 47 then .ok (.f2i ⟨BitVec.ofNat 2 f.b, f.dst, f.srcA, f.guard, f.wBit, f.eBit⟩)
  else if 64 ≤ f.b ∧ f.b ≤ 71 then whenUsed (decide (f.d = 124 ∧ f.g = 0 ∧ f.w = 0)) (.fmtw ⟨BitVec.ofNat 3 f.b, f.srcA, f.eBit⟩)
  else if f.b = 72 then whenUsed (decide (f.w = 0)) (.cmpr ⟨f.dst, f.srcA, f.guard, f.eBit⟩)
  else if 80 ≤ f.b ∧ f.b ≤ 87 then whenUsed (decide (f.d = 124 ∧ f.a = 124 ∧ f.g = 0 ∧ f.w = 0)) (.accz ⟨BitVec.ofNat 3 f.b, f.eBit⟩)
  else if 88 ≤ f.b ∧ f.b ≤ 95 then whenUsed (decide (f.a = 124 ∧ f.w = 0)) (.accrd ⟨BitVec.ofNat 3 f.b, f.dst, f.guard, f.eBit⟩)
  else if 96 ≤ f.b ∧ f.b ≤ 103 then whenUsed (decide (f.d = 124 ∧ f.g = 0 ∧ f.w = 0)) (.accwr ⟨BitVec.ofNat 3 f.b, f.srcA, f.eBit⟩)
  else .error .unassignedFunction

/-- Major 58 (R284). -/
def decodeMajor58 (f : Fields) : Except Reject Instr :=
  if f.b ≤ 1 then whenUsed (decide (f.w = 0)) (.pand ⟨decide (f.b % 2 = 1), BitVec.ofNat 7 f.d, BitVec.ofNat 7 f.a, f.guard, f.eBit⟩)
  else if 2 ≤ f.b ∧ f.b ≤ 3 then whenUsed (decide (f.w = 0)) (.por ⟨decide (f.b % 2 = 1), BitVec.ofNat 7 f.d, BitVec.ofNat 7 f.a, f.guard, f.eBit⟩)
  else if 4 ≤ f.b ∧ f.b ≤ 5 then whenUsed (decide (f.w = 0)) (.pxor ⟨decide (f.b % 2 = 1), BitVec.ofNat 7 f.d, BitVec.ofNat 7 f.a, f.guard, f.eBit⟩)
  else if f.b = 6 then whenUsed (decide (f.w = 0)) (.pnot ⟨BitVec.ofNat 7 f.d, BitVec.ofNat 7 f.a, f.guard, f.eBit⟩)
  else if f.b = 7 then whenUsed (decide (f.w = 0)) (.pmov ⟨BitVec.ofNat 7 f.d, BitVec.ofNat 7 f.a, f.guard, f.eBit⟩)
  else if f.b = 8 then .ok (.pvec ⟨f.dst, BitVec.ofNat 7 f.a, f.guard, f.wBit, f.eBit⟩)
  else if f.b = 9 then whenUsed (decide (f.g = 0 ∧ f.w = 0)) (.gbind ⟨BitVec.ofNat 7 f.d, BitVec.ofNat 7 f.a, f.eBit⟩)
  else if f.b = 10 then whenUsed (decide (f.g = 0 ∧ f.w = 0)) (.gbindNeg ⟨BitVec.ofNat 7 f.d, BitVec.ofNat 7 f.a, f.eBit⟩)
  else .error .unassignedFunction

/-- Major 59 (R285). -/
def decodeMajor59 (f : Fields) : Except Reject Instr :=
  if f.b ≤ 31 then .ok (.shflx ⟨BitVec.ofNat 5 (f.b - 0), f.dst, f.srcA, f.guard, f.wBit, f.eBit⟩)
  else if 32 ≤ f.b ∧ f.b ≤ 63 then .ok (.shflu ⟨BitVec.ofNat 5 (f.b - 32), f.dst, f.srcA, f.guard, f.wBit, f.eBit⟩)
  else if 64 ≤ f.b ∧ f.b ≤ 95 then .ok (.shfld ⟨BitVec.ofNat 5 (f.b - 64), f.dst, f.srcA, f.guard, f.wBit, f.eBit⟩)
  else if f.b = 96 then whenUsed (decide (f.w = 0)) (.shfli ⟨f.dst, f.srcA, f.guard, f.eBit⟩)
  else if f.b = 97 then .ok (.bcast ⟨f.dst, f.srcA, f.guard, f.wBit, f.eBit⟩)
  else if f.b = 98 then .ok (.ballot ⟨f.dst, BitVec.ofNat 7 f.a, f.guard, f.wBit, f.eBit⟩)
  else if f.b = 99 then whenUsed (decide (f.w = 0)) (.vall ⟨BitVec.ofNat 7 f.d, BitVec.ofNat 7 f.a, f.guard, f.eBit⟩)
  else if f.b = 100 then whenUsed (decide (f.w = 0)) (.vany ⟨BitVec.ofNat 7 f.d, BitVec.ofNat 7 f.a, f.guard, f.eBit⟩)
  else if 104 ≤ f.b ∧ f.b ≤ 114 then .ok (.redl ⟨BitVec.ofNat 4 (f.b - 104), f.dst, f.srcA, f.guard, f.wBit, f.eBit⟩)
  else if 115 ≤ f.b ∧ f.b ≤ 125 then .ok (.scanl ⟨BitVec.ofNat 4 (f.b - 115), f.dst, f.srcA, f.guard, f.wBit, f.eBit⟩)
  else .error .unassignedFunction

/-- Major 60 (R286). -/
def decodeMajor60 (f : Fields) : Except Reject Instr :=
  if f.b ≤ 4 then .ok (.lds ⟨BitVec.ofNat 3 f.b, f.dst, f.srcA, f.guard, f.wBit, f.eBit⟩)
  else if f.b = 5 then whenUsed (decide (f.w = 0)) (.ldsw ⟨f.dst, f.srcA, f.guard, f.eBit⟩)
  else if 8 ≤ f.b ∧ f.b ≤ 13 then whenUsed (decide (f.w = 0)) (.ldg ⟨BitVec.ofNat 3 f.b, f.dst, f.srcA, f.guard, f.eBit⟩)
  else if 16 ≤ f.b ∧ f.b ≤ 21 then whenUsed (decide (f.w = 0)) (.ldgi ⟨BitVec.ofNat 3 f.b, f.dst, f.srcA, f.guard, f.eBit⟩)
  else if 24 ≤ f.b ∧ f.b ≤ 31 then whenUsed (decide (f.a = 124 ∧ f.g = 0)) (.qstat ⟨BitVec.ofNat 3 f.b, f.dst, f.wBit, f.eBit⟩)
  else if 32 ≤ f.b ∧ f.b ≤ 35 then whenUsed (decide (f.d = 124 ∧ f.g = 0 ∧ f.w = 0)) (.sendm ⟨BitVec.ofNat 2 f.b, f.srcA, f.eBit⟩)
  else .error .unassignedFunction

/-- Major 61 (R287). -/
def decodeMajor61 (f : Fields) : Except Reject Instr :=
  if f.b ≤ 3 then whenUsed (decide (f.d = 124 ∧ f.a = 124 ∧ f.g = 0 ∧ f.w = 0)) (.bar ⟨BitVec.ofNat 2 f.b, f.eBit⟩)
  else if 4 ≤ f.b ∧ f.b ≤ 7 then whenUsed (decide (f.d = 124 ∧ f.a = 124 ∧ f.g = 0 ∧ f.w = 0)) (.arrive ⟨BitVec.ofNat 2 f.b, f.eBit⟩)
  else if 8 ≤ f.b ∧ f.b ≤ 11 then whenUsed (decide (f.d = 124 ∧ f.a = 124 ∧ f.g = 0 ∧ f.w = 0)) (.waitb ⟨BitVec.ofNat 2 f.b, f.eBit⟩)
  else if f.b = 12 then whenUsed (decide (f.d = 124 ∧ f.g = 0 ∧ f.w = 0)) (.waitc ⟨f.srcA, f.eBit⟩)
  else if f.b = 13 then whenUsed (decide (f.d = 124 ∧ f.g = 0 ∧ f.w = 0)) (.waitcHbm ⟨f.srcA, f.eBit⟩)
  else if f.b = 14 then whenUsed (decide (f.d = 124 ∧ f.g = 0 ∧ f.w = 0)) (.waitt ⟨f.srcA, f.eBit⟩)
  else if 16 ≤ f.b ∧ f.b ≤ 19 then whenUsed (decide (f.d = 124 ∧ f.a = 124 ∧ f.g = 0 ∧ f.w = 0)) (.fence ⟨BitVec.ofNat 2 f.b, f.eBit⟩)
  else if f.b = 20 then whenUsed (decide (f.d = 124 ∧ f.g = 0 ∧ f.w = 0)) (.qfence ⟨f.srcA, f.eBit⟩)
  else if f.b = 21 then whenUsed (decide (f.d = 124 ∧ f.a = 124 ∧ f.g = 0 ∧ f.w = 0)) (.yield ⟨f.eBit⟩)
  else if f.b = 24 then whenUsed (decide (f.d = 124 ∧ f.w = 0 ∧ f.e = 1)) (.brx ⟨f.srcA, f.guard⟩)
  else if f.b = 25 then whenUsed (decide (f.d = 124 ∧ f.a = 124 ∧ f.w = 0 ∧ f.e = 1)) (.ret ⟨f.guard⟩)
  else if f.b = 28 then whenUsed (decide (f.d = 124 ∧ f.a = 124 ∧ f.w = 0 ∧ f.e = 1)) (.exit ⟨f.guard⟩)
  else if f.b = 26 then whenUsed (decide (f.d = 124 ∧ f.w = 0)) (.split ⟨f.srcA, f.guard, f.eBit⟩)
  else if f.b = 27 then whenUsed (decide (f.d = 124 ∧ f.a = 124 ∧ f.g = 0 ∧ f.w = 0)) (.join ⟨f.eBit⟩)
  else if f.b = 29 then whenUsed (decide (f.d = 124 ∧ f.a = 124 ∧ f.g = 0 ∧ f.w = 0)) (.nopInstr ⟨f.eBit⟩)
  else if f.b = 30 then whenUsed (decide (f.d = 124 ∧ f.a = 124 ∧ f.g = 0 ∧ f.w = 0)) (.ckpt ⟨f.eBit⟩)
  else .error .unassignedFunction

/-- Major 62 (R288). -/
def decodeMajor62 (f : Fields) : Except Reject Instr :=
  if f.b = 0 then whenUsed (decide (f.d = 124 ∧ f.g = 0 ∧ f.w = 0)) (.copy ⟨f.srcA, f.eBit⟩)
  else if f.b = 1 then whenUsed (decide (f.d = 124 ∧ f.g = 0 ∧ f.w = 0)) (.gather ⟨f.srcA, f.eBit⟩)
  else if f.b = 2 then whenUsed (decide (f.d = 124 ∧ f.g = 0 ∧ f.w = 0)) (.scatter ⟨f.srcA, f.eBit⟩)
  else if f.b = 3 then whenUsed (decide (f.d = 124 ∧ f.g = 0 ∧ f.w = 0)) (.mgx ⟨f.srcA, f.eBit⟩)
  else if f.b = 4 then whenUsed (decide (f.d = 124 ∧ f.g = 0 ∧ f.w = 0)) (.mmv ⟨f.srcA, f.eBit⟩)
  else if f.b = 5 then whenUsed (decide (f.d = 124 ∧ f.g = 0 ∧ f.w = 0)) (.fput ⟨f.srcA, f.eBit⟩)
  else if f.b = 6 then whenUsed (decide (f.d = 124 ∧ f.g = 0 ∧ f.w = 0)) (.fget ⟨f.srcA, f.eBit⟩)
  else if f.b = 7 then whenUsed (decide (f.d = 124 ∧ f.g = 0 ∧ f.w = 0)) (.fatom ⟨f.srcA, f.eBit⟩)
  else if f.b = 8 then whenUsed (decide (f.d = 124 ∧ f.g = 0 ∧ f.w = 0)) (.fmcast ⟨f.srcA, f.eBit⟩)
  else if f.b = 9 then whenUsed (decide (f.d = 124 ∧ f.g = 0 ∧ f.w = 0)) (.coll ⟨f.srcA, f.eBit⟩)
  else if f.b = 10 then whenUsed (decide (f.d = 124 ∧ f.g = 0 ∧ f.w = 0)) (.launchInstr ⟨f.srcA, f.eBit⟩)
  else if f.b = 11 then whenUsed (decide (f.d = 124 ∧ f.g = 0 ∧ f.w = 0)) (.cntadd ⟨f.srcA, f.eBit⟩)
  else .error .unassignedFunction

/-- Major 63 (R289). -/
def decodeMajor63 (f : Fields) : Except Reject Instr :=
  if f.b = 0 then whenUsed (decide (f.g = 0)) (.rdsr ⟨BitVec.ofNat 7 f.a, f.dst, f.wBit, f.eBit⟩)
  else if f.b = 1 then whenUsed (decide (f.g = 0 ∧ f.w = 0)) (.wrsr ⟨BitVec.ofNat 7 f.d, f.srcA, f.eBit⟩)
  else if f.b = 2 then whenUsed (decide (f.g = 0 ∧ f.w = 0)) (.spill ⟨f.dst, f.srcA, f.eBit⟩)
  else if f.b = 3 then whenUsed (decide (f.g = 0 ∧ f.w = 0)) (.fill ⟨f.dst, f.srcA, f.eBit⟩)
  else if f.b = 4 then whenUsed (decide (f.g = 0)) (.ctag ⟨f.dst, f.srcA, f.wBit, f.eBit⟩)
  else if f.b = 5 then whenUsed (decide (f.a = 124 ∧ f.g = 0 ∧ f.w = 0)) (.psave ⟨f.dst, f.eBit⟩)
  else if f.b = 6 then whenUsed (decide (f.a = 124 ∧ f.g = 0 ∧ f.w = 0)) (.prest ⟨f.dst, f.eBit⟩)
  else if f.b = 7 then whenUsed (decide (f.a = 124 ∧ f.g = 0 ∧ f.w = 0)) (.dsave ⟨f.dst, f.eBit⟩)
  else if f.b = 8 then whenUsed (decide (f.a = 124 ∧ f.g = 0 ∧ f.w = 0)) (.drest ⟨f.dst, f.eBit⟩)
  else if f.b = 9 then whenUsed (decide (f.a = 124 ∧ f.g = 0 ∧ f.w = 0)) (.bsave ⟨f.dst, f.eBit⟩)
  else if f.b = 10 then whenUsed (decide (f.a = 124 ∧ f.g = 0 ∧ f.w = 0)) (.brest ⟨f.dst, f.eBit⟩)
  else if f.b = 11 then whenUsed (decide (f.a = 124 ∧ f.g = 0 ∧ f.w = 0)) (.lsave ⟨f.dst, f.eBit⟩)
  else if f.b = 12 then whenUsed (decide (f.a = 124 ∧ f.g = 0 ∧ f.w = 0)) (.lrest ⟨f.dst, f.eBit⟩)
  else if f.b = 13 then whenUsed (decide (f.d = 124 ∧ f.a = 124 ∧ f.g = 0 ∧ f.w = 0)) (.brk ⟨f.eBit⟩)
  else if f.b = 14 then whenUsed (decide (f.d = 124 ∧ f.a = 124 ∧ f.g = 0 ∧ f.w = 0)) (.trap ⟨f.eBit⟩)
  else if f.b = 15 then whenUsed (decide (f.d = 124 ∧ f.a = 124 ∧ f.g = 0 ∧ f.w = 0 ∧ f.e = 1)) (.trapret)
  else if 16 ≤ f.b ∧ f.b ≤ 23 then whenUsed (decide (f.a = 124 ∧ f.g = 0 ∧ f.w = 0)) (.asave ⟨BitVec.ofNat 3 f.b, f.dst, f.eBit⟩)
  else if 24 ≤ f.b ∧ f.b ≤ 31 then whenUsed (decide (f.a = 124 ∧ f.g = 0 ∧ f.w = 0)) (.arest ⟨BitVec.ofNat 3 f.b, f.dst, f.eBit⟩)
  else .error .unassignedFunction

/-- A 32-bit instruction: the major opcode fixes the format (R275, R280, R281). -/
def decode32 (n : Nat) : Except Reject Instr :=
  let f := Fields.of n
  match field n 5 6 with
  | 0 => .ok (.iadd ⟨f.dst, f.srcA, f.srcB, f.guard, f.wBit, f.eBit⟩)
  | 1 => .ok (.isub ⟨f.dst, f.srcA, f.srcB, f.guard, f.wBit, f.eBit⟩)
  | 2 => .ok (.imul ⟨f.dst, f.srcA, f.srcB, f.guard, f.wBit, f.eBit⟩)
  | 3 => .ok (.imulh ⟨f.dst, f.srcA, f.srcB, f.guard, f.wBit, f.eBit⟩)
  | 4 => .ok (.imulhu ⟨f.dst, f.srcA, f.srcB, f.guard, f.wBit, f.eBit⟩)
  | 5 => whenUsed (decide (f.w = 0)) (.imad ⟨f.dst, f.srcA, f.srcB, f.guard, f.eBit⟩)
  | 6 => .ok (.imin ⟨f.dst, f.srcA, f.srcB, f.guard, f.wBit, f.eBit⟩)
  | 7 => .ok (.imax ⟨f.dst, f.srcA, f.srcB, f.guard, f.wBit, f.eBit⟩)
  | 8 => .ok (.iminu ⟨f.dst, f.srcA, f.srcB, f.guard, f.wBit, f.eBit⟩)
  | 9 => .ok (.imaxu ⟨f.dst, f.srcA, f.srcB, f.guard, f.wBit, f.eBit⟩)
  | 10 => .ok (.iabsd ⟨f.dst, f.srcA, f.srcB, f.guard, f.wBit, f.eBit⟩)
  | 11 => .ok (.and ⟨f.dst, f.srcA, f.srcB, f.guard, f.wBit, f.eBit⟩)
  | 12 => .ok (.or ⟨f.dst, f.srcA, f.srcB, f.guard, f.wBit, f.eBit⟩)
  | 13 => .ok (.xor ⟨f.dst, f.srcA, f.srcB, f.guard, f.wBit, f.eBit⟩)
  | 14 => .ok (.andn ⟨f.dst, f.srcA, f.srcB, f.guard, f.wBit, f.eBit⟩)
  | 15 => .ok (.shl ⟨f.dst, f.srcA, f.srcB, f.guard, f.wBit, f.eBit⟩)
  | 16 => .ok (.shr ⟨f.dst, f.srcA, f.srcB, f.guard, f.wBit, f.eBit⟩)
  | 17 => .ok (.sar ⟨f.dst, f.srcA, f.srcB, f.guard, f.wBit, f.eBit⟩)
  | 18 => whenUsed (decide (f.w = 0)) (.bfi ⟨f.dst, f.srcA, f.srcB, f.guard, f.eBit⟩)
  | 19 => whenUsed (decide (f.w = 0)) (.bperm ⟨f.dst, f.srcA, f.srcB, f.guard, f.eBit⟩)
  | 20 => .ok (.sel ⟨f.dst, f.srcA, f.srcB, f.guard, f.wBit, f.eBit⟩)
  | 21 => .ok (.fadd ⟨f.dst, f.srcA, f.srcB, f.guard, f.wBit, f.eBit⟩)
  | 22 => .ok (.fsub ⟨f.dst, f.srcA, f.srcB, f.guard, f.wBit, f.eBit⟩)
  | 23 => .ok (.fmul ⟨f.dst, f.srcA, f.srcB, f.guard, f.wBit, f.eBit⟩)
  | 24 => whenUsed (decide (f.w = 0)) (.ffma ⟨f.dst, f.srcA, f.srcB, f.guard, f.eBit⟩)
  | 25 => .ok (.fmin ⟨f.dst, f.srcA, f.srcB, f.guard, f.wBit, f.eBit⟩)
  | 26 => .ok (.fmax ⟨f.dst, f.srcA, f.srcB, f.guard, f.wBit, f.eBit⟩)
  | 27 => .ok (.hadd2 ⟨f.dst, f.srcA, f.srcB, f.guard, f.wBit, f.eBit⟩)
  | 28 => .ok (.hmul2 ⟨f.dst, f.srcA, f.srcB, f.guard, f.wBit, f.eBit⟩)
  | 29 => whenUsed (decide (f.w = 0)) (.hfma2 ⟨f.dst, f.srcA, f.srcB, f.guard, f.eBit⟩)
  | 30 => .ok (.icmp ⟨f.accBit, f.pred, f.fn3, f.srcA, f.srcB, f.eBit⟩)
  | 31 => .ok (.icmpu ⟨f.accBit, f.pred, f.fn3, f.srcA, f.srcB, f.eBit⟩)
  | 32 => .ok (.icmpi ⟨f.accBit, f.pred, f.fn3, f.srcA, BitVec.ofNat 7 f.b, f.eBit⟩)
  | 33 => .ok (.fcmp ⟨f.accBit, f.pred, f.fn3, f.srcA, f.srcB, f.eBit⟩)
  | 34 => whenUsed (decide (f.d = 124 ∧ f.w = 0)) (.sts ⟨f.srcA, f.srcB, f.guard, f.eBit⟩)
  | 35 => whenUsed (decide (f.d = 124 ∧ f.w = 0)) (.stsw ⟨f.srcA, f.srcB, f.guard, f.eBit⟩)
  | 36 => whenUsed (decide (f.d = 124 ∧ f.w = 0)) (.stg ⟨f.srcA, f.srcB, f.guard, f.eBit⟩)
  | 37 => whenUsed (decide (f.d = 124 ∧ f.g = 0 ∧ f.w = 0)) (.send ⟨f.srcA, f.srcB, f.eBit⟩)
  | 38 => .ok (.ats ⟨f.dst, f.srcA, f.srcB, f.fn3, f.eBit⟩)
  | 39 => .ok (.atg ⟨f.dst, f.srcA, f.srcB, f.fn3, f.eBit⟩)
  | 40 => .ok (.iaddi ⟨BitVec.ofNat 9 (f.g * 128 + f.b), f.srcA, f.dst, f.wBit, f.eBit⟩)
  | 41 => .ok (.andi ⟨BitVec.ofNat 9 (f.g * 128 + f.b), f.srcA, f.dst, f.wBit, f.eBit⟩)
  | 42 => .ok (.ori ⟨BitVec.ofNat 9 (f.g * 128 + f.b), f.srcA, f.dst, f.wBit, f.eBit⟩)
  | 43 => .ok (.xori ⟨BitVec.ofNat 9 (f.g * 128 + f.b), f.srcA, f.dst, f.wBit, f.eBit⟩)
  | 44 => whenUsed (decide (f.g = 0 ∧ f.b < 32)) (.shli ⟨BitVec.ofNat 5 f.b, f.srcA, f.dst, f.wBit, f.eBit⟩)
  | 45 => whenUsed (decide (f.g = 0 ∧ f.b < 32)) (.shri ⟨BitVec.ofNat 5 f.b, f.srcA, f.dst, f.wBit, f.eBit⟩)
  | 46 => whenUsed (decide (f.g = 0 ∧ f.b < 32)) (.sari ⟨BitVec.ofNat 5 f.b, f.srcA, f.dst, f.wBit, f.eBit⟩)
  | 48 => .ok (.movil ⟨f.imm16, f.dst, f.wBit, f.eBit⟩)
  | 49 => whenUsed (decide (f.w = 0)) (.movih ⟨f.imm16, f.dst, f.eBit⟩)
  | 50 => whenUsed (decide (f.w = 0 ∧ f.e = 1)) (.bra ⟨f.off21, f.guard⟩)
  | 51 => whenUsed (decide (f.w = 0 ∧ f.e = 1)) (.call ⟨f.off21, f.guard⟩)
  | 52 => whenUsed (decide (f.w = 0)) (.mmq ⟨BitVec.ofNat 2 (f.d / 32), BitVec.ofNat 2 (f.d / 8), BitVec.ofNat 3 f.d, f.srcA, f.srcB, f.guard, f.eBit⟩)
  | 53 => whenUsed (decide (f.w = 0)) (.mmqs ⟨BitVec.ofNat 2 (f.d / 32), BitVec.ofNat 2 (f.d / 8), BitVec.ofNat 3 f.d, f.srcA, f.srcB, f.guard, f.eBit⟩)
  | 56 => decodeMajor56 f
  | 57 => decodeMajor57 f
  | 58 => decodeMajor58 f
  | 59 => decodeMajor59 f
  | 60 => decodeMajor60 f
  | 61 => decodeMajor61 f
  | 62 => decodeMajor62 f
  | 63 => decodeMajor63 f
  | _ => .error .unassignedMajor

/-- A 16-bit instruction (R261, R291). -/
def decode16 (n : Nat) : Except Reject Instr :=
  let o : H16 := ⟨BitVec.ofNat 5 (field n 11 5), BitVec.ofNat 5 (field n 6 5), decide (field n 1 1 = 1)⟩
  match field n 2 4 with
  | 0 => .ok (.movH16 o)
  | 1 => .ok (.iaddH16 o)
  | 2 => .ok (.isubH16 o)
  | 3 => .ok (.imulH16 o)
  | 4 => .ok (.andH16 o)
  | 5 => .ok (.orH16 o)
  | 6 => .ok (.xorH16 o)
  | 7 => .ok (.andnH16 o)
  | 8 => .ok (.shlH16 o)
  | 9 => .ok (.shrH16 o)
  | 10 => .ok (.sarH16 o)
  | 11 => .ok (.faddH16 o)
  | 12 => .ok (.fsubH16 o)
  | 13 => .ok (.fmulH16 o)
  | 14 => .ok (.fminH16 o)
  | _ => .ok (.fmaxH16 o)

/-- Whether a halfword begins a 32-bit instruction: bit L (R254). -/
def isLong (h : Nat) : Bool := decide (h % 2 = 1)

/-- The instruction at the head of a list of bytes, little-endian, with the bytes after it (R254). -/
def decodeBytes : List Byte → Except Reject (Instr × List Byte)
  | b0 :: b1 :: r =>
    let h := b0.toNat + 2 ^ 8 * b1.toNat
    if isLong h then
      match r with
      | b2 :: b3 :: r' => (decode32 (h + 2 ^ 16 * b2.toNat + 2 ^ 24 * b3.toNat)).map fun i => (i, r')
      | _ => .error .truncated
    else (decode16 h).map fun i => (i, r)
  | _ => .error .truncated

/-- The bytes of an instruction of `nbits` bits, as the machine stores them (R254). -/
def wordBytes (nbits n : Nat) : List Byte :=
  (List.range (nbits / 8)).map fun k => BitVec.ofNat 8 (n / 2 ^ (8 * k))

/-- The number of bytes of the longest instruction. -/
def maxInstrBytes : Nat := 4

/-- The instruction that the decoder reads from a word of the opcode table. -/
def decodeTableWord (nbits w : Nat) : Option Instr :=
  match decodeBytes (wordBytes nbits w ++ List.replicate (maxInstrBytes - nbits / 8) 0) with
  | .ok (i, _) => some i
  | .error _ => none

/-- The 32-bit word of its fields: b, a, d, major, G, W, E; L is 1 (R256). -/
def word32 (b a d m g w e : Nat) : Nat :=
  b * 2 ^ 25 + a * 2 ^ 18 + d * 2 ^ 11 + m * 2 ^ 5 + g * 2 ^ 3 + w * 2 ^ 2 + e * 2 + 1

/-- The 16-bit word of its fields (R261). -/
def word16 (a d op e : Nat) : Nat := a * 2 ^ 11 + d * 2 ^ 6 + op * 2 ^ 2 + e * 2

/-- The length in bits and the word of an encoded instruction; none for an event. -/
def encode : Instr → Option (Nat × Nat)
  | .pwrokRise _ _ _ _ => none
  | .railDroop _ _ => none
  | .tuningAndTrainingDone _ _ _ => none
  | .memoryInitDone _ => none
  | .recoveryBlockWrite _ _ _ _ => none
  | .imageDone _ _ => none
  | .abort _ _ => none
  | .activate _ => none
  | .slackWindow _ _ => none
  | .portLock _ _ => none
  | .portDark _ => none
  | .portDead _ => none
  | .bundleTransmit _ _ => none
  | .bundleReceive _ _ _ => none
  | .replay _ _ => none
  | .landing _ _ => none
  | .relay _ _ => none
  | .requestRecord _ _ => none
  | .failureNotice _ _ _ => none
  | .keyRotation _ _ _ => none
  | .controlRecordReceive _ _ => none
  | .ptpMessage _ => none
  | .ppsIn _ => none
  | .timeCfgWrite _ => none
  | .doorbell _ _ => none
  | .packetFetch _ _ => none
  | .packetTake _ => none
  | .dispatch _ => none
  | .nop _ => none
  | .launch _ => none
  | .graph _ => none
  | .wait _ => none
  | .write _ => none
  | .schedLoad _ => none
  | .schedLoadDone _ => none
  | .schedActivate _ => none
  | .preempt _ => none
  | .cond _ => none
  | .loop _ => none
  | .endNode _ => none
  | .ringCfgWrite _ _ => none
  | .mergeCfgWrite _ _ => none
  | .clear _ => none
  | .journalCfgWrite _ => none
  | .ptRootWrite _ _ => none
  | .flush _ => none
  | .pwrCfgWrite _ => none
  | .registerWrite _ _ _ _ => none
  | .challenge _ _ _ => none
  | .getMeasurements _ _ _ _ _ => none
  | .keyExchange _ _ _ => none
  | .finish _ _ _ => none
  | .endSession _ _ => none
  | .partitionTableSet _ => none
  | .seal _ _ _ => none
  | .unseal _ _ _ => none
  | .operatorRelease _ => none
  | .tenantPtRootWrite _ _ _ _ _ => none
  | .tenantDebugUnlock _ _ _ _ => none
  | .tenantDebugExit _ _ _ => none
  | .vendorDebugToken _ _ => none
  | .debugRelease _ _ _ => none
  | .debugDeliverBreakpoint _ _ _ => none
  | .sealedTransferRecord _ _ _ _ _ _ _ _ => none
  | .coreGate => none
  | .staging => none
  | .placement => none
  | .instanceStart _ _ => none
  | .resourceRelease _ _ => none
  | .gridRetire _ => none
  | .freeze _ => none
  | .resumeImageWrite _ => none
  | .drainBoundExpiry => none
  | .idleBeat _ _ _ => none
  | .engineCommandStart _ => none
  | .iadd o => some (32, word32 (Src.code o.b) (Src.code o.a) (Dst.code o.d) 0 (o.g.toNat) ((bit o.w 0)) ((bit o.e 0)))
  | .isub o => some (32, word32 (Src.code o.b) (Src.code o.a) (Dst.code o.d) 1 (o.g.toNat) ((bit o.w 0)) ((bit o.e 0)))
  | .imul o => some (32, word32 (Src.code o.b) (Src.code o.a) (Dst.code o.d) 2 (o.g.toNat) ((bit o.w 0)) ((bit o.e 0)))
  | .imulh o => some (32, word32 (Src.code o.b) (Src.code o.a) (Dst.code o.d) 3 (o.g.toNat) ((bit o.w 0)) ((bit o.e 0)))
  | .imulhu o => some (32, word32 (Src.code o.b) (Src.code o.a) (Dst.code o.d) 4 (o.g.toNat) ((bit o.w 0)) ((bit o.e 0)))
  | .imad o => some (32, word32 (Src.code o.b) (Src.code o.a) (Dst.code o.d) 5 (o.g.toNat) (0) ((bit o.e 0)))
  | .imin o => some (32, word32 (Src.code o.b) (Src.code o.a) (Dst.code o.d) 6 (o.g.toNat) ((bit o.w 0)) ((bit o.e 0)))
  | .imax o => some (32, word32 (Src.code o.b) (Src.code o.a) (Dst.code o.d) 7 (o.g.toNat) ((bit o.w 0)) ((bit o.e 0)))
  | .iminu o => some (32, word32 (Src.code o.b) (Src.code o.a) (Dst.code o.d) 8 (o.g.toNat) ((bit o.w 0)) ((bit o.e 0)))
  | .imaxu o => some (32, word32 (Src.code o.b) (Src.code o.a) (Dst.code o.d) 9 (o.g.toNat) ((bit o.w 0)) ((bit o.e 0)))
  | .iabsd o => some (32, word32 (Src.code o.b) (Src.code o.a) (Dst.code o.d) 10 (o.g.toNat) ((bit o.w 0)) ((bit o.e 0)))
  | .and o => some (32, word32 (Src.code o.b) (Src.code o.a) (Dst.code o.d) 11 (o.g.toNat) ((bit o.w 0)) ((bit o.e 0)))
  | .or o => some (32, word32 (Src.code o.b) (Src.code o.a) (Dst.code o.d) 12 (o.g.toNat) ((bit o.w 0)) ((bit o.e 0)))
  | .xor o => some (32, word32 (Src.code o.b) (Src.code o.a) (Dst.code o.d) 13 (o.g.toNat) ((bit o.w 0)) ((bit o.e 0)))
  | .andn o => some (32, word32 (Src.code o.b) (Src.code o.a) (Dst.code o.d) 14 (o.g.toNat) ((bit o.w 0)) ((bit o.e 0)))
  | .shl o => some (32, word32 (Src.code o.b) (Src.code o.a) (Dst.code o.d) 15 (o.g.toNat) ((bit o.w 0)) ((bit o.e 0)))
  | .shr o => some (32, word32 (Src.code o.b) (Src.code o.a) (Dst.code o.d) 16 (o.g.toNat) ((bit o.w 0)) ((bit o.e 0)))
  | .sar o => some (32, word32 (Src.code o.b) (Src.code o.a) (Dst.code o.d) 17 (o.g.toNat) ((bit o.w 0)) ((bit o.e 0)))
  | .bfi o => some (32, word32 (Src.code o.b) (Src.code o.a) (Dst.code o.d) 18 (o.g.toNat) (0) ((bit o.e 0)))
  | .bperm o => some (32, word32 (Src.code o.b) (Src.code o.a) (Dst.code o.d) 19 (o.g.toNat) (0) ((bit o.e 0)))
  | .sel o => some (32, word32 (Src.code o.b) (Src.code o.a) (Dst.code o.d) 20 (o.g.toNat) ((bit o.w 0)) ((bit o.e 0)))
  | .fadd o => some (32, word32 (Src.code o.b) (Src.code o.a) (Dst.code o.d) 21 (o.g.toNat) ((bit o.w 0)) ((bit o.e 0)))
  | .fsub o => some (32, word32 (Src.code o.b) (Src.code o.a) (Dst.code o.d) 22 (o.g.toNat) ((bit o.w 0)) ((bit o.e 0)))
  | .fmul o => some (32, word32 (Src.code o.b) (Src.code o.a) (Dst.code o.d) 23 (o.g.toNat) ((bit o.w 0)) ((bit o.e 0)))
  | .ffma o => some (32, word32 (Src.code o.b) (Src.code o.a) (Dst.code o.d) 24 (o.g.toNat) (0) ((bit o.e 0)))
  | .fmin o => some (32, word32 (Src.code o.b) (Src.code o.a) (Dst.code o.d) 25 (o.g.toNat) ((bit o.w 0)) ((bit o.e 0)))
  | .fmax o => some (32, word32 (Src.code o.b) (Src.code o.a) (Dst.code o.d) 26 (o.g.toNat) ((bit o.w 0)) ((bit o.e 0)))
  | .hadd2 o => some (32, word32 (Src.code o.b) (Src.code o.a) (Dst.code o.d) 27 (o.g.toNat) ((bit o.w 0)) ((bit o.e 0)))
  | .hmul2 o => some (32, word32 (Src.code o.b) (Src.code o.a) (Dst.code o.d) 28 (o.g.toNat) ((bit o.w 0)) ((bit o.e 0)))
  | .hfma2 o => some (32, word32 (Src.code o.b) (Src.code o.a) (Dst.code o.d) 29 (o.g.toNat) (0) ((bit o.e 0)))
  | .icmp o => some (32, word32 (Src.code o.b) (Src.code o.a) (bit o.acc 6 + o.p.toNat) 30 (o.c.toNat / 2) (o.c.toNat % 2) ((bit o.e 0)))
  | .icmpu o => some (32, word32 (Src.code o.b) (Src.code o.a) (bit o.acc 6 + o.p.toNat) 31 (o.c.toNat / 2) (o.c.toNat % 2) ((bit o.e 0)))
  | .icmpi o => some (32, word32 (o.imm.toNat) (Src.code o.a) (bit o.acc 6 + o.p.toNat) 32 (o.c.toNat / 2) (o.c.toNat % 2) ((bit o.e 0)))
  | .fcmp o => some (32, word32 (Src.code o.b) (Src.code o.a) (bit o.acc 6 + o.p.toNat) 33 (o.c.toNat / 2) (o.c.toNat % 2) ((bit o.e 0)))
  | .sts o => some (32, word32 (Src.code o.b) (Src.code o.a) (124) 34 (o.g.toNat) (0) ((bit o.e 0)))
  | .stsw o => some (32, word32 (Src.code o.b) (Src.code o.a) (124) 35 (o.g.toNat) (0) ((bit o.e 0)))
  | .stg o => some (32, word32 (Src.code o.b) (Src.code o.a) (124) 36 (o.g.toNat) (0) ((bit o.e 0)))
  | .send o => some (32, word32 (Src.code o.b) (Src.code o.a) (124) 37 (0) (0) ((bit o.e 0)))
  | .ats o => some (32, word32 (Src.code o.b) (Src.code o.a) (Dst.code o.d) 38 (o.fn.toNat / 2) (o.fn.toNat % 2) ((bit o.e 0)))
  | .atg o => some (32, word32 (Src.code o.b) (Src.code o.a) (Dst.code o.d) 39 (o.fn.toNat / 2) (o.fn.toNat % 2) ((bit o.e 0)))
  | .iaddi o => some (32, word32 (o.imm.toNat % 128) (Src.code o.a) (Dst.code o.d) 40 (o.imm.toNat / 128) ((bit o.w 0)) ((bit o.e 0)))
  | .andi o => some (32, word32 (o.imm.toNat % 128) (Src.code o.a) (Dst.code o.d) 41 (o.imm.toNat / 128) ((bit o.w 0)) ((bit o.e 0)))
  | .ori o => some (32, word32 (o.imm.toNat % 128) (Src.code o.a) (Dst.code o.d) 42 (o.imm.toNat / 128) ((bit o.w 0)) ((bit o.e 0)))
  | .xori o => some (32, word32 (o.imm.toNat % 128) (Src.code o.a) (Dst.code o.d) 43 (o.imm.toNat / 128) ((bit o.w 0)) ((bit o.e 0)))
  | .shli o => some (32, word32 (o.n.toNat) (Src.code o.a) (Dst.code o.d) 44 (0) ((bit o.w 0)) ((bit o.e 0)))
  | .shri o => some (32, word32 (o.n.toNat) (Src.code o.a) (Dst.code o.d) 45 (0) ((bit o.w 0)) ((bit o.e 0)))
  | .sari o => some (32, word32 (o.n.toNat) (Src.code o.a) (Dst.code o.d) 46 (0) ((bit o.w 0)) ((bit o.e 0)))
  | .movil o => some (32, word32 (o.imm.toNat / 512) (o.imm.toNat / 4 % 128) (Dst.code o.d) 48 (o.imm.toNat % 4) ((bit o.w 0)) ((bit o.e 0)))
  | .movih o => some (32, word32 (o.imm.toNat / 512) (o.imm.toNat / 4 % 128) (Dst.code o.d) 49 (o.imm.toNat % 4) (0) ((bit o.e 0)))
  | .bra o => some (32, word32 (o.off.toNat / 16384) (o.off.toNat / 128 % 128) (o.off.toNat % 128) 50 (o.g.toNat) (0) (1))
  | .call o => some (32, word32 (o.off.toNat / 16384) (o.off.toNat / 128 % 128) (o.off.toNat % 128) 51 (o.g.toNat) (0) (1))
  | .mmq o => some (32, word32 (Src.code o.b) (Src.code o.a) (o.mode.toNat * 32 + o.k.toNat * 8 + o.n.toNat) 52 (o.g.toNat) (0) ((bit o.e 0)))
  | .mmqs o => some (32, word32 (Src.code o.b) (Src.code o.a) (o.mode.toNat * 32 + o.k.toNat * 8 + o.n.toNat) 53 (o.g.toNat) (0) ((bit o.e 0)))
  | .mov o => some (32, word32 (0) (Src.code o.a) (Dst.code o.d) 56 (o.g.toNat) ((bit o.w 0)) ((bit o.e 0)))
  | .popc o => some (32, word32 (1) (Src.code o.a) (Dst.code o.d) 56 (o.g.toNat) ((bit o.w 0)) ((bit o.e 0)))
  | .clz o => some (32, word32 (2) (Src.code o.a) (Dst.code o.d) 56 (o.g.toNat) ((bit o.w 0)) ((bit o.e 0)))
  | .brev o => some (32, word32 (3) (Src.code o.a) (Dst.code o.d) 56 (o.g.toNat) ((bit o.w 0)) ((bit o.e 0)))
  | .ineg o => some (32, word32 (4) (Src.code o.a) (Dst.code o.d) 56 (o.g.toNat) ((bit o.w 0)) ((bit o.e 0)))
  | .iabs o => some (32, word32 (5) (Src.code o.a) (Dst.code o.d) 56 (o.g.toNat) ((bit o.w 0)) ((bit o.e 0)))
  | .bfx o => some (32, word32 (6) (Src.code o.a) (Dst.code o.d) 56 (o.g.toNat) (0) ((bit o.e 0)))
  | .sext o => some (32, word32 (32 + o.n.toNat) (Src.code o.a) (Dst.code o.d) 56 (o.g.toNat) ((bit o.w 0)) ((bit o.e 0)))
  | .rotl o => some (32, word32 (64 + o.n.toNat) (Src.code o.a) (Dst.code o.d) 56 (o.g.toNat) ((bit o.w 0)) ((bit o.e 0)))
  | .frcp o => some (32, word32 (0) (Src.code o.a) (Dst.code o.d) 57 (o.g.toNat) ((bit o.w 0)) ((bit o.e 0)))
  | .frsq o => some (32, word32 (1) (Src.code o.a) (Dst.code o.d) 57 (o.g.toNat) ((bit o.w 0)) ((bit o.e 0)))
  | .fsqrt o => some (32, word32 (2) (Src.code o.a) (Dst.code o.d) 57 (o.g.toNat) ((bit o.w 0)) ((bit o.e 0)))
  | .fex2 o => some (32, word32 (3) (Src.code o.a) (Dst.code o.d) 57 (o.g.toNat) ((bit o.w 0)) ((bit o.e 0)))
  | .flg2 o => some (32, word32 (4) (Src.code o.a) (Dst.code o.d) 57 (o.g.toNat) ((bit o.w 0)) ((bit o.e 0)))
  | .fsinp o => some (32, word32 (5) (Src.code o.a) (Dst.code o.d) 57 (o.g.toNat) ((bit o.w 0)) ((bit o.e 0)))
  | .fcosp o => some (32, word32 (6) (Src.code o.a) (Dst.code o.d) 57 (o.g.toNat) ((bit o.w 0)) ((bit o.e 0)))
  | .ftanh o => some (32, word32 (7) (Src.code o.a) (Dst.code o.d) 57 (o.g.toNat) ((bit o.w 0)) ((bit o.e 0)))
  | .fcvt o => some (32, word32 (16 + 4 * o.p.toNat + o.rm.toNat) (Src.code o.a) (Dst.code o.d) 57 (o.g.toNat) ((bit o.w 0)) ((bit o.e 0)))
  | .i2f o => some (32, word32 (40 + o.rm.toNat) (Src.code o.a) (Dst.code o.d) 57 (o.g.toNat) ((bit o.w 0)) ((bit o.e 0)))
  | .f2i o => some (32, word32 (44 + o.rm.toNat) (Src.code o.a) (Dst.code o.d) 57 (o.g.toNat) ((bit o.w 0)) ((bit o.e 0)))
  | .fmtw o => some (32, word32 (64 + o.n.toNat) (Src.code o.a) (124) 57 (0) (0) ((bit o.e 0)))
  | .cmpr o => some (32, word32 (72) (Src.code o.a) (Dst.code o.d) 57 (o.g.toNat) (0) ((bit o.e 0)))
  | .accz o => some (32, word32 (80 + o.n.toNat) (124) (124) 57 (0) (0) ((bit o.e 0)))
  | .accrd o => some (32, word32 (88 + o.n.toNat) (124) (Dst.code o.d) 57 (o.g.toNat) (0) ((bit o.e 0)))
  | .accwr o => some (32, word32 (96 + o.n.toNat) (Src.code o.a) (124) 57 (0) (0) ((bit o.e 0)))
  | .pand o => some (32, word32 (0 + bit o.neg 0) (o.a.toNat) (o.d.toNat) 58 (o.g.toNat) (0) ((bit o.e 0)))
  | .por o => some (32, word32 (2 + bit o.neg 0) (o.a.toNat) (o.d.toNat) 58 (o.g.toNat) (0) ((bit o.e 0)))
  | .pxor o => some (32, word32 (4 + bit o.neg 0) (o.a.toNat) (o.d.toNat) 58 (o.g.toNat) (0) ((bit o.e 0)))
  | .pnot o => some (32, word32 (6) (o.a.toNat) (o.d.toNat) 58 (o.g.toNat) (0) ((bit o.e 0)))
  | .pmov o => some (32, word32 (7) (o.a.toNat) (o.d.toNat) 58 (o.g.toNat) (0) ((bit o.e 0)))
  | .pvec o => some (32, word32 (8) (o.a.toNat) (Dst.code o.d) 58 (o.g.toNat) ((bit o.w 0)) ((bit o.e 0)))
  | .gbind o => some (32, word32 (9) (o.a.toNat) (o.slot.toNat) 58 (0) (0) ((bit o.e 0)))
  | .gbindNeg o => some (32, word32 (10) (o.a.toNat) (o.slot.toNat) 58 (0) (0) ((bit o.e 0)))
  | .shflx o => some (32, word32 (0 + o.n.toNat) (Src.code o.a) (Dst.code o.d) 59 (o.g.toNat) ((bit o.w 0)) ((bit o.e 0)))
  | .shflu o => some (32, word32 (32 + o.n.toNat) (Src.code o.a) (Dst.code o.d) 59 (o.g.toNat) ((bit o.w 0)) ((bit o.e 0)))
  | .shfld o => some (32, word32 (64 + o.n.toNat) (Src.code o.a) (Dst.code o.d) 59 (o.g.toNat) ((bit o.w 0)) ((bit o.e 0)))
  | .shfli o => some (32, word32 (96) (Src.code o.a) (Dst.code o.d) 59 (o.g.toNat) (0) ((bit o.e 0)))
  | .bcast o => some (32, word32 (97) (Src.code o.a) (Dst.code o.d) 59 (o.g.toNat) ((bit o.w 0)) ((bit o.e 0)))
  | .ballot o => some (32, word32 (98) (o.a.toNat) (Dst.code o.d) 59 (o.g.toNat) ((bit o.w 0)) ((bit o.e 0)))
  | .vall o => some (32, word32 (99) (o.a.toNat) (o.d.toNat) 59 (o.g.toNat) (0) ((bit o.e 0)))
  | .vany o => some (32, word32 (100) (o.a.toNat) (o.d.toNat) 59 (o.g.toNat) (0) ((bit o.e 0)))
  | .redl o => some (32, word32 (104 + o.o.toNat) (Src.code o.a) (Dst.code o.d) 59 (o.g.toNat) ((bit o.w 0)) ((bit o.e 0)))
  | .scanl o => some (32, word32 (115 + o.o.toNat) (Src.code o.a) (Dst.code o.d) 59 (o.g.toNat) ((bit o.w 0)) ((bit o.e 0)))
  | .lds o => some (32, word32 (o.k.toNat) (Src.code o.a) (Dst.code o.d) 60 (o.g.toNat) ((bit o.w 0)) ((bit o.e 0)))
  | .ldsw o => some (32, word32 (5) (Src.code o.a) (Dst.code o.d) 60 (o.g.toNat) (0) ((bit o.e 0)))
  | .ldg o => some (32, word32 (8 + o.s.toNat) (Src.code o.a) (Dst.code o.d) 60 (o.g.toNat) (0) ((bit o.e 0)))
  | .ldgi o => some (32, word32 (16 + o.s.toNat) (Src.code o.a) (Dst.code o.d) 60 (o.g.toNat) (0) ((bit o.e 0)))
  | .qstat o => some (32, word32 (24 + o.n.toNat) (124) (Dst.code o.d) 60 (0) ((bit o.w 0)) ((bit o.e 0)))
  | .sendm o => some (32, word32 (32 + o.n.toNat) (Src.code o.a) (124) 60 (0) (0) ((bit o.e 0)))
  | .bar o => some (32, word32 (0 + o.n.toNat) (124) (124) 61 (0) (0) ((bit o.e 0)))
  | .arrive o => some (32, word32 (4 + o.n.toNat) (124) (124) 61 (0) (0) ((bit o.e 0)))
  | .waitb o => some (32, word32 (8 + o.n.toNat) (124) (124) 61 (0) (0) ((bit o.e 0)))
  | .waitc o => some (32, word32 (12) (Src.code o.a) (124) 61 (0) (0) ((bit o.e 0)))
  | .waitcHbm o => some (32, word32 (13) (Src.code o.a) (124) 61 (0) (0) ((bit o.e 0)))
  | .waitt o => some (32, word32 (14) (Src.code o.a) (124) 61 (0) (0) ((bit o.e 0)))
  | .fence o => some (32, word32 (16 + o.n.toNat) (124) (124) 61 (0) (0) ((bit o.e 0)))
  | .qfence o => some (32, word32 (20) (Src.code o.a) (124) 61 (0) (0) ((bit o.e 0)))
  | .yield o => some (32, word32 (21) (124) (124) 61 (0) (0) ((bit o.e 0)))
  | .brx o => some (32, word32 (24) (Src.code o.a) (124) 61 (o.g.toNat) (0) (1))
  | .ret o => some (32, word32 (25) (124) (124) 61 (o.g.toNat) (0) (1))
  | .split o => some (32, word32 (26) (Src.code o.a) (124) 61 (o.g.toNat) (0) ((bit o.e 0)))
  | .join o => some (32, word32 (27) (124) (124) 61 (0) (0) ((bit o.e 0)))
  | .exit o => some (32, word32 (28) (124) (124) 61 (o.g.toNat) (0) (1))
  | .nopInstr o => some (32, word32 (29) (124) (124) 61 (0) (0) ((bit o.e 0)))
  | .ckpt o => some (32, word32 (30) (124) (124) 61 (0) (0) ((bit o.e 0)))
  | .copy o => some (32, word32 (0) (Src.code o.a) (124) 62 (0) (0) ((bit o.e 0)))
  | .gather o => some (32, word32 (1) (Src.code o.a) (124) 62 (0) (0) ((bit o.e 0)))
  | .scatter o => some (32, word32 (2) (Src.code o.a) (124) 62 (0) (0) ((bit o.e 0)))
  | .mgx o => some (32, word32 (3) (Src.code o.a) (124) 62 (0) (0) ((bit o.e 0)))
  | .mmv o => some (32, word32 (4) (Src.code o.a) (124) 62 (0) (0) ((bit o.e 0)))
  | .fput o => some (32, word32 (5) (Src.code o.a) (124) 62 (0) (0) ((bit o.e 0)))
  | .fget o => some (32, word32 (6) (Src.code o.a) (124) 62 (0) (0) ((bit o.e 0)))
  | .fatom o => some (32, word32 (7) (Src.code o.a) (124) 62 (0) (0) ((bit o.e 0)))
  | .fmcast o => some (32, word32 (8) (Src.code o.a) (124) 62 (0) (0) ((bit o.e 0)))
  | .coll o => some (32, word32 (9) (Src.code o.a) (124) 62 (0) (0) ((bit o.e 0)))
  | .launchInstr o => some (32, word32 (10) (Src.code o.a) (124) 62 (0) (0) ((bit o.e 0)))
  | .cntadd o => some (32, word32 (11) (Src.code o.a) (124) 62 (0) (0) ((bit o.e 0)))
  | .rdsr o => some (32, word32 (0) (o.s.toNat) (Dst.code o.d) 63 (0) ((bit o.w 0)) ((bit o.e 0)))
  | .wrsr o => some (32, word32 (1) (Src.code o.a) (o.s.toNat) 63 (0) (0) ((bit o.e 0)))
  | .spill o => some (32, word32 (2) (Src.code o.a) (Dst.code o.d) 63 (0) (0) ((bit o.e 0)))
  | .fill o => some (32, word32 (3) (Src.code o.a) (Dst.code o.d) 63 (0) (0) ((bit o.e 0)))
  | .ctag o => some (32, word32 (4) (Src.code o.a) (Dst.code o.d) 63 (0) ((bit o.w 0)) ((bit o.e 0)))
  | .psave o => some (32, word32 (5) (124) (Dst.code o.d) 63 (0) (0) ((bit o.e 0)))
  | .prest o => some (32, word32 (6) (124) (Dst.code o.d) 63 (0) (0) ((bit o.e 0)))
  | .dsave o => some (32, word32 (7) (124) (Dst.code o.d) 63 (0) (0) ((bit o.e 0)))
  | .drest o => some (32, word32 (8) (124) (Dst.code o.d) 63 (0) (0) ((bit o.e 0)))
  | .bsave o => some (32, word32 (9) (124) (Dst.code o.d) 63 (0) (0) ((bit o.e 0)))
  | .brest o => some (32, word32 (10) (124) (Dst.code o.d) 63 (0) (0) ((bit o.e 0)))
  | .lsave o => some (32, word32 (11) (124) (Dst.code o.d) 63 (0) (0) ((bit o.e 0)))
  | .lrest o => some (32, word32 (12) (124) (Dst.code o.d) 63 (0) (0) ((bit o.e 0)))
  | .brk o => some (32, word32 (13) (124) (124) 63 (0) (0) ((bit o.e 0)))
  | .trap o => some (32, word32 (14) (124) (124) 63 (0) (0) ((bit o.e 0)))
  | .asave o => some (32, word32 (16 + o.n.toNat) (124) (Dst.code o.d) 63 (0) (0) ((bit o.e 0)))
  | .arest o => some (32, word32 (24 + o.n.toNat) (124) (Dst.code o.d) 63 (0) (0) ((bit o.e 0)))
  | .movH16 o => some (16, word16 o.a.toNat o.d.toNat 0 (bit o.e 0))
  | .iaddH16 o => some (16, word16 o.a.toNat o.d.toNat 1 (bit o.e 0))
  | .isubH16 o => some (16, word16 o.a.toNat o.d.toNat 2 (bit o.e 0))
  | .imulH16 o => some (16, word16 o.a.toNat o.d.toNat 3 (bit o.e 0))
  | .andH16 o => some (16, word16 o.a.toNat o.d.toNat 4 (bit o.e 0))
  | .orH16 o => some (16, word16 o.a.toNat o.d.toNat 5 (bit o.e 0))
  | .xorH16 o => some (16, word16 o.a.toNat o.d.toNat 6 (bit o.e 0))
  | .andnH16 o => some (16, word16 o.a.toNat o.d.toNat 7 (bit o.e 0))
  | .shlH16 o => some (16, word16 o.a.toNat o.d.toNat 8 (bit o.e 0))
  | .shrH16 o => some (16, word16 o.a.toNat o.d.toNat 9 (bit o.e 0))
  | .sarH16 o => some (16, word16 o.a.toNat o.d.toNat 10 (bit o.e 0))
  | .faddH16 o => some (16, word16 o.a.toNat o.d.toNat 11 (bit o.e 0))
  | .fsubH16 o => some (16, word16 o.a.toNat o.d.toNat 12 (bit o.e 0))
  | .fmulH16 o => some (16, word16 o.a.toNat o.d.toNat 13 (bit o.e 0))
  | .fminH16 o => some (16, word16 o.a.toNat o.d.toNat 14 (bit o.e 0))
  | .fmaxH16 o => some (16, word16 o.a.toNat o.d.toNat 15 (bit o.e 0))
  | .registerFileError _ _ _ _ => none
  | .ref10m _ => none
  | .debuggerHalt _ _ _ _ => none
  | .singleStep _ _ _ => none
  | .ideStreamBind _ _ _ => none
  | .zeroingComplete _ _ => none
  | .pwrokFall => none
  | .overtempAlert => none
  | .thermtrip => none
  | .perstAssert => none
  | .perstDeassert => none
  | .busMasterEnable => none
  | .d3hotEntry => none
  | .d0Entry => none
  | .romBoot => none
  | .pllLock => none
  | .bringupPhaseTimeout => none
  | .gtcDisciplineTimeout => none
  | .recoveryStatus _ _ => none
  | .recoveryVerifyDone => none
  | .fwEventTake => none
  | .verify => none
  | .fwVerifyDone => none
  | .fwActivateDone => none
  | .multicastResolution => none
  | .controlRecord => none
  | .ppsOut => none
  | .timeFaultTimeout => none
  | .holdover => none
  | .enterFault => none
  | .enterAgree => none
  | .enterRealign => none
  | .gtcRealign => none
  | .deviceHoldEnd => none
  | .resumeRun => none
  | .boundaryImage => none
  | .activationTakesEffect => none
  | .waitSatisfied => none
  | .waitWatchdog => none
  | .getVersion => none
  | .getCapabilities _ => none
  | .negotiateAlgorithms _ => none
  | .getDigests _ => none
  | .getCertificate _ _ => none
  | .debugNonce _ => none
  | .deviceIdleEntry => none
  | .wakeComplete => none
  | .staged => none
  | .resultLanding => none
  | .queueLanding => none
  | .parkRelease => none
  | .barrierRelease => none
  | .mailboxDelivery => none
  | .pageWalkLevel => none
  | .engineDone => none
  | .trapret => some (32, word32 15 124 124 63 0 0 1)
  | .illegalInstruction => none
  | .writeCompletion => none
  | .unsupportedRequest _ => none
  | .vddAuxLost => none

end Sys2Proof
end

