-- ==== Sys2Proof/Machine/Front.lean ====
section
/-! DEFINITION. The front ends: turns, idle beats, fetch and the slip judgement of a partition (R145 to R149, R155, R255,
R262). -/

namespace Sys2Proof.Machine

/-- What a front end does on a tick. -/
inductive Present where
  | quiet
  | idle (slot : Nat)
  | run (slot : Nat) (fresh : Bool)
deriving DecidableEq, Repr

/-- The warp of a slot of a partition (R130). -/
def slotKey (core p slot : Nat) : Nat := warpKey core (slot * 4 + p)

/-- The slot that takes the next turn (R147). -/
def FrontEnd.next (f : FrontEnd) : Nat :=
  match f.joined with
  | [] => f.slot
  | j :: r => r.foldl min j

/-- A stream may take a turn now (R116, R120, R146, R155, R325). -/
def Stream.ready (st : Stream) (duty : Nat) : Bool :=
  (match st.phase with
   | .idle => true
   | .released => true
   | .inRun => true
   | _ => false) && decide (st.turnNo % 8 < duty) && !st.skipTurn && !st.halted

/-- The turn of a front end belongs to a stream that has been stopped (R330). -/
def State.deadTurn (s : State) (core p : Nat) (x : Strm) (f : FrontEnd) : Bool :=
  match f.turn with
  | none => false
  | some slot => match s.warp? (slotKey core p slot) with
    | some w => decide ((w.strm x).phase ≠ .inRun)
    | none => true

/-- The front end as this tick finds it: a stopped stream's turn is over. -/
def State.feNow (s : State) (core p : Nat) (x : Strm) : FrontEnd :=
  let f := s.fe (feKey core p x)
  if s.deadTurn core p x f then { f.endTurn with waitUntil := 0 } else f

/-- No core issues while the package has stopped issue (R19, R24) or the device is held (R76). -/
def State.mayIssue (s : State) : Bool := !s.pkg.stopped && decide (s.sched.held = 0)

/-- What a front end presents on this tick (R146, R147, R149). -/
def State.presents (s : State) (core p : Nat) (x : Strm) : Present :=
  let f := s.feNow core p x
  if !s.mayIssue || decide (s.gtc < f.waitUntil) then .quiet
  else match f.turn with
    | some slot => .run slot false
    | none =>
      let slot := f.next
      let key := slotKey core p slot
      match (s.releaseStream key x).warp? key with
      | none => .idle slot
      | some w => match s.gridOf w with
        | none => .idle slot
        | some g => if (w.strm x).ready g.hdr.duty then .run slot true else .idle slot

/-- A boundary has passed: the joined slots have had their chance, and the turn counts for its stream (R120, R147). -/
def State.boundary (s : State) (core p : Nat) (x : Strm) (slot : Nat) (turn : Option Nat) : State :=
  let k := feKey core p x
  let f := s.feNow core p x
  let s := s.updFe k fun _ => { f with slot := slot, turn := turn, joined := [] }
  s.updStream (slotKey core p slot) x fun st => { st with turnNo := st.turnNo + 1 }

/-- A slot takes its turn (R146, R148, R155). -/
def State.enterTurn (s : State) (core p : Nat) (x : Strm) (slot : Nat) : State :=
  let key := slotKey core p slot
  ((s.releaseStream key x).boundary core p x slot (some slot)).updStream key x Stream.beginTurn

/-- IDLE_BEAT (R146): the slot at the boundary gives up its turn; a `yield` is spent (R325). -/
def execIdleBeat (core : Nat) (part : Fin 4) (x : Strm) (s : State) : Out :=
  let part := part.val
  let slot := (s.feNow core part x).next
  let key := slotKey core part slot
  .next ((((s.releaseStream key x).boundary core part x slot none).updFe (feKey core part x) FrontEnd.endTurn).updStream key x
    fun st => { st with skipTurn := false })

/-- The bytes of an instruction at a program counter that lie in the code span (R254, R255). -/
def State.codeBytes (s : State) (core : Nat) (g : Grid) (pc : Nat) : List Byte :=
  let n := min 4 (g.hdr.cunit * 65536 + g.hdr.codelen - pc)
  if g.inCode pc then (List.range n).map fun k => s.byteAt (scratchCell core 0 (pc + k)) else []

/-- The instruction that a stream presents (R254, R255, R292). -/
def State.fetch (s : State) (key : Nat) (x : Strm) : Instr :=
  match s.warp? key with
  | none => .illegalInstruction
  | some w => match s.gridOf w with
    | none => .illegalInstruction
    | some g => match decodeBytes (s.codeBytes w.core g (w.strm x).pc) with
      | .ok (i, _) => i
      | .error _ => .illegalInstruction

/-- The stream presents its instruction: it becomes the current one. -/
def State.presenting (s : State) (core p : Nat) (x : Strm) (slot : Nat) (fresh : Bool) : State × Instr :=
  let key := slotKey core p slot
  let s := if fresh then s.enterTurn core p x slot else s.updFe (feKey core p x) fun _ => s.feNow core p x
  ({ s with cur := some (key, x) }, s.fetch key x)

/-- The state after a trial of what a front end presents; `ex` is the meaning of an instruction. -/
def State.trial (ex : Instr → State → Out) (s : State) (core p : Nat) (x : Strm) : Option State :=
  match s.presents core p x with
  | .run slot fresh =>
    let (t, i) := s.presenting core p x slot fresh
    match ex i t with
    | .next t => some t
    | _ => none
  | _ => none

/-- The trial slipped (R149). -/
def slippedTrial : Option State → Bool
  | some t => t.cur.isNone
  | none => false

/-- The warp of the slot whose turn it is, or whose turn could begin, at a front end. -/
def State.turnKey (s : State) (core p : Nat) (x : Strm) : Option Nat := match s.presents core p x with
  | .quiet => none
  | .idle slot => some (slotKey core p slot)
  | .run slot _ => some (slotKey core p slot)

/-- What a stream is parked on. -/
def State.parkOf (s : State) (key : Nat) (x : Strm) : Option Park := (s.warp? key).bind fun w => match (w.strm x).phase with
  | .parked p => some p
  | _ => none

/-- The park that a front end meets before its partition acts: that of the instruction that it presents, or of the stream whose turn
could begin (R153, R155). -/
def State.meetsPark (s : State) (core p : Nat) (x : Strm) (trial : Option State) : Option Park :=
  (s.turnKey core p x).bind fun k => (trial.getD s).parkOf k x

/-- The park is for room in a queue. -/
def Park.forRoom : Option Park → Bool
  | some (.pushFull ..) => true
  | _ => false

/-- The trial of the execute stream pops queues of a warp that the access stream reserves into (R151). -/
def State.popsFor (s : State) (key : Nat) : Option State → Bool
  | some t => (List.range 6).any fun q => match s.warp? key, t.warp? key with
    | some v, some w => decide ((w.live q).length < (v.live q).length)
    | _, _ => false
  | none => false

/-- The execute stream acts first: its pops make the room that the access stream waits for (R151, R153). -/
def State.exeFirst (s : State) (core p : Nat) (a e : Option State) : Bool :=
  Park.forRoom (s.meetsPark core p .acc a) && match s.turnKey core p .acc with
    | some k => s.popsFor k e
    | none => false

/-- Instructions that read what the engines' starts of this very tick fix (R193, R194, R216, R217). -/
def readsStarts : Instr → Bool
  | .rdsr _ => true
  | .fence _ => true
  | .waitc _ => true
  | .waitcHbm _ => true
  | _ => false

/-- A park that a start of this very tick may end (R194, R216). -/
def Park.readsStarts : Park → Bool
  | .fence .. => true
  | .counter .. => true
  | _ => false

/-- A front end acts after the engine commands of the tick have started. -/
def State.actsLate (s : State) (core p : Nat) (x : Strm) : Bool :=
  match s.presents core p x with
  | .quiet => false
  | .idle slot => ((s.parkOf (slotKey core p slot) x).map Park.readsStarts).getD false
  | .run slot fresh => readsStarts (s.presenting core p x slot fresh).2

/-- Put front ends behind the starts of the tick. -/
def afterStarts (l : List FeTodo) : List FeTodo → List FeTodo
  | [] => l
  | .starts :: r => .starts :: l ++ r
  | t :: r => t :: afterStarts l r

/-- A slip tick of a partition: neither front end issues, and the turn of the slipping stream has begun (R149, R152). -/
def State.slipTick (s : State) (core p : Nat) (x : Strm) : State :=
  match s.presents core p x with
  | .run slot true => s.enterTurn core p x slot
  | _ => s

/-- Judge a partition (R149, R151): it slips, or its front ends act, the access stream's first unless the execute stream's pops
make the room that it waits for; those that read what this tick's starts fix act after them. -/
def State.judgePart (ex : Instr → State → Out) (s : State) (core p : Nat) : State :=
  let a := s.trial ex core p .acc
  let e := s.trial ex core p .exe
  let sa := slippedTrial a
  let se := slippedTrial e
  if sa || se then
    let s := if sa then s.slipTick core p .acc else s
    let s := if se then s.slipTick core p .exe else s
    s.slip (slotKey core p 0)
  else
    let fa : FeTodo := .fe core p .acc (s.meetsPark core p .acc a)
    let fe : FeTodo := .fe core p .exe (s.meetsPark core p .exe e)
    let la := s.actsLate core p .acc
    let le := s.actsLate core p .exe
    let order := if s.exeFirst core p a e then [(fe, le), (fa, la)] else [(fa, la), (fe, le)]
    let now := (order.filter fun x => !x.2).map (·.1)
    let late := (order.filter fun x => x.2).map (·.1)
    { s with feTodo := now ++ (if late.isEmpty then s.feTodo else afterStarts late s.feTodo) }

/-- A debugger halts a stream (R116): in its run it parks; otherwise it takes no turn. -/
def State.debugHalt (s : State) (key : Nat) (x : Strm) : State :=
  match s.warp? key with
  | none => s
  | some w =>
    if (w.strm x).gone then s
    else if (w.strm x).phase = .inRun then s.parkStream key x .debug
    else s.updStream key x fun st => { st with halted := true }

/-- A stream that was let go for one instruction halts after it (R116). -/
def State.stepDone (before s : State) (key : Nat) (x : Strm) : State :=
  match before.warp? key, s.warp? key with
  | some v, some w =>
    let st := w.strm x
    let parked := match st.phase with
      | .parked _ => true
      | _ => false
    if st.stepOne ∧ !parked ∧ v.strm x ≠ st then
      (s.updStream key x fun st => { st with stepOne := false }).debugHalt key x
    else s
  | _, _ => s

/-- What became of a presented instruction: one that first met a park never slips (R149), so it keeps that park. -/
def State.presented (before s : State) (key : Nat) (x : Strm) (park : Option Park) : State :=
  match s.cur, park with
  | none, some p => before.parkStream key x p
  | _, _ => before.stepDone s key x

/-- A front end acts: it issues the instruction that it presents, or gives an idle beat; `ex` is the meaning. -/
def State.actFe (ex : Instr → State → Out) (s : State) (core p : Nat) (x : Strm) (park : Option Park) : Out :=
  match s.presents core p x with
  | .quiet => .next s
  | .idle _ => if h : p < 4 then ex (.idleBeat core ⟨p, h⟩ x) s else .next s
  | .run slot fresh =>
    let (t, i) := s.presenting core p x slot fresh
    match ex i t with
    | .next u => .next (t.presented u (slotKey core p slot) x park)
    | r => r

/-- The partitions that hold a warp, in order of core and partition. -/
def State.busyParts (s : State) : List FeTodo :=
  (dedup (sortBy (fun (a b : Nat) => decide (a < b)) (s.warps.map fun (e : Nat × Warp) => e.1 / 32 * 4 + e.1 % 4))).map fun c =>
    .part (c / 4) (c % 4)

end Sys2Proof.Machine
end

