-- ==== Sys2Proof/Machine/HbmWork.lean ====
section
/-! DEFINITION. The slack window of each leaf: refresh debt, row swaps, write retries, and what ECC met (R33 to R38). -/

namespace Sys2Proof.Machine

/-! ### Where a beat lies (R26, R27) -/

/-- The physical address as the array sees it. -/
def State.arrayPa (s : State) (pa : Nat) : Nat := hbmSwap (s.isLocal pa) pa
/-- Segment, channel, bank (stack ID, bank, pseudo-channel and channel) and row of a physical address (R26). -/
def State.hbmSegment (s : State) (pa : Nat) : Nat := field (s.arrayPa pa) 23 3
def State.hbmChannel (s : State) (pa : Nat) : Nat := field (s.arrayPa pa) 11 5
def State.hbmBank (s : State) (pa : Nat) : Nat := field (s.arrayPa pa) 11 12
def State.hbmRow (s : State) (pa : Nat) : Nat := field (s.arrayPa pa) 26 13
/-- Pseudo-channel of a bank. -/
def pseudoOf (bank : Nat) : Nat := bank % 64
/-- Rows of a bank, segments of a row and bytes of a segment (R25). -/
def bankRows : Nat := 8192
def rowSegments : Nat := 8
def segmentBytes : Nat := 256
/-- Key of a row in a stack's tables. -/
def rowKey (bank row : Nat) : Nat := bank * bankRows + row
/-- The physical row behind a logical one (R35). -/
def Stack.physRow (k : Stack) (bank row : Nat) : Nat := k.remap.get (rowKey bank row) (rowKey bank row) % bankRows

/-- The bytes of a beat. -/
def beatBytes (pa : Nat) : List Nat := (List.range 64).map (pa / 64 * 64 + ·)

/-- Tick of the leaf on which a window's refresh number i is issued, and on which it ends (R33). -/
def refreshAt (i : Nat) : Nat := 64 + 6 * i
def refreshEnd (i : Nat) : Nat := refreshAt i + 138

/-! ### What a leaf met (R35 to R37) -/

/-- A schedule fault of a stack (R34, R35, R37, R38). -/
def State.stackFault (s : State) (k cause : Nat) : State := (s.updStack k fun x => { x with debtFault := true }).schedFault cause

/-- A row joins its bank's queue of four candidates (R35). -/
def State.addCandidate (s : State) (k bank row : Nat) : State :=
  let n := ((s.stack k).cands.filter fun (c : Nat × Nat) => decide (c.1 = bank)).length
  if 4 ≤ n then s.stackFault k 2
  else s.updStack k fun x => { x with cands := x.cands ++ [(bank, row)], swapPeak := max x.swapPeak (n + 1) }

/-! ### Activates (R32, R35) -/

/-- Activations since the last refresh that make a row a swap candidate (R35). -/
def activationLimit : Nat := 4096
/-- Ticks of a beat's bank work (R30, R32). -/
def bankWork : Nat := 64

/-- The mask of the segments that some beats name. -/
def State.segmentMask (s : State) (beats : List Nat) : Nat := beats.foldl (fun m b => m ||| 2 ^ s.hbmSegment (b * 64)) 0

/-- An activate of a row is counted; the one that reaches the limit makes the row a candidate (R35). -/
def State.countActivate (s : State) (k bank row : Nat) : State :=
  let key := rowKey bank ((s.stack k).physRow bank row)
  let n := (s.stack k).acts.get 0 key + 1
  let s := s.updStack k fun x => { x with acts := x.acts.put key n }
  if n = activationLimit then s.addCandidate k bank row else s

/-- The beats of one row on this tick (R32): a closed row is activated with the mask of their segments; an open one takes a supplementary
activate when they name a segment that it has not opened. The row is open until the bank work of its latest beat ends. -/
def State.openRow (s : State) (k bank row mask : Nat) : State :=
  let now := s.gtc
  let phys := (s.stack k).physRow bank row
  let here (o : OpenRow) : Bool := decide (o.bank = bank ∧ o.row = phys)
  let rest (l : List OpenRow) : List OpenRow := l.filter fun o => !here o && decide (now < o.till)
  match (s.stack k).opens.find? fun o => here o && decide (now < o.till) with
  | some o =>
    let s := if o.mask ||| mask = o.mask then s else s.countActivate k bank row
    s.updStack k fun x => { x with opens := rest x.opens ++ [⟨bank, phys, o.mask ||| mask, now + bankWork⟩] }
  | none => (s.countActivate k bank row).updStack k fun x => { x with opens := rest x.opens ++ [⟨bank, phys, mask, now + bankWork⟩] }

/-- Data ticks in a span. -/
def dataTicks (a b : Nat) : Nat :=
  let n (t : Nat) : Nat := t / 4096 * 3712 + (leafTick t - 384)
  n b - n a

/-- The lines of B that an mmv reads on this data tick, in ascending order at its partition's rate (R40). -/
def State.mmvBeats (s : State) (c : EngCmd) (g : Grid) : List Nat :=
  if c.fn = 4 ∧ c.mStart ≤ s.gtc ∧ s.gtc < c.mEnd then
    let rate := mulRateB (s.tenant c.part).shape
    let lo := rate * dataTicks c.mStart s.gtc
    let hi := min (lo + rate) (c.tpl.e 1 * c.pitch)
    ((List.range ((hi + 63) / 64 - lo / 64)).filterMap fun k => c.hbmByte g (c.va 3 + 64 * (lo / 64 + k)) false).map (· / 64)
  else []

/-- Beats of a region in one stack (R25, R26). -/
def regionBeats : Nat := 2 ^ 21

/-- Beat m of a stack among the beats of some regions, in ascending order (R26, R27). -/
def State.beatIn (s : State) (regions : List Nat) (k m : Nat) : Option Nat :=
  (regions[m / regionBeats]?).map fun r =>
    let a := r * 2 ^ 30 + m % regionBeats / 4 * 2 ^ 11 + k * 2 ^ 8 + m % 4 * 64
    hbmSwap (s.isLocal a) a / 64

/-- The beats that a zeroing of some regions moves on this data tick (R105): 39 of each stack, written in ascending order, and from the leaf after
the last of them on one beat of each segment, read back. DESIGN CHOICE (log entry 54): the order, and which beat of a segment is read. -/
def State.zeroBeats (s : State) (regions : List Nat) (since : Nat) : List Nat :=
  let total := regions.length * regionBeats
  let back := readBackFrom since total
  let ms := if s.gtc < back then
      let n := stackBeats * dataTicks (since + 1) s.gtc
      (List.range (min stackBeats (total - n))).map (n + ·)
    else
      let n := stackBeats * dataTicks back s.gtc
      (List.range (min stackBeats (total / 4 - n))).map fun i => 4 * (n + i)
  ms.flatMap fun m => (List.range 8).filterMap fun k => s.beatIn regions k m

/-- A partition whose regions and keys vendor debug entry destroys (R117, R124): sealed, or about to be. -/
def State.vendorTakes (s : State) (p : Nat) : Bool := (s.tenant p).sealed || s.beingZeroed p

/-- The regions that a zeroing writes (R114, R117). -/
def State.zeroedRegions (s : State) (why : ZeroFor) (p : Nat) : List Nat :=
  if why = .vendor then ((List.range 4).filter s.vendorTakes).flatMap fun q => (s.tenant q).regions else (s.tenant p).regions

/-- The beats that have no slot of a core, of staging or of the pool on this data tick: those of mmv commands, of phase 5 and of the zeroings of
regions (R40, R105, R114, R117). -/
def State.otherBeats (s : State) : List Nat :=
  if !isData s.gtc then []
  else
    (s.cmdsE.flatMap fun (e : Nat × EngCmd) => ((s.cmdGrid e.2).map (s.mmvBeats e.2)).getD []) ++
    (if s.inPhase 5 then s.zeroBeats (List.range 512) s.fw.phaseAt else []) ++
    s.sec.zeroing.flatMap fun (z : ZeroFor × Nat × Nat) => s.zeroBeats (s.zeroedRegions z.1 z.2.1) z.2.2

/-- The stacks serve the beats of this tick, row by row (R32, R35). -/
def State.serveBeats (s : State) : State :=
  let mine := (s.beats.filter fun e => decide (e.1 = s.gtc)).map (·.2.1) ++ s.otherBeats
  let place (b : Nat) : Nat × Nat × Nat := (s.hbmStack (b * 64), s.hbmBank (b * 64), s.hbmRow (b * 64))
  let now := s.gtc
  (dedup (mine.map place)).foldl (fun s p => s.openRow p.1 p.2.1 p.2.2 (s.segmentMask (mine.filter fun b => decide (place b = p))))
    { s with beats := s.beats.filter fun e => decide (now < e.1) }

/-- What a write beat that its channel's full retry buffer cannot take leaves in the array is open (R37). -/
def State.loseBeat (s : State) (pa : Nat) : State :=
  let (d, s) := s.drawn Config.draw
  s.putCells ((beatBytes pa).zipIdx.map fun a => (a.1, BitVec.ofNat 8 (field d (8 * a.2) 8), s.markAt a.1))

/-- A write beat that failed its link CRC waits in its channel's buffer of 16 (R36, R37). -/
def State.addRetry (s : State) (pa : Nat) : State :=
  let k := s.hbmStack pa
  let c := s.hbmChannel pa
  let l := (s.stack k).retry.get [] c
  if 16 ≤ l.length then (s.loseBeat pa).stackFault k 3
  else s.updStack k fun x => { x with retry := x.retry.put c (l ++ [pa / 64]), retryPeak := max x.retryPeak (l.length + 1) }

/-- A beat reads as uncorrectable from now on (R36); a read of it sets UE. -/
def State.uncorrectable (s : State) (pa : Nat) : State :=
  let s := s.updStack (s.hbmStack pa) fun x => { x with bad := if x.bad.contains (pa / 64) then x.bad else x.bad ++ [pa / 64] }
  { s with poison := (beatBytes pa).foldl (fun t a => if (t.find? a).isSome then t else t.put a .ecc) s.poison }

/-- The beat reads without error again (R36). -/
def State.recovered (s : State) (pa : Nat) : State :=
  let s := s.updStack (s.hbmStack pa) fun x => { x with bad := x.bad.filter (· ≠ pa / 64) }
  { s with poison := s.poison.filter fun e => !(decide (e.1 / 64 = pa / 64) && decide (e.2 = .ecc)) }

/-- A refresh that ends on this tick restarts the count of a row (R33, R35): the window must have issued it, and each refresh is of one bank of its
pseudo-channel. -/
def State.refreshed (s : State) (pa : Nat) : State :=
  let k := s.hbmStack pa
  let bank := s.hbmBank pa
  let now := s.gtc
  let mine := (s.stack k).refreshes.filter fun (e : Nat × Nat) => decide (e.1 = now)
  if ((List.range (s.stack k).issued).any fun i => decide (leafTick now = refreshEnd i)) &&
      mine.all fun (e : Nat × Nat) => decide (e.2 = bank ∨ pseudoOf e.2 ≠ pseudoOf bank) then
    s.updStack k fun x => { x with
      refreshes := mine ++ [(now, bank)]
      acts := x.acts.del (rowKey bank (x.physRow bank (s.hbmRow pa))) }
  else s

/-- One note; a retry that fails is counted with the retries. -/
def State.hbmNote (s : State) (n : HbmNote) : State :=
  match n with
  | .corrected pa => if pa < hbmEnd then s.updStack (s.hbmStack pa) fun x => { x with ceCount := min 0xFFFF (x.ceCount + 1) } else s
  | .uncorrectable pa => if pa < hbmEnd then s.uncorrectable pa else s
  | .readFailed pa =>
    if pa < hbmEnd then (s.uncorrectable pa).updStack (s.hbmStack pa) fun x => { x with rereads := x.rereads ++ [pa / 64] } else s
  | .recovered pa => if pa < hbmEnd then s.recovered pa else s
  | .writeFailed pa => if pa < hbmEnd then s.addRetry pa else s
  | .refreshed pa => if pa < hbmEnd then s.refreshed pa else s
  | .retryFailed _ => s

/-! ### The window (R33 to R35, R37) -/

/-- Band and need of a temperature in °C (R34). -/
def bandOf (t : Nat) : Nat := if t < 85 then 0 else if t < 100 then 1 else 2
def needOf (band : Nat) : Nat := [8, 16, 32].getD band 32

/-- The phases of a window by the tick of the leaf on which each begins (R33): the sensor's band, at the start of the drain; the refreshes; the row
swaps; and the four retries of each channel, of 11 t each. -/
def windowPhases : List Nat := [0, refreshAt 0, 244, 340, 351, 362, 373]

/-- The phase that begins on a tick; the band is taken on the first tick of the drain that the GTC reads (R34, R76). -/
def windowPhase (t : Nat) : Option Nat :=
  if leafTick t < refreshAt 0 then some 0 else windowPhases.findIdx? fun k => decide (k = leafTick t)

/-- The candidates that swap: the oldest of each pseudo-channel (R35). -/
def swapsOf (cands : List (Nat × Nat)) : List (Nat × Nat) :=
  cands.foldl (fun l c => if l.any fun (e : Nat × Nat) => decide (pseudoOf e.1 = pseudoOf c.1) then l else l ++ [c]) []

/-- One row swap with a row drawn at random from the same bank, by way of the row-copy buffer: contents at every physical address stay
(R35). -/
def State.swapRow (s : State) (k : Nat) (c : Nat × Nat) : State :=
  let (d, s) := s.drawn Config.draw
  let a := rowKey c.1 c.2
  let b := rowKey c.1 (d % bankRows)
  s.updStack k fun x =>
    let pa := x.remap.get a a
    let pb := x.remap.get b b
    { x with remap := (x.remap.put a pb).put b pa, cands := x.cands.erase c, rowCopy := some c }

/-- A beat whose read failed its link CRC is read again (R36): whether the fault was transient is open, and is logged. -/
def State.reread (s : State) (k beat : Nat) : State :=
  let (d, s) := s.drawn Config.draw
  let ok := decide (d % 2 = 1)
  let s := if ok then s.recovered (beat * 64) else s
  s.updStack k fun x => { x with readLog := x.readLog ++ [(beat, ok)], rereads := x.rereads.erase beat }

/-- The band of a window on one stack (R34). -/
def State.bandStack (s : State) (band k : Nat) : State := s.updStack k fun x => { x with band := band, issued := 0 }

/-- The refreshes of a window on one stack, and the rereads (R33, R34, R36). -/
def State.refreshStack (s : State) (k : Nat) : State :=
  let x := s.stack k
  let need := needOf x.band
  let issued := min 24 (need + x.debt)
  let debt := x.debt + need - issued
  let s := s.updStack k fun x => { x with debt := debt, issued := issued }
  let s := if 64 < debt then s.stackFault k 1 else s
  x.rereads.foldl (fun s b => s.reread k b) s

/-- The row swaps of a window on one stack (R33, R35). -/
def State.swapStack (s : State) (k : Nat) : State :=
  if (s.stack k).issued ≤ 8 then (swapsOf (s.stack k).cands).foldl (fun s c => s.swapRow k c) s else s

/-- One retry of each channel's oldest beat that this window has not tried (R33, R37): a beat whose rewrite fails waits behind the
others. -/
def retryOne (failed : List Nat) (l : List Nat) : List Nat := match l with
  | [] => []
  | b :: r => if failed.contains b then r ++ [b] else r

/-- One retry on each channel of a stack. -/
def State.retryStack (s : State) (failed : List Nat) (k : Nat) : State :=
  s.updStack k fun x => { x with retry := x.retry.map fun (e : Nat × List Nat) => (e.1, retryOne failed e.2) }

/-- Failed retries of a list of notes, by beat. -/
def failedRetries (l : List HbmNote) : List Nat := l.filterMap fun n => match n with
  | .retryFailed pa => some (pa / 64)
  | _ => none

/-- A phase of the window on one stack. -/
def State.windowOf (s : State) (phase band : Nat) (failed : List Nat) (k : Nat) : State :=
  if phase = 0 then s.bandStack band k else if phase = 1 then s.refreshStack k else if phase = 2 then s.swapStack k
  else s.retryStack failed k

/-- The number that marks a phase of a leaf as run. -/
def windowNo (t phase : Nat) : Nat := t / 4096 * 8 + phase + 1

/-- The phase of the window that begins on this tick and has still to run. -/
def State.windowDue (s : State) : Option Nat :=
  if !(s.live && s.time.counting && s.fw.tuned) then none
  else match windowPhase s.gtc with
    | some p => if s.hbmLeaf < windowNo s.gtc p then some p else none
    | none => none

/-- SLACK_WINDOW (R24, R33 to R37): what the controllers met and the hottest sensor's temperature, then the phase of the window that begins
on this tick. -/
def execSlackWindow (temp : Nat) (notes : List HbmNote) (s : State) : Out :=
  .next <| if !(s.live && s.fw.tuned) then s
  else
    let s := (notes.foldl State.hbmNote s).setTemp temp
    match s.windowDue with
    | none => s
    | some p => (List.range 8).foldl (fun s k => s.windowOf p (bandOf temp) (failedRetries notes) k) { s with hbmLeaf := windowNo s.gtc p }

end Sys2Proof.Machine
end

