-- ==== Sys2Proof/Machine/Pred.lean ====
section
/-! DEFINITION. Compares, predicate operations and guard bindings (R303 to R305, R312 to R314). -/

namespace Sys2Proof.Machine

/-- The condition of icmp and icmpi (R278). -/
def icond (c : Nat) (a b : Word) : Bool :=
  match c with
  | 0 => decide (a = b)
  | 1 => decide (a ≠ b)
  | 2 => decide (a.toInt < b.toInt)
  | 3 => decide (a.toInt ≤ b.toInt)
  | 4 => decide (b.toInt < a.toInt)
  | 5 => decide (b.toInt ≤ a.toInt)
  | 6 => decide (a &&& b ≠ 0)
  | _ => decide (a &&& b = 0)

/-- The condition of icmpu (R278). -/
def ucond (c : Nat) (a b : Word) : Bool :=
  match c with
  | 2 => decide (a.toNat < b.toNat)
  | 3 => decide (a.toNat ≤ b.toNat)
  | 4 => decide (b.toNat < a.toNat)
  | _ => decide (b.toNat ≤ a.toNat)

/-- The condition of fcmp and the flag it raises (R278, R305). -/
def fcond (c : Nat) (a b : Word) : Bool × BitVec 6 :=
  let x := fp32.decode a.toNat
  let y := fp32.decode b.toNat
  let un := x.isNan || y.isNan
  let sig := x.isSig || y.isSig
  let lt := FVal.lt false x y
  let gt := FVal.lt false y x
  let r := match c with
    | 0 => !un && !lt && !gt
    | 1 => un || lt || gt
    | 2 => !un && lt
    | 3 => !un && !gt
    | 4 => !un && gt
    | 5 => !un && !lt
    | 6 => !un
    | _ => un
  (r, if (if 2 ≤ c ∧ c ≤ 5 then un else sig) then fNV else 0)

/-- The predicate value and lanes that a compare writes (R303). -/
def cmpWrite (acc : Bool) (mask old c : Mask) : Mask × Mask :=
  if acc then (old &&& c &&& mask, Mask.full) else (c, mask)

/-- A compare of two values with a flag per lane. -/
def compare (u : Use) (p : Nat) (acc : Bool) (f : Word → Word → Bool × BitVec 6) (b : Ctx → RVal) (s : State) : Out :=
  issue u s fun c =>
    c.unmarked s c.vals <|
      let rs := laneList.map fun l => f ((c.val 0).lane l) ((b c).lane l)
      let m := Mask.ofFn fun l => (rs.getD l (false, 0)).1
      let fl := (List.range lanes).foldl (fun fl l => if c.act.getLsbD l then fl ||| (rs.getD l (false, 0)).2 else fl) 0
      let (v, lanes) := cmpWrite acc c.act (c.st.pred p) m
      c.arith s fl fun s => c.finishPred s p 1 v lanes

/-- icmp (R303, R304). -/
def execIcmp (o : TC) (s : State) : Out :=
  compare (useTC o true (legalTC o)) o.p.toNat o.acc (fun a b => (icond o.c.toNat a b, 0)) (·.val 1) s
/-- icmpu (R303, R304). -/
def execIcmpu (o : TC) (s : State) : Out :=
  compare (useTC o true (legalIcmpu o)) o.p.toNat o.acc (fun a b => (ucond o.c.toNat a b, 0)) (·.val 1) s
/-- icmpi (R303, R304). -/
def execIcmpi (o : TCi) (s : State) : Out :=
  compare (useTCi o) o.p.toNat o.acc (fun a b => (icond o.c.toNat a b, 0))
    (fun _ => RVal.ofWord (o.imm.signExtend 32)) s
/-- fcmp (R303, R305). -/
def execFcmp (o : TC) (s : State) : Out :=
  compare (useTC o false (legalTC o)) o.p.toNat o.acc (fcond o.c.toNat) (·.val 1) s

/-- A predicate operation in the active lanes (R312). -/
def predOp (legal : Bool) (e : Bool) (g d a : Nat) (f : Mask → Mask → Mask) (s : State) : Out :=
  issue ⟨legal, true, true, [], [], .discard, g, e, 4, []⟩ s fun c =>
    c.finishPred s d 1 (f (c.st.pred d) (c.st.pred a)) c.act

/-- pa, negated when the encoding says so (R284). -/
def predArg (neg : Bool) (a : Mask) : Mask := if neg then ~~~ a else a

/-- pand (R312). -/
def execPand (o : PP) (s : State) : Out :=
  predOp (legalPP o) o.e o.g.toNat o.d.toNat o.a.toNat (fun d a => d &&& predArg o.neg a) s
/-- por (R312). -/
def execPor (o : PP) (s : State) : Out :=
  predOp (legalPP o) o.e o.g.toNat o.d.toNat o.a.toNat (fun d a => d ||| predArg o.neg a) s
/-- pxor (R312). -/
def execPxor (o : PP) (s : State) : Out :=
  predOp (legalPP o) o.e o.g.toNat o.d.toNat o.a.toNat (fun d a => d ^^^ predArg o.neg a) s
/-- pnot (R312). -/
def execPnot (o : P2) (s : State) : Out :=
  predOp (legalP2 o) o.e o.g.toNat o.d.toNat o.a.toNat (fun _ a => ~~~ a) s
/-- pmov (R312). -/
def execPmov (o : P2) (s : State) : Out :=
  predOp (legalP2 o) o.e o.g.toNat o.d.toNat o.a.toNat (fun _ a => a) s

/-- pvec (R313). -/
def execPvec (o : PV) (s : State) : Out :=
  issue ⟨legalPV o, true, true, [], [], o.d, o.g.toNat, o.e, 4, []⟩ s fun c =>
    let p := c.st.pred o.a.toNat
    c.finishVec s o.d 1 ⟨.g (laneList.map fun l => if p.getLsbD l then 1 else 0), []⟩

/-- A guard binding takes effect 1 t after issue (R165, R314). -/
def bindGuard (o : GB) (neg : Bool) (s : State) : Out :=
  issue ⟨legalGB o, true, true, [], [], .discard, 0, o.e, 4, []⟩ s fun c =>
    c.finishEff s (.guard o.slot.toNat (some ⟨o.a.toNat, neg⟩))

/-- gbind gN, pa (R314). -/
def execGbind (o : GB) (s : State) : Out := bindGuard o false s
/-- gbind gN, !pa (R314). -/
def execGbindNeg (o : GB) (s : State) : Out := bindGuard o true s

end Sys2Proof.Machine
end

