-- ==== Sys2Proof/Machine/Lane.lean ====
section
/-! DEFINITION. Cross-lane instructions (R315 to R319). -/

namespace Sys2Proof.Machine

/-- The mask of the source lanes that feed active lanes (R334). -/
def feedMask (act : Mask) (f : Nat → Nat) : Mask :=
  (Mask.list act).foldl (fun m l => m ||| wordOfNat (2 ^ f l)) 0

/-- The lanes that the three counted shuffles read (R315). -/
def shflxLane (n l : Nat) : Nat := Nat.xor l n
def shfluLane (n l : Nat) : Nat := if n ≤ l then l - n else l
def shfldLane (n l : Nat) : Nat := if l + n ≤ 31 then l + n else l

/-- A shuffle: lane l takes lane f l of a, active or not; U stays U (R315). `idx` lists the index register, if one is read. -/
def shuffle (u : Use) (idx : Ctx → List RVal) (f : Ctx → Nat → Nat) (s : State) : Out :=
  issue u s fun c =>
    let a := c.val 0
    match markTrap ((idx c).map (fun r => (r, c.act)) ++ [(a, feedMask c.act (f c))]) with
    | some t => c.trap s t
    | none =>
      let v := if a.v.tag = 0 then a.v else .g (laneList.map fun l => a.lane (f c l))
      c.finishVec s u.dst 4 ⟨v, []⟩

/-- A shuffle by a fixed count. -/
def shuffleN (o : T2n) (f : Nat → Nat → Nat) (s : State) : Out :=
  shuffle (useT2n o false) (fun _ => []) (fun _ => f o.n.toNat) s

/-- shflx (R315). -/
def execShflx (o : T2n) (s : State) : Out := shuffleN o shflxLane s
/-- shflu (R315). -/
def execShflu (o : T2n) (s : State) : Out := shuffleN o shfluLane s
/-- shfld (R315). -/
def execShfld (o : T2n) (s : State) : Out := shuffleN o shfldLane s
/-- shfli: the index is lane l of d modulo 32 (R315). -/
def execShfli (o : T2d) (s : State) : Out :=
  shuffle (useT2d o false) (fun c => [c.dval o.d]) (fun c l => ((c.dval o.d).lane l).toNat % 32) s

/-- bcast (R316): the lowest active lane's value; with no lane active nothing is written. -/
def execBcast (o : T2) (s : State) : Out :=
  issue (useT2 o false) s fun c =>
    let f := (Mask.list c.act).headD 0
    match markTrap [(c.val 0, if c.act = 0 then 0 else wordOfNat (2 ^ f))] with
    | some t => c.trap s t
    | none => c.finishVec s o.d 4 (RVal.ofWord ((c.val 0).lane f))

/-- ballot (R317). -/
def execBallot (o : PV) (s : State) : Out :=
  issue ⟨legalPV o, false, true, [], [], o.d, o.g.toNat, o.e, 4, []⟩ s fun c =>
    c.finishVec s o.d 2 (RVal.ofWord (c.act &&& c.st.pred o.a.toNat))

/-- A vote over the active lanes (R317). -/
def vote (o : P2) (f : Mask → Mask → Bool) (s : State) : Out :=
  issue ⟨legalP2 o, false, true, [], [], .discard, o.g.toNat, o.e, 4, []⟩ s fun c =>
    c.finishPred s o.d.toNat 2 (if f c.act (c.st.pred o.a.toNat) then Mask.full else 0) c.act

/-- vall (R317). -/
def execVall (o : P2) (s : State) : Out := vote o (fun act p => decide (act &&& ~~~ p = 0)) s
/-- vany (R317). -/
def execVany (o : P2) (s : State) : Out := vote o (fun act p => decide (act &&& p ≠ 0)) s

/-- combine() of two values (R318). -/
def combineOp (o : Nat) (u v : Word) : LaneRes :=
  match o with
  | 0 => quiet (u + v)
  | 1 => quiet (iminWord u v)
  | 2 => quiet (imaxWord u v)
  | 3 => quiet (iminuWord u v)
  | 4 => quiet (imaxuWord u v)
  | 5 => quiet (u &&& v)
  | 6 => quiet (u ||| v)
  | 7 => quiet (u ^^^ v)
  | 8 => (fp32.add u.toNat v.toNat).lane
  | 9 => (fp32.minMax false u.toNat v.toNat).lane
  | _ => (fp32.minMax true u.toNat v.toNat).lane

/-- combine() with empty operands (R318). -/
def combineOpt (o : Nat) (u v : Option Word) : Option Word × BitVec 6 :=
  match u, v with
  | none, x => (x, 0)
  | x, none => (x, 0)
  | some a, some b => let r := combineOp o a b; (some r.1, r.2)

/-- One log-step over all lanes: `pair l` is the two operands of lane l, or none when it keeps its value. -/
def logStep (o : Nat) (act : Mask) (pair : Nat → Option (Nat × Nat)) (x : List (Option Word) × BitVec 6) :
    List (Option Word) × BitVec 6 :=
  let rs := laneList.map fun l => match pair l with
    | none => (x.1.getD l none, 0)
    | some (i, j) => combineOpt o (x.1.getD i none) (x.1.getD j none)
  (rs.map (·.1), laneList.foldl (fun f l => if act.getLsbD l then f ||| (rs.getD l (none, 0)).2 else f) x.2)

/-- The lanes before the first step (R318). -/
def logStart (act : Mask) (a : RVal) : List (Option Word) × BitVec 6 :=
  (laneList.map fun l => if act.getLsbD l then some (a.lane l) else none, 0)

/-- redl: XOR pairing over 16, 8, 4, 2, 1 (R318). -/
def reduceLanes (o : Nat) (act : Mask) (a : RVal) : Word × BitVec 6 :=
  let r := [16, 8, 4, 2, 1].foldl (fun x d => logStep o act (fun l => some (l, Nat.xor l d)) x) (logStart act a)
  ((r.1.getD ((Mask.list act).headD 0) none).getD 0, r.2)

/-- scanl: inclusive prefixes (R319). -/
def scanLanes (o : Nat) (act : Mask) (a : RVal) : List Word × BitVec 6 :=
  let r := [1, 2, 4, 8, 16].foldl (fun x d => logStep o act (fun l => if d ≤ l then some (l - d, l) else none) x)
    (logStart act a)
  (r.1.map (·.getD 0), r.2)

/-- redl (R318). -/
def execRedl (o : T2o) (s : State) : Out :=
  issue ⟨legalT2o o, false, true, [o.a], [], o.d, o.g.toNat, o.e, 4, []⟩ s fun c =>
    c.unmarked s c.vals <|
      let r := reduceLanes o.o.toNat c.act (c.val 0)
      c.finishArith s o.d 10 (.u r.1, r.2)

/-- scanl (R319). -/
def execScanl (o : T2o) (s : State) : Out :=
  issue ⟨legalT2o o, false, true, [o.a], [], o.d, o.g.toNat, o.e, 4, []⟩ s fun c =>
    c.unmarked s c.vals <|
      let r := scanLanes o.o.toNat c.act (c.val 0)
      c.finishArith s o.d 10 (.g r.1, r.2)

end Sys2Proof.Machine
end

