-- ==== Sys2Proof/Machine/Pipeline.lean ====
section
/-! DEFINITION. What happens on a tick without an instruction: landings, mailbox deliveries, releases of parked streams,
page walks (R151, R155, R156, R180, R185, R347). -/

namespace Sys2Proof.Machine

/-- Some result is due (R156). -/
def State.resultDue (s : State) : Bool := s.warps.any fun (e : Nat × Warp) => e.2.landings.any fun l => decide (l.tick ≤ s.gtc)

/-- A due result of a warp clears a register-file error (R334). -/
def Warp.clearsError (w : Warp) (t : Nat) (x : Strm) (reg lane : Nat) : Bool :=
  !(w.strm x).gone && w.landings.any fun l => decide (l.tick ≤ t ∧ l.strm = x) && match l.eff with
    | .vec (.reg n) (some _) m => decide (n = reg) && (if lane < 32 then m.getLsbD lane else decide (m = Mask.full))
    | _ => false

/-- Register-file errors that this tick's writes clear before a read consumed them are counted (R334). -/
def State.countLatent (s : State) : State :=
  if s.regErr.isEmpty then s
  else
    let hit (e : Nat × Strm × Nat × Nat) : Bool := match s.warp? e.1 with
      | some w => w.clearsError s.gtc e.2.1 e.2.2.1 e.2.2.2
      | none => false
    { s with regErr := s.regErr.filter fun e => !hit e && (s.warp? e.1).isSome
             regEccLatent := min 0xFFFF (s.regEccLatent + (s.regErr.filter hit).length) }

/-- RESULT_LANDING (R156): every result whose tick has come is written. -/
def execResultLanding (s : State) : Out :=
  let s := s.countLatent
  .next { s with warps := s.warps.map fun (e : Nat × Warp) => (e.1, e.2.landAt s.gtc) }

/-- REGISTER_FILE_ERROR (R161, R334): a word of a register gets an uncorrectable error. A U register reads its first word for
every lane and an A register its first two; an error in a word that no read touches marks nothing. -/
def execRegisterFileError (warp : Nat) (strm : Strm) (reg : Fin 112) (lane : Fin 32) (s : State) : Out :=
  match s.warp? warp with
  | none => .next s
  | some w =>
    let r := (w.strm strm).reg reg.val
    let all := match r.v with
      | .u _ => decide (lane.val < 1)
      | .a _ _ => decide (lane.val < 2)
      | .g _ => false
    let one := match r.v with
      | .g _ => true
      | _ => false
    let marks : Tab MCls := if all then laneList.map fun l => (l, MCls.ecc) else if one then r.marks.put lane.val .ecc else r.marks
    let s := s.updStream warp strm fun st => { st with regs := st.regs.put reg.val ⟨r.v, marks⟩ }
    .next { s with regErr := s.regErr ++ [(warp, strm, reg.val, if one then lane.val else 32)] }

/-- Some queue entry is due (R151). -/
def State.queueDue (s : State) : Bool := s.warps.any fun (e : Nat × Warp) => e.2.queues.any fun q => q.2.any fun r =>
  !r.landed && r.val.isSome && match r.land with
    | some l => decide (l ≤ s.gtc)
    | none => false

/-- QUEUE_LANDING (R151, R324): every reserved entry whose delivery tick has come lands; those of an exited stream went
with it. -/
def execQueueLanding (s : State) : Out :=
  .next { s with warps := s.warps.map fun (e : Nat × Warp) => (e.1, e.2.landQueues s.gtc) }

/-- MAILBOX_DELIVERY (R179, R180): the copies that are due are written, or discarded. -/
def execMailboxDelivery (s : State) : Out := .next (s.deliverMails s.gtc)

/-- Parked streams with their causes. -/
def State.parked (s : State) : List (Nat × Strm × Park) :=
  s.warps.flatMap fun (e : Nat × Warp) => [Strm.acc, Strm.exe].filterMap fun x => match (e.2.strm x).phase with
    | .parked p => some (e.1, x, p)
    | _ => none

/-- A park on a barrier phase. -/
def Park.onBarrier : Park → Bool
  | .barrier .. => true
  | .arrive .. => true
  | _ => false

/-- Parked streams whose causes have cleared. -/
def State.clearedParks (s : State) : List (Nat × Strm × Park) :=
  s.parked.filter fun e => match s.warp? e.1 with
    | some w => s.clears e.1 w e.2.1 e.2.2
    | none => false

/-- PARK_RELEASE (R155): the streams whose causes have cleared are released. -/
def execParkRelease (s : State) : Out := .next (s.clearedParks.foldl (fun s e => s.releaseStream e.1 e.2.1) s)

/-- BARRIER_RELEASE (R347): the streams parked on a phase that has been released go on. -/
def execBarrierRelease (s : State) : Out :=
  .next ((s.clearedParks.filter fun e => e.2.2.onBarrier).foldl (fun s e => s.releaseStream e.1 e.2.1) s)

/-! ### Page walks (R183, R185) -/

/-- Issue the read of one level for a page (R31, R185): its place among the requests of a tick is that of logical queue 0. DESIGN CHOICE (log
entry 65): a walk has no logical queue. -/
def State.readLevel (s : State) (core part page level table : Nat) : State :=
  let a := ptEntryAddr table level (page * 0x10000)
  { s with walks := s.walks.put core ⟨page, level, a, s.natAt a 8, s.gtc + 640⟩ }.askPool ⟨3, part, 0, a / 64 * 64, 64, .walk core⟩

/-- End the pending fill of a page. -/
def endFill (fs : List Fill) (page : Nat) (r : Option Page) : List Fill :=
  fs.map fun f => if f.va = page ∧ f.page.isNone ∧ !f.fault then { f with page := r, fault := r.isNone } else f

/-- Start the oldest pending fill of a core that has no walk in progress; with VALID = 0 the address is unmapped (R184). -/
def State.startWalk (s : State) (core : Nat) : Nat → State
  | 0 => s
  | n + 1 =>
    if (s.walks.find? core).isSome then s
    else match (s.fills.get [] core).find? fun f => f.page.isNone && !f.fault with
      | none => s
      | some f =>
        if (s.tenant f.part).ptValid then s.readLevel core f.part f.va 0 (s.tenant f.part).ptRoot
        else { s with fills := s.fills.put core (endFill (s.fills.get [] core) f.va none) }.startWalk core n

/-- Pages that parked streams want and that have no fill yet get one when there is room (R185). -/
def State.topUpFills (s : State) : State :=
  s.parked.foldl (fun s e => match e.2.2, s.warp? e.1 with
    | .fill pages, some w => match s.gridOf w with
      | some g => s.wantFills w.core w.part (e.1, e.2.1)
          (pages.filter fun p => decide (s.xlate w g (p * 0x10000) = .missing p) &&
            !((s.fills.get [] w.core).any fun f => f.covers w.part p))
      | none => s
    | _, _ => s) s

/-- Every core with a fill starts its next walk. -/
def State.startWalks (s : State) : State :=
  if s.fills.isEmpty then s
  else
    let s := s.topUpFills
    s.fills.foldl (fun s (e : Nat × List Fill) => s.startWalk e.1 65) s

/-- A level read of a core completes (R183, R185). -/
def State.stepWalk (s : State) (core : Nat) (w : Walk) : State :=
  let part := ((s.fills.get [] core).find? fun f => decide (f.va = w.va)).map (·.part) |>.getD 0
  match s.ptJudge part w.level (w.va * 0x10000) w.val with
  | .table t => s.readLevel core part w.va (w.level + 1) t
  | .page p => ({ s with fills := s.fills.put core (endFill (s.fills.get [] core) w.va (some p))
                         walks := s.walks.del core } : State).startWalk core 65
  | .fault => ({ s with fills := s.fills.put core (endFill (s.fills.get [] core) w.va none)
                        walks := s.walks.del core } : State).startWalk core 65

/-- PAGE_WALK_LEVEL (R185): the level reads that are due complete. -/
def execPageWalkLevel (s : State) : Out :=
  .next ((s.walks.filter fun (e : Nat × Walk) => decide (e.2.done ≤ s.gtc)).foldl
    (fun s (e : Nat × Walk) => s.stepWalk e.1 e.2) s).startWalks

/-! ### Reads and the end of a tick -/

/-- Reservations popped on an earlier tick go. -/
def State.pruneQueues (s : State) : State := { s with warps := s.warps.map fun (e : Nat × Warp) => (e.1, e.2.prune s.gtc) }

end Sys2Proof.Machine
end

