-- ==== Sys2Proof/Machine/Security.lean ====
section
/-! DEFINITION. Translation registers, SPDM over the DOE mailbox, partitions and sealing, sealed transfers, debug states and power
states (R110 to R124, R184, R332). -/

namespace Sys2Proof.Machine

/-- Change one tenant partition. -/
def State.updTenant (s : State) (p : Nat) (f : Tenant → Tenant) : State := { s with tenants := s.tenants.update Tenant.fresh p f }

/-- A partition holds a resident context (R114, R184). -/
def State.hasContext (s : State) (p : Nat) : Bool :=
  s.grids.any fun (e : Nat × Grid) => decide (e.2.part = p) && e.2.status.isNone && e.2.poss.any fun (q : Nat × PosState) => !q.2.blocks.isEmpty

/-! ### Translation registers (R184) -/

/-- A write of PT_ROOT; ignored while the partition holds a resident context. -/
def State.setPtRoot (s : State) (p v : Nat) : State :=
  if s.hasContext p then s else s.updTenant p fun t => { t with ptRoot := field v 15 24 * 2 ^ 15, ptValid := v.testBit 0 }

/-- Streams that a completed fill has woken go on before the fill is dropped. -/
def State.wakeFills (s : State) (p : Nat) : State :=
  let ws := s.fills.flatMap fun (e : Nat × List Fill) => (e.2.filter fun (f : Fill) => decide (f.part = p)).flatMap fun (f : Fill) => f.waiters
  ws.foldl (fun s (w : Nat × Strm) => s.releaseStream w.1 w.2) s

/-- A write of PT_FLUSH.FLUSH: every completed fill of the partition goes. -/
def State.flushFills (s : State) (p : Nat) : State :=
  let s := s.wakeFills p
  { s with fills := s.fills.map fun (e : Nat × List Fill) =>
      (e.1, e.2.filter fun (f : Fill) => decide (f.part ≠ p) || (f.page.isNone && !f.fault)) }

/-- PT_ROOT_WRITE (R184): a host's write is ignored for a sealed partition. -/
def execPtRootWrite (part : Fin 4) (val : BitVec 64) (s : State) : Out :=
  s.onLive fun s => .next (if (s.tenant part.val).sealed then s else s.setPtRoot part.val val.toNat)

/-- FLUSH (R184). -/
def execFlush (part : Fin 4) (s : State) : Out := s.onLive fun s => .next (if (s.tenant part.val).sealed then s else s.flushFills part.val)

/-! ### SPDM (R110 to R112) -/

/-- A DOE message is answered: it wakes the device and is an event for firmware (R97, R118). -/
def State.doe (s : State) (r : Reply) : State := (s.wake.post none 4).reply r

/-- A DOE message arrives: the security processor answers it while the dies are out of reset (R18). -/
def State.onDoe (s : State) (f : State → State) : Out := s.onLive fun s => .next (f s)

/-- An SPDM request with its version: any but 1.3 receives VersionMismatch (R111). -/
def State.onSpdm (s : State) (version : BitVec 8) (f : State → State) : Out :=
  s.onDoe fun s => if version = 0x13 then f s else s.doe .versionMismatch

/-- An SPDM request that names a certificate slot: slot 0 is the only one (R111). What another one receives is an error of SPDM's own,
PRESUMED (log entry 60). -/
def State.onSlot (s : State) (version : BitVec 8) (slot : Nat) (f : State → State) : Out :=
  s.onSpdm version fun s => if slot = 0 then f s else s.doe .invalid

/-- The identity key, from the device secret alone; the alias key, from it and the running firmware's header (R110). -/
def identitySecret : Nat := Config.deriveKey Config.uds
def identityKey : List Byte := Config.publicKey identitySecret
def State.aliasSecret (s : State) : Nat := Config.deriveKey (Config.uds ++ leBytes 32 (Config.sha3 s.fw.hdr))

/-- The ML-DSA-44 signature by a key over the SHA3-256 of some content (R110). -/
def signContent (key : Nat) (content : List Byte) : List Byte := Config.mldsaSign key (leBytes 32 (Config.sha3 content))

/-- The certificate chain of slot 0 (R110, R111): vendor root, identity, and the alias certificate that the identity key signs. -/
def State.chain (s : State) : List Byte :=
  let a := Config.publicKey s.aliasSecret
  Config.vendorChain ++ a ++ signContent identitySecret a

/-- The requests of R111. -/
def spdmRequests : List String :=
  ["GET_VERSION", "GET_CAPABILITIES", "NEGOTIATE_ALGORITHMS", "GET_DIGESTS", "GET_CERTIFICATE", "CHALLENGE", "GET_MEASUREMENTS",
   "KEY_EXCHANGE", "FINISH", "END_SESSION", "VENDOR_DEFINED_REQUEST"]

/-- GET_VERSION (R111): 1.3 alone. -/
def execGetVersion (s : State) : Out := s.onDoe fun s => s.doe (.version 0x13)
/-- GET_CAPABILITIES (R111). -/
def execGetCapabilities (version : BitVec 8) (s : State) : Out := s.onSpdm version fun s => s.doe (.capabilities spdmRequests)
/-- NEGOTIATE_ALGORITHMS (R111). -/
def execNegotiateAlgorithms (version : BitVec 8) (s : State) : Out :=
  s.onSpdm version fun s =>
    (s.updLink fun l => { l with negotiated := true }).doe (.algorithms "SHA3-256" "ML-DSA-44" "secp384r1" "AES-256-GCM")
/-- GET_DIGESTS (R111): SHA3-256 of the chain of slot 0. -/
def execGetDigests (version : BitVec 8) (s : State) : Out := s.onSpdm version fun s => s.doe (.digests (Config.sha3 s.chain))
/-- GET_CERTIFICATE (R111): the chain of slot 0. -/
def execGetCertificate (version : BitVec 8) (slot : Nat) (s : State) : Out := s.onSlot version slot fun s => s.doe (.certificate s.chain)
/-- UNSUPPORTED_REQUEST (R111). -/
def execUnsupportedRequest (version : BitVec 8) (s : State) : Out := s.onSpdm version fun s => s.doe .unsupported

/-- The alias key signs some content (R110). -/
def State.signedBy (s : State) (content : List Byte) : Reply := .signed (Config.sha3 content) (signContent s.aliasSecret content)

/-- A signed response; in REVOKED state an error (R112). -/
def State.signed (s : State) (content : List Byte) : State := if s.sec.revoked then s.doe .unspecified else s.doe (s.signedBy content)

/-- What a measurement block digests (R112). -/
def State.measured (s : State) (k : Nat) : List Byte :=
  match k with
  | 2 => (s.fw.hdr.drop 32).take 32 ++ leBytes 2 s.fw.svn
  | 3 => leBytes 2 s.sec.minSvn ++ leBytes 32 Config.vendorKey
  | 4 => leBytes 32 ((s.activeImage.map fun (i : PodImage) => i.imageId).getD 0)
  | 5 => (List.range 4).flatMap fun p =>
      let t := s.tenant p
      leBytes 2 (shapeCores t.shape) ++ leBytes 1 t.slotBase ++ leBytes 64 (t.regions.foldl (fun m r => m ||| 2 ^ r) 0) ++
        leBytes 1 t.shape ++ leBytes 1 (bit t.sealed 0)
  | _ => leBytes 4 s.secStatus

/-- A measurement block (R112). -/
def State.block (s : State) (k : Nat) : Nat × Nat := (k, if k = 1 then Config.measurement 1 else Config.sha3 (s.measured k))

/-- CHALLENGE (R111, R112). -/
def execChallenge (version : BitVec 8) (slot : Nat) (nonce : BitVec 256) (s : State) : Out :=
  s.onSlot version slot fun s => s.signed (leBytes 32 nonce.toNat)

/-- GET_MEASUREMENTS (R112): one block, or all of them with index 0xFF; signed on request. -/
def execGetMeasurements (version : BitVec 8) (slot index : Nat) (signed : Bool) (nonce : BitVec 256) (s : State) : Out :=
  s.onSlot version slot fun s =>
    let ks := if index = 0xFF then [1, 2, 3, 4, 5, 6] else if 1 ≤ index ∧ index ≤ 6 then [index] else []
    let bs := ks.map s.block
    if signed ∧ s.sec.revoked then s.doe .unspecified
    else
      let s := s.doe (.measurements bs)
      if signed then s.reply (s.signedBy (bs.flatMap (fun (b : Nat × Nat) => leBytes 1 b.1 ++ leBytes 32 b.2) ++ leBytes 32 nonce.toNat)) else s

/-- KEY_EXCHANGE (R111, R112): a session begins its handshake. -/
def execKeyExchange (version : BitVec 8) (slot : Nat) (share : BitVec 768) (s : State) : Out :=
  s.onSlot version slot fun s =>
    if s.sec.revoked then s.doe .unspecified
    else
      let n := s.link.nextSession
      ((s.updLink fun l => { l with nextSession := n + 1, opening := l.opening ++ [n] }).doe (.keyExchange n)).reply
        (s.signedBy (leBytes 96 share.toNat ++ leBytes 2 n))

/-- FINISH (R111): the session is open, and it is that of the tenant whose identity the handshake showed. How a session shows its tenant
is no part of the manual: DESIGN CHOICE (log entry 61). -/
def execFinish (version : BitVec 8) (session tenant : Nat) (s : State) : Out :=
  s.onSpdm version fun s =>
    if s.link.opening.contains session then
      (s.updLink fun l => { l with opening := l.opening.erase session, sessions := l.sessions.put session tenant }).doe (.finished session)
    else s.doe .unspecified

/-- A session is open. -/
def State.hasSession (s : State) (session : Nat) : Bool := (s.link.sessions.find? session).isSome

/-- END_SESSION (R111). -/
def execEndSession (version : BitVec 8) (session : Nat) (s : State) : Out :=
  s.onSpdm version fun s =>
    if s.hasSession session then (s.updLink fun l => { l with sessions := l.sessions.del session }).doe (.ended session)
    else s.doe .unspecified

/-! ### Partitions (R113) -/


end Sys2Proof.Machine

namespace Sys2Proof

/-- An entry keeps the rules of R113 by itself. -/
def PartEntry.ok (e : PartEntry) : Bool :=
  decide (e.shape ≤ 4 ∧ e.slotBase % Machine.shapeCores e.shape = 0 ∧ e.slotBase + Machine.shapeCores e.shape ≤ 256) &&
  e.regions.all (fun r => decide (r < 512)) && e.locals.all e.regions.contains

/-- Two entries are of two partitions, and share no core slot and no region (R113). -/
def PartEntry.apart (e f : PartEntry) : Bool :=
  decide (e.part ≠ f.part) && Machine.apart e.slotBase (Machine.shapeCores e.shape) f.slotBase (Machine.shapeCores f.shape) &&
  e.regions.all fun r => !f.regions.contains r

end Sys2Proof

namespace Sys2Proof.Machine

/-- Every pair of a list is apart. -/
def allApart : List PartEntry → Bool
  | [] => true
  | e :: r => r.all e.apart && allApart r

/-- The entry of a partition; a table may leave a partition out. -/
def entryOf (table : List PartEntry) (p : Nat) : Option PartEntry := table.find? fun e => decide (e.part.val = p)

/-- A partition table is accepted (R113). -/
def State.tableOk (s : State) (table : List PartEntry) : Bool :=
  table.all PartEntry.ok && allApart table &&
  (List.range 4).all fun p =>
    let t := s.tenant p
    !t.sealed || match entryOf table p with
      | some e => decide (e.shape = t.shape ∧ e.slotBase = t.slotBase ∧ e.regions = t.regions)
      | none => false

/-- Entries of a table of each level (R183). -/
def ptEntries (level : Nat) : Nat := [4096, 512, 512, 32].getD level 0

/-- A page table maps a page of a region (R183). -/
def State.tableMaps (s : State) (part r : Nat) : Nat → Nat → Nat → Bool
  | 0, _, _ => false
  | n + 1, level, table => (List.range (ptEntries level)).any fun i =>
    match s.ptJudge part level 0 (s.natAt (table + 8 * i) 8) with
    | .page p => decide (p.pa / 2 ^ 30 = r)
    | .table t => s.tableMaps part r n (level + 1) t
    | .fault => false

/-- A context maps a page of a region (R27): by its windows, or by its partition's page table (R182, R185). -/
def State.regionMapped (s : State) (r : Nat) : Bool :=
  s.grids.any fun (e : Nat × Grid) => e.2.status.isNone &&
    ((e.2.pages.any fun (p : Nat × Page) => decide (p.2.pa / 2 ^ 30 = r)) ||
     (e.2.d.isSome && (s.tenant e.2.part).ptValid && s.tableMaps e.2.part r 4 0 (s.tenant e.2.part).ptRoot))

/-- A beat's number after the mode of its region has changed (R27). -/
def flipBeat (r b : Nat) : Nat := if b * 64 / 2 ^ 30 = r then hbmSwap true (b * 64) / 64 else b

/-- What a stack knows of a region's beats, by the physical addresses that now name their places of the array (R27, R36, R37). -/
def Stack.flip (r : Nat) (x : Stack) : Stack :=
  { x with
    retry := x.retry.map fun (e : Nat × List Nat) => (e.1, e.2.map (flipBeat r))
    bad := x.bad.map (flipBeat r)
    rereads := x.rereads.map (flipBeat r)
    readLog := x.readLog.map fun (e : Nat × Bool) => (flipBeat r e.1, e.2) }

/-- The memory mode of a region changes (R27): the array keeps its contents, and each physical address now names another place of it. -/
def State.flipMode (s : State) (r : Nat) : State :=
  let mine (a : Nat) : Bool := decide (a / 2 ^ 30 = r)
  let s : State := { s with
    hbm := s.hbm.map fun (e : Nat × Stack) => (e.1, e.2.flip r)
    beats := s.beats.map fun (e : Nat × Nat × Option Nat) => (e.1, flipBeat r e.2.1, e.2.2) }
  let cells := (s.mem.filter fun c => mine c.1).map fun c => (hbmSwap true c.1, c.2, s.markAt c.1)
  let marks := (s.poison.filter fun e => mine e.1).map fun e => (hbmSwap true e.1, s.byteAt e.1, some e.2)
  let s : State := { s with
    mem := Mem.clear s.mem (r * 2 ^ 30) (2 ^ 30)
    poison := s.poison.filter fun e => !mine e.1
    localRegions := if s.localRegions.contains r then s.localRegions.filter (· ≠ r) else s.localRegions ++ [r] }
  s.putCells (cells ++ marks)

/-- The regions whose mode a table changes (R27): those that are in the other mode and that no context maps. -/
def State.modeChanges (s : State) (table : List PartEntry) : List Nat :=
  dedup (table.flatMap fun e => e.regions.filter fun r =>
    !decide (s.localRegions.contains r = e.locals.contains r) && !s.regionMapped r)

/-- Firmware sets the mode of the regions that a table allocates; the mode of a region that a context maps stays (R27). -/
def State.setModes (s : State) (table : List PartEntry) : State := (s.modeChanges table).foldl State.flipMode s

/-- PARTITION_TABLE_SET (R27, R113). -/
def execPartitionTableSet (table : List PartEntry) (s : State) : Out :=
  s.onDoe fun s => if !s.tableOk table then s.doe .refused
  else
    let s := s.setModes table
    let s := (List.range 4).foldl (fun s p => s.updTenant p fun t => match entryOf table p with
      | some e => { t with present := true, shape := e.shape, slotBase := e.slotBase, regions := e.regions }
      | none => { t with present := false, shape := 0, slotBase := 0, regions := [] }) s
    s.doe .accepted

/-! ### Sealing (R114) -/

/-- A session of the tenant that sealed a partition (R114, R116): it may be a later one than the one that sealed it. -/
def State.isOwner (s : State) (session p : Nat) : Bool :=
  (s.tenant p).sealed && decide (s.link.sessions.find? session = some (s.tenant p).owner)

/-- A queue with a dispatched command of a partition in progress. -/
def State.partBusy (s : State) (p : Nat) : Bool :=
  s.cmds.any fun (e : Nat × Cmd) => decide (e.2.part = p) && s.queueBusy e.2.lq

/-- A zeroing of this partition, or one for vendor debug, is in progress. -/
def State.zeroingOf (s : State) (p : Nat) : Bool :=
  s.sec.zeroing.any fun (z : ZeroFor × Nat × Nat) => decide (z.2.1 = p) || decide (z.1 = .vendor)

/-- A zeroing begins (R105, R114, R117). -/
def State.startZeroing (s : State) (why : ZeroFor) (p : Nat) : State :=
  let now := s.gtc
  s.updSec fun c => { c with zeroing := c.zeroing ++ [(why, p, now)] }

/-- SEAL (R114, R124): refused, or the zeroing of the partition's regions begins. -/
def execSeal (version : BitVec 8) (session : Nat) (msg : SealMsg) (s : State) : Out :=
  let p := msg.part
  s.onSpdm version fun s => if !s.hasSession session || decide (4 ≤ p) || !(s.tenant p).present || s.hasContext p || s.partBusy p || (s.tenant p).sealed ||
      s.zeroingOf p || s.sec.revoked then s.doe .refused
  else
    let s := s.updTenant p fun t =>
      { t with owner := s.link.sessions.get 0 session, xtsKey := msg.xtsKey.toNat, xferKey := msg.transferKey.toNat
               debugKey := if msg.debugKey.all (· = 0) then none else some msg.debugKey }
    (s.startZeroing .seal p).doe .accepted

/-- Every dispatched context of a partition is killed (R114, R117). -/
def State.killPart (s : State) (p : Nat) : State :=
  (s.grids.filter fun (e : Nat × Grid) => decide (e.2.part = p) && e.2.d.isSome && e.2.status.isNone).foldl
    (fun s (e : Nat × Grid) => s.killGrid e.1) s

/-- A release begins (R114, R117, R124). -/
def State.startRelease (s : State) (p : Nat) : State :=
  ((s.killPart p).updTenant p fun t => { t with tdebug := false }).startZeroing .release p

/-- UNSEAL (R114). -/
def execUnseal (version : BitVec 8) (session : Nat) (part : Fin 4) (s : State) : Out :=
  s.onSpdm version fun s => if s.isOwner session part.val && !s.zeroingOf part.val then (s.startRelease part.val).doe .accepted else s.doe .refused

/-- OPERATOR_RELEASE (R114). -/
def execOperatorRelease (part : Fin 4) (s : State) : Out :=
  s.onDoe fun s => if (s.tenant part.val).sealed && !s.zeroingOf part.val then (s.startRelease part.val).doe .accepted else s.doe .refused

/-- Zero a partition's regions (R105, R114). -/
def State.zeroRegions (s : State) (p : Nat) : State :=
  (s.tenant p).regions.foldl (fun (s : State) r =>
    { s with mem := Mem.clear s.mem (r * 2 ^ 30) (2 ^ 30), poison := s.poison.filter fun e => decide (e.1 / 2 ^ 30 ≠ r) }) s

/-- Every key of a partition is destroyed: it is sealed no more (R114, R117). -/
def Tenant.destroyKeys (t : Tenant) : Tenant :=
  { t with sealed := false, tdebug := false, xtsKey := 0, xferKey := 0, debugKey := none, ideBound := false, owner := 0 }

/-- A zeroing in progress for a purpose and a partition. -/
def State.zeroingFor (s : State) (why : ZeroFor) (p : Nat) : Bool :=
  s.sec.zeroing.any fun (z : ZeroFor × Nat × Nat) => decide (z.1 = why ∧ z.2.1 = p)

/-- Vendor debug entry is over (R117): every sealed region is zero, no tenant key and no IDE key is left, the state is REVOKED and access
is open. A zeroing that was under way is part of it. -/
def State.enterVendor (s : State) : State :=
  let s := (List.range 4).foldl (fun (s : State) q => (if s.vendorTakes q then s.zeroRegions q else s).updTenant q Tenant.destroyKeys) s
  s.updSec fun c => { c with revoked := true, vendor := true, zeroing := [] }

/-- ZEROING_COMPLETE (R114, R117): SEALED is set, the keys go, or REVOKED is set and access opens. -/
def execZeroingComplete (why : ZeroFor) (part : Fin 4) (s : State) : Out :=
  let p := part.val
  s.onDoe fun s => if !s.zeroingFor why p then s
  else
    let s := s.updSec fun c => { c with zeroing := c.zeroing.filter fun (z : ZeroFor × Nat × Nat) => !decide (z.1 = why ∧ z.2.1 = p) }
    match why with
    | .seal => (s.zeroRegions p).updTenant p fun t => { t with sealed := true }
    | .release => (s.zeroRegions p).updTenant p Tenant.destroyKeys
    | .vendor => s.enterVendor

/-- Zeroings that have met the bound of R105 (R114, R117). -/
def State.zeroingDue (s : State) : List (ZeroFor × Nat × Nat) :=
  s.sec.zeroing.filter fun (z : ZeroFor × Nat × Nat) => decide (z.2.2 + initBound ≤ s.gtc)

/-- TENANT_PT_ROOT_WRITE (R184). -/
def execTenantPtRootWrite (version : BitVec 8) (session : Nat) (part : Fin 4) (flush : Bool) (val : BitVec 64) (s : State) : Out :=
  s.onSpdm version fun s => if !s.isOwner session part.val then s.doe .refused
  else if flush then (if val.getLsbD 0 then s.flushFills part.val else s).doe .accepted
  else (s.setPtRoot part.val val.toNat).doe .accepted

/-! ### Sealed transfers (R115) -/

/-- IDE_STREAM_BIND (R115). -/
def execIdeStreamBind (version : BitVec 8) (session : Nat) (part : Fin 4) (s : State) : Out :=
  s.onSpdm version fun s => if s.isOwner session part.val then (s.updTenant part.val fun t => { t with ideBound := true }).doe .accepted
  else s.doe .refused

/-- The initialisation vector of a record (R115). -/
def transferIv (xferId : BitVec 32) (index : BitVec 64) : Nat := xferId.toNat * 2 ^ 64 + index.toNat

/-- A record's bytes go to memory by the pool's last class, a beat at a time (R31). DESIGN CHOICE (log entry 65): the requests of a record count as of its
partition and of queue 0. -/
def State.transferWrite (s : State) (p : Nat) (cs : List (Nat × Byte × Option MCls)) : State :=
  (beatsOf (cs.map (·.1))).foldl (fun s b => s.askPool ⟨4, p, 0, b * 64, 64, .marked (cs.filter fun c => decide (c.1 / 64 = b))⟩) s

/-- The physical addresses of a record that leaves the partition: none where its span is not mapped. -/
def State.transferSpan (s : State) (p addr : Nat) : Option (List Nat) :=
  let pas := (List.range 4096).map fun k => (s.translate p (addr + k)).map (·.1)
  if pas.any (·.isNone) then none else some (pas.filterMap id)

/-- A record leaves (R31, R115): it is read by the pool's last class, and its answer is due when its last beat is delivered. -/
def State.transferRead (s : State) (p : Nat) (pas : List Nat) (r : Reply) : State :=
  let id := s.fresh
  let s := (s.updLink fun l => { l with leaving := l.leaving ++ [(id, 0, r)] }).bump
  (beatsOf pas).foldl (fun s b => s.askPool ⟨4, p, 0, b * 64, 64, .record id⟩) s

/-- SEALED_TRANSFER_RECORD (R115): a record of 4,096 bytes over the stream bound to the partition enters or leaves it under the transfer
key. One that fails its tag is written poisoned. Any other form, another stream, a span without its mapping, or a poisoned byte that would leave
takes an access fault, and nothing is written or sealed. -/
def execSealedTransferRecord (stream : Option (Fin 4)) (part : Fin 4) (out : Bool) (xferId : BitVec 32) (index : BitVec 64) (addr : Nat)
    (cipher : List Byte) (tag : BitVec 128) (s : State) : Out :=
  let p := part.val
  let iv := transferIv xferId index
  s.onDoe fun s =>
    let t := s.tenant p
    if !t.sealed || !t.ideBound || decide (stream ≠ some part) then s.reply .accessFault
    else if out then
      match s.transferSpan p addr with
      | some pas =>
        let r := Config.gcmSeal t.xferKey iv [] (pas.map s.byteAt)
        (s.sawWalks p ((List.range 4096).map (addr + ·))).transferRead p pas
          (if (s.firstMark pas).isSome then .accessFault else .record r.1 r.2)
      | none => s.reply .accessFault
    else if cipher.length ≠ 4096 then s.reply .accessFault
    else match Config.gcmOpen t.xferKey iv [] cipher tag.toNat with
      | some plain => match s.cellsAt p addr (plain.take 4096) with
        | some cs => s.transferWrite p (cs.map fun (c : Nat × Byte) => (c.1, c.2, none))
        | none => s.reply .accessFault
      | none =>
        let (d, s) := s.drawn Config.draw
        match s.cellsAt p addr ((List.range 4096).map fun k => BitVec.ofNat 8 (field d (8 * k) 8)) with
        | some cs => s.transferWrite p (cs.map fun (c : Nat × Byte) => (c.1, c.2, some MCls.access))
        | none => s.reply .accessFault

/-! ### Debug states (R116, R117, R332) -/

/-- DEBUG_NONCE (R117): a one-time nonce. -/
def execDebugNonce (version : BitVec 8) (s : State) : Out :=
  s.onSpdm version fun s =>
    let (d, s) := s.drawn Config.draw
    let n := d % 2 ^ 256
    (s.updSec fun c => { c with nonce := some n }).doe (.nonce n)

/-- What a tenant's unlock and a vendor's token sign (R117). -/
def unlockMsg (p n : Nat) : List Byte := leBytes 32 (Config.sha3 (identityKey ++ leBytes 1 p ++ leBytes 32 n))
def vendorMsg (n : Nat) : List Byte := leBytes 32 (Config.sha3 (identityKey ++ leBytes 32 n))

/-- TENANT_DEBUG_UNLOCK (R117). -/
def execTenantDebugUnlock (version : BitVec 8) (session : Nat) (part : Fin 4) (sig : List Byte) (s : State) : Out :=
  let p := part.val
  s.onSpdm version fun s =>
    let t := s.updSec fun c => { c with nonce := none }
    match (s.tenant p).debugKey, s.sec.nonce with
    | some k, some n =>
      if s.isOwner session p && !s.zeroingOf p && !s.sec.revoked && Config.mldsaVerify (leNat k) (unlockMsg p n) sig then
        (t.updTenant p fun x => { x with tdebug := true }).doe .accepted
      else t.doe .refused
    | _, _ => t.doe .refused

/-- Debug halts of a partition end with its debug state: the halted streams go on. -/
def State.dropHalts (s : State) (p : Nat) : State :=
  { s with warps := s.warps.map fun (e : Nat × Warp) =>
      let f (st : Stream) : Stream := { st with halted := false, stepOne := false, phase := if st.phase = .parked .debug then .released else st.phase }
      if e.2.part = p then (e.1, { e.2 with acc := f e.2.acc, exe := f e.2.exe }) else e }

/-- TENANT_DEBUG_EXIT (R117). -/
def execTenantDebugExit (version : BitVec 8) (session : Nat) (part : Fin 4) (s : State) : Out :=
  s.onSpdm version fun s => if s.isOwner session part.val && (s.tenant part.val).tdebug then
    ((s.dropHalts part.val).updTenant part.val fun x => { x with tdebug := false }).doe .accepted
  else s.doe .refused

/-- VENDOR_DEBUG_TOKEN (R117): the key of the token is the fused one, and it signs the identity key and the nonce. Entry kills the contexts
of sealed partitions and zeroes their regions. -/
def execVendorDebugToken (version : BitVec 8) (token : List Byte) (s : State) : Out :=
  let key := token.take 1312
  s.onSpdm version fun s =>
    let t := s.updSec fun c => { c with nonce := none }
    match s.sec.nonce with
    | some n =>
      if !s.sec.revoked && !s.zeroingFor .vendor 0 && decide (Config.sha3 key = Config.vendorKey) && Config.mldsaVerify (leNat key) (vendorMsg n) (token.drop 1312) then
        let t := (List.range 4).foldl (fun (t : State) q => if t.vendorTakes q then t.killPart q else t) t
        (t.startZeroing .vendor 0).doe .accepted
      else t.doe .refused
    | none => t.doe .refused

/-- A debugger may look into a partition (R116): vendor debug opens all of it; tenant debug opens it to the tenant's own session. -/
def State.mayDebug (s : State) (session p : Nat) : Bool := s.sec.vendor || ((s.tenant p).tdebug && s.isOwner session p)

/-- A debugger's request: without access to the partition it changes nothing; a tenant's is a DOE message of its session, which wakes the device and
finds core state busy in D3HOT (R116, R118, R123). -/
def State.debugIn (s : State) (session p : Nat) (f : State → State) : Out :=
  s.onDoe fun s =>
    if !s.mayDebug session p then s
    else if s.sec.vendor then f s
    else if s.link.d3 then s.doe .busy
    else f (s.wake.post none 4)

/-- A vendor's request about the hub die (R116). -/
def State.debugHub (s : State) (f : State → State) : Out := s.onDoe fun s => if s.sec.vendor then f s else s

/-- A debugger's request about a stream. -/
def State.debugReq (s : State) (session warp : Nat) (f : Warp → State → State) : Out :=
  match s.warp? warp with
  | none => .next s
  | some w => s.debugIn session w.part (f w)

/-- An address on the model's line that a debugger of a partition reaches (R116): its cores' scratch and the plain text of its regions; a
vendor reaches everything. -/
def State.debugReach (s : State) (p a : Nat) : Bool :=
  let t := s.tenant p
  s.sec.vendor || (decide (a < hbmEnd) && t.regions.contains (a / 2 ^ 30)) ||
  (t.present && (List.range (shapeCores t.shape)).any fun c => decide (scratchBase (t.slotBase + c) ≤ a ∧ a < scratchBase (t.slotBase + c) + 0x600000))

/-- A stream's state as a debugger reads it: its pc, mask and divergence depth. -/
def Stream.debugState (st : Stream) : List Nat := [st.pc, st.mask.toNat, st.stack.length]

/-- Lanes as numbers, and numbers as a value of one word per lane. -/
def RVal.words (v : RVal) : List Nat := laneList.map fun l => (v.lane l).toNat
def RVal.ofWords (ws : List Word) : RVal := ⟨.g (laneList.map fun l => ws.getD l 0), []⟩

/-- A latch or a shadow latch as a debugger reads it: whether it is empty, void or a value, its ready tick, and its lanes. -/
def Latch.debug (l : Latch) : List Nat := (match l.kind with
  | .empty => 0
  | .void => 1
  | .val => 2) :: l.ready :: l.v.words

/-- A latch that a debugger writes holds a value that is ready. -/
def Latch.ofWords (now : Nat) (ws : List Word) : Latch := ⟨.val, now, RVal.ofWords ws, 0⟩

/-- A divergence-stack entry as a debugger reads it. -/
def DivEntry.debug (d : DivEntry) : List Nat := [bit d.call 0, d.mask.toNat, d.addr]

/-- What a front end holds (R145 to R149), as numbers; 4 is no turn. -/
def FrontEnd.debug (f : FrontEnd) : List Nat := [f.slot, f.turn.getD 4, f.waitUntil, f.busyUntil] ++ f.joined

/-- What the scheduler holds of a grid (R89, R90, R138): its partition, queue and priority, its ticks, and of each position its number, its next entry and
whether it holds resources. -/
def Grid.debug (g : Grid) : List Nat :=
  [g.part, g.lq, g.prio, g.take, g.d.getD 0, g.start] ++ g.poss.flatMap fun (e : Nat × PosState) => [e.1, e.2.next, bit e.2.placed 0]

/-- DEBUGGER_HALT (R116): a debugger halts a stream, or reads or writes the state of a warp (R160), memory, or the hub die. What it finds in the memory that
it reads may be an uncorrectable beat (R36). DESIGN CHOICE (log entry 51): the form of each answer. -/
def execDebuggerHalt (session warp : Nat) (strm : Strm) (act : DebugAct) (s : State) : Out :=
  match act with
  | .halt => s.debugReq session warp fun _ s => s.debugHalt warp strm
  | .readReg n => s.debugReq session warp fun w s => s.reply (.data ((w.strm strm).regs.get RVal.zero n).words)
  | .writeReg n ws => s.debugReq session warp fun _ s =>
      s.updStream warp strm fun st => { st with regs := st.regs.put n (RVal.ofWords ws) }
  | .readPred n => s.debugReq session warp fun w s => s.reply (.data [((w.strm strm).preds.get 0 n).toNat])
  | .writePred n m => s.debugReq session warp fun _ s => s.updStream warp strm fun st => { st with preds := st.preds.put n m }
  | .readState => s.debugReq session warp fun w s => s.reply (.data (w.strm strm).debugState)
  | .writePc a => s.debugReq session warp fun _ s => s.updStream warp strm fun st => { st with pc := a }
  | .writeMask m => s.debugReq session warp fun _ s => s.updStream warp strm fun st => { st with mask := m }
  | .readGuard n => s.debugReq session warp fun w s =>
      s.reply (.data (match (w.strm strm).guards.find? n with
        | some b => [b.pred, bit b.neg 0]
        | none => []))
  | .writeGuard n p neg => s.debugReq session warp fun _ s => s.updStream warp strm fun st => { st with guards := st.guards.put n ⟨p, neg⟩ }
  | .readDiv n => s.debugReq session warp fun w s => s.reply (.data (((w.strm strm).stack[n]?.map DivEntry.debug).getD []))
  | .writeDiv n call m a => s.debugReq session warp fun _ s =>
      s.updStream warp strm fun st => { st with stack := st.stack.set n ⟨call, m, a⟩ }
  | .readLatch sh n => s.debugReq session warp fun w s =>
      s.reply (.data (((if sh then (w.strm strm).shadow else (w.strm strm).latches)[n]?.map Latch.debug).getD []))
  | .writeLatch sh n ws => s.debugReq session warp fun _ s => s.updStream warp strm fun st =>
      if sh then { st with shadow := st.shadow.set n (Latch.ofWords s.gtc ws) } else { st with latches := st.latches.set n (Latch.ofWords s.gtc ws) }
  | .readFormat n => s.debugReq session warp fun w s => s.reply (.data [(w.fmts.get 0 n).toNat])
  | .writeFormat n v => s.debugReq session warp fun _ s => s.updWarp warp fun w => { w with fmts := w.fmts.put n v }
  | .readTile n => s.debugReq session warp fun w s => s.reply (.data [(w.accs.get 0 n).toNat])
  | .writeTile n v => s.debugReq session warp fun _ s => s.updWarp warp fun w => { w with accs := w.accs.put n v }
  | .readQueue n => s.debugReq session warp fun w s =>
      s.reply (.data ((w.live n).flatMap fun r => bit r.landed 0 :: (r.val.getD RVal.zero).words))
  | .writeQueue n es => s.debugReq session warp fun _ s =>
      ({ s with fresh := s.fresh + es.length } : State).updWarp warp fun w => { w with
        queues := w.queues.put n ((es.take (queueDepth n)).zipIdx.map fun (e : List Word × Nat) =>
        ⟨s.fresh + e.2, s.gtc, some s.gtc, some (RVal.ofWords e.1), 2, true, none⟩) }
  | .readHub o => s.debugHub fun s => s.reply (.data [s.readReg (o / 8 * 8)])
  | .writeHub o v => s.debugHub fun s => s.writeReg 8 (o / 8 * 8) v.toNat
  | .readKeys p => s.debugHub fun s => s.reply (.data [(s.tenant p).xtsKey, (s.tenant p).xferKey, bit (s.tenant p).ideBound 0])
  | .readFront c p x => s.debugHub fun s => s.reply (.data (s.fe (feKey c p x)).debug)
  | .readGrid g => s.debugHub fun s => s.reply (.data (((s.grids.find? g).map Grid.debug).getD []))
  | .readMem p a n => s.debugIn session p fun s =>
      if (List.range n).all fun k => s.debugReach p (a + k) then
        (s.sawBad ((List.range n).map (a + ·))).reply (.data ((s.bytesAt a n).map (·.toNat)))
      else s
  | .writeMem p a bs => s.debugIn session p fun s =>
      if (List.range bs.length).all fun k => s.debugReach p (a + k) then s.putCells (plainCells a bs) else s

/-- A halted stream is let go (R116): a parked one replays its instruction. -/
def Stream.letGo (st : Stream) : Stream := { st with halted := false, phase := if st.phase = .parked .debug then .released else st.phase }

/-- SINGLE_STEP (R116): a halted stream goes on for one instruction. -/
def execSingleStep (session warp : Nat) (strm : Strm) (s : State) : Out :=
  s.debugReq session warp fun w s =>
    if (w.strm strm).halted ∨ (w.strm strm).phase = .parked .debug then
      s.updStream warp strm fun st => { st.letGo with stepOne := true }
    else s

/-- A stream stands at a brk in a debug halt. -/
def State.atBrk (s : State) (key : Nat) (x : Strm) (st : Stream) : Option Bool :=
  if st.phase = .parked .debug then
    match s.fetch key x with
    | .brk o => some o.e
    | _ => none
  else none

/-- A stream passes its brk (R332): it counts as issued, and its run goes on unless it ends there. -/
def Stream.passBrk (st : Stream) (e : Bool) : Stream :=
  let st := if st.trapActive then { st with latches := st.hshadow, hshadow := Latch.four } else { st with latches := st.shadow, shadow := Latch.four }
  let st := { st.shift Latch.voidEntry with runCount := st.runCount + 1, pc := st.pc + 4, phase := .idle, halted := false }
  if e then { st with cutRun := false } else st

/-- DEBUG_RELEASE (R332): past its brk; a stream halted elsewhere goes on. -/
def execDebugRelease (session warp : Nat) (strm : Strm) (s : State) : Out :=
  s.debugReq session warp fun w s => match s.atBrk warp strm (w.strm strm) with
    | some e => s.updStream warp strm fun st => st.passBrk e
    | none => s.updStream warp strm Stream.letGo

/-- DEBUG_DELIVER_BREAKPOINT (R332): class 13 goes to the handler of the stream that stands at a brk. -/
def execDebugDeliverBreakpoint (session warp : Nat) (strm : Strm) (s : State) : Out :=
  s.debugReq session warp fun w s => match s.atBrk warp strm (w.strm strm) with
    | some _ =>
      let t := s.updStream warp strm fun st => ({ st with phase := .released } : Stream).beginTurn
      { t.takeCounted warp strm ⟨13, 0, 0⟩ with fes := s.fes }
    | none => s

/-! ### Power (R118, R119, R122) -/

/-- PWR_CFG_WRITE (R122). -/
def execPwrCfgWrite (val : BitVec 32) (s : State) : Out :=
  let c := field val.toNat 0 12
  s.onLive fun s => .next (if 800 ≤ c ∧ c ≤ 2000 then s.updSec fun x => { x with cap := c } else s)

/-- The cores whose last warps exited 64 t ago or more (R119). -/
def State.gatesDue (s : State) : List Nat :=
  (s.sec.outs.filter fun (e : Nat × Nat) => decide (e.2 + 64 ≤ s.gtc)).map fun e => e.1

/-- A core's clock stops unless a warp has come back (R119). -/
def State.gateCore (s : State) (core : Nat) : State :=
  let back := s.warps.any fun (e : Nat × Warp) => decide (e.2.core = core)
  s.updSec fun c => { c with outs := c.outs.del core, gated := if back || c.gated.contains core then c.gated else c.gated ++ [core] }

/-- CORE_GATE (R119): the clocks of the cores that are due stop. -/
def execCoreGate (s : State) : Out := .next (s.gatesDue.foldl State.gateCore s)

/-- Nothing keeps the device from DEVICE_IDLE on this tick (R118). -/
def State.quietNow (s : State) : Bool :=
  decide (s.sched.state = .idle ∨ s.sched.state = .halted) && (List.range 4).all (fun p => !s.hasContext p) &&
  !(s.cmds.any fun (e : Nat × Cmd) => s.queueBusy e.2.lq)

/-- DEVICE_IDLE is due (R118): 1 ms of quiet. -/
def State.idleDue (s : State) : Bool :=
  s.live && s.fw.ready && decide (s.sec.power = 0) && !s.link.d3 && s.quietNow && decide (s.sec.lastBusy + 1300000 ≤ s.gtc)

/-- DEVICE_IDLE_ENTRY (R118). -/
def execDeviceIdleEntry (s : State) : Out := .next (if s.idleDue then s.updSec fun c => { c with power := 2 } else s)

/-- A wake ends on this tick (R119). -/
def State.wakeDue (s : State) : Bool := byTick s.sec.wakeAt s.gtc

/-- WAKE_COMPLETE (R119). -/
def execWakeComplete (s : State) : Out :=
  .next <| if s.wakeDue then
    let now := s.gtc
    s.updSec fun c => { c with power := if c.power = 2 then 0 else c.power, wakeAt := none, lastBusy := now }
  else s

end Sys2Proof.Machine
end

