-- ==== Sys2Proof/Machine/Dispatch.lean ====
section
/-! DEFINITION. The meaning of every constructor of `Instr`: one arm, one call. -/

namespace Sys2Proof.Machine

/-- The effect of an instruction or event on the state. -/
def exec (i : Instr) (s : State) : Host.Outcome State Fault Refusal :=
  match i with
  | .pwrokRise railsOk inOrder landsTied strap => Sys2Proof.Machine.execPwrokRise railsOk inOrder landsTied strap s
  | .railDroop monitor past => Sys2Proof.Machine.execRailDroop monitor past s
  | .tuningAndTrainingDone failedPorts stacksOk join => Sys2Proof.Machine.execTuningAndTrainingDone failedPorts stacksOk join s
  | .memoryInitDone readBackUe => Sys2Proof.Machine.execMemoryInitDone readBackUe s
  | .recoveryBlockWrite addr pecOk offset data => Sys2Proof.Machine.execRecoveryBlockWrite addr pecOk offset data s
  | .imageDone addr pecOk => Sys2Proof.Machine.execImageDone addr pecOk s
  | .abort addr pecOk => Sys2Proof.Machine.execAbort addr pecOk s
  | .activate force => Sys2Proof.Machine.execActivate force s
  | .slackWindow temp notes => Sys2Proof.Machine.execSlackWindow temp notes s
  | .portLock port tau16 => Sys2Proof.Machine.execPortLock port tau16 s
  | .portDark port => Sys2Proof.Machine.execPortDark port s
  | .portDead port => Sys2Proof.Machine.execPortDead port s
  | .bundleTransmit port pos => Sys2Proof.Machine.execBundleTransmit port pos s
  | .bundleReceive port pos rx => Sys2Proof.Machine.execBundleReceive port pos rx s
  | .replay port pos => Sys2Proof.Machine.execReplay port pos s
  | .landing port pos => Sys2Proof.Machine.execLanding port pos s
  | .relay port pos => Sys2Proof.Machine.execRelay port pos s
  | .requestRecord port rec => Sys2Proof.Machine.execRequestRecord port rec s
  | .failureNotice port dev rec => Sys2Proof.Machine.execFailureNotice port dev rec s
  | .keyRotation port tx counter => Sys2Proof.Machine.execKeyRotation port tx counter s
  | .controlRecordReceive port rec => Sys2Proof.Machine.execControlRecordReceive port rec s
  | .ptpMessage msg => Sys2Proof.Machine.execPtpMessage msg s
  | .ppsIn within => Sys2Proof.Machine.execPpsIn within s
  | .timeCfgWrite val => Sys2Proof.Machine.execTimeCfgWrite val s
  | .doorbell ring tail => Sys2Proof.Machine.execDoorbell ring tail s
  | .packetFetch ring pkt => Sys2Proof.Machine.execPacketFetch ring pkt s
  | .packetTake lq => Sys2Proof.Machine.execPacketTake lq s
  | .dispatch lq => Sys2Proof.Machine.execDispatch lq s
  | .nop cmd => Sys2Proof.Machine.execNop cmd s
  | .launch cmd => Sys2Proof.Machine.execLaunch cmd s
  | .graph cmd => Sys2Proof.Machine.execGraph cmd s
  | .wait cmd => Sys2Proof.Machine.execWait cmd s
  | .write cmd => Sys2Proof.Machine.execWrite cmd s
  | .schedLoad cmd => Sys2Proof.Machine.execSchedLoad cmd s
  | .schedLoadDone cmd => Sys2Proof.Machine.execSchedLoadDone cmd s
  | .schedActivate cmd => Sys2Proof.Machine.execSchedActivate cmd s
  | .preempt cmd => Sys2Proof.Machine.execPreempt cmd s
  | .cond cmd => Sys2Proof.Machine.execCond cmd s
  | .loop cmd => Sys2Proof.Machine.execLoop cmd s
  | .endNode cmd => Sys2Proof.Machine.execEndNode cmd s
  | .ringCfgWrite ring val => Sys2Proof.Machine.execRingCfgWrite ring val s
  | .mergeCfgWrite lq val => Sys2Proof.Machine.execMergeCfgWrite lq val s
  | .clear lq => Sys2Proof.Machine.execClear lq s
  | .journalCfgWrite val => Sys2Proof.Machine.execJournalCfgWrite val s
  | .ptRootWrite part val => Sys2Proof.Machine.execPtRootWrite part val s
  | .flush part => Sys2Proof.Machine.execFlush part s
  | .pwrCfgWrite val => Sys2Proof.Machine.execPwrCfgWrite val s
  | .registerWrite bar size offset val => Sys2Proof.Machine.execRegisterWrite bar size offset val s
  | .challenge version slot nonce => Sys2Proof.Machine.execChallenge version slot nonce s
  | .getMeasurements version slot index signed nonce => Sys2Proof.Machine.execGetMeasurements version slot index signed nonce s
  | .keyExchange version slot share => Sys2Proof.Machine.execKeyExchange version slot share s
  | .finish version session tenant => Sys2Proof.Machine.execFinish version session tenant s
  | .endSession version session => Sys2Proof.Machine.execEndSession version session s
  | .partitionTableSet table => Sys2Proof.Machine.execPartitionTableSet table s
  | .seal version session msg => Sys2Proof.Machine.execSeal version session msg s
  | .unseal version session part => Sys2Proof.Machine.execUnseal version session part s
  | .operatorRelease part => Sys2Proof.Machine.execOperatorRelease part s
  | .tenantPtRootWrite version session part flush val => Sys2Proof.Machine.execTenantPtRootWrite version session part flush val s
  | .tenantDebugUnlock version session part sig => Sys2Proof.Machine.execTenantDebugUnlock version session part sig s
  | .tenantDebugExit version session part => Sys2Proof.Machine.execTenantDebugExit version session part s
  | .vendorDebugToken version token => Sys2Proof.Machine.execVendorDebugToken version token s
  | .debugRelease session warp strm => Sys2Proof.Machine.execDebugRelease session warp strm s
  | .debugDeliverBreakpoint session warp strm => Sys2Proof.Machine.execDebugDeliverBreakpoint session warp strm s
  | .sealedTransferRecord stream part out xferId index addr cipher tag => Sys2Proof.Machine.execSealedTransferRecord stream part out xferId index addr cipher tag s
  | .instanceStart grid pos => Sys2Proof.Machine.execInstanceStart grid pos s
  | .resourceRelease grid pos => Sys2Proof.Machine.execResourceRelease grid pos s
  | .gridRetire grid => Sys2Proof.Machine.execGridRetire grid s
  | .freeze grid => Sys2Proof.Machine.execFreeze grid s
  | .resumeImageWrite grid => Sys2Proof.Machine.execResumeImageWrite grid s
  | .idleBeat core part strm => Sys2Proof.Machine.execIdleBeat core part strm s
  | .engineCommandStart cmd => Sys2Proof.Machine.execEngineCommandStart cmd s
  | .iadd o => Sys2Proof.Machine.execIadd o s
  | .isub o => Sys2Proof.Machine.execIsub o s
  | .imul o => Sys2Proof.Machine.execImul o s
  | .imulh o => Sys2Proof.Machine.execImulh o s
  | .imulhu o => Sys2Proof.Machine.execImulhu o s
  | .imad o => Sys2Proof.Machine.execImad o s
  | .imin o => Sys2Proof.Machine.execImin o s
  | .imax o => Sys2Proof.Machine.execImax o s
  | .iminu o => Sys2Proof.Machine.execIminu o s
  | .imaxu o => Sys2Proof.Machine.execImaxu o s
  | .iabsd o => Sys2Proof.Machine.execIabsd o s
  | .and o => Sys2Proof.Machine.execAnd o s
  | .or o => Sys2Proof.Machine.execOr o s
  | .xor o => Sys2Proof.Machine.execXor o s
  | .andn o => Sys2Proof.Machine.execAndn o s
  | .shl o => Sys2Proof.Machine.execShl o s
  | .shr o => Sys2Proof.Machine.execShr o s
  | .sar o => Sys2Proof.Machine.execSar o s
  | .bfi o => Sys2Proof.Machine.execBfi o s
  | .bperm o => Sys2Proof.Machine.execBperm o s
  | .sel o => Sys2Proof.Machine.execSel o s
  | .fadd o => Sys2Proof.Machine.execFadd o s
  | .fsub o => Sys2Proof.Machine.execFsub o s
  | .fmul o => Sys2Proof.Machine.execFmul o s
  | .ffma o => Sys2Proof.Machine.execFfma o s
  | .fmin o => Sys2Proof.Machine.execFmin o s
  | .fmax o => Sys2Proof.Machine.execFmax o s
  | .hadd2 o => Sys2Proof.Machine.execHadd2 o s
  | .hmul2 o => Sys2Proof.Machine.execHmul2 o s
  | .hfma2 o => Sys2Proof.Machine.execHfma2 o s
  | .icmp o => Sys2Proof.Machine.execIcmp o s
  | .icmpu o => Sys2Proof.Machine.execIcmpu o s
  | .icmpi o => Sys2Proof.Machine.execIcmpi o s
  | .fcmp o => Sys2Proof.Machine.execFcmp o s
  | .sts o => Sys2Proof.Machine.execSts o s
  | .stsw o => Sys2Proof.Machine.execStsw o s
  | .stg o => Sys2Proof.Machine.execStg o s
  | .send o => Sys2Proof.Machine.execSend o s
  | .ats o => Sys2Proof.Machine.execAts o s
  | .atg o => Sys2Proof.Machine.execAtg o s
  | .iaddi o => Sys2Proof.Machine.execIaddi o s
  | .andi o => Sys2Proof.Machine.execAndi o s
  | .ori o => Sys2Proof.Machine.execOri o s
  | .xori o => Sys2Proof.Machine.execXori o s
  | .shli o => Sys2Proof.Machine.execShli o s
  | .shri o => Sys2Proof.Machine.execShri o s
  | .sari o => Sys2Proof.Machine.execSari o s
  | .movil o => Sys2Proof.Machine.execMovil o s
  | .movih o => Sys2Proof.Machine.execMovih o s
  | .bra o => Sys2Proof.Machine.execBra o s
  | .call o => Sys2Proof.Machine.execCall o s
  | .mmq o => Sys2Proof.Machine.execMmq o s
  | .mmqs o => Sys2Proof.Machine.execMmqs o s
  | .mov o => Sys2Proof.Machine.execMov o s
  | .popc o => Sys2Proof.Machine.execPopc o s
  | .clz o => Sys2Proof.Machine.execClz o s
  | .brev o => Sys2Proof.Machine.execBrev o s
  | .ineg o => Sys2Proof.Machine.execIneg o s
  | .iabs o => Sys2Proof.Machine.execIabs o s
  | .bfx o => Sys2Proof.Machine.execBfx o s
  | .sext o => Sys2Proof.Machine.execSext o s
  | .rotl o => Sys2Proof.Machine.execRotl o s
  | .frcp o => Sys2Proof.Machine.execFrcp o s
  | .frsq o => Sys2Proof.Machine.execFrsq o s
  | .fsqrt o => Sys2Proof.Machine.execFsqrt o s
  | .fex2 o => Sys2Proof.Machine.execFex2 o s
  | .flg2 o => Sys2Proof.Machine.execFlg2 o s
  | .fsinp o => Sys2Proof.Machine.execFsinp o s
  | .fcosp o => Sys2Proof.Machine.execFcosp o s
  | .ftanh o => Sys2Proof.Machine.execFtanh o s
  | .fcvt o => Sys2Proof.Machine.execFcvt o s
  | .i2f o => Sys2Proof.Machine.execI2f o s
  | .f2i o => Sys2Proof.Machine.execF2i o s
  | .fmtw o => Sys2Proof.Machine.execFmtw o s
  | .cmpr o => Sys2Proof.Machine.execCmpr o s
  | .accz o => Sys2Proof.Machine.execAccz o s
  | .accrd o => Sys2Proof.Machine.execAccrd o s
  | .accwr o => Sys2Proof.Machine.execAccwr o s
  | .pand o => Sys2Proof.Machine.execPand o s
  | .por o => Sys2Proof.Machine.execPor o s
  | .pxor o => Sys2Proof.Machine.execPxor o s
  | .pnot o => Sys2Proof.Machine.execPnot o s
  | .pmov o => Sys2Proof.Machine.execPmov o s
  | .pvec o => Sys2Proof.Machine.execPvec o s
  | .gbind o => Sys2Proof.Machine.execGbind o s
  | .gbindNeg o => Sys2Proof.Machine.execGbindNeg o s
  | .shflx o => Sys2Proof.Machine.execShflx o s
  | .shflu o => Sys2Proof.Machine.execShflu o s
  | .shfld o => Sys2Proof.Machine.execShfld o s
  | .shfli o => Sys2Proof.Machine.execShfli o s
  | .bcast o => Sys2Proof.Machine.execBcast o s
  | .ballot o => Sys2Proof.Machine.execBallot o s
  | .vall o => Sys2Proof.Machine.execVall o s
  | .vany o => Sys2Proof.Machine.execVany o s
  | .redl o => Sys2Proof.Machine.execRedl o s
  | .scanl o => Sys2Proof.Machine.execScanl o s
  | .lds o => Sys2Proof.Machine.execLds o s
  | .ldsw o => Sys2Proof.Machine.execLdsw o s
  | .ldg o => Sys2Proof.Machine.execLdg o s
  | .ldgi o => Sys2Proof.Machine.execLdgi o s
  | .qstat o => Sys2Proof.Machine.execQstat o s
  | .sendm o => Sys2Proof.Machine.execSendm o s
  | .bar o => Sys2Proof.Machine.execBar o s
  | .arrive o => Sys2Proof.Machine.execArrive o s
  | .waitb o => Sys2Proof.Machine.execWaitb o s
  | .waitc o => Sys2Proof.Machine.execWaitc o s
  | .waitcHbm o => Sys2Proof.Machine.execWaitcHbm o s
  | .waitt o => Sys2Proof.Machine.execWaitt o s
  | .fence o => Sys2Proof.Machine.execFence o s
  | .qfence o => Sys2Proof.Machine.execQfence o s
  | .yield o => Sys2Proof.Machine.execYield o s
  | .brx o => Sys2Proof.Machine.execBrx o s
  | .ret o => Sys2Proof.Machine.execRet o s
  | .split o => Sys2Proof.Machine.execSplit o s
  | .join o => Sys2Proof.Machine.execJoin o s
  | .exit o => Sys2Proof.Machine.execExit o s
  | .nopInstr o => Sys2Proof.Machine.execNopInstr o s
  | .ckpt o => Sys2Proof.Machine.execCkpt o s
  | .copy o => Sys2Proof.Machine.execCopy o s
  | .gather o => Sys2Proof.Machine.execGather o s
  | .scatter o => Sys2Proof.Machine.execScatter o s
  | .mgx o => Sys2Proof.Machine.execMgx o s
  | .mmv o => Sys2Proof.Machine.execMmv o s
  | .fput o => Sys2Proof.Machine.execFput o s
  | .fget o => Sys2Proof.Machine.execFget o s
  | .fatom o => Sys2Proof.Machine.execFatom o s
  | .fmcast o => Sys2Proof.Machine.execFmcast o s
  | .coll o => Sys2Proof.Machine.execColl o s
  | .launchInstr o => Sys2Proof.Machine.execLaunchInstr o s
  | .cntadd o => Sys2Proof.Machine.execCntadd o s
  | .rdsr o => Sys2Proof.Machine.execRdsr o s
  | .wrsr o => Sys2Proof.Machine.execWrsr o s
  | .spill o => Sys2Proof.Machine.execSpill o s
  | .fill o => Sys2Proof.Machine.execFill o s
  | .ctag o => Sys2Proof.Machine.execCtag o s
  | .psave o => Sys2Proof.Machine.execPsave o s
  | .prest o => Sys2Proof.Machine.execPrest o s
  | .dsave o => Sys2Proof.Machine.execDsave o s
  | .drest o => Sys2Proof.Machine.execDrest o s
  | .bsave o => Sys2Proof.Machine.execBsave o s
  | .brest o => Sys2Proof.Machine.execBrest o s
  | .lsave o => Sys2Proof.Machine.execLsave o s
  | .lrest o => Sys2Proof.Machine.execLrest o s
  | .brk o => Sys2Proof.Machine.execBrk o s
  | .trap o => Sys2Proof.Machine.execTrap o s
  | .asave o => Sys2Proof.Machine.execAsave o s
  | .arest o => Sys2Proof.Machine.execArest o s
  | .movH16 o => Sys2Proof.Machine.execMovH16 o s
  | .iaddH16 o => Sys2Proof.Machine.execIaddH16 o s
  | .isubH16 o => Sys2Proof.Machine.execIsubH16 o s
  | .imulH16 o => Sys2Proof.Machine.execImulH16 o s
  | .andH16 o => Sys2Proof.Machine.execAndH16 o s
  | .orH16 o => Sys2Proof.Machine.execOrH16 o s
  | .xorH16 o => Sys2Proof.Machine.execXorH16 o s
  | .andnH16 o => Sys2Proof.Machine.execAndnH16 o s
  | .shlH16 o => Sys2Proof.Machine.execShlH16 o s
  | .shrH16 o => Sys2Proof.Machine.execShrH16 o s
  | .sarH16 o => Sys2Proof.Machine.execSarH16 o s
  | .faddH16 o => Sys2Proof.Machine.execFaddH16 o s
  | .fsubH16 o => Sys2Proof.Machine.execFsubH16 o s
  | .fmulH16 o => Sys2Proof.Machine.execFmulH16 o s
  | .fminH16 o => Sys2Proof.Machine.execFminH16 o s
  | .fmaxH16 o => Sys2Proof.Machine.execFmaxH16 o s
  | .registerFileError warp strm reg lane => Sys2Proof.Machine.execRegisterFileError warp strm reg lane s
  | .ref10m present => Sys2Proof.Machine.execRef10m present s
  | .debuggerHalt session warp strm act => Sys2Proof.Machine.execDebuggerHalt session warp strm act s
  | .singleStep session warp strm => Sys2Proof.Machine.execSingleStep session warp strm s
  | .ideStreamBind version session part => Sys2Proof.Machine.execIdeStreamBind version session part s
  | .zeroingComplete why part => Sys2Proof.Machine.execZeroingComplete why part s
  | .recoveryStatus addr code => Sys2Proof.Machine.execRecoveryStatus addr code s
  | .getCapabilities version => Sys2Proof.Machine.execGetCapabilities version s
  | .negotiateAlgorithms version => Sys2Proof.Machine.execNegotiateAlgorithms version s
  | .getDigests version => Sys2Proof.Machine.execGetDigests version s
  | .getCertificate version slot => Sys2Proof.Machine.execGetCertificate version slot s
  | .coreGate => Sys2Proof.Machine.execCoreGate s
  | .staging => Sys2Proof.Machine.execStaging s
  | .placement => Sys2Proof.Machine.execPlacement s
  | .drainBoundExpiry => Sys2Proof.Machine.execDrainBoundExpiry s
  | .fwEventTake => Sys2Proof.Machine.execFwEventTake s
  | .pwrokFall => Sys2Proof.Machine.execPwrokFall s
  | .overtempAlert => Sys2Proof.Machine.execOvertempAlert s
  | .thermtrip => Sys2Proof.Machine.execThermtrip s
  | .perstAssert => Sys2Proof.Machine.execPerstAssert s
  | .perstDeassert => Sys2Proof.Machine.execPerstDeassert s
  | .busMasterEnable => Sys2Proof.Machine.execBusMasterEnable s
  | .d3hotEntry => Sys2Proof.Machine.execD3hotEntry s
  | .d0Entry => Sys2Proof.Machine.execD0Entry s
  | .romBoot => Sys2Proof.Machine.execRomBoot s
  | .pllLock => Sys2Proof.Machine.execPllLock s
  | .bringupPhaseTimeout => Sys2Proof.Machine.execBringupPhaseTimeout s
  | .gtcDisciplineTimeout => Sys2Proof.Machine.execGtcDisciplineTimeout s
  | .recoveryVerifyDone => Sys2Proof.Machine.execRecoveryVerifyDone s
  | .verify => Sys2Proof.Machine.execVerify s
  | .fwVerifyDone => Sys2Proof.Machine.execFwVerifyDone s
  | .fwActivateDone => Sys2Proof.Machine.execFwActivateDone s
  | .multicastResolution => Sys2Proof.Machine.execMulticastResolution s
  | .controlRecord => Sys2Proof.Machine.execControlRecord s
  | .ppsOut => Sys2Proof.Machine.execPpsOut s
  | .timeFaultTimeout => Sys2Proof.Machine.execTimeFaultTimeout s
  | .holdover => Sys2Proof.Machine.execHoldover s
  | .enterFault => Sys2Proof.Machine.execEnterFault s
  | .enterAgree => Sys2Proof.Machine.execEnterAgree s
  | .enterRealign => Sys2Proof.Machine.execEnterRealign s
  | .gtcRealign => Sys2Proof.Machine.execGtcRealign s
  | .deviceHoldEnd => Sys2Proof.Machine.execDeviceHoldEnd s
  | .resumeRun => Sys2Proof.Machine.execResumeRun s
  | .boundaryImage => Sys2Proof.Machine.execBoundaryImage s
  | .activationTakesEffect => Sys2Proof.Machine.execActivationTakesEffect s
  | .waitSatisfied => Sys2Proof.Machine.execWaitSatisfied s
  | .waitWatchdog => Sys2Proof.Machine.execWaitWatchdog s
  | .getVersion => Sys2Proof.Machine.execGetVersion s
  | .debugNonce version => Sys2Proof.Machine.execDebugNonce version s
  | .deviceIdleEntry => Sys2Proof.Machine.execDeviceIdleEntry s
  | .wakeComplete => Sys2Proof.Machine.execWakeComplete s
  | .staged => Sys2Proof.Machine.execStaged s
  | .resultLanding => Sys2Proof.Machine.execResultLanding s
  | .queueLanding => Sys2Proof.Machine.execQueueLanding s
  | .parkRelease => Sys2Proof.Machine.execParkRelease s
  | .barrierRelease => Sys2Proof.Machine.execBarrierRelease s
  | .mailboxDelivery => Sys2Proof.Machine.execMailboxDelivery s
  | .pageWalkLevel => Sys2Proof.Machine.execPageWalkLevel s
  | .engineDone => Sys2Proof.Machine.execEngineDone s
  | .trapret => Sys2Proof.Machine.execTrapret s
  | .illegalInstruction => Sys2Proof.Machine.execIllegalInstruction s
  | .writeCompletion => Sys2Proof.Machine.execWriteCompletion s
  | .unsupportedRequest version => Sys2Proof.Machine.execUnsupportedRequest version s
  | .vddAuxLost => Sys2Proof.Machine.execVddAuxLost s

end Sys2Proof.Machine
end

