-- ==== Sys2Proof/Machine/Tick.lean ====
section
/-! DEFINITION. One tick of the device as a list of small steps: what is due on the tick, stage by stage, then the partitions and their
front ends, then the engines. `ex` stands for the meaning of an instruction. -/

namespace Sys2Proof.Machine

/-! ### What is due (one list of events per stage) -/

/-- An event when a test holds. -/
def dueIf (b : Bool) (i : Instr) : List Instr := if b then [i] else []

/-- The ports of the device. -/
def allPorts : List (Fin 16) := (List.range 16).map fun k => Fin.ofNat 16 k

/-- The logical queues. -/
def allQueues : List (Fin 64) := (List.range 64).map fun k => Fin.ofNat 64 k

/-- The cores are held (R76). -/
def State.holding? (s : State) : Bool := decide (s.sched.held ≠ 0)

/-- Steps of the pod schedule at their boundaries (R74 to R78, R86). -/
def State.dueSchedule (s : State) : List Instr :=
  dueIf s.holdOver .deviceHoldEnd ++ dueIf (!s.activations.isEmpty) .activationTakesEffect ++ dueIf s.faultDue .enterFault ++
  dueIf s.agreeDue .enterAgree ++ dueIf s.realignDue .enterRealign ++ dueIf s.gtcRealignDue .gtcRealign ++ dueIf s.resumeDue .resumeRun

/-- Landings and completions of this tick (R151, R156, R185, R216, R56). -/
def State.dueLandings (s : State) : List Instr :=
  dueIf s.resultDue .resultLanding ++
  dueIf s.queueDue .queueLanding ++
  dueIf (s.cmdsE.any fun (e : Nat × EngCmd) => byTick e.2.done s.gtc && !e.2.finished) .engineDone ++
  dueIf (s.walks.any fun (e : Nat × Walk) => decide (e.2.done ≤ s.gtc)) .pageWalkLevel

/-- The ports of which something holds. -/
def portsThat (f : Nat → Bool) : List (Fin 16) := allPorts.filter fun p => f p.val

/-- Bundles that are launched on this tick, and relayed ones whose positions start (R44, R46, R53, R70). -/
def State.dueSends (s : State) : List Instr :=
  dueIf s.controlDue .controlRecord ++
  (allPorts.filterMap fun p => ((s.startPos p.val).filter fun k => s.startsNow p.val k && !s.controlPos p.val k).map fun k => .bundleTransmit p k) ++
  (allPorts.filterMap fun p => (s.relayDue p.val).map fun r => .relay p r.outPos)

/-- The fabric on this tick, before reads (R49 to R53, R70): landings in order of port and position. -/
def State.dueFabric (s : State) : List Instr :=
  if s.ports.isEmpty && s.sched.images.isEmpty then []
  else
    ((portsThat s.darkCheck).map .portDark) ++ s.dueSends ++
    (allPorts.filterMap fun p => (s.replayDue p.val).bind fun _ => (s.launching p.val).map fun q => .replay p q) ++
    (allPorts.flatMap fun p => (s.landsNow p.val).map fun k => .landing p k)

/-- Ports that die on this tick (R51), and multicasts that resolve once its notices have come (R56). -/
def State.duePorts (s : State) : List Instr :=
  ((portsThat s.dying).map .portDead) ++ dueIf (!s.resolving.isEmpty) .multicastResolution

/-- The clock's own events (R21, R33, R60, R62), and what ends at its bound: phase 5 and an activation (R103, R109). -/
def State.dueClock (s : State) : List Instr :=
  dueIf s.windowDue.isSome (.slackWindow s.pkg.temp []) ++ dueIf s.timeFaultDue .timeFaultTimeout ++ dueIf s.holdoverDue .holdover ++
  dueIf s.ppsDue .ppsOut ++ dueIf s.initDue (.memoryInitDone false) ++ dueIf s.activateDue .fwActivateDone

/-- Bundles that are read on this tick (R67). -/
def State.dueTransmit (s : State) : List Instr :=
  match s.readPos with
  | none => []
  | some k => (portsThat fun p => s.sends p (s.gtc + 192)).map fun p => .bundleTransmit p k

/-- Releases of parked streams (R155, R347). -/
def State.dueReleases (s : State) : List Instr :=
  if s.holding? then []
  else
    let l := s.clearedParks
    dueIf (l.any fun e => e.2.2.onBarrier) .barrierRelease ++ dueIf (!l.isEmpty) .parkRelease

/-- Grids with a property, as events. -/
def State.gridEvents (s : State) (f : Nat → Grid → Bool) (i : Nat → Instr) : List Instr :=
  (s.grids.filter fun (e : Nat × Grid) => f e.1 e.2).map fun (e : Nat × Grid) => i e.1

/-- Positions with a property, as events. -/
def State.posEvents (s : State) (f : Grid → Nat → PosState → Bool) (i : Nat → Nat → Instr) : List Instr :=
  s.grids.flatMap fun (e : Nat × Grid) => (e.2.poss.filter fun (q : Nat × PosState) => f e.2 q.1 q.2).map fun (q : Nat × PosState) => i e.1 q.1

/-- Host commands that complete (R69, R86). -/
def State.dueCommands (s : State) : List Instr :=
  dueIf ((s.inProgress 4).any fun (e : Nat × Cmd) => byTick e.2.due s.gtc) .writeCompletion ++
  dueIf ((s.inProgress 3).any fun (e : Nat × Cmd) => s.waitDone e.2) .waitSatisfied ++
  dueIf ((s.inProgress 3).any fun (e : Nat × Cmd) => s.waitLate e.2) .waitWatchdog ++
  ((s.inProgress 5).filter fun (e : Nat × Cmd) => byTick e.2.due s.gtc).map fun (e : Nat × Cmd) => .schedLoadDone e.1

/-- A queue takes a packet on this tick, or meets the full journal (R84, R94): one packet a tick. -/
def State.takes (s : State) (q : Nat) : Bool :=
  s.mayTake q && !(s.slotBusy && s.journal.full) &&
  !(s.cmds.any fun (e : Nat × Cmd) => decide (e.2.lq = q ∧ e.2.take = s.gtc) && e.2.node.isNone)

/-- A queue dispatches a command or a node on this tick (R89, R92). -/
def State.dispatches (s : State) (q : Nat) : Bool :=
  (s.mayDispatch q).isSome || s.readyGraphs.any fun (e : Nat × Cmd) => decide (e.2.lq = q)

/-- The next placement (R138). -/
def State.duePlacement (s : State) : List Instr := match s.nextPlace with
  | some _ => [.placement]
  | none => []

/-- Power (R118, R119). -/
def State.duePower (s : State) : List Instr :=
  (s.zeroingDue.map fun z => .zeroingComplete z.1 (Fin.ofNat 4 z.2.1)) ++ dueIf s.wakeDue .wakeComplete ++ dueIf s.idleDue .deviceIdleEntry ++
  dueIf (!s.gatesDue.isEmpty) .coreGate

/-- The staging of this tick (R129). -/
def State.dueStaging (s : State) : List Instr := match s.stagingDue with
  | some (k, g) => dueIf (g.s0.isSome || (s.openStaging k g).isSome) .staging
  | none => []

/-- The events of a stage. Queues that take packets on one tick do so in ascending order, and so number their journal entries. DESIGN CHOICE (log entry
66): R93 gives no order among queues. -/
def State.stageEvents (s : State) (k : Nat) : List Instr :=
  match k with
  | 0 => s.dueSchedule
  | 1 => dueIf s.boundaryDue .boundaryImage
  | 2 => s.dueLandings
  | 3 => s.dueFabric
  | 4 => s.duePorts
  | 5 => s.dueClock
  | 6 => s.dueTransmit
  | 7 => s.dueReleases
  | 8 => s.gridEvents (fun _ g => g.freezeDue s.gtc) .freeze
  | 9 => if s.holding? then [] else s.posEvents (fun g j p => g.releases j p s.gtc) .resourceRelease
  | 10 => if s.holding? then [] else s.gridEvents (fun _ g => g.imageDue s.gtc) .resumeImageWrite
  | 11 => if s.holding? then [] else s.gridEvents s.retireDue .gridRetire
  | 12 => s.dueCommands
  | 13 => dueIf (!s.stagedNow.isEmpty) .staged
  | 14 => (allQueues.filter fun q => s.takes q.val).map .packetTake
  | 15 => (allQueues.filter fun q => s.dispatches q.val).map .dispatch
  | 16 => s.duePlacement
  | 17 => if s.holding? then [] else s.posEvents (fun g j p => g.starts j p s.gtc) .instanceStart
  | 18 => dueIf (s.takerNow.isSome && s.nextEvent.isSome) .fwEventTake
  | 19 => s.duePower
  | 20 => s.dueStaging
  | 21 => dueIf (!s.holding? && s.grids.any fun (e : Nat × Grid) => s.drainDue e.2) .drainBoundExpiry
  | _ => dueIf (s.mails.any fun m => decide (m.wct ≤ s.gtc)) .mailboxDelivery

/-- Stages whose events are judged one at a time, each after the one before it has taken effect. -/
def stageRepeats (k : Nat) : Bool := [0, 4, 11, 14, 15, 16, 18, 20].contains k

/-- A stage puts its events in hand. -/
def State.runStage (s : State) (k : Nat) : State :=
  match s.stageEvents k with
  | [] => s
  | i :: r => if stageRepeats k then { s with pending := [i], feTodo := .stage k :: s.feTodo } else { s with pending := i :: r }

/-- The plan of a tick: what is due on it, the deliveries of messages to the positions that hold their resources on it (R139, R180), the reads and transmissions of the tick once every write of it is known, the front ends,
and the engines. -/
def tickPlan : List FeTodo :=
  [.stage 0, .stage 1, .stage 2, .stage 3, .stage 4, .stage 5, .stage 8, .stage 9, .stage 10, .stage 11, .stage 12, .stage 13, .stage 14,
   .stage 15, .stage 16, .stage 17, .stage 22, .reads, .stage 6, .stage 7, .stage 18, .stage 19, .scan, .starts, .engines, .stage 20, .stage 21,
   .beats]

/-! ### The ends of a tick -/

/-- Reads whose read tick is now (R189, R211, R213), after the writes that fabric commands make as they fail on it. -/
def State.tickReads (s : State) : State := (((s.failUnsent.readDue s.gtc).engineReads).fabricReads).fetchGets

/-- The end of a tick: engines, walks, the pool, and what stops (R29, R31, R134, R211, R330). -/
def State.endTick (s : State) : State :=
  let s := if s.holding? then s else s.engineWork
  (((s.startWalks).settlePools).sweepStopped).noteExits.sweepGrids

/-- Bookkeeping of past ticks goes at each leaf. -/
def State.tidy (s : State) : State :=
  if leafTick s.gtc ≠ 0 then s
  else
    { s with
      slots := s.slots.map fun (e : Nat × List Nat) => (e.1, e.2.filter fun t => decide (s.gtc ≤ t))
      pool := s.pool.filter fun (e : Nat × Nat) => decide (s.gtc ≤ e.1 / 8)
      hbmOut := s.hbmOut.map fun (e : Nat × List Nat) => (e.1, e.2.filter fun t => decide (s.gtc < t))
      hist := if s.grids.isEmpty then [] else s.hist
      ports := s.ports.map fun (e : Nat × Port) => (e.1, { e.2 with lands := e.2.lands.filter fun (b : LandBuf) => decide (s.gtc ≤ b.wct) })
      journal := { s.journal with heads := s.journal.heads.filter fun t => decide (s.gtc < t) } }

/-- The device keeps the tick on which it was last busy (R118); the pulse of PPS_OUT is over (R21). -/
def State.watch (s : State) : State :=
  let now := s.gtc
  let s := if s.time.ppsOut then s.updTime fun t => { t with ppsOut := false } else s
  if s.quietNow then s else s.updSec fun c => { c with lastBusy := now }

/-- While the GTC does not count, or the dies are in reset, time shows in the outside events alone: the next one is taken, or else
bring-up begins (R101, R104). -/
def State.waitOutside (s : State) : State :=
  match s.agenda with
  | (_, i) :: r => { s with agenda := r, pending := [i] }
  | [] => if s.live && decide (s.fw.phase ≤ 1) && !s.fw.fail && !s.fw.recBoot then { s with pending := [.romBoot] } else s

/-- The next tick begins: the GTC advances by 1, or takes the step of a realignment, the writes that complete on it take effect, and the outside events of the tick are in
hand (R1, R58, R188). -/
def State.newTick (s : State) : State :=
  if !s.live || !s.time.counting then s.waitOutside
  else
    let s : State := { s with gtc := s.gtc + 1 }
    let s := if s.holdsNow then s.realign else s
    let t := s.gtc
    let s := (s.applyDue t).deliverRecords.sawWaits
    let s := s.pruneQueues.droopStop.tidy.watch.ringTimers
    { s with pending := (s.agenda.filter fun (e : Nat × Instr) => decide (e.1 ≤ t)).map fun (e : Nat × Instr) => e.2
             agenda := s.agenda.filter fun (e : Nat × Instr) => decide (t < e.1)
             feTodo := tickPlan }

/-- One small step: the event in hand, the next item of the tick's plan, or the next tick; `starts` is what the starts of engine commands do. -/
def State.advanceWith (starts : State → State) (ex : Instr → State → Out) (s : State) : Out :=
  match s.pending with
  | i :: r => ex i { s with pending := r }
  | [] => match s.feTodo with
    | [] => .next s.newTick
    | t :: r =>
      let s : State := { s with feTodo := r }
      match t with
      | .fe c p x k => s.actFe ex c p x k
      | .part c p => .next (s.judgePart ex c p)
      | .scan => .next { s with feTodo := s.busyParts ++ s.feTodo }
      | .reads => .next s.tickReads
      | .starts => .next (if s.holding? then s else starts s).dropKilled
      | .engines => .next s.endTick
      | .beats => .next s.serveBeats
      | .stage k => .next (s.runStage k)

/-- Small steps up to the reads of a tick. -/
def State.runTo (next : State → Out) (t : Nat) : Nat → State → State
  | 0, s => s
  | n + 1, s =>
    if t ≤ s.gtc ∧ s.pending = [] ∧ s.feTodo.head? = some .reads then s
    else match next s with
      | .next u => State.runTo next t n u
      | _ => s

/-- The state at the reads of the tick 8 t from now, when a command that starts now reads its index list or its stencil table (R189, R191): no
command that starts later writes by then. -/
def State.lookAhead (ex : Instr → State → Out) (s : State) : State :=
  (State.runTo (State.advanceWith id ex) (s.gtc + 8) (2 ^ 20) s).failUnsent

/-- One small step of the machine. -/
def State.advance (ex : Instr → State → Out) (s : State) : Out := s.advanceWith (State.engineStarts (State.lookAhead ex)) ex

end Sys2Proof.Machine
end

