-- ==== Sys2Proof/Machine/Step.lean ====
section
/-! DEFINITION. The step of the machine, and a state in which a given instruction is the next to be fetched. -/

namespace Sys2Proof.Machine

/-- One step: an event or instruction in hand, a front end's turn, or the start of the next tick. -/
def step (s : State) : Host.Outcome State Fault Refusal := s.advance exec

/-- The scratch unit that holds the code placed by `withFetchWord`. -/
def placedUnit : Nat := 94

/-- The stream that can issue an instruction: the access stream for those that the execute stream may not issue (R287, R340). -/
def placedStream (i : Option Instr) : Strm :=
  match i with
  | some (.ldg _) => .acc
  | some (.ldgi _) => .acc
  | some (.stg _) => .acc
  | some (.atg _) => .acc
  | some (.fence _) => .acc
  | some (.waitcHbm _) => .acc
  | _ => .exe

/-- The header of a grid of one core, one position and one warp, with 32 access and 112 execute registers. -/
def placedHeader : Header :=
  { Header.blank with
    format := 1
    layout := 1
    ncore := 1
    tpc := 1
    wpt := 1
    duty := 8
    regs := 7
    scru := 4
    cunit := placedUnit
    iters := 1
    gmax := 1
    gcount := 1
    codelen := 4 }

/-- The one task position, in its first instance. -/
def placedPos : PosState := ⟨.running, 1, false, false, 0, [(0, 0, 0)]⟩

/-- The grid of the placed program: dispatched, staged and checked. -/
def placedGrid (now : Nat) : Grid :=
  { Grid.fresh 0 0 0 0 now (some now) 0 with
    s0 := some now
    staged := some now
    checked := true
    hdr := placedHeader
    groups := 1
    poss := [(0, placedPos)]
    firstIssue := some now }

/-- A stream at its first instruction. -/
def placedStrm : Stream := { Stream.fresh with pc := placedUnit * 65536 }

/-- The one warp, in slot 0 of partition 0 of core 0. -/
def placedWarp (now : Nat) : Warp where
  part := 0
  core := 0
  k := 0
  grid := 0
  pos := 0
  w := 0
  xregs := 112
  aregs := 32
  acc := placedStrm
  exe := placedStrm
  queues := []
  fmts := (List.range 8).map fun k => (k, 0x108)
  accs := []
  fflags := 0
  fcnt := 0
  mWarp := 0
  mTask := 0
  mDev := 0
  mPod := 0
  prior := ⟨0, 0, 0, 0, 0⟩
  landings := []
  setslots := [255, 255, 255, 255]
  slipBase := 0
  failed := []
  faulted := []
  start := now

/-- A launched program whose next instruction is the given word, with its front end about to take the warp's turn. -/
def State.withFetchWord (s : State) (nbits w : Nat) : State :=
  let now := s.gtc
  let bytes := leBytes 4 (w % 2 ^ nbits)
  let s := s.putCells (plainCells (scratchBase 0 + placedUnit * 65536) bytes)
  { s with
    pending := []
    feTodo := [.fe 0 0 (placedStream (decodeTableWord nbits w)) none]
    warps := [(0, placedWarp now)]
    fes := []
    grids := [(0, placedGrid now)]
    fresh := 1
    fw := { s.fw with ready := true, phase := 6, tuned := true }
    time := { s.time with counting := true } }

end Sys2Proof.Machine
end

