-- ==== Sys2Proof/Safety.lean ====
section
/-! DEFINITION. The terms of the claims: when a step goes on, the invariant of memory, what it is for an instruction to be
presented and to pass the checks before its own (R262), and what an instruction that issues leaves changed. -/

namespace Sys2Proof.Machine

/-- The step goes on: no fault and no refusal. -/
def goesOn (o : Out) : Bool := match o with
  | .next _ => true
  | _ => false

/-- The memory of a state is in its canonical form. -/
abbrev State.MemOk (s : State) : Prop := Mem.wf s.mem = true

/-! ### Presented for issue -/

/-- `c` is what the instruction of use `c.use` sees when the current stream of `s` presents it. -/
structure Ctx.At (c : Ctx) (s : State) : Prop where
  cur : s.cur = some (c.key, c.x)
  warp : s.warp? c.key = some c.w
  grid : s.gridOf c.w = some c.g
  strm : c.st = c.w.strm c.x
  now : c.now = s.gtc
  act : c.act = c.st.active c.use.guard
  vals : c.vals = srcVals c.w c.st c.use.srcs []

/-- The presented instruction passes steps 2 to 6 of R262: the run length (R148), a legal encoding for its stream and its
registers (R257, R265), a bound guard (R165), the directions of its queues (R150), room for its push (R153), filled
latches (R158), and landed entries for its pops that were reserved on an earlier tick (R151, R152, R154). -/
structure Ctx.Issues (c : Ctx) (s : State) : Prop extends c.At s where
  run : c.st.runCount ≠ 23 ∨ c.use.e = true
  legal : c.use.legal = true
  stream : (c.x = .acc → c.use.inAcc = true) ∧ (c.x = .exe → c.use.inExe = true)
  regs : ∀ n ∈ srcRegs c.use.srcs ++ c.use.regs ++ (dstReg c.use.dst).toList, n < c.w.nregs c.x
  guard : c.use.guard = 0 ∨ (c.st.guards.find? c.use.guard).isSome = true
  pops : ∀ q ∈ srcPops c.use.srcs, queueConsumer q = c.x
  push : ∀ q, dstQueue c.use.dst = some q → queueProducer q = c.x ∧ (c.w.live q).length < queueDepth q
  latches : ∀ k ∈ srcLatches c.use.srcs, ∃ l, c.st.latches[k]? = some l ∧ l.kind = .val ∧ l.ready ≤ c.now
  landed : ∀ q ∈ srcPops c.use.srcs,
    (srcPops c.use.srcs).count q ≤ ((c.w.live q).filter fun r => decide (r.issued < c.now)).length ∧
    ∀ r ∈ ((c.w.live q).filter fun r => decide (r.issued < c.now)).take ((srcPops c.use.srcs).count q), r.landed = true

/-- No lane of a mask holds a marked word (R334). -/
def RVal.Clean (r : RVal) (m : Mask) : Prop := ∀ e ∈ r.marks, m.getLsbD e.1 = false

/-! ### Issued -/

/-- `t` is `s` after the instruction of `c` issued (R148, R154, R157, R254), and nothing else differs: the stream's program
counter, latches and run go on, its pops are marked, `ls` are the new results in flight, `rs` the new reservations. -/
structure Ctx.Went (c : Ctx) (s t : State) (e : Latch) (pc : Nat) (ls : List Landing) (rs : List (Nat × Resv)) : Prop where
  rest : t = { s with warps := t.warps, fes := t.fes, fresh := t.fresh }
  others : ∀ k, k ≠ c.key → t.warp? k = s.warp? k
  own : ∃ w v, s.warp? c.key = some w ∧ t.warp? c.key = some v ∧
    v = { (w.setStrm c.x ((w.strm c.x).issued e pc c.use.e)) with landings := w.landings ++ ls, queues := v.queues } ∧
    ∀ q, v.queue q = popMark c.now ((srcPops c.use.srcs).count q) (w.queue q) ++ (rs.filter fun r => decide (r.1 = q)).map (·.2)
  turn : ∀ k, t.fe k = if c.use.e = true ∧ k = c.feKey then (s.fe k).endTurn else s.fe k

/-- The program counter after an instruction in sequence (R254). -/
def Ctx.nextPc (c : Ctx) : Nat := c.st.pc + c.use.len

/-- An instruction without a vector result issued, with the landings `ls`: its latch entry is void (R157). -/
def Ctx.Plain (c : Ctx) (s t : State) (ls : List Landing) : Prop := c.Went s t Latch.voidEntry c.nextPc ls []

/-- The reservation that a vector result makes in its destination queue (R151, R154). -/
def resvOf (d : Dst) (id now land : Nat) (v : RVal) (act : Mask) : List (Nat × Resv) :=
  match dstQueue d with
  | some q => [(q, ⟨id, now, some land, some (v.entry act), (v.entry act).v.tag, false, none⟩)]
  | none => []

/-- An instruction with the vector result `v` for destination `d` issued: it lands `lat` ticks later, is written in the lanes
of `act`, and fills the latch entry (R151, R154, R156, R157, R163). -/
def Ctx.Gave (c : Ctx) (s t : State) (d : Dst) (lat : Nat) (v : RVal) (act : Mask) : Prop :=
  c.Went s t (latchOf s.fresh (c.now + lat) (c.dstTag d v.v.tag act)) c.nextPc [⟨s.fresh, c.now + lat, c.x, .vec (dstTgt d s.fresh) (some v) act⟩]
    (resvOf d s.fresh c.now (c.now + lat) v act)

/-- The same with flags raised, which take effect 4 t after issue (R250, R252; log entry 14). -/
def Ctx.GaveFlags (c : Ctx) (s t : State) (d : Dst) (lat : Nat) (v : RVal) (fl : BitVec 6) : Prop :=
  if fl = 0 then c.Gave s t d lat v c.act
  else c.Went s t (latchOf (s.fresh + 1) (c.now + lat) (c.dstTag d v.v.tag c.act)) c.nextPc
    [⟨s.fresh, c.now + 4, c.x, .flags fl⟩, ⟨s.fresh + 1, c.now + lat, c.x, .vec (dstTgt d (s.fresh + 1)) (some v) c.act⟩]
    (resvOf d (s.fresh + 1) c.now (c.now + lat) v c.act)

/-- A transfer of the stream: the instruction issued, the next one of the stream stands at `target`, and the stream takes `f`. -/
def Ctx.Moved (c : Ctx) (s t : State) (target : Nat) (f : Stream → Stream) : Prop :=
  ∃ u, c.Went s u Latch.voidEntry target [] [] ∧ t = u.updStream c.key c.x f

/-- `s` with a write of the instruction in flight, its place in issue order `seq`, and the mark of its scope raised (R188,
R190, R193). -/
def Ctx.withWrite (c : Ctx) (s : State) (seq scope wct : Nat) (cells : List (Nat × Byte × Option MCls)) (atoms : List Atom)
    (ret : AtomRet) : State :=
  { s with writes := s.writes ++ [⟨wct, 0, s.wid c.w, strmIdx c.x, seq, cells, atoms, ret, none, none, c.w.part, []⟩]
           warps := s.warps.modify c.key fun w => w.raiseNew c.now scope wct
           fresh := s.fresh + 1 }

/-- `s` with the matrix unit of the instruction's front end occupied for `n` ticks (R168). -/
def Ctx.withBusy (c : Ctx) (s : State) (n : Nat) : State :=
  { s with fes := s.fes.update FrontEnd.fresh c.feKey fun f => { f with busyUntil := c.now + n } }

/-- `s` with the accumulator words of the instruction's warp replaced. -/
def Ctx.withAccs (c : Ctx) (s : State) (accs : Tab Word) : State := s.updWarp c.key fun w => { w with accs := accs }

/-- The matrix unit of the instruction's front end is free (R168). -/
def Ctx.MatrixFree (c : Ctx) (s : State) : Prop := (s.fe c.feKey).busyUntil ≤ c.now

/-- The pointer register of a save or restore is written with the address after the record, U in all lanes, at issue + 1, and
fills the latch entry (R375). -/
def Ctx.GavePointer (c : Ctx) (s t : State) (d : Dst) (n : Nat) : Prop :=
  c.Gave s t d 1 (advance ((c.dval d).lane 0) n) Mask.full

/-- The pointer word `p` of lane 0 is unmarked and names a scratch record of `n` bytes that may be written or read (R174, R375). -/
def Ctx.RecordOk (c : Ctx) (s : State) (p : RVal) (n : Nat) (write : Bool) : Prop :=
  p.Clean 1 ∧ laneOk c.g (s.logical c.w) write true n (p.lane 0) = true

/-- The words of the record of `n` bytes at an address word, when no byte of it is poisoned (R334, R375). -/
def Ctx.RecordIs (c : Ctx) (s : State) (w : Word) (n : Nat) (ws : List Nat) : Prop :=
  s.firstMark (wordCells c.w.core n w) = none ∧
  ws = (List.range (n / 4)).map fun k => leNat ((((wordCells c.w.core n w).drop (4 * k)).take 4).map s.byteAt)

/-- `s` with a record's words in flight as a write of the instruction (R188, R193, R375). -/
def Ctx.withRecord (c : Ctx) (s : State) (w : Word) (lat : Nat) (ws : List Word) : State :=
  c.withWrite s s.fresh 0 (c.now + lat)
    ((wordCells c.w.core (4 * ws.length) w).zip ((ws.flatMap fun x => leBytes 4 x.toNat).map fun b => (b, none))) [] .none

/-- Each active lane's scratch access of `n` bytes is allowed (R174, R175, R336). -/
def Ctx.ScratchOk (c : Ctx) (s : State) (write aligned : Bool) (n : Nat) : Prop :=
  ∀ l, l < 32 → c.act.getLsbD l = true → laneOk c.g (s.logical c.w) write aligned n ((c.val 0).lane l) = true

/-- Each active lane's HBM access is allowed, translated and within the limit of R202 (R335, R340, R182, R185); `va` is the
lane's virtual address, `pa` its physical address. -/
structure Ctx.HbmOk (c : Ctx) (s : State) (lo hi : RVal) (n : Nat) (apOk write : Bool) (pa : Nat → Nat) : Prop where
  addr : ∀ l, l < 32 → c.act.getLsbD l = true → hbmAddrOk n apOk lo hi l = true
  mapped : ∀ l, l < 32 → c.act.getLsbD l = true → isAperture (pairVa lo hi l) = false →
    ∃ wr, s.xlate c.w c.g (pairVa lo hi l) = .pa (pa l) wr ∧ (write = true → wr = true)
  room : (s.hbmOutstanding c.w.core).length < 1024

/-- The active lanes of an HBM instruction that access memory, ascending; the others read the noise aperture. -/
def Ctx.memLanes (c : Ctx) (lo hi : RVal) : List Nat := (Mask.list c.act).filter fun l => !isAperture (pairVa lo hi l)

/-! ### Values -/

/-- Every source has tag U. -/
def AllU (vs : List RVal) : Prop := ∀ r ∈ vs, r.v.tag = 0

/-- `v` holds in each active lane what `f` gives of the lane's source words; it is U when every source is U and G otherwise
(R162, R294). -/
def Ctx.Lanewise (c : Ctx) (vs : List RVal) (f : List Word → Word) (v : RVal) : Prop :=
  v.marks = [] ∧ (AllU vs → v.v.tag = 0) ∧ (¬ AllU vs → v.v.tag = 2) ∧
  ∀ l, l < 32 → c.act.getLsbD l = true → v.lane l = f (vs.map (·.lane l))

/-- `fl` holds the flags that some active lane raises, and no other (R252). -/
def Ctx.FlagsOf (c : Ctx) (vs : List RVal) (f : List Word → BitVec 6) (fl : BitVec 6) : Prop :=
  ∀ k, fl.getLsbD k = true ↔ ∃ l, l < 32 ∧ c.act.getLsbD l = true ∧ (f (vs.map (·.lane l))).getLsbD k = true

/-- No raised flag is enabled (R253). -/
def Ctx.Quiet (c : Ctx) (fl : BitVec 6) : Prop := enabledFlags c.w.fflags fl = 0

/-- `t` is `s` after a trap of the current stream was taken (R329, R330). -/
def Ctx.Trapped (c : Ctx) (s t : State) (tr : Trap) : Prop := t = s.takeTrap c.key c.x tr

end Sys2Proof.Machine
end

