-- ==== Sys2Proof/Certificates/Slice0/Obligations.lean ====
section
/-! DEFINITION. The statements for the provers. -/

open Sys2Proof Sys2Proof.Machine

/-! ### Results of encoded instructions

Each statement covers every operand form: the sources and the destination are arbitrary, and `Ctx.Issues` says only that
the instruction passes the checks of R262 that come before its own. -/

/-- Two-source integer instructions: constructor, latency (R167), and the word of R296 and R297. -/
def intPairs : List ((T3 → Instr) × Nat × (Word → Word → Word)) :=
  [(.imul, 3, fun a b => BitVec.ofNat 32 (a.toNat * b.toNat)),
   (.imulh, 3, fun a b => BitVec.ofInt 32 (a.toInt * b.toInt / 2 ^ 32)),
   (.imulhu, 3, fun a b => BitVec.ofNat 32 (a.toNat * b.toNat / 2 ^ 32)),
   (.imin, 1, fun a b => if a.toInt ≤ b.toInt then a else b),
   (.imax, 1, fun a b => if b.toInt ≤ a.toInt then a else b),
   (.iminu, 1, fun a b => if a.toNat ≤ b.toNat then a else b),
   (.imaxu, 1, fun a b => if b.toNat ≤ a.toNat then a else b),
   (.iabsd, 1, fun a b => BitVec.ofNat 32 (a.toInt - b.toInt).natAbs),
   (.and, 1, fun a b => a &&& b), (.or, 1, fun a b => a ||| b), (.xor, 1, fun a b => a ^^^ b), (.andn, 1, fun a b => a &&& ~~~ b),
   (.shl, 1, fun a b => if b.toNat < 32 then BitVec.ofNat 32 (a.toNat * 2 ^ b.toNat) else 0),
   (.shr, 1, fun a b => if b.toNat < 32 then BitVec.ofNat 32 (a.toNat / 2 ^ b.toNat) else 0),
   (.sar, 1, fun a b => BitVec.ofInt 32 (a.toInt / 2 ^ min b.toNat 31))]

/-- The 16-bit forms: the destination is the first source (R261). -/
def intPairsH16 : List ((H16 → Instr) × Nat × (Word → Word → Word)) :=
  [(.imulH16, 3, fun a b => BitVec.ofNat 32 (a.toNat * b.toNat)),
   (.andH16, 1, fun a b => a &&& b), (.orH16, 1, fun a b => a ||| b), (.xorH16, 1, fun a b => a ^^^ b), (.andnH16, 1, fun a b => a &&& ~~~ b),
   (.shlH16, 1, fun a b => if b.toNat < 32 then BitVec.ofNat 32 (a.toNat * 2 ^ b.toNat) else 0),
   (.shrH16, 1, fun a b => if b.toNat < 32 then BitVec.ofNat 32 (a.toNat / 2 ^ b.toNat) else 0),
   (.sarH16, 1, fun a b => BitVec.ofInt 32 (a.toInt / 2 ^ min b.toNat 31))]

/-- R296, R297, R162, R156: a two-source integer instruction issues, gives every active lane its word, and changes nothing
else (`Ctx.Gave`). -/
def PairsComplete : Prop :=
  (∀ e ∈ intPairs, ∀ (o : T3) (c : Ctx) (s : State), c.use = useT3 o true → c.Issues s → (∀ r ∈ c.vals, r.Clean c.act) →
    ∃ t v, exec (e.1 o) s = .next t ∧ c.Gave s t o.d e.2.1 v c.act ∧
      c.Lanewise c.vals (fun ws => e.2.2 (ws.getD 0 0) (ws.getD 1 0)) v) ∧
  (∀ e ∈ intPairsH16, ∀ (o : H16) (c : Ctx) (s : State), c.use = useH16 o true → c.Issues s → (∀ r ∈ c.vals, r.Clean c.act) →
    ∃ t v, exec (e.1 o) s = .next t ∧ c.Gave s t (h16Dst o.d) e.2.1 v c.act ∧
      c.Lanewise c.vals (fun ws => e.2.2 (ws.getD 0 0) (ws.getD 1 0)) v)

/-- The value of an addition or a subtraction (R162, R296): each active lane holds the sum or difference; U of U sources;
A with the base and stride of the A source when the other is U; G otherwise. -/
def SumOf (sub : Bool) (act : Mask) (a b v : RVal) : Prop :=
  let f : Word → Word → Word := if sub then fun x y => x - y else fun x y => x + y
  v.marks = [] ∧
  (match a.v, b.v with
    | .u x, .u y => v.v = .u (f x y)
    | .a be sg, .u y => v.v = .a (f be y) sg
    | .u x, .a be sg => v.v = .a (f x be) (if sub then -sg else sg)
    | _, _ => v.v.tag = 2) ∧
  ∀ l, l < 32 → act.getLsbD l = true → v.lane l = f (a.lane l) (b.lane l)

/-- R296, R301, R162: iadd, isub and iaddi with their 16-bit forms. -/
def SumsComplete : Prop :=
  (∀ e ∈ ([(.iadd, false), (.isub, true)] : List ((T3 → Instr) × Bool)), ∀ (o : T3) (c : Ctx) (s : State),
    c.use = useT3 o true → c.Issues s → (∀ r ∈ c.vals, r.Clean c.act) →
    ∃ t v, exec (e.1 o) s = .next t ∧ c.Gave s t o.d 1 v c.act ∧ SumOf e.2 c.act (c.val 0) (c.val 1) v) ∧
  (∀ e ∈ ([(.iaddH16, false), (.isubH16, true)] : List ((H16 → Instr) × Bool)), ∀ (o : H16) (c : Ctx) (s : State),
    c.use = useH16 o true → c.Issues s → (∀ r ∈ c.vals, r.Clean c.act) →
    ∃ t v, exec (e.1 o) s = .next t ∧ c.Gave s t (h16Dst o.d) 1 v c.act ∧ SumOf e.2 c.act (c.val 0) (c.val 1) v) ∧
  (∀ (o : TI) (c : Ctx) (s : State), c.use = useTI o → c.Issues s → (∀ r ∈ c.vals, r.Clean c.act) →
    ∃ t v, exec (.iaddi o) s = .next t ∧ c.Gave s t o.d 1 v c.act ∧
      SumOf false c.act (c.val 0) (RVal.ofWord (o.imm.signExtend 32)) v)

/-- R296, R297, R301, R162, R156: the two-source integer instructions, sums and differences with their tags among them. -/
def Obligations.IntegerPairsComplete : Prop := PairsComplete ∧ SumsComplete

/-! ### Exact values and their one rounding -/

/-- The exact value of a finite number (0 for a NaN or an infinity). -/
def Sys2Proof.Machine.FVal.rat : FVal → ℚ
  | .fin neg m e => (if neg then -1 else 1) * m * (2 : ℚ) ^ e
  | _ => 0

/-- The magnitude of a code without its sign, the code of infinity counting as the next power of two. -/
def Sys2Proof.Machine.Fmt.grid (f : Fmt) (k : Nat) : ℚ :=
  let frac := k % 2 ^ (f.prec - 1)
  let ex := k / 2 ^ (f.prec - 1)
  if ex = 0 then frac * (2 : ℚ) ^ f.qmin else ((frac + 2 ^ (f.prec - 1) : Nat) : ℚ) * (2 : ℚ) ^ (f.qmin + (ex : Int) - 1)

/-- `r` is the exact value `v` rounded once to the format by R235: of all codes the nearest, of two equally near ones the even; `neg` is the sign of an
exact zero. NX tells an inexact result, OF one that rounds to infinity, and UF one that is inexact and tiny, tininess detected after rounding. -/
def RoundsTo (f : Fmt) (v : ℚ) (neg : Bool) (r : FRes) : Prop :=
  ∃ k, k ≤ f.inf ∧ r.bits = (if v < 0 ∨ (v = 0 ∧ neg = true) then f.signBit else 0) + k ∧
    (∀ j, j ≤ f.inf → |(|v| - f.grid k)| < |(|v| - f.grid j)| ∨ (|(|v| - f.grid k)| = |(|v| - f.grid j)| ∧ (j = k ∨ k % 2 = 0))) ∧
    (r.fl.getLsbD 4 = true ↔ k = f.inf ∨ f.grid k ≠ |v|) ∧ (r.fl.getLsbD 2 = true ↔ k = f.inf) ∧
    (r.fl.getLsbD 3 = true ↔ f.grid k ≠ |v| ∧ |v| < (2 : ℚ) ^ (f.qmin + f.prec - 1) - (2 : ℚ) ^ (f.qmin - 2)) ∧
    r.fl.getLsbD 0 = false ∧ r.fl.getLsbD 1 = false ∧ r.fl.getLsbD 5 = false

/-- A code of a finite number. -/
def Sys2Proof.Machine.Fmt.Finite (f : Fmt) (a : Nat) : Prop := (f.decode a).isNan = false ∧ (f.decode a).isInf = false

/-- R235, R306, R308: sums, products and fused products in FP32 and BF16 are the exact value, rounded once; a NaN operand and an invalid operation give
the canonical NaN. -/
def ArithmeticRounds : Prop :=
  ∀ f ∈ [fp32, bf16], ∀ a b c : Nat,
    let x := f.decode a
    let y := f.decode b
    let z := f.decode c
    (f.Finite a → f.Finite b →
      RoundsTo f (x.rat + y.rat) (x.isNeg && y.isNeg) (f.add a b) ∧ RoundsTo f (x.rat - y.rat) (x.isNeg && !y.isNeg) (f.sub a b) ∧
      RoundsTo f (x.rat * y.rat) (x.isNeg != y.isNeg) (f.mul a b) ∧
      (f.Finite c → RoundsTo f (x.rat * y.rat + z.rat) ((x.isNeg != y.isNeg) && z.isNeg) (f.fma a b c))) ∧
    (x.isNan = true ∨ y.isNan = true → ∀ r ∈ [f.add a b, f.sub a b, f.mul a b], r = ⟨f.nan, if x.isSig ∨ y.isSig then fNV else 0⟩) ∧
    (x.isInf = true → y.isInf = true → (x.isNeg ≠ y.isNeg → f.add a b = ⟨f.nan, fNV⟩) ∧ (x.isNeg = y.isNeg → f.sub a b = ⟨f.nan, fNV⟩)) ∧
    ((x.isInf = true ∧ y.isZero = true) ∨ (x.isZero = true ∧ y.isInf = true) → f.mul a b = ⟨f.nan, fNV⟩)

/-- R309, R310, R311: conversions, reciprocals and roots are rounded once; a root lies nearer to its code than to any other. -/
def FunctionsRound : Prop :=
  (∀ a : Nat, fp32.Finite a →
    let v := (fp32.decode a).rat
    RoundsTo bf16 v (fp32.decode a).isNeg (cvtRes 0 .ne a) ∧ RoundsTo fp16 v (fp32.decode a).isNeg (cvtRes 1 .ne a) ∧
    (v ≠ 0 → RoundsTo fp32 (1 / v) false (frcpRes a)) ∧
    (0 < v → ∃ k, k < fp32.inf ∧ (fsqrtRes a).bits = k ∧ ((fsqrtRes a).fl = if fp32.grid k ^ 2 = v then 0 else fNX) ∧ ∀ j, j ≤ fp32.inf →
      (j < k → (fp32.grid j + fp32.grid k) ^ 2 ≤ 4 * v) ∧ (k < j → 4 * v ≤ (fp32.grid j + fp32.grid k) ^ 2)) ∧
    (0 < v → ∃ k, k < fp32.inf ∧ (frsqRes a).bits = k ∧ ((frsqRes a).fl = if fp32.grid k ^ 2 * v = 1 then 0 else fNX) ∧ ∀ j, j ≤ fp32.inf →
      (j < k → (fp32.grid j + fp32.grid k) ^ 2 * v ≤ 4) ∧ (k < j → 4 ≤ (fp32.grid j + fp32.grid k) ^ 2 * v))) ∧
  (∀ a : Word, RoundsTo fp32 (a.toInt : ℚ) false (i2fRes .ne a.toNat))

/-- The element before block `k` of a matrix instruction (R247, R249): one block after the other, in ascending order. -/
def Blocks (m : MmQ) (h : Bool) (fa fb : Narrow) (a b : List (Option Nat)) (sa sb : List Nat) (acc : Nat) (x : Nat → FRes) : Prop :=
  let n := m.k / m.blocks
  x 0 = ⟨acc, 0⟩ ∧ ∀ k, k < m.blocks →
    let ab : List (Option Nat × Option Nat) := ((a.drop (k * n)).take n).zip ((b.drop (k * n)).take n)
    let r := if m.cls = .int then accInt (x k).bits (ab.map fun (p : Option Nat × Option Nat) => (mmInt fa p.1, mmInt fb p.2))
      else accFloat (x k).bits (ab.map fun (p : Option Nat × Option Nat) => (mmVal m.cls h fa p.1, mmVal m.cls h fb p.2))
        (e5m3.decode (sa.getD k scaleOne)) (e5m3.decode (sb.getD k scaleOne))
    x (k + 1) = ⟨r.bits, (x k).fl ||| r.fl⟩

/-- R247 to R249: a block of finite products is summed exactly, scaled exactly and added with one rounding; a NaN gives the canonical NaN; the integer sum
wraps and sets IOV outside INT32; the blocks of an element follow one another. -/
def MatrixRounds : Prop :=
  (∀ (acc : Nat) (ps : List (FVal × FVal)) (sa sb : Nat), fp32.Finite acc →
    (∀ p ∈ ps, p.1.isNan = false ∧ p.1.isInf = false ∧ p.2.isNan = false ∧ p.2.isInf = false) →
    (e5m3.decode sa).isNan = false → (e5m3.decode sb).isNan = false → ∃ neg,
    RoundsTo fp32 ((fp32.decode acc).rat + (ps.map fun p => p.1.rat * p.2.rat).sum * (e5m3.decode sa).rat * (e5m3.decode sb).rat) neg
      (accFloat acc ps (e5m3.decode sa) (e5m3.decode sb))) ∧
  (∀ (acc : Nat) (ps : List (FVal × FVal)) (sa sb : FVal), (∃ p ∈ ps, p.1.isNan = true ∨ p.2.isNan = true) ∨ sa.isNan = true ∨ sb.isNan = true →
    (accFloat acc ps sa sb).bits = fp32.nan) ∧
  (∀ (acc : Word) (ps : List (Int × Int)), let x := acc.toInt + (ps.map fun p => p.1 * p.2).sum
    (accInt acc.toNat ps).bits = (BitVec.ofInt 32 x).toNat ∧
    ((accInt acc.toNat ps).fl = if x < -(2 ^ 31) ∨ 2 ^ 31 - 1 < x then fIOV else 0)) ∧
  (∀ (m : MmQ) (h : Bool) (fa fb : Narrow) (a b : List (Option Nat)) (sa sb : List Nat) (acc : Nat),
    ∃ x, Blocks m h fa fb a b sa sb acc x ∧ mmElem m h fa fb a b sa sb acc = x m.blocks)

/-- R235, R247 to R249, R306, R308 to R311: what the floating-point and matrix instructions compute is the exact value, rounded once. -/
def Obligations.RoundedOnce : Prop := ArithmeticRounds ∧ FunctionsRound ∧ MatrixRounds

/-- One-source integer instructions (R296). -/
def intOnes : List ((T2 → Instr) × (Word → Word)) :=
  [(.popc, fun a => BitVec.ofNat 32 ((List.range 32).countP fun i => a.getLsbD i)),
   (.clz, fun a => BitVec.ofNat 32 ((List.range 32).reverse.takeWhile fun i => !a.getLsbD i).length),
   (.brev, fun a => a.reverse),
   (.ineg, fun a => 0 - a),
   (.iabs, fun a => if a.toInt < 0 then 0 - a else a)]

/-- R296, R297, R301: one-source, counted and immediate forms. -/
def Obligations.IntegerOnesComplete : Prop :=
  (∀ e ∈ intOnes, ∀ (o : T2) (c : Ctx) (s : State), c.use = useT2 o true → c.Issues s → (∀ r ∈ c.vals, r.Clean c.act) →
    ∃ t v, exec (e.1 o) s = .next t ∧ c.Gave s t o.d 1 v c.act ∧ c.Lanewise c.vals (fun ws => e.2 (ws.getD 0 0)) v) ∧
  (∀ e ∈ ([(.sext, fun n a => (a.setWidth n).signExtend 32), (.rotl, fun n a => a <<< n ||| a >>> (32 - n))] :
      List ((T2n → Instr) × (Nat → Word → Word))), ∀ (o : T2n) (c : Ctx) (s : State), c.use = useT2n o true → c.Issues s →
    (∀ r ∈ c.vals, r.Clean c.act) →
    ∃ t v, exec (e.1 o) s = .next t ∧ c.Gave s t o.d 1 v c.act ∧ c.Lanewise c.vals (fun ws => e.2 o.n.toNat (ws.getD 0 0)) v) ∧
  (∀ e ∈ ([(.andi, fun i a => a &&& i), (.ori, fun i a => a ||| i), (.xori, fun i a => a ^^^ i)] :
      List ((TI → Instr) × (Word → Word → Word))), ∀ (o : TI) (c : Ctx) (s : State), c.use = useTI o → c.Issues s →
    (∀ r ∈ c.vals, r.Clean c.act) →
    ∃ t v, exec (e.1 o) s = .next t ∧ c.Gave s t o.d 1 v c.act ∧
      c.Lanewise c.vals (fun ws => e.2 (o.imm.setWidth 32) (ws.getD 0 0)) v) ∧
  (∀ e ∈ ([(.shli, fun n a => BitVec.ofNat 32 (a.toNat * 2 ^ n)), (.shri, fun n a => BitVec.ofNat 32 (a.toNat / 2 ^ n)),
      (.sari, fun n a => BitVec.ofInt 32 (a.toInt / 2 ^ n))] : List ((TIs → Instr) × (Nat → Word → Word))),
    ∀ (o : TIs) (c : Ctx) (s : State), c.use = useTIs o → c.Issues s → (∀ r ∈ c.vals, r.Clean c.act) →
    ∃ t v, exec (e.1 o) s = .next t ∧ c.Gave s t o.d 1 v c.act ∧ c.Lanewise c.vals (fun ws => e.2 o.n.toNat (ws.getD 0 0)) v)

/-- R276, R296, R298, R299, R302: the instructions whose destination is also a source, read before it is written. bfi is
said bit by bit: bits [p + n - 1 : p] come from a, the others from b; bfx: the field's bits, then zeros or its sign. -/
def Obligations.DestinationSourcesComplete : Prop :=
  (∀ e ∈ ([(.imad, 3, fun a b d r => r = BitVec.ofNat 32 (a.toNat * b.toNat + d.toNat)),
      (.bfi, 1, fun a b d r => ∀ i, i < 32 → r.getLsbD i =
        if field d.toNat 0 5 ≤ i ∧ i < field d.toNat 0 5 + bfLen d then a.getLsbD (i - field d.toNat 0 5) else b.getLsbD i),
      (.bperm, 1, fun a b d r => ∀ i, i < 4 → field r.toNat (8 * i) 8 = bpermByte a b d i)] :
      List ((T3d → Instr) × Nat × (Word → Word → Word → Word → Prop))), ∀ (o : T3d) (c : Ctx) (s : State), c.use = useT3d o true → c.Issues s →
    (∀ r ∈ c.vals ++ [c.dval o.d], r.Clean c.act) →
    ∃ t v f, exec (e.1 o) s = .next t ∧ c.Gave s t o.d e.2.1 v c.act ∧ c.Lanewise (c.vals ++ [c.dval o.d]) f v ∧
      ∀ a b d, e.2.2 a b d (f [a, b, d])) ∧
  (∀ (o : T2d) (c : Ctx) (s : State), c.use = useT2d o true → c.Issues s → (∀ r ∈ c.vals ++ [c.dval o.d], r.Clean c.act) →
    ∃ t v f, exec (.bfx o) s = .next t ∧ c.Gave s t o.d 1 v c.act ∧ c.Lanewise (c.vals ++ [c.dval o.d]) f v ∧
      ∀ a d, ∀ i, i < 32 → (f [a, d]).getLsbD i =
        if i < bfLen d then a.getLsbD (i + field d.toNat 0 5)
        else d.getLsbD 14 && decide (0 < bfLen d) && a.getLsbD (bfLen d - 1 + field d.toNat 0 5)) ∧
  (∀ (o : TLd) (c : Ctx) (s : State), c.use = ⟨legalTLd o, true, true, [], (dstReg o.d).toList, o.d, 0, o.e, 4, []⟩ → c.Issues s →
    (c.dval o.d).Clean c.act →
    ∃ t v, exec (.movih o) s = .next t ∧ c.Gave s t o.d 1 v c.act ∧
      c.Lanewise [c.dval o.d] (fun ws => o.imm ++ (ws.getD 0 0).setWidth 16) v)

/-- R162, R300, R302: mov keeps the source's tag; movil writes a U word; sel takes a or b by the guard's lanes, which do
not mask it, with a's tag when every lane of the mask takes a, b's when every lane takes b, and G otherwise. -/
def Obligations.MovesComplete : Prop :=
  (∀ (o : T2) (c : Ctx) (s : State), c.use = useT2 o true → c.Issues s → (∀ r ∈ c.vals, r.Clean c.act) →
    ∃ t, exec (.mov o) s = .next t ∧ c.Gave s t o.d 1 ⟨(c.val 0).v, []⟩ c.act) ∧
  (∀ (o : H16) (c : Ctx) (s : State), c.use = useMovH16 o → c.Issues s → (∀ r ∈ c.vals, r.Clean c.act) →
    ∃ t, exec (.movH16 o) s = .next t ∧ c.Gave s t (h16Dst o.d) 1 ⟨(c.val 0).v, []⟩ c.act) ∧
  (∀ (o : TL) (c : Ctx) (s : State), c.use = ⟨legalTL o, true, true, [], [], o.d, 0, o.e, 4, []⟩ → c.Issues s →
    ∃ t, exec (.movil o) s = .next t ∧ c.Gave s t o.d 1 ⟨.u (o.imm.setWidth 32), []⟩ c.act) ∧
  (∀ (o : T3) (c : Ctx) (s : State), c.use = { useT3 o true with legal := legalSel o } → c.Issues s →
    (∀ r ∈ c.vals, r.Clean c.st.mask) →
    let pick := c.st.guardMask o.g.toNat
    ∃ t v, exec (.sel o) s = .next t ∧ c.Gave s t o.d 1 v c.st.mask ∧ v.marks = [] ∧
      (c.st.mask &&& ~~~ pick = 0 → v.v = (c.val 0).v) ∧ (c.st.mask ≠ 0 → c.st.mask &&& pick = 0 → v.v = (c.val 1).v) ∧
      (c.st.mask &&& ~~~ pick ≠ 0 → c.st.mask &&& pick ≠ 0 → v.v.tag = 2) ∧
      ∀ l, l < 32 → c.st.mask.getLsbD l = true → v.lane l = if pick.getLsbD l then (c.val 0).lane l else (c.val 1).lane l)

/-- Two-source floating-point instructions of the 32-bit formats (R306 to R308), all of 4 t. -/
def fpPairs : List ((T3 → Instr) × (Word → Word → Word × BitVec 6)) :=
  [(.fadd, fun a b => (fp32.add a.toNat b.toNat).lane), (.fsub, fun a b => (fp32.sub a.toNat b.toNat).lane),
   (.fmul, fun a b => (fp32.mul a.toNat b.toNat).lane), (.fmin, fun a b => (fp32.minMax false a.toNat b.toNat).lane),
   (.fmax, fun a b => (fp32.minMax true a.toNat b.toNat).lane), (.hadd2, packed2 bf16.add), (.hmul2, packed2 bf16.mul)]

/-- Their 16-bit forms (R261). -/
def fpPairsH16 : List ((H16 → Instr) × (Word → Word → Word × BitVec 6)) :=
  [(.faddH16, fun a b => (fp32.add a.toNat b.toNat).lane), (.fsubH16, fun a b => (fp32.sub a.toNat b.toNat).lane),
   (.fmulH16, fun a b => (fp32.mul a.toNat b.toNat).lane), (.fminH16, fun a b => (fp32.minMax false a.toNat b.toNat).lane),
   (.fmaxH16, fun a b => (fp32.minMax true a.toNat b.toNat).lane)]

/-- The fused instructions (R306, R308): the destination is the addend. -/
def fpTriples : List ((T3d → Instr) × (Word → Word → Word → Word × BitVec 6)) :=
  [(.ffma, fun a b d => (fp32.fma a.toNat b.toNat d.toNat).lane),
   (.hfma2, fun a b d => packHalves (bf16.fma (lowHalf a) (lowHalf b) (lowHalf d)) (bf16.fma (highHalf a) (highHalf b) (highHalf d)))]

/-- The special functions (R311), of 12 t. -/
def specialFns : List ((T2 → Instr) × (Word → Word × BitVec 6)) :=
  [(.frcp, fun a => (frcpRes a.toNat).lane), (.frsq, fun a => (frsqRes a.toNat).lane), (.fsqrt, fun a => (fsqrtRes a.toNat).lane),
   (.fex2, fun a => (fex2Res a.toNat).lane), (.flg2, fun a => (flg2Res a.toNat).lane), (.fsinp, fun a => (fsinpRes a.toNat).lane),
   (.fcosp, fun a => (fcospRes a.toNat).lane), (.ftanh, fun a => (ftanhRes a.toNat).lane)]

/-- Conversions by their rounding (R309, R310), of 4 t. -/
def useT2r (o : T2r) : Use := ⟨legalT2r o, false, true, [o.a], [], o.d, o.g.toNat, o.e, 4, []⟩
def useCvt (o : Cvt) : Use := ⟨legalCvt o, false, true, [o.a], [], o.d, o.g.toNat, o.e, 4, []⟩

/-- Every floating-point instruction, as what one use of it is: its constructor's term, its use, its latency, whether its
destination is a further source, and the word and flags of a lane. -/
inductive FpForm : Instr → Use → Nat → Bool → (List Word → Word × BitVec 6) → Prop where
  | pair (e : (T3 → Instr) × (Word → Word → Word × BitVec 6)) (h : e ∈ fpPairs) (o : T3) :
    FpForm (e.1 o) (useT3 o false) 4 false (fun ws => e.2 (ws.getD 0 0) (ws.getD 1 0))
  | pairH16 (e : (H16 → Instr) × (Word → Word → Word × BitVec 6)) (h : e ∈ fpPairsH16) (o : H16) :
    FpForm (e.1 o) (useH16 o false) 4 false (fun ws => e.2 (ws.getD 0 0) (ws.getD 1 0))
  | triple (e : (T3d → Instr) × (Word → Word → Word → Word × BitVec 6)) (h : e ∈ fpTriples) (o : T3d) :
    FpForm (e.1 o) (useT3d o false) 4 true (fun ws => e.2 (ws.getD 0 0) (ws.getD 1 0) (ws.getD 2 0))
  | special (e : (T2 → Instr) × (Word → Word × BitVec 6)) (h : e ∈ specialFns) (o : T2) :
    FpForm (e.1 o) (useT2 o false) 12 false (fun ws => e.2 (ws.getD 0 0))
  | cvt (o : Cvt) : FpForm (.fcvt o) (useCvt o) 4 false (fun ws => (cvtRes o.p.toNat (Rm.ofCode o.rm) (ws.getD 0 0).toNat).lane)
  | i2f (o : T2r) : FpForm (.i2f o) (useT2r o) 4 false (fun ws => (i2fRes (Rm.ofCode o.rm) (ws.getD 0 0).toNat).lane)
  | f2i (o : T2r) : FpForm (.f2i o) (useT2r o) 4 false (fun ws => (f2iRes (Rm.ofCode o.rm) (ws.getD 0 0).toNat).lane)

/-- The source values of a use; a d* instruction reads its destination too (R276). -/
def Sys2Proof.Machine.Ctx.sources (c : Ctx) (self : Bool) : List RVal := if self then c.vals ++ [c.dval c.use.dst] else c.vals

/-- R306 to R311, R250 to R252: a floating-point instruction none of whose raised flags is enabled issues, gives every
active lane its word, and raises exactly the flags that active lanes raise. -/
def Obligations.FloatingPointComplete : Prop :=
  ∀ i u lat self f, FpForm i u lat self f → ∀ (c : Ctx) (s : State), c.use = u → c.Issues s →
    (∀ r ∈ c.sources self, r.Clean c.act) → ∀ fl, c.FlagsOf (c.sources self) (fun ws => (f ws).2) fl → c.Quiet fl →
    ∃ t v, exec i s = .next t ∧ c.GaveFlags s t u.dst lat v fl ∧ c.Lanewise (c.sources self) (fun ws => (f ws).1) v

/-- R253, R295: when a raised flag is enabled, the flags are set and the arithmetic trap is taken in place of completion:
nothing is popped, pushed, latched or put in flight for the destination. -/
def Obligations.ArithmeticTrapTaken : Prop :=
  ∀ i u lat self f, FpForm i u lat self f → ∀ (c : Ctx) (s : State), c.use = u → c.Issues s →
    (∀ r ∈ c.sources self, r.Clean c.act) → ∀ fl, c.FlagsOf (c.sources self) (fun ws => (f ws).2) fl → ¬ c.Quiet fl →
    exec i s = .next ((s.land c.key c.x (c.now + 4) (.flags fl)).takeTrap c.key c.x ⟨9, fl.toNat, 0⟩)

/-- The predicate write of a compare (R303): with acc, pd and the condition in active lanes and 0 in every other lane;
without, the condition in active lanes and no write elsewhere. -/
def CompareWrite (acc : Bool) (act old : Mask) (f : Nat → Bool) (v m : Mask) : Prop :=
  (acc = true → m = Mask.full ∧ ∀ l, l < 32 → v.getLsbD l = (old.getLsbD l && f l && act.getLsbD l)) ∧
  (acc = false → m = act ∧ ∀ l, l < 32 → v.getLsbD l = f l)

/-- R303 to R305, R278: a compare writes its predicate 1 t later, with a void latch entry; fcmp raises NV as R305 says. -/
def Compares : Prop :=
  (∀ e ∈ ([(.icmp, legalTC, icond), (.icmpu, legalIcmpu, ucond)] : List ((TC → Instr) × (TC → Bool) × (Nat → Word → Word → Bool))),
    ∀ (o : TC) (c : Ctx) (s : State), c.use = useTC o true (e.2.1 o) → c.Issues s → (∀ r ∈ c.vals, r.Clean c.act) →
    ∃ t v m, exec (e.1 o) s = .next t ∧ c.Plain s t [⟨s.fresh, c.now + 1, c.x, .pred o.p.toNat v m⟩] ∧
      CompareWrite o.acc c.act (c.st.pred o.p.toNat) (fun l => e.2.2 o.c.toNat ((c.val 0).lane l) ((c.val 1).lane l)) v m) ∧
  (∀ (o : TCi) (c : Ctx) (s : State), c.use = useTCi o → c.Issues s → (∀ r ∈ c.vals, r.Clean c.act) →
    ∃ t v m, exec (.icmpi o) s = .next t ∧ c.Plain s t [⟨s.fresh, c.now + 1, c.x, .pred o.p.toNat v m⟩] ∧
      CompareWrite o.acc c.act (c.st.pred o.p.toNat) (fun l => icond o.c.toNat ((c.val 0).lane l) (o.imm.signExtend 32)) v m) ∧
  (∀ (o : TC) (c : Ctx) (s : State), c.use = useTC o false (legalTC o) → c.Issues s → (∀ r ∈ c.vals, r.Clean c.act) →
    let r := fun l => fcond o.c.toNat ((c.val 0).lane l) ((c.val 1).lane l)
    ((∀ l, l < 32 → c.act.getLsbD l = true → (r l).2 = 0) →
      ∃ t v m, exec (.fcmp o) s = .next t ∧ c.Plain s t [⟨s.fresh, c.now + 1, c.x, .pred o.p.toNat v m⟩] ∧
        CompareWrite o.acc c.act (c.st.pred o.p.toNat) (fun l => (r l).1) v m) ∧
    ((∃ l, l < 32 ∧ c.act.getLsbD l = true ∧ (r l).2 = fNV) → c.Quiet fNV →
      ∃ t v m, exec (.fcmp o) s = .next t ∧ c.Plain s t [⟨s.fresh, c.now + 4, c.x, .flags fNV⟩, ⟨s.fresh + 1, c.now + 1, c.x, .pred o.p.toNat v m⟩] ∧
        CompareWrite o.acc c.act (c.st.pred o.p.toNat) (fun l => (r l).1) v m) ∧
    ((∃ l, l < 32 ∧ c.act.getLsbD l = true ∧ (r l).2 = fNV) → ¬ c.Quiet fNV →
      exec (.fcmp o) s = .next ((s.land c.key c.x (c.now + 4) (.flags fNV)).takeTrap c.key c.x ⟨9, 1, 0⟩)))

/-- Predicate operations (R312): the new value of pd from pd and pa. -/
def predOps : List ((PP → Instr) × (Mask → Mask → Mask)) :=
  [(.pand, fun d a => d &&& a), (.por, fun d a => d ||| a), (.pxor, fun d a => d ^^^ a)]

/-- R312 to R314: predicate operations, pvec and guard bindings. -/
def PredicateOps : Prop :=
  (∀ e ∈ predOps, ∀ (o : PP) (c : Ctx) (s : State), c.use = ⟨legalPP o, true, true, [], [], .discard, o.g.toNat, o.e, 4, []⟩ → c.Issues s →
    ∃ t, exec (e.1 o) s = .next t ∧ c.Plain s t [⟨s.fresh, c.now + 1, c.x, .pred o.d.toNat
      (e.2 (c.st.pred o.d.toNat) (if o.neg then ~~~ c.st.pred o.a.toNat else c.st.pred o.a.toNat)) c.act⟩]) ∧
  (∀ e ∈ ([(.pnot, fun a => ~~~ a), (.pmov, fun a => a)] : List ((P2 → Instr) × (Mask → Mask))), ∀ (o : P2) (c : Ctx) (s : State),
    c.use = ⟨legalP2 o, true, true, [], [], .discard, o.g.toNat, o.e, 4, []⟩ → c.Issues s →
    ∃ t, exec (e.1 o) s = .next t ∧
      c.Plain s t [⟨s.fresh, c.now + 1, c.x, .pred o.d.toNat (e.2 (c.st.pred o.a.toNat)) c.act⟩]) ∧
  (∀ e ∈ ([(.gbind, false), (.gbindNeg, true)] : List ((GB → Instr) × Bool)), ∀ (o : GB) (c : Ctx) (s : State),
    c.use = ⟨legalGB o, true, true, [], [], .discard, 0, o.e, 4, []⟩ → c.Issues s →
    ∃ t, exec (e.1 o) s = .next t ∧
      c.Plain s t [⟨s.fresh, c.now + 1, c.x, .guard o.slot.toNat (some ⟨o.a.toNat, e.2⟩)⟩]) ∧
  (∀ (o : PV) (c : Ctx) (s : State), c.use = ⟨legalPV o, true, true, [], [], o.d, o.g.toNat, o.e, 4, []⟩ → c.Issues s →
    ∃ t v, exec (.pvec o) s = .next t ∧ c.Gave s t o.d 1 v c.act ∧ v.v.tag = 2 ∧ v.marks = [] ∧
      ∀ l, l < 32 → v.lane l = if (c.st.pred o.a.toNat).getLsbD l then 1 else 0)

/-- R278, R303 to R305, R312 to R314: compares, predicate operations, pvec and guard bindings. -/
def Obligations.PredicatesComplete : Prop := Compares ∧ PredicateOps

/-- A management register holds values in its fields, each with its lowest bit and its width, and 0 in every other bit. -/
def RegHolds (s : State) (o : Nat) (fields : List (Nat × Nat × Nat)) : Prop :=
  (∀ f ∈ fields, field (s.readReg o) f.1 f.2.1 = f.2.2) ∧
  ∀ b, (∀ f ∈ fields, b < f.1 ∨ f.1 + f.2.1 ≤ b) → (s.readReg o).testBit b = false

/-- A flag as a field of one bit. -/
def flagBit (b : Bool) : Nat := if b = true then 1 else 0

/-- R4, R5, R20, R38, R57, R62, R74, R82, R85, R93, R107, R108, R121, R122, R184, R334: the layouts of the status and configuration registers. -/
def RegisterLayouts : Prop :=
  (∀ s : State, s.fw.phase < 16 → s.fw.failCode < 32 → RegHolds s 0x0 [(31, 1, flagBit s.fw.ready), (30, 1, flagBit s.fw.fail), (26, 4, s.fw.phase),
    (21, 5, s.fw.failCode), (20, 1, flagBit s.fw.timeFree), (19, 1, flagBit s.fw.slot), (0, 16, s.fw.darkPorts.toNat)]) ∧
  (∀ s : State, RegHolds s 0x40 [(31, 1, flagBit s.pkg.seqErr), (30, 1, flagBit s.pkg.droop), (10, 10, s.pkg.railDroop.toNat), (0, 10, s.pkg.railOk.toNat)]) ∧
  (∀ s : State, s.fw.stage < 2 ^ 39 → RegHolds s 0x8 [(0, 39, s.fw.stage)]) ∧
  (∀ s : State, s.fw.state < 16 → s.fw.result < 16 → s.fw.failedQueues < 2 ^ 8 → s.fw.svn < 2 ^ 16 →
    RegHolds s 0x18 [(28, 4, s.fw.state), (24, 4, s.fw.result), (16, 8, s.fw.failedQueues), (0, 16, s.fw.svn)]) ∧
  (∀ (s : State) (k : Nat), k < 8 → let x := s.stack k
    x.band < 4 → x.retryPeak < 32 → x.swapPeak < 8 → x.ceCount < 2 ^ 16 → x.debt ≤ 64 →
    RegHolds s (0x100 + 8 * k) [(31, 1, flagBit x.ue), (30, 1, flagBit x.debtFault), (28, 2, x.band), (23, 5, x.retryPeak), (19, 4, (x.debt + 7) / 8),
      (16, 3, x.swapPeak), (0, 16, x.ceCount)] ∧ s.readReg (0x140 + 8 * k) = x.ueAddr) ∧
  (∀ (s : State) (p : Nat), p < 16 → let x := s.port p
    x.unrec < 2 ^ 8 → x.replays < 2 ^ 16 →
    RegHolds s (0x200 + 8 * p) [(31, 1, flagBit x.dark), (30, 1, flagBit x.dead), (29, 1, flagBit x.authFail), (28, 1, flagBit x.protoErr),
      (16, 8, x.unrec), (0, 16, x.replays)]) ∧
  (∀ s : State, s.time.kerfPorts < 2 ^ 8 → RegHolds s 0x300 [(31, 1, flagBit s.time.locked), (30, 1, flagBit s.time.holdover),
    (29, 1, flagBit s.time.ppsOk), (28, 1, flagBit s.time.refOk), (27, 1, flagBit s.time.timeFault), (16, 8, s.time.kerfPorts),
    (0, 16, (BitVec.ofInt 16 s.time.offset).toNat)]) ∧
  (∀ s : State, s.sched.cause < 32 → s.sched.loadErr < 16 → s.sched.image < 16 → s.sched.rounds < 2 ^ 16 →
    let code : Nat := match s.sched.state with | .idle => 0 | .run => 1 | .fault => 2 | .agree => 3 | .realign => 4 | .halted => 5
    RegHolds s 0x310 [(29, 3, code), (24, 5, s.sched.cause), (20, 4, s.sched.loadErr), (16, 4, s.sched.image), (0, 16, s.sched.rounds)]) ∧
  (∀ s : State, s.sched.first < 2 ^ 47 → s.sched.resume < 2 ^ 47 → s.readReg 0x318 = s.sched.first ∧ s.readReg 0x328 = s.sched.resume) ∧
  (∀ s : State, let sealed := (List.range 4).any fun p => (s.tenant p).sealed
    let debugged := (List.range 4).any fun p => (s.tenant p).tdebug
    RegHolds s 0x400 ([(30, 2, if s.sec.revoked = true then 2 else if sealed = true then 1 else 0),
      (28, 2, if s.sec.vendor = true then 2 else if debugged = true then 1 else 0)] ++
      (List.range 4).map (fun p => (24 + p, 1, flagBit (s.tenant p).sealed)) ++ (List.range 4).map fun p => (20 + p, 1, flagBit (s.tenant p).tdebug))) ∧
  (∀ s : State, s.sec.cap < 2 ^ 12 → RegHolds s 0x408 [(30, 2,
    if s.link.d3 = true then 3 else if s.sec.power = 2 then 2 else if s.fw.ready && (List.range 256).any (fun c => !s.taskCores.contains c) then 1 else 0), (0, 12, s.sec.cap)]) ∧
  (∀ (s : State) (p : Nat), p < 4 → (s.tenant p).ptRoot < 2 ^ 39 → (s.tenant p).ptRoot % 2 ^ 15 = 0 →
    RegHolds s (0x500 + 16 * p) [(15, 24, (s.tenant p).ptRoot / 2 ^ 15), (0, 1, flagBit (s.tenant p).ptValid)] ∧ s.readReg (0x508 + 16 * p) = 0) ∧
  (∀ s : State, s.regEccLatent < 2 ^ 16 → s.regEccConsumed < 2 ^ 16 → RegHolds s 0x600 [(16, 16, s.regEccLatent), (0, 16, s.regEccConsumed)]) ∧
  (∀ (s : State) (q : Nat), q < 64 → let x := s.lqueue q
    x.prio < 8 → x.watchdog < 2 ^ 24 → x.err < 2 ^ 8 → x.errRing < 2 ^ 10 →
    RegHolds s (0x1000 + 16 * q) [(31, 1, flagBit x.enable), (28, 3, x.prio), (0, 24, x.watchdog)] ∧
    RegHolds s (0x1008 + 16 * q) [(31, 1, flagBit x.halted), (29, 1, flagBit (s.queueBusy q)), (16, 8, x.err), (0, 10, x.errRing)]) ∧
  (∀ s : State, s.journal.log2 < 32 → s.readReg 0x1400 = s.journal.base ∧
    RegHolds s 0x1408 [(31, 1, flagBit s.journal.enable), (30, 1, flagBit s.journal.full), (0, 5, s.journal.log2)] ∧
    ((∀ t ∈ s.journal.heads, t ≤ s.gtc) → (∀ r ∈ s.poolq, ∀ i, r.what ≠ .entry i) → s.readReg 0x1410 = s.journal.taken)) ∧
  (∀ (s : State) (i : Nat), i < 1024 → let x := s.ring i
    x.lq < 64 → x.log2 < 16 → x.part < 4 → x.vector < 2 ^ 11 →
    RegHolds s (0x10008 + 32 * i) [(31, 1, flagBit x.enable), (24, 6, x.lq), (20, 4, x.log2), (18, 2, x.part), (0, 11, x.vector)] ∧
    s.readReg (0x10000 + 32 * i) = x.base ∧ s.readReg (0x10010 + 32 * i) = x.head ∧ s.readReg (0x10018 + 32 * i) = x.seq)

/-- R4, R5, R20, R38, R57, R62, R74, R80, R82, R85, R93, R107, R108, R114, R121, R122, R184, R334: what a host's read of a BAR yields: nothing in reset; Unsupported
Request for another size, an unaligned offset or one beyond the BAR; a register or its half; the journal, and 0 beyond it. What a doorbell word
reads is open (log entry 58), and that the journal window shows a sealed region as the stack holds it is log entry 50. -/
def Obligations.RegisterReads : Prop :=
  RegisterLayouts ∧
  (∀ (s : State) (bar : Fin 3) (size o : Nat),
    (s.live = false → s.hostRead bar size o = .silent) ∧
    (s.live = true → (size ≠ 4 ∧ size ≠ 8) ∨ o % size ≠ 0 ∨ (if bar = 0 then 2 ^ 20 else if bar = 1 then 2 ^ 22 else 2 ^ 26) ≤ o →
      s.hostRead bar size o = .unsupported)) ∧
  (∀ (s : State) (o : Nat), s.live = true → o < 2 ^ 20 → o % 8 = 0 → s.readReg o < 2 ^ 64 →
    s.hostRead 0 8 o = .value (s.readReg o) ∧ s.hostRead 0 4 o = .value (s.readReg o % 2 ^ 32) ∧ s.hostRead 0 4 (o + 4) = .value (s.readReg o / 2 ^ 32)) ∧
  (∀ (s : State) (o : Nat), s.live = true → o < 2 ^ 22 → o % 4 = 0 → o % 4096 ≠ 0 → s.hostRead 1 4 o = .value 0) ∧
  (∀ (s : State) (size o : Nat), s.live = true → size = 4 ∨ size = 8 → o < 2 ^ 26 → o % size = 0 → s.journal.base % 8 = 0 →
    (32 * 2 ^ s.journal.log2 < o + size → s.hostRead 2 size o = .value 0) ∧
    (o + size ≤ 32 * 2 ^ s.journal.log2 → (∀ p, p < 4 → (s.tenant p).sealed = true → (s.journal.base + o) / 2 ^ 30 ∉ (s.tenant p).regions) →
      s.hostRead 2 size o = .value (s.natAt (s.journal.base + o) size)))

/-- R315 to R317: shuffles, bcast, ballot and votes; a source lane counts whether or not it is active, and only a mark of a source
lane that an active lane reads matters. With no active lane bcast writes no lane. -/
def Obligations.CrossLaneComplete : Prop :=
  (∀ e ∈ ([(.shflx, fun n l => Nat.xor l n), (.shflu, fun n l => if n ≤ l then l - n else l),
      (.shfld, fun n l => if l + n ≤ 31 then l + n else l)] : List ((T2n → Instr) × (Nat → Nat → Nat))),
    ∀ (o : T2n) (c : Ctx) (s : State), c.use = useT2n o false → c.Issues s →
    (∀ l, l < 32 → c.act.getLsbD l = true → (c.val 0).marks.find? (e.2 o.n.toNat l) = none) →
    (∀ e ∈ (c.val 0).marks, e.1 < 32) →
    ∃ t v, exec (e.1 o) s = .next t ∧ c.Gave s t o.d 4 v c.act ∧ v.marks = [] ∧
      v.v.tag = (if (c.val 0).v.tag = 0 then 0 else 2) ∧ ∀ l, l < 32 → v.lane l = (c.val 0).lane (e.2 o.n.toNat l)) ∧
  (∀ (o : T2d) (c : Ctx) (s : State), c.use = useT2d o false → c.Issues s → (c.dval o.d).Clean c.act →
    (∀ l, l < 32 → c.act.getLsbD l = true → (c.val 0).marks.find? (((c.dval o.d).lane l).toNat % 32) = none) →
    (∀ e ∈ (c.val 0).marks, e.1 < 32) →
    ∃ t v, exec (.shfli o) s = .next t ∧ c.Gave s t o.d 4 v c.act ∧ v.marks = [] ∧
      v.v.tag = (if (c.val 0).v.tag = 0 then 0 else 2) ∧
      ∀ l, l < 32 → v.lane l = (c.val 0).lane (((c.dval o.d).lane l).toNat % 32)) ∧
  (∀ (o : T2) (c : Ctx) (s : State) (f : Nat), c.use = useT2 o false → c.Issues s → f < 32 → c.act.getLsbD f = true →
    (∀ l, l < f → c.act.getLsbD l = false) → (∀ e ∈ (c.val 0).marks, e.1 ≠ f) →
    ∃ t, exec (.bcast o) s = .next t ∧ c.Gave s t o.d 4 ⟨.u ((c.val 0).lane f), []⟩ c.act) ∧
  (∀ (o : T2) (c : Ctx) (s : State), c.use = useT2 o false → c.Issues s → c.act = 0 →
    ∃ t w, exec (.bcast o) s = .next t ∧ c.Gave s t o.d 4 ⟨.u w, []⟩ 0) ∧
  (∀ (o : PV) (c : Ctx) (s : State), c.use = ⟨legalPV o, false, true, [], [], o.d, o.g.toNat, o.e, 4, []⟩ → c.Issues s →
    ∃ t, exec (.ballot o) s = .next t ∧ c.Gave s t o.d 2 ⟨.u (c.act &&& c.st.pred o.a.toNat), []⟩ c.act) ∧
  (∀ e ∈ ([(.vall, fun act p => (List.range 32).all fun l => !act.getLsbD l || p.getLsbD l),
      (.vany, fun act p => (List.range 32).any fun l => act.getLsbD l && p.getLsbD l)] :
      List ((P2 → Instr) × (Mask → Mask → Bool))), ∀ (o : P2) (c : Ctx) (s : State),
    c.use = ⟨legalP2 o, false, true, [], [], .discard, o.g.toNat, o.e, 4, []⟩ → c.Issues s →
    ∃ t, exec (e.1 o) s = .next t ∧ c.Plain s t [⟨s.fresh, c.now + 2, c.x, .pred o.d.toNat
      (if e.2 c.act (c.st.pred o.a.toNat) then Mask.full else 0) c.act⟩])

/-- The use of redl and scanl. -/
def useT2o (o : T2o) : Use := ⟨legalT2o o, false, true, [o.a], [], o.d, o.g.toNat, o.e, 4, []⟩

/-- The combine() of an operator of R318 on two values. -/
def Combines : Prop :=
  ∀ u v : Word, combineOp 0 u v = (u + v, 0) ∧ combineOp 1 u v = (if u.toInt ≤ v.toInt then u else v, 0) ∧
    combineOp 2 u v = (if v.toInt ≤ u.toInt then u else v, 0) ∧ combineOp 3 u v = (if u.toNat ≤ v.toNat then u else v, 0) ∧
    combineOp 4 u v = (if v.toNat ≤ u.toNat then u else v, 0) ∧ combineOp 5 u v = (u &&& v, 0) ∧ combineOp 6 u v = (u ||| v, 0) ∧
    combineOp 7 u v = (u ^^^ v, 0) ∧ combineOp 8 u v = (fp32.add u.toNat v.toNat).lane ∧
    combineOp 9 u v = (fp32.minMax false u.toNat v.toNat).lane ∧ combineOp 10 u v = (fp32.minMax true u.toNat v.toNat).lane

/-- The five log-steps of R318 and R319 over all lanes: `x k l` is lane l after k steps, empty where it is none, and `pair k l` the two lanes
that step k combines in lane l, if it combines; `fl` holds the flags that steps in active lanes raise. -/
def LogSteps (o : Nat) (act : Mask) (a : RVal) (pair : Nat → Nat → Option (Nat × Nat)) (x : Nat → Nat → Option Word) (fl : BitVec 6) : Prop :=
  let step (k l : Nat) : Option Word × BitVec 6 := match pair k l with
    | none => (x k l, 0)
    | some (i, j) => match x k i, x k j with
      | none, v => (v, 0)
      | v, none => (v, 0)
      | some u, some v => (some (combineOp o u v).1, (combineOp o u v).2)
  (∀ l, l < 32 → x 0 l = if act.getLsbD l then some (a.lane l) else none) ∧
  (∀ k l, k < 5 → l < 32 → x (k + 1) l = (step k l).1) ∧
  ∀ b, fl.getLsbD b = true ↔ ∃ k l, k < 5 ∧ l < 32 ∧ act.getLsbD l = true ∧ (step k l).2.getLsbD b = true

/-- The combination of values in order. -/
def combineAll (o : Nat) : List Word → Word
  | [] => 0
  | w :: r => r.foldl (fun u v => (combineOp o u v).1) w

/-- R318, R319: redl gives every active lane the reduction, U; scanl gives lane l the prefix over active lanes 0 to l, G.
The values are those of the log-steps of the rules; of an integer operator they are the combination of the active lanes, of all or of 0 to l.
A raised and enabled flag is the arithmetic trap of R253 instead. -/
def Obligations.ReductionsComplete : Prop :=
  (∀ (o : T2o) (c : Ctx) (s : State), c.use = useT2o o → c.Issues s → (∀ r ∈ c.vals, r.Clean c.act) →
    let r := reduceLanes o.o.toNat c.act (c.val 0)
    c.Quiet r.2 → ∃ t, exec (.redl o) s = .next t ∧ c.GaveFlags s t o.d 10 ⟨.u r.1, []⟩ r.2) ∧
  (∀ (o : T2o) (c : Ctx) (s : State), c.use = useT2o o → c.Issues s → (∀ r ∈ c.vals, r.Clean c.act) →
    let r := scanLanes o.o.toNat c.act (c.val 0)
    c.Quiet r.2 → ∃ t, exec (.scanl o) s = .next t ∧ c.GaveFlags s t o.d 10 ⟨.g r.1, []⟩ r.2) ∧
  (∀ (o : T2o) (c : Ctx) (s : State), c.use = useT2o o → c.Issues s → (∀ r ∈ c.vals, r.Clean c.act) →
    ∀ fl, (¬ c.Quiet fl → fl = (reduceLanes o.o.toNat c.act (c.val 0)).2 →
      exec (.redl o) s = .next ((s.land c.key c.x (c.now + 4) (.flags fl)).takeTrap c.key c.x ⟨9, fl.toNat, 0⟩)) ∧
      (¬ c.Quiet fl → fl = (scanLanes o.o.toNat c.act (c.val 0)).2 →
        exec (.scanl o) s = .next ((s.land c.key c.x (c.now + 4) (.flags fl)).takeTrap c.key c.x ⟨9, fl.toNat, 0⟩))) ∧
  (∀ (act : Mask) (a : RVal), (∀ l, l < 32 → act.getLsbD l = true → a.lane l = a.lane 0) → act ≠ 0 → ∀ o, 1 ≤ o → o ≤ 6 →
    (reduceLanes o act a).1 = a.lane 0) ∧
  Combines ∧
  (∀ (o : Nat) (act : Mask) (a : RVal),
    (∃ x, LogSteps o act a (fun k l => some (l, Nat.xor l (2 ^ (4 - k)))) x (reduceLanes o act a).2 ∧
      ∀ f, f < 32 → act.getLsbD f = true → (∀ l, l < f → act.getLsbD l = false) → x 5 f = some (reduceLanes o act a).1) ∧
    (∃ x, LogSteps o act a (fun k l => if 2 ^ k ≤ l then some (l - 2 ^ k, l) else none) x (scanLanes o act a).2 ∧
      ∀ l, l < 32 → act.getLsbD l = true → x 5 l = some ((scanLanes o act a).1.getD l 0)) ∧
    (o < 8 → act ≠ 0 → (reduceLanes o act a).1 = combineAll o ((Mask.list act).map a.lane)) ∧
    (o < 8 → ∀ l, l < 32 → act.getLsbD l = true →
      (scanLanes o act a).1.getD l 0 = combineAll o (((Mask.list act).filter fun k => decide (k ≤ l)).map a.lane)))

/-- R322: a guarded transfer that no lane takes issues, ends its run, and the next one follows in sequence. -/
def UntakenTransfers : Prop :=
  (∀ e ∈ ([.bra, .call] : List (TB → Instr)), ∀ (o : TB) (c : Ctx) (s : State), c.use = useXfer true [] o.g → c.Issues s →
    o.g ≠ 0 → c.st.mask &&& c.st.guardMask o.g.toNat = 0 → ∃ t, exec (e o) s = .next t ∧ c.Plain s t []) ∧
  (∀ e ∈ ([.ret, .exit] : List (G0 → Instr)), ∀ (o : G0) (c : Ctx) (s : State), c.use = useXfer true [] o.g → c.Issues s →
    o.g ≠ 0 → c.st.mask &&& c.st.guardMask o.g.toNat = 0 → ∃ t, exec (e o) s = .next t ∧ c.Plain s t []) ∧
  (∀ (o : AG) (c : Ctx) (s : State), c.use = useXfer (legalAG o) [o.a] o.g → c.Issues s →
    o.g ≠ 0 → c.st.mask &&& c.st.guardMask o.g.toNat = 0 → ∃ t, exec (.brx o) s = .next t ∧ c.Plain s t [])

/-- R322, R323, R166, R258: taken transfers with legal targets. call pushes the mask and pc + 4; ret pops a call entry and
restores its mask; brx goes to lane 0 of its source. -/
def TakenTransfers : Prop :=
  (∀ (o : TB) (c : Ctx) (s : State) (tgt : Nat), c.use = useXfer true [] o.g → c.Issues s →
    (o.g = 0 ∨ c.st.mask &&& c.st.guardMask o.g.toNat ≠ 0) → (tgt : Int) = c.st.pc + 2 * o.off.toInt → c.g.inCode tgt = true →
    (∃ t, exec (.bra o) s = .next t ∧ c.Moved s t tgt id) ∧
    (c.st.stack.length < 16 →
      ∃ t, exec (.call o) s = .next t ∧
        c.Moved s t tgt fun st => { st with stack := ⟨true, c.st.mask, c.st.pc + 4⟩ :: st.stack })) ∧
  (∀ (o : AG) (c : Ctx) (s : State), c.use = useXfer (legalAG o) [o.a] o.g → c.Issues s → (c.val 0).Clean 1 →
    (o.g = 0 ∨ c.st.mask &&& c.st.guardMask o.g.toNat ≠ 0) → (c.lane0 0).toNat % 2 = 0 → c.g.inCode (c.lane0 0).toNat = true →
    ∃ t, exec (.brx o) s = .next t ∧ c.Moved s t (c.lane0 0).toNat id) ∧
  (∀ (o : G0) (c : Ctx) (s : State) (m : Mask) (tgt : Nat) (r : List DivEntry), c.use = useXfer true [] o.g → c.Issues s →
    (o.g = 0 ∨ c.st.mask &&& c.st.guardMask o.g.toNat ≠ 0) → c.st.stack = ⟨true, m, tgt⟩ :: r → c.g.inCode tgt = true → tgt % 2 = 0 →
    ∃ t, exec (.ret o) s = .next t ∧ c.Moved s t tgt fun st => { st with stack := r, mask := m })

/-- R320 to R323: transfers, taken and not taken. -/
def Obligations.TransfersComplete : Prop := UntakenTransfers ∧ TakenTransfers

/-- R323, R324, R325: split narrows the mask and pushes an entry; join pops it at its own address; exit ends the stream on
its issue tick, with the queues it pops emptied and of the queues it feeds only the landed entries left for the other stream, which stays as it
is; nop does nothing more; yield makes the next turn an idle beat. -/
def Obligations.DivergenceComplete : Prop :=
  (∀ (o : Spl) (c : Ctx) (s : State), c.use = ⟨legalSpl o, true, true, [o.a], [], .discard, o.g.toNat, o.e, 4, []⟩ → c.Issues s →
    (c.val 0).Clean 1 → c.st.stack.length < 16 →
    ∃ t, exec (.split o) s = .next t ∧ c.Moved s t c.nextPc fun st =>
      { st with stack := ⟨false, c.st.mask, (c.lane0 0).toNat⟩ :: st.stack, mask := c.st.mask &&& c.st.guardMask o.g.toNat }) ∧
  (∀ (o : E0) (c : Ctx) (s : State) (m : Mask) (r : List DivEntry), c.use = useE0 o → c.Issues s →
    c.st.stack = ⟨false, m, c.st.pc⟩ :: r →
    ∃ t, exec (.join o) s = .next t ∧ c.Moved s t c.nextPc fun st => { st with stack := r, mask := m }) ∧
  (∀ (o : G0) (c : Ctx) (s : State), c.use = useXfer true [] o.g → c.Issues s →
    (o.g = 0 ∨ c.st.mask &&& c.st.guardMask o.g.toNat ≠ 0) →
    ∃ t u v, exec (.exit o) s = .next t ∧ c.Plain s u [] ∧ t = u.updWarp c.key (fun w => w.exitStream c.x c.now) ∧ t.warp? c.key = some v ∧
      (v.strm c.x).gone = true ∧ (v.strm c.x).exitAt = c.now ∧ (∀ y : Strm, y ≠ c.x → v.strm y = c.w.strm y ∧ (∀ q, queueConsumer q = c.x → v.live q = []) ∧
        ∀ q, queueConsumer q = y → queueProducer q = c.x → v.live q = (c.w.live q).filter fun r => r.landed)) ∧
  (∀ (o : E0) (c : Ctx) (s : State), c.use = useE0 o → c.Issues s →
    (∃ t, exec (.nopInstr o) s = .next t ∧ c.Plain s t []) ∧
    (∃ t, exec (.yield o) s = .next t ∧ c.Moved s t c.nextPc fun st => { st with skipTurn := true }))

/-- R337, R177, R189: scratch loads read at issue and land at issue + 12 + (k - 1); U for a U address in all lanes, G
otherwise; a poisoned byte marks its lane (R334). -/
def Obligations.ScratchLoadsComplete : Prop :=
  (∀ (o : Lds) (c : Ctx) (s : State), c.use = ⟨legalLds o, true, true, [o.a], [], o.d, o.g.toNat, o.e, 4, []⟩ → c.Issues s →
    (∀ r ∈ c.vals, r.Clean c.act) → ∀ n, n = [1, 1, 2, 2, 4].getD o.k.toNat 4 → c.ScratchOk s false false n →
    let cells := fun l => wordCells c.w.core n ((c.val 0).lane l)
    ∃ t v, exec (.lds o) s = .next t ∧ c.Gave s t o.d (12 + (c.conflicts (c.val 0) n - 1)) v c.act ∧
      v.v.tag = (if (c.val 0).v.tag = 0 ∧ c.act = Mask.full then 0 else 2) ∧
      (∀ l, l < 32 → c.act.getLsbD l = true →
        v.lane l = (if o.k = 1 ∨ o.k = 3 then (BitVec.ofNat (8 * n) (leNat ((cells l).map s.byteAt))).signExtend 32
                    else BitVec.ofNat 32 (leNat ((cells l).map s.byteAt)))) ∧
      (∀ l m, (l, m) ∈ v.marks ↔ l < 32 ∧ c.act.getLsbD l = true ∧ s.firstMark (cells l) = some m)) ∧
  (∀ (o : T2d) (c : Ctx) (s : State) (d : Fin 112), o.d = .v d → c.use = { useT2d o true with regs := [d.val + 1], spare := [d.val + 1] } → c.Issues s →
    (∀ r ∈ c.vals, r.Clean c.act) → c.ScratchOk s false false 8 →
    let cells := fun l => wordCells c.w.core 8 ((c.val 0).lane l)
    let land := c.now + 12 + (c.conflicts (c.val 0) 8 - 1)
    ∃ t lo hi, exec (.ldsw o) s = .next t ∧
      c.Went s t (latchOf s.fresh land (c.dstTag o.d lo.v.tag c.act)) c.nextPc
        [⟨s.fresh, land, c.x, .vec (.reg d.val) (some lo) c.act⟩, ⟨s.fresh + 1, land, c.x, .vec (.reg (d.val + 1)) (some hi) c.act⟩] [] ∧
      (let tag := if (c.val 0).v.tag = 0 ∧ c.act = Mask.full then 0 else 2
       lo.v.tag = tag ∧ hi.v.tag = tag) ∧
      (∀ l, l < 32 → c.act.getLsbD l = true →
        lo.lane l = BitVec.ofNat 32 (leNat (((cells l).take 4).map s.byteAt)) ∧
        hi.lane l = BitVec.ofNat 32 (leNat (((cells l).drop 4).map s.byteAt))) ∧
      ∀ l m, ((l, m) ∈ lo.marks ↔ l < 32 ∧ c.act.getLsbD l = true ∧ s.firstMark ((cells l).take 4) = some m) ∧
        ((l, m) ∈ hi.marks ↔ l < 32 ∧ c.act.getLsbD l = true ∧ s.firstMark ((cells l).drop 4) = some m))

/-- The cells that a scratch store of `n` bytes a lane writes: active lanes ascending, each at its own address (R336, R338). -/
def Sys2Proof.Machine.Ctx.storeCells (c : Ctx) (n : Nat) (bytes : Nat → List Byte) : List (Nat × Byte × Option MCls) :=
  (Mask.list c.act).flatMap fun l => (wordCells c.w.core n ((c.val 0).lane l)).zip ((bytes l).map fun b => (b, none))

/-- R338, R339, R188, R192: scratch stores and atomics issue their write with WCT issue + 8 and change no byte at issue; an
atomic's old values land at issue + 12 + (k - 1). With no active lane nothing is written: an atomic's zeros land in no lane, and in a queue
entry of tag U. -/
def Obligations.ScratchStoresComplete : Prop :=
  (∀ (o : St) (c : Ctx) (s : State), c.use = ⟨legalSt o, true, true, [o.a, o.b], [], .discard, o.g.toNat, o.e, 4, []⟩ → c.Issues s →
    (c.val 0).Clean c.act → (c.val 1).Clean c.act → c.ScratchOk s true false 4 →
    ∃ t, exec (.sts o) s = .next t ∧
      (c.act = 0 → c.Plain s t []) ∧
      (c.act ≠ 0 → c.Plain (c.withWrite s s.fresh 0 (c.now + 8)
        (c.storeCells 4 fun l => leBytes 4 ((c.val 1).lane l).toNat) [] .none) t [])) ∧
  (∀ (o : St) (c : Ctx) (s : State) (b : Fin 112), o.b = .v b →
    c.use = ⟨legalStsw o, true, true, [o.a, o.b], [b.val, b.val + 1], .discard, o.g.toNat, o.e, 4, []⟩ → c.Issues s →
    (c.val 0).Clean c.act → (c.st.reg b.val).Clean c.act → (c.st.reg (b.val + 1)).Clean c.act → c.ScratchOk s true false 8 →
    ∃ t, exec (.stsw o) s = .next t ∧
      (c.act = 0 → c.Plain s t []) ∧
      (c.act ≠ 0 → c.Plain (c.withWrite s s.fresh 0 (c.now + 8)
        (c.storeCells 8 fun l => leBytes 4 ((c.st.reg b.val).lane l).toNat ++ leBytes 4 ((c.st.reg (b.val + 1)).lane l).toNat)
        [] .none) t [])) ∧
  (∀ (o : TA) (c : Ctx) (s : State),
    c.use = ⟨legalAts o, true, true, [o.a, o.b], if o.fn = 7 then groupRegs o.a 1 else [], o.d, 0, o.e, 4, []⟩ → c.Issues s →
    (∀ r ∈ c.vals, r.Clean c.act) → c.ScratchOk s true true 4 →
    ∀ cmp, cmp = (if o.fn = 7 then (c.group o.a 1).getD 1 RVal.zero else RVal.zero) → cmp.Clean c.act → c.act ≠ 0 →
    let land := c.now + 12 + (c.conflicts (c.val 0) 4 - 1)
    ∃ t, exec (.ats o) s = .next t ∧
      c.Went (c.withWrite s (s.fresh + 1) 0 (c.now + 8) []
          ((Mask.list c.act).map fun l => ⟨l, wordCells c.w.core 4 ((c.val 0).lane l), o.fn.toNat, (c.val 1).lane l, cmp.lane l⟩)
          (.landing c.key s.fresh)) t (latchOf s.fresh land (c.dstTag o.d 2 c.act)) c.nextPc
        [⟨s.fresh, land, c.x, .vec (dstTgt o.d s.fresh) none c.act⟩]
        (match dstQueue o.d with
          | some q => [(q, ⟨s.fresh, c.now, some land, none, 2, false, none⟩)]
          | none => [])) ∧
  (∀ (o : TA) (c : Ctx) (s : State),
    c.use = ⟨legalAts o, true, true, [o.a, o.b], if o.fn = 7 then groupRegs o.a 1 else [], o.d, 0, o.e, 4, []⟩ → c.Issues s → c.act = 0 →
    (∀ l ∈ c.w.landings, l.id ≠ s.fresh) → (∀ q, ∀ r ∈ c.w.queue q, r.rid ≠ s.fresh) →
    ∃ t, exec (.ats o) s = .next t ∧ c.Gave s t o.d (12 + (c.conflicts (c.val 0) 4 - 1)) RVal.zero 0)

/-- The ticks of the HBM slots that the lanes' beats take (R28, R29): the latest, and the state with the slots taken. -/
def Sys2Proof.Machine.Ctx.hbmSlots (c : Ctx) (s : State) (cells : List Nat) : Nat × State :=
  (s.retryFills c.w.core (c.key, c.x)).takeBeats c.w.core (c.now + 48) (beatsOf cells)

/-- R341, R30, R189, R198: an HBM load reserves its entry at issue, reads at issue + 48 and lands at D, at least issue + 640
and 128 after its latest slot. -/
def Obligations.HbmLoadsComplete : Prop :=
  ∀ e ∈ ([(.ldg, false), (.ldgi, true)] : List ((Ldg → Instr) × Bool)), ∀ (o : Ldg) (c : Ctx) (s : State) (pa : Nat → Nat) (q : Fin 8),
    o.d = .q q → c.use = ⟨legalLdg o, true, false, [o.a], groupRegs o.a 1, o.d, o.g.toNat, o.e, 4, []⟩ → c.Issues s →
    (∀ r ∈ c.group o.a 1, r.Clean c.act) → ∀ lo hi n, lo = (c.group o.a 1).getD 0 RVal.zero → hi = (c.group o.a 1).getD 1 RVal.zero →
    n = [4, 2, 2, 1, 1, 2].getD o.s.toNat 2 → c.HbmOk s lo hi n (decide (o.s.toNat ≤ 2)) false pa →
    let sl := c.hbmSlots s ((c.memLanes lo hi).flatMap fun l => paCells n (pa l))
    let d := max (c.now + 640) (sl.1 + 128)
    let full := decide (lo.v.tag = 0) && decide (hi.v.tag = 0) && decide (c.act = Mask.full)
    let rd : PRead := ⟨c.now + 48, c.key, s.fresh, n, decide (o.s = 4) || decide (o.s = 5),
      (c.memLanes lo hi).map fun l => (l, paCells n (pa l)),
      ((Mask.list c.act).filter fun l => isAperture (pairVa lo hi l)).map fun l => (l, apertureWord o.s.toNat (pairVa lo hi l) c.st),
      full, e.2, c.g.firstIssue.getD c.now⟩
    ∃ t, exec (e.1 o) s = .next t ∧
      c.Went { sl.2.addOutstanding c.w.core d with reads := sl.2.reads ++ [rd] } t (latchOf s.fresh d (c.dstTag o.d (if full then 0 else 2) c.act)) c.nextPc
        [⟨s.fresh, d, c.x, .vec (.queue q.val s.fresh) none c.act⟩]
        [(q.val, ⟨s.fresh, c.now, some d, none, if full = true ∨ c.act = 0 then 0 else 2, false, none⟩)]

/-- R342, R343, R30, R193: an HBM store's bytes, and an atomic's words, have their WCT at issue + 680 or 168 after the latest
slot; the device mark rises to it; an atomic's old values land 48 t after it. No byte changes at issue. With no active lane nothing is written
and an atomic's queue entry is a zero. That an atg which discards enters a void latch entry is log entry 20 (DEDUCED). -/
def Obligations.HbmStoresComplete : Prop :=
  (∀ (o : St) (c : Ctx) (s : State) (pa : Nat → Nat),
    c.use = ⟨legalStg o, true, false, [o.a, o.b], groupRegs o.a 1, .discard, o.g.toNat, o.e, 4, []⟩ → c.Issues s →
    (∀ r ∈ c.group o.a 1 ++ [c.val 1], r.Clean c.act) → ∀ lo hi, lo = (c.group o.a 1).getD 0 RVal.zero → hi = (c.group o.a 1).getD 1 RVal.zero →
    c.HbmOk s lo hi 4 false true pa → c.act ≠ 0 →
    let sl := c.hbmSlots s ((Mask.list c.act).map pa)
    let wct := max (c.now + 680) (sl.1 + 168)
    ∃ t, exec (.stg o) s = .next t ∧
      c.Plain ((c.withWrite sl.2 s.fresh 2 wct ((Mask.list c.act).flatMap fun l =>
        (paCells 4 (pa l)).zip ((leBytes 4 ((c.val 1).lane l).toNat).map fun b => (b, none))) [] .none).addOutstanding c.w.core wct) t []) ∧
  (∀ (o : TA) (c : Ctx) (s : State) (pa : Nat → Nat),
    c.use = ⟨legalAtg o, true, false, [o.a, o.b], groupRegs o.a (if o.fn = 7 then 2 else 1), o.d, 0, o.e, 4, []⟩ → c.Issues s →
    ∀ r, r = c.group o.a (if o.fn = 7 then 2 else 1) → (∀ x ∈ r ++ [c.val 1], x.Clean c.act) →
    c.HbmOk s (r.getD 0 RVal.zero) (r.getD 1 RVal.zero) 4 false true pa → c.act ≠ 0 →
    let sl := c.hbmSlots s ((Mask.list c.act).map pa)
    let wct := max (c.now + 680) (sl.1 + 168)
    let atoms := (Mask.list c.act).map fun l => (⟨l, paCells 4 (pa l), o.fn.toNat, (c.val 1).lane l, (r.getD 2 RVal.zero).lane l⟩ : Atom)
    ∃ t, exec (.atg o) s = .next t ∧
      (o.d = .discard → c.Plain ((c.withWrite sl.2 s.fresh 2 wct [] atoms .none).addOutstanding c.w.core wct) t []) ∧
      (∀ q : Fin 8, o.d = .q q →
        c.Went ((c.withWrite sl.2 (s.fresh + 1) 2 wct [] atoms (.landing c.key s.fresh)).addOutstanding c.w.core wct) t
          (latchOf s.fresh (wct + 48) (c.dstTag o.d 2 c.act)) c.nextPc [⟨s.fresh, wct + 48, c.x, .vec (.queue q.val s.fresh) none c.act⟩]
          [(q.val, ⟨s.fresh, c.now, some (wct + 48), none, 2, false, none⟩)])) ∧
  (∀ (o : St) (c : Ctx) (s : State), c.use = ⟨legalStg o, true, false, [o.a, o.b], groupRegs o.a 1, .discard, o.g.toNat, o.e, 4, []⟩ →
    c.Issues s → (s.hbmOutstanding c.w.core).length < 1024 → c.act = 0 →
    ∃ t, exec (.stg o) s = .next t ∧ c.Plain ((s.retryFills c.w.core (c.key, c.x)).addOutstanding c.w.core (c.now + 680)) t []) ∧
  (∀ (o : TA) (c : Ctx) (s : State),
    c.use = ⟨legalAtg o, true, false, [o.a, o.b], groupRegs o.a (if o.fn = 7 then 2 else 1), o.d, 0, o.e, 4, []⟩ → c.Issues s →
    (s.hbmOutstanding c.w.core).length < 1024 → c.act = 0 →
    (∀ l ∈ c.w.landings, l.id ≠ s.fresh) → (∀ q, ∀ r ∈ c.w.queue q, r.rid ≠ s.fresh) →
    let u := (s.retryFills c.w.core (c.key, c.x)).addOutstanding c.w.core (c.now + 680)
    ∃ t, exec (.atg o) s = .next t ∧ (o.d = .discard → c.Plain u t []) ∧ (∀ q : Fin 8, o.d = .q q → c.Gave u t o.d 728 RVal.zero 0))

/-- A message copy of R180: its completion tick, who sends it and to which core, and its words. -/
def Sys2Proof.Machine.Ctx.copyOf (c : Ctx) (s : State) (id lcore : Nat) : MailMsg :=
  ⟨id, c.now + 24 + 2 * hops (s.tenant c.w.part).shape (s.logical c.w) lcore, s.wid c.w, strmIdx c.x, c.w.grid, (s.tenant c.w.part).slotBase + lcore,
    laneList.map (c.val 0).lane, []⟩

/-- The mark that a copy raises (R193): the task's on the warp's own core, the device's on another. -/
def Sys2Proof.Machine.Ctx.copyMark (c : Ctx) (s : State) (lcore : Nat) (w : Warp) : Warp :=
  w.raiseNew c.now (if lcore = s.logical c.w then 1 else 2) (c.copyOf s 0 lcore).wct

/-- R344 to R346, R180, R193: qstat reads the queue as it stands at the start of the tick; send puts one copy on its way, or
none when the target lies outside the shape; sendm one to each core of its partition that holds a member warp of the set, in ascending order,
each with the message's words and its own completion tick. What stands at the start of a tick is log entry 17 (DEDUCED). -/
def Obligations.QueueStatusAndMessages : Prop :=
  (∀ (o : QS) (c : Ctx) (s : State), c.use = ⟨legalQS o, true, true, [], [], o.d, 0, o.e, 4, []⟩ → c.Issues s →
    ∃ t v, exec (.qstat o) s = .next t ∧ c.Gave s t o.d 1 ⟨.u v, []⟩ c.act ∧
      ((c.w.startQueue o.n.toNat c.now).length < 16 →
        field v.toNat 16 4 = (if o.n.toNat < 6 then 8 else 4) ∧
        field v.toNat 12 4 = (c.w.startQueue o.n.toNat c.now).length ∧
        field v.toNat 8 4 = ((c.w.startQueue o.n.toNat c.now).takeWhile fun r => r.landed).length ∧
        (v.getLsbD 0 = true ↔ (c.w.strm (queueProducer o.n.toNat)).gone = true ∧ (c.w.strm (queueProducer o.n.toNat)).exitAt < c.now) ∧
        field v.toNat 20 12 = 0 ∧ field v.toNat 1 7 = 0)) ∧
  (∀ (o : Snd) (c : Ctx) (s : State), c.use = ⟨legalSnd o, true, true, [o.a, o.b], [], .discard, 0, o.e, 4, []⟩ → c.Issues s →
    (c.val 0).marks = [] → (c.val 1).Clean 1 →
    let tgt := (c.lane0 1).toNat
    ∃ t, exec (.send o) s = .next t ∧
      (shapeCores (s.tenant c.w.part).shape ≤ tgt → c.Plain s t []) ∧
      (tgt < shapeCores (s.tenant c.w.part).shape → c.Plain { s with
        mails := s.mails ++ [c.copyOf s s.fresh tgt],
        warps := s.warps.modify c.key (c.copyMark s tgt),
        fresh := s.fresh + 1 } t [])) ∧
  (∀ (o : Sndm) (c : Ctx) (s : State), c.use = ⟨legalSndm o, true, true, [o.a], [], .discard, 0, o.e, 4, []⟩ → c.Issues s →
    (c.val 0).marks = [] → c.w.setOf o.n.toNat ≠ 255 →
    ∃ t u, ∃ cores : List Nat, exec (.sendm o) s = .next t ∧ c.Plain u t [] ∧ cores.Nodup ∧
      (∀ k, k ∈ cores ↔ c.g.hdr.cbase ≤ k ∧ k < c.g.hdr.cbase + c.g.hdr.ncore ∧ ∃ i w, i < c.g.hdr.tpc ∧ w < c.g.hdr.wpt ∧
        (readSet (s.setBytes c.w.grid c.g c.w.core) (c.w.setOf o.n.toNat)).has k i w = true) ∧
      u = { s with mails := s.mails ++ cores.zipIdx.map (fun e => c.copyOf s (s.fresh + e.2) e.1), warps := u.warps, fresh := s.fresh + cores.length } ∧
      u.warp? c.key = some (cores.foldl (fun w k => c.copyMark s k w) c.w) ∧ ∀ k, k ≠ c.key → u.warp? k = s.warp? k)

/-- R347, R348, R321: a stream's arrival k goes to phase k - 1 of its set; bar arrives and parks until its phase releases,
and issues when it is presented again; arrive issues at once; waitb issues at once when its phase has released or the
stream has made no arrival, and parks otherwise. -/
def Obligations.BarriersComplete : Prop :=
  ∀ (o : N2) (c : Ctx) (s : State), c.use = useN2 o → c.Issues s → ∀ set, set = c.w.setOf o.n.toNat → set ≠ 255 →
    ∀ p, p = c.g.arrivals.get 0 (arrivalKey (s.wid c.w) c.x set) →
    ((p < 2 ∨ c.g.releasedBy set c.x (p - 2) c.now = true) →
      (∃ t, exec (.arrive o) s = .next t ∧
        c.Plain ((s.updStream c.key c.x fun st => { st with arrived := st.arrived.put set true }).arriveSet c.w.grid c.g c.w c.x set) t []) ∧
      (c.st.granted = false → exec (.bar o) s = .next
        ((((s.updStream c.key c.x fun st => { st with arrived := st.arrived.put set true }).arriveSet c.w.grid c.g c.w c.x set).grant
          c.key c.x).parkStream c.key c.x (.barrier set p)))) ∧
    (c.st.granted = true → ∃ t, exec (.bar o) s = .next t ∧ c.Plain s t []) ∧
    (c.st.granted = true ∨ p = 0 ∨ c.g.releasedBy set c.x (p - 1) c.now = true → ∃ t, exec (.waitb o) s = .next t ∧ c.Plain s t []) ∧
    (c.st.granted = false → p ≠ 0 → c.g.releasedBy set c.x (p - 1) c.now = false →
      exec (.waitb o) s = .next ((s.grant c.key c.x).parkStream c.key c.x (.barrier set (p - 1))))

/-- R349, R350, R321, R72: a wait issues at once when its counter has reached its target or its tick has come, and parks on
its cause otherwise; waitt within 8 t of its tick waits in its run. A waitt late beyond DS ends its grid with code 23, or in a POD grid issues and
raises the schedule fault LATE. -/
def WaitsComplete : Prop :=
  (∀ (o : A1) (c : Ctx) (s : State) (w tgt a : Nat), c.use = useA1 o 2 (legalGroup o) → c.Issues s →
    (∀ r ∈ c.group o.a 2, r.Clean 1) → w = c.word o.a 2 0 → w % 8 = 0 →
    laneOk c.g (s.logical c.w) false false 8 (BitVec.ofNat 32 w) = true → tgt = c.word o.a 2 1 + c.word o.a 2 2 * 2 ^ 32 →
    a = (wordCells c.w.core 8 (BitVec.ofNat 32 w)).headD 0 → s.firstMark ((List.range 8).map (a + ·)) = none →
    (tgt ≤ s.natAt a 8 → ∃ t, exec (.waitc o) s = .next t ∧ c.Plain s t []) ∧
    (s.natAt a 8 < tgt → c.st.granted = false →
      exec (.waitc o) s = .next ((s.grant c.key c.x).parkStream c.key c.x (.counter false a tgt)))) ∧
  (∀ (o : A1) (c : Ctx) (s : State) (va tgt a : Nat) (p : Page), c.use = { useA1 o 3 (legalGroup o) with inExe := false } → c.Issues s →
    (∀ r ∈ c.group o.a 3, r.Clean 1) → c.word o.a 3 1 < 2 ^ 20 → va = c.word o.a 3 0 + c.word o.a 3 1 * 2 ^ 32 → va % 8 = 0 →
    c.g.window c.w.core va = some p → p.translate va = some a → tgt = c.word o.a 3 2 + c.word o.a 3 3 * 2 ^ 32 →
    s.firstMark ((List.range 8).map (a + ·)) = none →
    (tgt ≤ s.natAt a 8 → ∃ t, exec (.waitcHbm o) s = .next t ∧ c.Plain s t []) ∧
    (s.natAt a 8 < tgt → c.st.granted = false →
      exec (.waitcHbm o) s = .next ((s.grant c.key c.x).parkStream c.key c.x (.counter true a tgt)))) ∧
  (∀ (o : A1) (c : Ctx) (s : State) (tgt : Nat), c.use = useA1 o 1 (legalGroup o) → c.Issues s → (∀ r ∈ c.group o.a 1, r.Clean 1) →
    tgt = c.word o.a 1 0 + c.word o.a 1 1 * 2 ^ 32 → c.st.granted = false →
    (tgt ≤ c.now → c.now - tgt ≤ c.g.hdr.ds → ∃ t, exec (.waitt o) s = .next t ∧ c.Plain s t []) ∧
    (c.now < tgt → tgt ≤ c.now + 8 → ∃ t, exec (.waitt o) s = .next t ∧ (t.fe c.feKey).waitUntil = tgt ∧ t.mem = s.mem) ∧
    (c.now + 8 < tgt → ∃ t w, exec (.waitt o) s = .next t ∧ t.warp? c.key = some w ∧ (w.strm c.x).phase = .parked (.until tgt) ∧ t.mem = s.mem) ∧
    (c.g.hdr.pod = false → tgt ≤ c.now → c.g.hdr.ds < c.now - tgt → exec (.waitt o) s = .next (s.stopGrid c.w.grid 23)) ∧
    (c.g.hdr.pod = true → tgt ≤ c.now → c.g.hdr.ds < c.now - tgt →
      ∃ t u, exec (.waitt o) s = .next t ∧ c.Plain s u [] ∧ t = u.schedFault 4))

/-- R194, R351, R352, R196: a fence whose covered writes are complete issues; one whose H is known parks or waits to H; a
covered fabric failure is its fabric-fault trap; qfence joins its queues. -/
def FencesComplete : Prop :=
  (∀ (o : N2) (c : Ctx) (s : State) (h : Nat), c.use = { useN2 o with inExe := false } → c.Issues s → c.st.granted = false →
    s.fenceH c.key c.now o.n.toNat (c.w.markBefore o.n.toNat c.now) = some h →
    (h ≤ c.now → (∀ f ∈ c.w.failed, c.now < f) → (∀ f ∈ c.w.faulted, c.now < f.1) → ∃ t, exec (.fence o) s = .next t ∧ c.Plain s t []) ∧
    (h ≤ c.now → (∃ f ∈ c.w.failed, f ≤ c.now) → exec (.fence o) s = .next
      ((s.updWarp c.key fun w => { w with failed := w.failed.filter fun f => decide (c.now < f) }).takeTrap c.key c.x ⟨11, 0, 0⟩)) ∧
    (c.now < h → h ≤ c.now + 8 → ∃ t, exec (.fence o) s = .next t ∧ (t.fe c.feKey).waitUntil = h ∧ t.mem = s.mem) ∧
    (c.now + 8 < h → ∃ t w, exec (.fence o) s = .next t ∧ t.warp? c.key = some w ∧ (w.strm c.x).phase = .parked (.until h) ∧ t.mem = s.mem)) ∧
  (∀ (o : A1) (c : Ctx) (s : State), c.use = useA1 o 0 (legalA1 o) → c.Issues s → (c.val 0).Clean 1 →
    let m := (c.lane0 0).toNat % 2 ^ 16
    ∃ t, exec (.qfence o) s = .next t ∧ (m = 0 → c.Plain s t []) ∧
      (m ≠ 0 → c.Plain { s with joins := s.joins ++ [⟨c.w.core, c.w.grid, c.w.pos, c.w.start, s.fresh, m⟩], fresh := s.fresh + 1 } t []))

/-- R194, R196, R347 to R352: waits and fences. -/
def Obligations.WaitsAndFencesComplete : Prop := WaitsComplete ∧ FencesComplete

/-- The quarters that a matrix instruction performs, each with its 64 elements (R357, R359, R247 to R249). -/
def Sys2Proof.Machine.Ctx.mmResults (c : Ctx) (s : State) (o : TM) (sparse : Bool) : List (MmQ × List FRes) :=
  let fa := c.w.fmt (2 * o.k.toNat)
  let fb := c.w.fmt (2 * o.k.toNat + 1)
  ((quarters c.act).filterMap (c.mmQuarter o sparse fa fb)).map fun m =>
    (m, s.mmTile c.w m sparse (o.mode.getLsbD 1) (o.mode.getLsbD 0) fa fb o.n.toNat (if sparse then c.metaRows o m.q else []))

/-- R354, R355, R357, R359, R168: mmq and mmqs, their checks passed, give each performing quarter's tile its 64 elements,
leave every other element, raise the flags of all of them, and occupy the matrix unit for 4 t with a 16-bit class, else 2 t. -/
def MatrixMultiplies : Prop :=
  ∀ e ∈ ([(.mmq, false), (.mmqs, true)] : List ((TM → Instr) × Bool)), ∀ (o : TM) (c : Ctx) (s : State),
    c.use = useTM o e.2 → c.Issues s → c.MatrixFree s →
    c.mmChecks s o e.2 (c.w.fmt (2 * o.k.toNat)) (c.w.fmt (2 * o.k.toNat + 1)) = none →
    ∀ fl : BitVec 6, (∀ k, fl.getLsbD k = true ↔ ∃ r ∈ c.mmResults s o e.2, ∃ x ∈ r.2, x.fl.getLsbD k = true) → c.Quiet fl →
    ∃ t accs, exec (e.1 o) s = .next t ∧
      c.Plain (c.withBusy (c.withAccs s accs) (if ∃ r ∈ c.mmResults s o e.2, r.1.cls = .half then 4 else 2)) t
        (if fl = 0 then [] else [⟨s.fresh, c.now + 4, c.x, .flags fl⟩]) ∧
      (∀ r ∈ c.mmResults s o e.2, ∀ k, k < 64 →
        accs.get 0 ((o.n.toNat * 4 + r.1.q) * 64 + k) = BitVec.ofNat 32 (r.2.getD k ⟨0, 0⟩).bits) ∧
      (∀ n q k, q < 4 → k < 64 → (n ≠ o.n.toNat ∨ ∀ r ∈ c.mmResults s o e.2, r.1.q ≠ q) →
        accs.get 0 ((n * 4 + q) * 64 + k) = c.w.accs.get 0 ((n * 4 + q) * 64 + k))

/-- R253: the arithmetic trap of mmq and mmqs. -/
def MatrixTrapTaken : Prop :=
  ∀ e ∈ ([(.mmq, false), (.mmqs, true)] : List ((TM → Instr) × Bool)), ∀ (o : TM) (c : Ctx) (s : State),
    c.use = useTM o e.2 → c.Issues s → c.MatrixFree s →
    c.mmChecks s o e.2 (c.w.fmt (2 * o.k.toNat)) (c.w.fmt (2 * o.k.toNat + 1)) = none →
    ∀ fl : BitVec 6, (∀ k, fl.getLsbD k = true ↔ ∃ r ∈ c.mmResults s o e.2, ∃ x ∈ r.2, x.fl.getLsbD k = true) → ¬ c.Quiet fl →
    exec (e.1 o) s = .next ((s.land c.key c.x (c.now + 4) (.flags fl)).takeTrap c.key c.x ⟨9, fl.toNat, 0⟩)

/-- R168, R247 to R249, R253, R354, R355, R357, R359: mmq and mmqs complete, or take the arithmetic trap for a raised and enabled flag; what an
element is by the rules of rounding is said at `RoundedOnce`. -/
def Obligations.MatrixMultiplyComplete : Prop := MatrixMultiplies ∧ MatrixTrapTaken

/-- R361 to R363, R237, R168: accz and accwr change exactly the elements that R362 names, accrd lands eight registers at
issue + 10, cmpr a pair at issue + 4, and fmtw its format register at issue + 1 for a word that R237 allows. -/
def Obligations.AccumulatorAccessComplete : Prop :=
  (∀ (o : N3) (c : Ctx) (s : State), c.use = ⟨true, false, true, [], [], .discard, 0, o.e, 4, []⟩ → c.Issues s → c.MatrixFree s →
    ∃ t accs, exec (.accz o) s = .next t ∧ c.Plain (c.withBusy (c.withAccs s accs) 2) t [] ∧
      ∀ n q i j, q < 4 → i < 8 → j < 8 → accs.get 0 (accKey n q i j) =
        if n = o.n.toNat ∧ quarterIn c.st.mask q = true then 0 else c.w.acc! n q i j) ∧
  (∀ (o : NA) (c : Ctx) (s : State), c.use = ⟨legalAccwr o, false, true, [o.a], groupRegs o.a 7, .discard, 0, o.e, 4, []⟩ → c.Issues s →
    c.MatrixFree s → (∀ r ∈ c.group o.a 7, r.Clean c.act) →
    ∃ t accs, exec (.accwr o) s = .next t ∧ c.Plain (c.withBusy (c.withAccs s accs) 2) t [] ∧
      ∀ n q i j, q < 4 → i < 8 → j < 8 → accs.get 0 (accKey n q i j) =
        if n = o.n.toNat ∧ c.st.mask.getLsbD (8 * q + j) = true then ((c.group o.a 7).getD i RVal.zero).lane (8 * q + j)
        else c.w.acc! n q i j) ∧
  (∀ (o : Accrd) (c : Ctx) (s : State) (d : Fin 112), o.d = .v d →
    c.use = ⟨legalAccrd o, false, true, [], dstGroup o.d 8, o.d, o.g.toNat, o.e, 4, dstGroup o.d 8⟩ → c.Issues s → c.MatrixFree s →
    ∃ t, exec (.accrd o) s = .next t ∧
      c.Went (c.withBusy s 2) t (latchOf s.fresh (c.now + 10) (c.dstTag o.d 2 c.act)) c.nextPc
        ((List.range 8).map fun r => ⟨s.fresh + r, c.now + 10, c.x, .vec (.reg (d.val + r))
          (some ⟨.g ((List.range 32).map fun l => c.w.acc! o.n.toNat (l / 8) r (l % 8)), []⟩) c.act⟩) []) ∧
  (∀ (o : T2d) (c : Ctx) (s : State) (d : Fin 112), o.d = .v d → c.use = { useT2d o false with regs := [d.val + 1], spare := [d.val + 1] } → c.Issues s →
    (∀ e ∈ (c.val 0).marks, e.1 < 32 ∧ c.act.getLsbD (2 * (e.1 / 2)) = false ∧ c.act.getLsbD (2 * (e.1 / 2) + 1) = false) →
    ∃ t p m, exec (.cmpr o) s = .next t ∧
      c.Went s t (latchOf s.fresh (c.now + 4) (c.dstTag o.d 2 c.act)) c.nextPc
        [⟨s.fresh, c.now + 4, c.x, .vec (.reg d.val) (some p) c.act⟩, ⟨s.fresh + 1, c.now + 4, c.x, .vec (.reg (d.val + 1)) (some m) c.act⟩] [] ∧
      p.v.tag = 2 ∧ m.v.tag = 2 ∧ p.marks = [] ∧ m.marks = [] ∧
      ∀ l, l < 32 →
        let es := (List.range 8).map fun k => ((((c.val 0).lane (l / 2 * 2 + k / 4)) >>> (8 * (k % 4))).setWidth 8).toInt
        let keep := cmprKeep es
        (∀ j, j < 4 → field (p.lane l).toNat (8 * j) 8 = (BitVec.ofInt 8 (es.getD (keep.getD j 0) 0)).toNat) ∧
        (m.lane l).toNat = keep.getD 0 0 + 8 * keep.getD 1 0 + 64 * keep.getD 2 0 + 512 * keep.getD 3 0) ∧
  (∀ (o : NA) (c : Ctx) (s : State), c.use = ⟨legalNA o, false, true, [o.a], [], .discard, 0, o.e, 4, []⟩ → c.Issues s →
    (c.val 0).Clean 1 →
    (Narrow.validWord (c.lane0 0).toNat = true →
      ∃ t, exec (.fmtw o) s = .next t ∧ c.Plain s t [⟨s.fresh, c.now + 1, c.x, .fmt o.n.toNat (c.lane0 0)⟩]) ∧
    (Narrow.validWord (c.lane0 0).toNat = false → exec (.fmtw o) s = .next (s.takeTrap c.key c.x ⟨8, 0, 0⟩)))

/-- sr.cwpn (R217): 0 before the queue's first command of the instance, else the fields of the queue's latest started command: of a copy or gather
BYTES is 64 for every beat written by now, capped at the size, of a coll 4,096 for every bundle, of the others a number from done on. -/
def CommandWord (c : Ctx) (s : State) (q : Nat) (v : Word) : Prop :=
  let mine (e : EngCmd) : Prop := (∃ k, (k, e) ∈ s.cmdsE) ∧ e.core = c.w.core ∧ e.queue = q ∧ ∃ u, e.s = some u ∧ u ≤ s.gtc
  let ofInst (e : EngCmd) : Prop := e.grid = c.w.grid ∧ e.pos = c.w.pos ∧ e.inst = c.w.start
  ((∀ e, mine e → ¬ ofInst e) → v = 0) ∧
  ∀ e, mine e → (∃ d, mine d ∧ ofInst d) → (∀ d, mine d → d ≠ e → d.ord < e.ord) →
    let ended := ∃ u, e.done = some u ∧ u ≤ s.gtc
    let beats := (e.dst.filter fun b => match b.w with
      | some w => decide (w ≤ s.gtc)
      | none => false).length
    (v.getLsbD 31 = true ↔ e.clip = true) ∧ (v.getLsbD 30 = true ↔ e.fault.isSome = true ∧ ended) ∧ field v.toNat 24 6 = 0 ∧
    (e.fn ≤ 3 → field v.toNat 0 24 = min (64 * beats) e.size % 2 ^ 24) ∧ (e.fn = 9 → field v.toNat 0 24 = 4096 * beats % 2 ^ 24) ∧
    (4 ≤ e.fn → e.fn ≤ 8 → ¬ ended → field v.toNat 0 24 = 0) ∧ (e.fn = 4 → ended → field v.toNat 0 24 = 4 * e.tpl.e 1 % 2 ^ 24) ∧
    (5 ≤ e.fn → e.fn ≤ 8 → ended → field v.toNat 0 24 = e.tpl.e 0 % 2 ^ 24) ∧ (10 ≤ e.fn → field v.toNat 0 24 = 0)

/-- R170, R217, R372, R373, R374: rdsr reads each special register, wrsr puts its write in flight for issue + 1, and ctag reports a
register, latch or queue. That a void latch entry reads READY 1 is log entry 27 (DEDUCED). -/
def Obligations.SpecialRegistersComplete : Prop :=
  (∀ (o : Rdsr) (c : Ctx) (s : State), c.use = ⟨legalRdsr o, true, true, [], [], o.d, 0, o.e, 4, []⟩ → c.Issues s →
    ∃ t v, exec (.rdsr o) s = .next t ∧ c.Gave s t o.d 1 ⟨v, []⟩ c.act ∧ (v.tag = if o.s = 2 then 1 else 0) ∧
      (∀ e ∈ ([(0, BitVec.ofNat 32 c.now), (1, BitVec.ofNat 32 (c.now / 2 ^ 32)), (3, BitVec.ofNat 32 c.w.w), (4, BitVec.ofNat 32 c.w.pos),
          (5, BitVec.ofNat 32 (s.logical c.w)), (7, 32), (8, BitVec.ofNat 32 c.w.mPod), (9, BitVec.ofNat 32 (c.w.mPod / 2 ^ 32)),
          (11, c.st.nseedLo), (12, c.st.nseedHi), (13, c.st.nstep), (14, c.w.fflags), (15, c.w.fcnt), (16, c.st.trapcause),
          (17, c.st.trappc), (18, c.st.trapaddrLo), (19, c.st.trapaddrHi),
          (10, BitVec.ofNat 32 (min 0xFFFFFFFF (s.slips.get 0 (c.key / 32 * 4 + c.key % 4) - c.w.slipBase))),
          (21, BitVec.ofNat 32 (s.mbox.get 0 (c.w.core * 2 + (c.g.bankOn (s.logical c.w)).getD 0)))] : List (Nat × Word)),
        o.s.toNat = e.1 → v = .u e.2) ∧
      (o.s.toNat = 2 → v = .a 0 1) ∧
      (o.s.toNat = 6 → (s.tenant c.w.part).shape < 5 → ∃ x, v = .u x ∧ field x.toNat 24 8 = 1 ∧ field x.toNat 16 8 = (s.tenant c.w.part).shape ∧
        field x.toNat 8 8 = shapeX (s.tenant c.w.part).shape ∧ field x.toNat 0 8 = shapeY (s.tenant c.w.part).shape) ∧
      (o.s.toNat = 20 → c.w.setslots.length = 4 → ∃ x, v = .u x ∧ ∀ k, k < 4 → field x.toNat (8 * k) 8 = c.w.setslots.getD k 0 % 256) ∧
      (∀ q, q < 16 → o.s.toNat = 32 + q → ∃ x, v = .u x ∧ CommandWord c s q x)) ∧
  (∀ (o : Wrsr) (c : Ctx) (s : State), c.use = ⟨legalWrsr o, true, true, [o.a], [], .discard, 0, o.e, 4, []⟩ → c.Issues s →
    (c.val 0).Clean 1 →
    ∃ t, exec (.wrsr o) s = .next t ∧ c.Plain s t [⟨s.fresh, c.now + 1, c.x, .sr o.s.toNat (c.lane0 0)⟩]) ∧
  (∀ (o : Ctag) (c : Ctx) (s : State), c.use = ⟨legalCtag o, true, true, [], srcRegs [o.a], o.d, 0, o.e, 4, srcRegs [o.a]⟩ → c.Issues s →
    ∃ t v, exec (.ctag o) s = .next t ∧ c.Gave s t o.d 1 ⟨.u v, []⟩ c.act ∧
      (∀ n, o.a = .v n → v.toNat = 128 + (if (c.st.reg n.val).marks = [] then 0 else 16) + (c.st.reg n.val).v.tag) ∧
      (∀ n, o.a = .q n → c.w.startQueue n.val c.now = [] → v = 35) ∧
      (∀ n l, o.a = .b n → c.st.latches[n.val]? = some l → (l.kind = .empty → v = 35) ∧ (l.kind = .void → v = 195) ∧
        (l.kind = .val → c.now < l.ready → v.toNat = l.v.v.tag) ∧
        (l.kind = .val → l.ready ≤ c.now → v.toNat = 128 + (if l.v.marks = [] then 0 else 16) + l.v.v.tag)) ∧
      (∀ n r rest, o.a = .q n → c.w.startQueue n.val c.now = r :: rest →
        let x := r.val.getD RVal.zero
        (r.landed = true → v.toNat = 128 + (if x.marks = [] then 0 else 16) + x.v.tag) ∧ (r.landed = false → r.tag ≤ 3 → v.toNat = r.tag)))

/-- The saves through a pointer register d: bytes of the record and its words (R375, R377 to R379). -/
def pointerSaves : List ((D1 → Instr) × Nat × (Ctx → State → List Word)) :=
  [(.psave, 196, fun c _ => (List.range 48).map c.st.pred ++
      [BitVec.ofNat 32 (leNat ((List.range 3).map fun k => BitVec.ofNat 8 (guardByte (c.st.guards.find? (k + 1)))))]),
   (.dsave, 140, fun c _ => c.st.mask :: BitVec.ofNat 32 (c.st.stack.length + 2 ^ 8 * c.st.savedDepth) :: c.st.savedMask :: stackWords c.st.stack),
   (.bsave, 16, fun c s => (List.range 4).map fun k => BitVec.ofNat 32 (c.slotArrivals s k))]

/-- R375 to R381: a save whose pointer is good puts its record in flight with WCT issue + 8 (asave: + 12), raises the warp
mark, and advances the pointer by the record's bytes. -/
def Obligations.SavesComplete : Prop :=
  (∀ e ∈ pointerSaves, ∀ (o : D1) (c : Ctx) (s : State), c.use = useD1 o → c.Issues s → c.RecordOk s (c.dval o.d) e.2.1 true →
    (e.2.2 c s).length * 4 = e.2.1 ∧
    ∃ t, exec (e.1 o) s = .next t ∧ c.GavePointer (c.withRecord s ((c.dval o.d).lane 0) 8 (e.2.2 c s)) t o.d e.2.1) ∧
  (∀ (o : D1) (c : Ctx) (s : State), c.use = useD1 o → c.Issues s → c.RecordOk s (c.dval o.d) (136 * c.st.shadow.length) true →
    (∀ l ∈ c.st.shadow, l.kind = .val → l.ready ≤ c.now) →
    ∃ t, exec (.lsave o) s = .next t ∧
      c.GavePointer (c.withRecord s ((c.dval o.d).lane 0) 8 (c.st.shadow.flatMap latchWords)) t o.d (136 * c.st.shadow.length)) ∧
  (∀ (o : SF) (c : Ctx) (s : State), c.use = ⟨legalSpill o, true, true, [o.a], (dstReg o.d).toList, o.d, 0, o.e, 4, srcRegs [o.a]⟩ → c.Issues s →
    let r := c.val 0
    let ws := BitVec.ofNat 32 (r.v.tag * 2 ^ 30 + r.markWords.2 * 2 ^ 28) :: r.markWords.1 :: r.v.words
    c.RecordOk s (c.dval o.d) (4 * ws.length) true →
    ∃ t, exec (.spill o) s = .next t ∧ c.GavePointer (c.withRecord s ((c.dval o.d).lane 0) 8 ws) t o.d (4 * ws.length) ∧
      4 * ws.length = (if r.v.tag = 0 then 12 else if r.v.tag = 1 then 16 else 136)) ∧
  (∀ (o : ND) (c : Ctx) (s : State), c.use = ⟨legalND o, false, true, [], (dstReg o.d).toList, o.d, 0, o.e, 4, []⟩ → c.Issues s → c.MatrixFree s →
    c.RecordOk s (c.dval o.d) 1024 true →
    ∃ t, exec (.asave o) s = .next t ∧
      c.GavePointer (c.withRecord (c.withBusy s 2) ((c.dval o.d).lane 0) 12
        ((List.range 256).map fun k => c.w.accs.get 0 (o.n.toNat * 256 + k))) t o.d 1024)

/-- R375 to R381: a restore whose record is readable, unpoisoned and well formed gives the state what the record holds. That brest marks a slot
as arrived on is log entry 27 (DEDUCED); each count that is not zero records its own arrivals, one slot after the other. -/
def Obligations.RestoresComplete : Prop :=
  (∀ (o : SF) (c : Ctx) (s : State) (a : Nat × Nat) (ws : List Nat) (n tag : Nat),
    c.use = ⟨legalFill o, true, true, [o.a], [], o.d, 0, o.e, 4, []⟩ → c.Issues s → addrWord (c.lane0 0) = some a →
    tag = field (ws.getD 0 0) 30 2 → tag ≠ 3 → n = spillBytes tag → c.RecordOk s (c.val 0) n false → c.RecordIs s (c.lane0 0) n ws →
    field (ws.getD 0 0) 0 28 = 0 →
    ∃ t v, exec (.fill o) s = .next t ∧ c.Gave s t o.d (12 + (conflictK (recordBanks n a) - 1)) v Mask.full ∧ v.v.tag = tag ∧
      (∀ l, l < 32 → v.lane l = if tag = 0 then BitVec.ofNat 32 (ws.getD 2 0)
        else if tag = 1 then BitVec.ofNat 32 (ws.getD 2 0) + BitVec.ofNat 32 l * BitVec.ofNat 32 (ws.getD 3 0)
        else BitVec.ofNat 32 (ws.getD (2 + l) 0)) ∧
      ∀ l m, (l, m) ∈ v.marks ↔ l < 32 ∧ (ws.getD 1 0).testBit l = true ∧ m.save = field (ws.getD 0 0) 28 2) ∧
  (∀ (o : D1) (c : Ctx) (s : State) (ws : List Nat), c.use = useD1 o → c.Issues s → c.RecordOk s (c.dval o.d) 196 false →
    c.RecordIs s ((c.dval o.d).lane 0) 196 ws → ws.getD 48 0 < 2 ^ 24 →
    (∀ k, k < 3 → (ws.getD 48 0).testBit (8 * k + 7) = true → field (ws.getD 48 0) (8 * k) 6 ≤ 47) →
    ∃ t, exec (.prest o) s = .next t ∧
      c.Went s t (latchOf (s.fresh + 51) (c.now + 1) (c.dstTag o.d 0 Mask.full)) c.nextPc
        (((List.range 48).map fun p => ⟨s.fresh + p, c.now + 1, c.x, .pred p (BitVec.ofNat 32 (ws.getD p 0)) Mask.full⟩) ++
         ((List.range 3).map fun k => ⟨s.fresh + 48 + k, c.now + 1, c.x, .guard (k + 1)
            (if (ws.getD 48 0).testBit (8 * k + 7) then some ⟨field (ws.getD 48 0) (8 * k) 6, (ws.getD 48 0).testBit (8 * k + 6)⟩ else none)⟩) ++
         [⟨s.fresh + 51, c.now + 1, c.x, .vec (dstTgt o.d (s.fresh + 51)) (some (advance ((c.dval o.d).lane 0) 196)) Mask.full⟩]) []) ∧
  (∀ (o : D1) (c : Ctx) (s : State) (ws : List Nat), c.use = useD1 o → c.Issues s → c.RecordOk s (c.dval o.d) 140 false →
    c.RecordIs s ((c.dval o.d).lane 0) 140 ws → ∀ d sd, ws.getD 1 0 = d + 2 ^ 8 * sd → d ≤ 16 → sd ≤ 16 →
    (∀ e, e < 16 → field (ws.getD (4 + 2 * e) 0) 23 8 = 0) →
    ∃ t stk, exec (.drest o) s = .next t ∧
      c.GavePointer (s.updStream c.key c.x fun st =>
        { st with mask := BitVec.ofNat 32 (ws.getD 0 0), stack := stk, savedMask := BitVec.ofNat 32 (ws.getD 2 0), savedDepth := sd }) t o.d 140 ∧
      stk.length = d ∧ ∀ e, e < d → stk.reverse[e]? =
        some ⟨(ws.getD (4 + 2 * e) 0).testBit 31, BitVec.ofNat 32 (ws.getD (3 + 2 * e) 0), ws.getD (4 + 2 * e) 0 % 2 ^ 23⟩) ∧
  (∀ (o : D1) (c : Ctx) (s : State) (ws : List Nat), c.use = useD1 o → c.Issues s → c.RecordOk s (c.dval o.d) 16 false →
    c.RecordIs s ((c.dval o.d).lane 0) 16 ws →
    (∀ k, k < 4 → ws.getD k 0 ≠ 0 → c.w.setOf k ≠ 255 ∧ c.st.arrived.find? (c.w.setOf k) = none) →
    let one (s : State) (k : Nat) : State := if ws.getD k 0 = 0 then s
      else (s.recordArrivals c.w.grid c.w c.x (c.w.setOf k) (ws.getD k 0)).updStream c.key c.x fun st =>
        { st with arrived := st.arrived.put (c.w.setOf k) true }
    ∃ t, exec (.brest o) s = .next t ∧ c.GavePointer (one (one (one (one s 0) 1) 2) 3) t o.d 16) ∧
  (∀ (o : D1) (c : Ctx) (s : State) (ws : List Nat), c.use = useD1 o → c.Issues s → c.RecordOk s (c.dval o.d) 544 false →
    c.RecordIs s ((c.dval o.d).lane 0) 544 ws → (∀ k, k < 4 → latchForm ((ws.drop (34 * k)).take 34) = true) →
    ∃ t, exec (.lrest o) s = .next t ∧
      c.GavePointer (s.bump.updStream c.key c.x fun st => { st with shadow := (List.range 4).map fun k => latchOfSlot (c.now + 1) s.fresh ((ws.drop (34 * k)).take 34) }) t o.d 544) ∧
  (∀ (o : ND) (c : Ctx) (s : State) (ws : List Nat), c.use = ⟨legalND o, false, true, [], (dstReg o.d).toList, o.d, 0, o.e, 4, []⟩ → c.Issues s →
    c.MatrixFree s → c.RecordOk s (c.dval o.d) 1024 false → c.RecordIs s ((c.dval o.d).lane 0) 1024 ws →
    ∃ t accs, exec (.arest o) s = .next t ∧ c.GavePointer (c.withBusy (c.withAccs s accs) 2) t o.d 1024 ∧
      ∀ n k, k < 256 → accs.get 0 (n * 256 + k) =
        if n = o.n.toNat then BitVec.ofNat 32 (ws.getD k 0) else c.w.accs.get 0 (n * 256 + k))

/-- The engine commands by function number (R288). -/
def engineCommands : List ((A1 → Instr) × Nat) :=
  [(.copy, 0), (.gather, 1), (.scatter, 2), (.mgx, 3), (.mmv, 4), (.fput, 5), (.fget, 6), (.fatom, 7), (.fmcast, 8), (.coll, 9),
   (.launchInstr, 10), (.cntadd, 11)]

/-- R201, R212, R364, R371: an engine command whose checks pass and that finds room joins its queue at issue, with the
commands it waits for and the marks it owes; a command with an operand-queue destination reserves its entries; a staging coll has found places for its
bundles in the stage store (`engRoom`), which its command in the queue holds. The tag as the count of the core's queue is log entry 32, and which
commands it waits for is log entries 22 and 57 (DEDUCED). -/
def Obligations.EngineCommandsComplete : Prop :=
  ∀ p ∈ engineCommands, ∀ (o : A1) (c : Ctx) (s : State), c.use = useEng p.2 o → c.Issues s →
    (∀ r ∈ c.group o.a (blockLen p.2 - 1), r.Clean 1) → ∀ e, e = c.engCmd s p.2 o →
    controlOk p.2 c.g.hdr.ntpl ((c.engWords p.2 o).getD 0 0).toNat e.tpl.kind = true → e.check s c.g = none →
    (p.2 ≤ 3 → e.tpl.toq = true → c.x = .acc) → c.engRoom s e = .go →
    let n := if p.2 ≤ 3 ∧ e.tpl.toq = true then e.entries else 0
    let k := e.core * 16 + e.queue
    ∃ t, exec (p.1 o) s = .next t ∧
      c.Went { s with
        grids := s.grids.modify c.w.grid fun g => { g with ecount := g.ecount.put k (c.g.ecount.get 0 k + 1) },
        cmdsE := s.cmdsE.put (s.fresh + n) { e with
          ord := s.fresh + n, deps := s.depsOf e, rids := (List.range n).map (s.fresh + ·), wcts := e.owes, tag := c.g.ecount.get 0 k % 2 ^ 16 } } t Latch.voidEntry c.nextPc []
        ((List.range n).map fun i => (e.tpl.qreg, ⟨s.fresh + i, c.now, none, none, 2, false, none⟩))

/-! ### The machine around an instruction -/

/-- R331 to R333, R292: trap and an undebugged brk are counted and take their classes; ckpt without a request does nothing
more, and takes class 12 with one; trapret goes back to the cut run; a fetch of no instruction takes the illegal-instruction trap. -/
def Obligations.TrapInstructionsComplete : Prop :=
  (∀ (o : E0) (c : Ctx) (s : State), c.use = useE0 o → c.Issues s →
    let counted := s.updStream c.key c.x fun st => { st.shift Latch.voidEntry with runCount := st.runCount + 1 }
    exec (.trap o) s = .next (counted.takeTrap c.key c.x ⟨14, 0, 0⟩) ∧
    (s.sec.vendor = false → (s.tenant c.w.part).tdebug = false → exec (.brk o) s = .next (counted.takeTrap c.key c.x ⟨13, 0, 0⟩)) ∧
    (s.sec.vendor = true ∨ (s.tenant c.w.part).tdebug = true → exec (.brk o) s = .next (s.parkStream c.key c.x .debug)) ∧
    (c.st.ckptReq = false ∨ c.st.trapActive = true → ∃ t, exec (.ckpt o) s = .next t ∧ c.Plain s t []) ∧
    (c.st.ckptReq = true → c.st.trapActive = false → ∃ t, exec (.ckpt o) s = .next t ∧
      t.mem = s.mem ∧ (c.st.unhandled c.g.hdr.codelen = false → ∃ v, t.warp? c.key = some v ∧ (v.strm c.x).ckptReq = false ∧
        field (v.strm c.x).trapcause.toNat 8 5 = 12 ∧ (v.strm c.x).trapActive = true ∧ (v.strm c.x).cutCount = c.st.runCount + 1))) ∧
  (∀ (c : Ctx) (s : State), c.use = ⟨true, true, true, [], [], .discard, 0, true, 4, []⟩ → c.Issues s → c.st.trapActive = true →
    c.st.stack.length = c.st.savedDepth → ∀ tgt, tgt = c.st.trappc.toNat + (if field c.st.trapcause.toNat 8 5 ∈ [12, 13, 14] then 4 else 0) →
    (tgt % 2 = 1 ∨ c.g.inCode tgt = false → exec .trapret s = .next (s.takeTrap c.key c.x ⟨1, 0, 0⟩)) ∧
    (tgt % 2 = 0 → c.g.inCode tgt = true → ∃ t v, exec .trapret s = .next t ∧ t.warp? c.key = some v ∧
      (v.strm c.x).pc = tgt ∧ (v.strm c.x).mask = c.st.savedMask ∧ (v.strm c.x).latches = c.st.shadow ∧
      (v.strm c.x).runCount = c.st.cutCount ∧ (v.strm c.x).cutRun = true ∧ (v.strm c.x).trapActive = false ∧
      (v.strm c.x).hen = c.st.hen ∧ (v.strm c.x).regs = c.st.regs ∧ (v.strm c.x).preds = c.st.preds ∧ (v.strm c.x).stack = c.st.stack ∧
      t.mem = s.mem ∧ ∀ k, k ≠ c.key → t.warp? k = s.warp? k)) ∧
  (∀ (key : Nat) (x : Strm) (w : Warp) (g : Grid) (s : State), s.cur = some (key, x) → s.warp? key = some w → s.gridOf w = some g →
    ((w.strm x).runCount ≠ 23 ∨ g.inCode (w.strm x).pc = false → exec .illegalInstruction s = .next (s.takeTrap key x ⟨1, 0, 0⟩)) ∧
    ((w.strm x).runCount = 23 → g.inCode (w.strm x).pc = true → g.inCode ((w.strm x).pc + 3) = true →
      (s.byteAt (scratchCell w.core 0 (w.strm x).pc)).getLsbD 1 = false → exec .illegalInstruction s = .next (s.takeTrap key x ⟨3, 0, 0⟩)))

/-- R329, R330, R326 to R328: a trap with a handler writes CLASS, DETAIL, ACTIVE, the program counter and the address, saves
and opens the mask, cuts the run with its latches in the shadow, ends the turn, and goes on at the handler; every other part
of the stream, the other stream and every other warp stay. Without a handler the grid ends with code 22, and both streams of
each of its warps stop at the end of the tick, which the model's sweep does (DEDUCED, log entry 24). -/
def Obligations.TrapEntry : Prop :=
  ∀ (s : State) (key : Nat) (x : Strm) (w : Warp) (g : Grid) (tr : Trap), s.warp? key = some w → s.gridOf w = some g → tr.cls < 32 →
    let st := w.strm x
    (st.hen = true → st.trapActive = false → st.handler % 2 = 0 → st.handler < g.hdr.codelen →
      ∃ v, (s.takeTrap key x tr).warp? key = some v ∧
        v.strm x = { st with
          shadow := st.latches, latches := [Latch.none, Latch.none, Latch.none, Latch.none], cutCount := st.runCount, runCount := 0,
          phase := .idle, granted := false, trapcause := (v.strm x).trapcause, trappc := BitVec.ofNat 32 st.pc,
          trapaddrLo := BitVec.ofNat 32 tr.addr, trapaddrHi := BitVec.ofNat 32 (tr.addr / 2 ^ 32 % 2 ^ 20),
          savedMask := st.mask, savedDepth := st.stack.length, mask := Mask.full, pc := g.hdr.cunit * 65536 + st.handler } ∧
        (v.strm x).hen = true ∧ (v.strm x).trapActive = true ∧ (v.strm x).handler = st.handler ∧
        field (v.strm x).trapcause.toNat 8 5 = tr.cls ∧ field (v.strm x).trapcause.toNat 0 8 = tr.detail % 2 ^ 8 ∧ (v.strm x).trapcause.getLsbD 13 = false ∧
        v = w.setStrm x (v.strm x) ∧ (s.takeTrap key x tr).mem = s.mem ∧ (s.takeTrap key x tr).grids = s.grids ∧
        (∀ k, k ≠ key → (s.takeTrap key x tr).warp? k = s.warp? k) ∧
        (s.takeTrap key x tr).fe (feKey (key / 32) (key % 4) x) = (s.fe (feKey (key / 32) (key % 4) x)).endTurn) ∧
    (st.hen = false ∨ st.trapActive = true ∨ st.handler % 2 = 1 ∨ g.hdr.codelen ≤ st.handler →
      (∃ h, (s.takeTrap key x tr).gridOf w = some h ∧ h.stopped = true ∧ (g.stopped = false → h.failCode = 22)) ∧
      (s.takeTrap key x tr).mem = s.mem ∧ (s.takeTrap key x tr).warps = s.warps ∧
      ∀ k v, (s.takeTrap key x tr).sweepStopped.warp? k = some v → v.grid = w.grid → v.acc.gone = true ∧ v.exe.gone = true)

/-- Instructions that the access stream may not issue (R265). -/
def exeOnly : Instr → Bool
  | .fcmp _ | .fadd _ | .fsub _ | .fmul _ | .ffma _ | .fmin _ | .fmax _ | .hadd2 _ | .hmul2 _ | .hfma2 _ | .fcvt _ | .frcp _ | .frsq _
  | .fsqrt _ | .fex2 _ | .flg2 _ | .fsinp _ | .fcosp _ | .ftanh _ | .i2f _ | .f2i _ | .shflx _ | .shflu _ | .shfld _ | .shfli _
  | .redl _ | .scanl _ | .ballot _ | .vall _ | .vany _ | .bcast _ | .mmq _ | .mmqs _ | .cmpr _ | .accz _ | .accrd _ | .accwr _ | .fmtw _
  | .asave _ | .arest _ | .faddH16 _ | .fsubH16 _ | .fmulH16 _ | .fminH16 _ | .fmaxH16 _ => true
  | _ => false

/-- Instructions that the execute stream may not issue (R265, R349). -/
def accOnly : Instr → Bool
  | .ldg _ | .ldgi _ | .stg _ | .atg _ | .fence _ | .waitcHbm _ => true
  | _ => false

/-- R262, R148, R257 to R259, R265: of every encoded instruction, steps 2 and 3: as the 24th of its run with E clear it
takes the run-length trap; with a reserved field value, or in a stream that may not issue it, the illegal-instruction trap. -/
def Obligations.ChecksBeforeOwn : Prop :=
  ∀ (i : Instr) (nb n key : Nat) (x : Strm) (w : Warp) (g : Grid) (s : State), encode i = some (nb, n) →
    s.cur = some (key, x) → s.warp? key = some w → s.gridOf w = some g →
    ((w.strm x).runCount = 23 → n.testBit 1 = false → exec i s = .next (s.takeTrap key x ⟨3, 0, 0⟩)) ∧
    ((w.strm x).runCount ≠ 23 ∨ n.testBit 1 = true →
      i.wf = false ∨ (x = .acc ∧ exeOnly i = true) ∨ (x = .exe ∧ accOnly i = true) → exec i s = .next (s.takeTrap key x ⟨1, 0, 0⟩))

/-- R150 to R153, R158, R257, R165, R262 steps 3 to 6, for the two-source integer instructions: a register outside the
allocation and an unbound guard are illegal; a queue used against its direction, and a queue whose other stream has exited,
trap; a full or empty queue parks; an entry in flight slips; a latch that is empty, void or not yet ready traps. That a first has its wrong way judged
before b and d is log entry 21, and that only reservations of earlier ticks count for a pop is log entry 17 (DEDUCED). -/
def Obligations.QueueAndLatchChecks : Prop :=
  ∀ e ∈ intPairs, ∀ (o : T3) (key : Nat) (x : Strm) (w : Warp) (g : Grid) (s : State), s.cur = some (key, x) →
    s.warp? key = some w → s.gridOf w = some g → ((w.strm x).runCount ≠ 23 ∨ o.e = true) → legalT3 o = true →
    let st := w.strm x
    let regs := srcRegs [o.a, o.b] ++ (dstReg o.d).toList
    let bound := o.g = 0 ∨ (st.guards.find? o.g.toNat).isSome = true
    ((∃ r ∈ regs, w.nregs x ≤ r) ∨ ¬ bound → exec (e.1 o) s = .next (s.takeTrap key x ⟨1, 0, 0⟩)) ∧
    ((∀ r ∈ regs, r < w.nregs x) → bound →
      (∀ q : Fin 8, o.a = .q q → queueConsumer q.val ≠ x → exec (e.1 o) s = .next (s.takeTrap key x ⟨4, q.val, 0⟩)) ∧
      (∀ q : Fin 8, srcPops [o.a, o.b] = [] → o.d = .q q → queueProducer q.val ≠ x →
        exec (e.1 o) s = .next (s.takeTrap key x ⟨4, q.val, 0⟩)) ∧
      (∀ q : Fin 8, srcPops [o.a, o.b] = [] → o.d = .q q → queueProducer q.val = x → (w.live q.val).length = queueDepth q.val →
        ((w.strm (queueConsumer q.val)).gone = true → exec (e.1 o) s = .next (s.takeTrap key x ⟨4, q.val, 0⟩)) ∧
        ((w.strm (queueConsumer q.val)).gone = false → exec (e.1 o) s = .next (s.parkStream key x (.pushFull q.val 1)))) ∧
      (∀ k : Fin 4, o.a = .b k → srcPops [o.b] = [] → dstQueue o.d = none →
        (∀ l, st.latches[k.val]? = some l → l.kind ≠ .val ∨ s.gtc < l.ready) →
        exec (e.1 o) s = .next (s.takeTrap key x ⟨2, k.val, 0⟩)) ∧
      (∀ q : Fin 8, o.a = .q q → srcPops [o.b] = [] → srcLatches [o.b] = [] → dstQueue o.d = none → queueConsumer q.val = x →
        ((∀ r ∈ w.live q.val, s.gtc ≤ r.issued) →
          ((w.strm (queueProducer q.val)).gone = true → exec (e.1 o) s = .next (s.takeTrap key x ⟨4, q.val, 0⟩)) ∧
          ((w.strm (queueProducer q.val)).gone = false → exec (e.1 o) s = .next (s.parkStream key x (.popEmpty q.val)))) ∧
        (∀ r rest, w.live q.val = r :: rest → r.issued < s.gtc → r.landed = false →
          exec (e.1 o) s = .next { s with cur := none, slips := s.slips.update 0 (key / 32 * 4 + key % 4) (· + 1) })))

/-- R334, R326: an integer instruction that reads a marked word in an active lane takes the trap of the mark's class at the
lowest such lane; a fabric mark has DETAIL 0. -/
def Obligations.MarkedSourcesTrap : Prop :=
  ∀ e ∈ intPairs, ∀ (o : T3) (c : Ctx) (s : State) (l : Nat) (m : MCls), c.use = useT3 o true → c.Issues s → s.regErr = [] →
    c.act.getLsbD l = true → (∃ r ∈ c.vals, r.marks = [(l, m)]) →
    (∀ r ∈ c.vals, r.marks = [(l, m)] ∨ ∀ p ∈ r.marks, c.act.getLsbD p.1 = true → l < p.1) →
    exec (e.1 o) s = .next (s.takeTrap c.key c.x ⟨m.code, if m = .fabric then 0 else l, 0⟩)

/-- R188, R190: no encoded instruction changes a byte of memory, its marks, the time or another warp on its issue tick: what
it writes takes effect at a completion tick. -/
def Obligations.IssueLeavesOthers : Prop :=
  ∀ (i : Instr) (s t : State) (key : Nat) (x : Strm), (encode i).isSome = true ∨ i = .illegalInstruction → s.cur = some (key, x) →
    exec i s = .next t →
    t.mem = s.mem ∧ t.poison = s.poison ∧ t.gtc = s.gtc ∧ t.pending = s.pending ∧ t.feTodo = s.feTodo ∧
    (∀ k, k ≠ key → t.warp? k = s.warp? k)

/-- R3, R334: after a list of bytes is written, a byte reads as the last one written to it, and the others as before; so do
their marks; the memory keeps its form. -/
def ReadsLastWrite : Prop :=
  ∀ (s : State) (cs : List (Nat × Byte × Option MCls)), s.MemOk →
    (s.putCells cs).MemOk ∧
    (∀ a, (∀ c ∈ cs, c.1 ≠ a) → (s.putCells cs).byteAt a = s.byteAt a ∧ (s.putCells cs).markAt a = s.markAt a) ∧
    (∀ pre a b m post, cs = pre ++ (a, b, m) :: post → (∀ c ∈ post, c.1 ≠ a) →
      (s.putCells cs).byteAt a = b ∧ (s.putCells cs).markAt a = m) ∧
    -- some bits of a byte
    ∀ (a : Nat) (b mask : Byte) (m : Option MCls), (s.putBits (a, b, mask, m)).MemOk ∧
      (∀ i, i < 8 → ((s.putBits (a, b, mask, m)).byteAt a).getLsbD i = if mask.getLsbD i then b.getLsbD i else (s.byteAt a).getLsbD i) ∧
      ∀ x, x ≠ a → (s.putBits (a, b, mask, m)).byteAt x = s.byteAt x ∧ (s.putBits (a, b, mask, m)).markAt x = s.markAt x

/-- R188, R190: at its completion tick a write takes effect, and a byte holds what the last due write in write order (tick,
class, warp, source, issue order) gave it; a byte that no due write names, and a write that is not due, stay. -/
def DueWrites : Prop :=
  ∀ (s : State) (t : Nat), s.MemOk → (∀ w ∈ s.writes, w.wct ≤ t → w.atoms = [] ∧ w.add = none ∧ w.ret = .none ∧ w.bits = []) →
    (s.applyDue t).MemOk ∧ (s.applyDue t).writes = s.writes.filter (fun w => decide (t < w.wct)) ∧
    (∀ a, (∀ w ∈ s.writes, w.wct ≤ t → ∀ c ∈ w.cells, c.1 ≠ a) → (s.applyDue t).byteAt a = s.byteAt a) ∧
    ∀ w ∈ s.writes, w.wct ≤ t → ∀ pre a b m post, w.cells = pre ++ (a, b, m) :: post → (∀ c ∈ post, c.1 ≠ a) →
      (∀ v ∈ s.writes, v.wct ≤ t → v ≠ w → (∃ c ∈ v.cells, c.1 = a) →
        [v.wct, v.cls, v.wid, v.src, v.seq] < [w.wct, w.cls, w.wid, w.src, w.seq]) →
      (s.applyDue t).byteAt a = b ∧ (s.applyDue t).markAt a = m

/-- R3, R188, R190, R334: memory, and the writes that take effect in it. -/
def Obligations.WritesTakeEffect : Prop := ReadsLastWrite ∧ DueWrites

/-- A cold reset (R20, R100). -/
def ColdResets (i : Instr) : Prop := i = .pwrokFall ∨ i = .vddAuxLost ∨ ∃ rails ord lands strap, i = .pwrokRise rails ord lands strap

/-- The warps stand in the order of their keys, no queue of theirs holds more than its depth (R150), and no divergence stack more than 16 entries (R322,
R323, R378). -/
def Fits (s : State) : Prop := (s.warps.map (·.1)).Pairwise (· < ·) ∧
  ∀ e ∈ s.warps, (∀ q, (e.2.live q).length ≤ if q < 6 then 8 else 4) ∧ ∀ x : Strm, (e.2.strm x).stack.length ≤ 16

/-- R124, R150, R322, R323, R378: what every step keeps, whatever the instruction or event. REVOKED stays until a cold reset, which is an event in hand;
the occupancy of every queue stays within its depth, and every divergence stack within 16 entries. -/
def Obligations.StepKeepsLimits : Prop :=
  (∀ s t : State, s.sec.revoked = true → step s = .next t →
    t.sec.revoked = true ∨ ∃ i r, s.pending = i :: r ∧ ColdResets i) ∧
  (∀ s t : State, Fits s → step s = .next t → Fits t)

/-- R156, R163: when results land, each register takes its active lanes from the one result due for it and keeps the others;
a register without a due result, and a result that is not due, stay; memory stays. -/
def Obligations.ResultsLand : Prop :=
  ∀ s : State, ∃ t, exec .resultLanding s = .next t ∧ t.mem = s.mem ∧ t.gtc = s.gtc ∧
    ∀ k w, s.warp? k = some w → ∃ v, t.warp? k = some v ∧ v.landings = w.landings.filter (fun l => !decide (l.tick ≤ s.gtc)) ∧
      v.accs = w.accs ∧
      ∀ x n, (w.strm x).gone = false →
        let due := w.landings.filter fun l => decide (l.tick ≤ s.gtc ∧ l.strm = x) && match l.eff with
          | .vec (.reg m) (some _) _ => decide (m = n)
          | _ => false
        (due = [] → (v.strm x).reg n = (w.strm x).reg n) ∧
        ∀ id tick r m, due = [⟨id, tick, x, .vec (.reg n) (some r) m⟩] → ∀ l, l < 32 →
          ((v.strm x).reg n).lane l = if m.getLsbD l then r.lane l else ((w.strm x).reg n).lane l

/-- R254: when the bytes at the program counter of the stream whose turn it is decode to an instruction, the step runs that
instruction on the state in which the stream has become the current one (its turn entered when it is new), and after it only
a debugger's single step may halt the stream; an instruction that met a park before its partition acted keeps that park where it
would now slip (R149). An instruction or event in hand is run as it stands. -/
def Obligations.StepRunsDecoded : Prop :=
  (∀ (s : State) (core p : Nat) (x : Strm) (r : List FeTodo) (slot : Nat) (fresh : Bool) (w : Warp) (g : Grid) (i : Instr) (bs : List Byte) (park : Option Park),
    s.pending = [] → s.feTodo = .fe core p x park :: r → ({ s with feTodo := r } : State).presents core p x = .run slot fresh →
    let t := (({ s with feTodo := r } : State).presenting core p x slot fresh).1
    t.warp? (slotKey core p slot) = some w → t.gridOf w = some g →
    decodeBytes (t.codeBytes w.core g (w.strm x).pc) = .ok (i, bs) →
    t.cur = some (slotKey core p slot, x) ∧ t.mem = s.mem ∧ t.gtc = s.gtc ∧ t.grids = s.grids ∧
    (∀ u, exec i t = .next u →
      (u.cur ≠ none ∨ park = none → step s = .next (t.stepDone u (slotKey core p slot) x)) ∧
      (∀ k, u.cur = none → park = some k → step s = .next (t.parkStream (slotKey core p slot) x k))) ∧
    (∀ u, (∀ v, u.warp? (slotKey core p slot) = some v → (v.strm x).stepOne = false) →
      t.stepDone u (slotKey core p slot) x = u)) ∧
  (∀ (s : State) (i : Instr) (r : List Instr), s.pending = i :: r → step s = exec i { s with pending := r })

/-- The invariant of memory is kept by every step: whatever the instruction or event, memory stays in its canonical form. -/
def Obligations.StepKeepsMemoryCanonical : Prop :=
  ∀ s t : State, s.MemOk → step s = .next t → t.MemOk

/-- R104, R58, R105, R107, R74, R82, R85, R93, R122, R124: what reset leaves. The fields that the manual gives a reset value have it; memory
is in its form and lists nothing; queues and divergence stacks are within their limits, and no partition is sealed or revoked. That every byte reads 0 is log entry 4, and a value that the manual does not give is log entry 1 (DESIGN CHOICE). -/
def Obligations.ResetState : Prop :=
  State.reset.MemOk ∧ Fits State.reset ∧ State.reset.sec.revoked = false ∧ State.reset.sec.vendor = false ∧
  (∀ p, (State.reset.tenant p).sealed = false) ∧ State.reset.gtc = 0 ∧ State.reset.time.counting = false ∧ State.reset.time.locked = false ∧
  (∀ a, State.reset.byteAt a = 0) ∧ State.reset.fw.phase = 0 ∧ State.reset.fw.ready = false ∧ State.reset.fw.fail = false ∧
  State.reset.sched.state = .idle ∧ State.reset.sec.cap = 0x7D0 ∧ State.reset.warps = [] ∧ State.reset.grids = [] ∧
  (∀ r, (State.reset.rings.get Ring.fresh r).enable = false ∧ (State.reset.rings.get Ring.fresh r).log2 = 0) ∧
  (∀ q, (State.reset.queues.get LQueue.fresh q).watchdog = 0x2710 ∧ (State.reset.queues.get LQueue.fresh q).enable = false) ∧
  State.reset.journal.enable = false ∧ State.reset.journal.log2 = 10

/-! ### Encoding -/

/-- R256 to R261, R275 to R292: words written out from the encoding tables, field by field from b down to L, decode to the
instructions they stand for. -/
def Obligations.DecodedWords : Prop :=
  -- iadd v3, v1, v2, E
  decodeTableWord 32 0b0000010_0000001_0000011_000000_00_0_1_1 = some (.iadd ⟨.v 3, .v 1, .v 2, 0, false, true⟩) ∧
  -- ?g2 fmul q6, b1, lane index
  decodeTableWord 32 0b1111101_1110001_1111010_010111_10_0_0_1 = some (.fmul ⟨.q 6, .b 1, .laneid, 2, false, false⟩) ∧
  -- icmp p5, v0, zero with condition 2
  decodeTableWord 32 0b1111100_0000000_0000101_011110_01_0_0_1 = some (.icmp ⟨false, 5, 2, .v 0, .zero, false⟩) ∧
  -- exit
  decodeTableWord 32 0b0011100_1111100_1111100_111101_00_0_1_1 = some (.exit ⟨0⟩) ∧
  -- trapret
  decodeTableWord 32 0b0001111_1111100_1111100_111111_00_0_1_1 = some .trapret ∧
  -- copy of the block at v8
  decodeTableWord 32 0b0000000_0001000_1111100_111110_00_0_0_1 = some (.copy ⟨.v 8, false⟩) ∧
  -- 16-bit iadd v4, v9, E
  decodeTableWord 16 0b01001_00100_0001_1_0 = some (.iaddH16 ⟨9, 4, true⟩)

/-- R254, R256 to R292: for every well-formed instruction that has an encoding, the decoder reads the encoder's word back,
with every operand. -/
def Obligations.EncodingRoundTrip : Prop :=
  ∀ (i : Instr) (nbits w : Nat), i.wf = true → encode i = some (nbits, w) →
    w < 2 ^ nbits ∧ (nbits = 16 ∨ nbits = 32) ∧ (w.testBit 0 = true ↔ nbits = 32) ∧ decodeTableWord nbits w = some i

/-- R254, R256 to R292: a word has one meaning: the instruction that the decoder reads from it has this word as its encoding. -/
def Obligations.WordsHaveOneMeaning : Prop :=
  (∀ (w : Nat) (i : Instr), w < 2 ^ 32 → w.testBit 0 = true → decodeTableWord 32 w = some i → encode i = some (32, w)) ∧
  (∀ (w : Nat) (i : Instr), w < 2 ^ 16 → w.testBit 0 = false → decodeTableWord 16 w = some i → encode i = some (16, w))

/-! ### Events of the device: what each does when it happens -/

/-- R17 to R21, R24, R62, R100: supplies and heat. A cold reset leaves memory outside the boot store at 0, the boot store and the
active-slot word as they were, and the GTC at 0 and not counting. That an untied test land asserts ALERT_N is the model's choice (log
entry 58); so is that memory outside the boot store reads 0 after the cold reset (DESIGN CHOICE, log entry 4), and that a droop acts at once while
the GTC does not count (DEDUCED, log entry 36). -/
def SuppliesAndHeat : Prop :=
  (∀ (s : State) (rails : BitVec 10) (ord lands : Bool) (strap : BitVec 4), s.MemOk → s.pkg.pwrok = false →
    ∃ t, exec (.pwrokRise rails ord lands strap) s = .next t ∧ t.gtc = 0 ∧ t.time.counting = false ∧ t.fw.activeSlot = s.fw.activeSlot ∧
      t.time.refOk = false ∧ t.time.ppsOk = false ∧
      t.pkg.pwrok = true ∧ t.pkg.railOk = rails ∧ t.pkg.strap = strap ∧ t.pkg.droop = s.pkg.droop ∧ t.pkg.railDroop = s.pkg.railDroop ∧
      t.warps = [] ∧ t.grids = [] ∧ t.MemOk ∧
      (∀ a, t.byteAt a = if bootBase ≤ a ∧ a < bootBase + 2 ^ 26 then s.byteAt a else 0) ∧
      (rails = 0x3FF → ord = true → lands = true → t.fw.phase = 1 ∧ t.pkg.inReset = false ∧ t.pkg.seqErr = s.pkg.seqErr) ∧
      (rails ≠ 0x3FF ∨ ord = false ∨ lands = false → t.pkg.seqErr = true ∧ t.pkg.alert = true ∧ t.pkg.inReset = true ∧ t.fw.phase = 0)) ∧
  (∀ (s : State) (rails : BitVec 10) (ord lands : Bool) (strap : BitVec 4), s.pkg.pwrok = true →
    exec (.pwrokRise rails ord lands strap) s = .next s) ∧
  (∀ s : State, s.MemOk → ∃ t, exec .pwrokFall s = .next t ∧ t.pkg.pwrok = false ∧ t.pkg.inReset = true ∧ t.pkg.seqErr = s.pkg.seqErr ∧
    t.pkg.droop = s.pkg.droop ∧ t.gtc = 0 ∧ (∀ a, bootBase ≤ a → a < bootBase + 2 ^ 26 → t.byteAt a = s.byteAt a)) ∧
  (∀ s : State, ∃ t, exec .vddAuxLost s = .next t ∧ t.readReg 0x40 = 0 ∧ t.pkg.pwrok = false) ∧
  (∀ (s : State) (monitor past : BitVec 10), let bits := past &&& ~~~ monitor &&& 0x3FE
    (bits = 0 ∨ s.pkg.pwrok = false ∨ s.fw.phase = 0 →
      exec (.railDroop monitor past) s = .next { s with pkg := { s.pkg with railOk := monitor } }) ∧
    (bits ≠ 0 → s.pkg.pwrok = true → s.fw.phase ≠ 0 →
      let p := { s.pkg with railOk := monitor, droop := true, alert := true, railDroop := s.pkg.railDroop ||| bits }
      (s.pkg.inReset = false → s.time.counting = true →
        exec (.railDroop monitor past) s = .next { s with pkg := { p with stopAtLeaf := true } }) ∧
      (s.pkg.inReset = true ∨ s.time.counting = false →
        exec (.railDroop monitor past) s = .next { s with pkg := { p with stopAtLeaf := false, stopped := true, inReset := true } }))) ∧
  (∀ s : State, s.pkg.stopAtLeaf = true → s.gtc % 4096 = 0 →
    s.droopStop = { s with pkg := { s.pkg with stopAtLeaf := false, stopped := true, inReset := true } }) ∧
  (∀ s : State, (s.pkg.temp < 110 → exec .overtempAlert s = .next { s with pkg := { s.pkg with temp := max s.pkg.temp 100, alert := true } }) ∧
    (110 ≤ s.pkg.temp → exec .overtempAlert s = exec .thermtrip s)) ∧
  (∀ s : State, exec .thermtrip s = .next { s with pkg := { s.pkg with
    temp := max s.pkg.temp 110, alert := true, thermtrip := true, lasers := false, stopped := true } }) ∧
  (∀ s : State, s.pkg.stopped = true ∨ s.pkg.lasers = false ∨ s.pkg.inReset = true → s.mayTransmit = false) ∧
  (∀ (s : State) (b : Bool), exec (.ref10m b) s = .next { s with time := { s.time with refOk := b } })

/-- R18, R81, R100, R118: while the hub die is in reset nothing but PERST_N acts; the PCI Express resets and power states touch only the link, the IDE streams, the power state and the packets
fetched and not taken, which are read again from RING_HEAD on. -/
def LinkEvents : Prop :=
  (∀ s : State, ∃ t, exec .perstAssert s = .next t ∧
    t = { s with link := { s.link with up := false, busMaster := false, negotiated := false, opening := [], sessions := [], leaving := [] },
                 tenants := t.tenants } ∧
    ∀ p, t.tenant p = { s.tenant p with ideBound := false }) ∧
  (∀ s : State, s.live = false → ∀ i ∈ [.perstDeassert, .busMasterEnable, .d3hotEntry, .d0Entry], exec i s = .next s) ∧
  (∀ s : State, s.live = true → ∃ t, exec .perstDeassert s = .next t ∧
    t = { s with link := ⟨true, false, false, false, [], [], s.link.nextSession, [], [], []⟩, tenants := t.tenants } ∧
    ∀ p, t.tenant p = { s.tenant p with ideBound := false }) ∧
  (∀ s : State, s.live = true → ∃ t, exec .busMasterEnable s = .next t ∧
    t = { s with link := { s.link with up := true, busMaster := true }, rings := t.rings } ∧
    ∀ r, t.ring r = if s.link.busMaster = true then s.ring r else { s.ring r with fetched := [] }) ∧
  (∀ s : State, s.live = true → exec .d3hotEntry s = .next { s with link := { s.link with d3 := true } }) ∧
  (∀ s : State, s.live = true → (s.link.d3 = true → ∃ t, exec .d0Entry s = .next t ∧
      t = { s with link := { s.link with d3 := false }, sec := { s.sec with power := 0 }, rings := t.rings } ∧
      ∀ r, t.ring r = { s.ring r with fetched := [] }) ∧
    (s.link.d3 = false → exec .d0Entry s = .next s))

/-- R17 to R20, R24, R81, R100, R118: supplies, heat, resets and the link. Log entries 4, 36 and 58 name the model's choices in it. -/
def Obligations.SuppliesAndLink : Prop := SuppliesAndHeat ∧ LinkEvents

/-- The device is out of reset and bring-up stands in a phase without failure (R103). -/
def InPhase (s : State) (p : Nat) : Prop := s.pkg.pwrok = true ∧ s.pkg.inReset = false ∧ s.fw.phase = p ∧ s.fw.fail = false

/-- Bring-up ended on a failure (R103). -/
def Failed (s t : State) (code : Nat) : Prop :=
  t = { s with fw := { s.fw with fail := true, failCode := code }, pkg := { s.pkg with alert := true } }

/-- R42, R44, R99, R101, R103 to R106: the phases of bring-up. That the device joins its pod in phase 3 is the model's choice (log entry
43). Code 2 for the time-out of phase 1, the time-outs of phases 1 to 4 as outside events and the end of phase 5 by its bound are log entry 36
(DEDUCED); where the firmware slots lie is log entry 15. -/
def Obligations.BringUp : Prop :=
  (∀ s : State, InPhase s 0 ∨ InPhase s 1 →
    let b := { s with fw := { s.fw with phase := 1 } }
    let first := xor s.fw.activeSlot (decide (s.pkg.strap.toNat % 4 = 1))
    (s.pkg.strap.toNat % 4 = 3 → ∃ t, exec .romBoot s = .next t ∧ Failed b t 1) ∧
    (s.pkg.strap.toNat % 4 = 2 → exec .romBoot s = .next { b with fw := { b.fw with recBoot := true } }) ∧
    (s.pkg.strap.toNat % 4 < 2 → ∃ t, exec .romBoot s = .next t ∧
      let started (k : Bool) := { s with fw := { s.fw with
        slot := k, svn := s.natAt (slotBase k + 4) 2, layout := s.natAt (slotBase k + 6) 2, hdr := s.bytesAt (slotBase k) 64, phase := 2 } }
      if s.imageValid (slotBase first) then t = started first
      else if s.imageValid (slotBase !first) then t = started !first
      else Failed b t 2)) ∧
  (∀ s : State, InPhase s 2 → exec .pllLock s = .next { s with fw := { s.fw with phase := 3 } }) ∧
  (∀ (s : State) (ports : BitVec 16) (trained : BitVec 8) (join : PodJoin), InPhase s 3 →
    ∃ t, exec (.tuningAndTrainingDone ports trained join) s = .next t ∧
    t.fw.darkPorts = ports ∧ t.mem = s.mem ∧ t.sched = { s.sched with podNumber := join.number.val, podSize := some join.size } ∧
    (∀ p : Fin 16, t.port p.val = { s.port p.val with
      dead := ports.getLsbD p.val || (s.port p.val).dead, delays := (t.port p.val).delays }) ∧
    (∀ p l, (∀ d ∈ join.delays, d.1 = p → d.2.1 ≠ l) → (t.port p).delays.find? l = (s.port p).delays.find? l) ∧
    (∀ p l k, (p, l, k) ∈ join.delays → (∀ d ∈ join.delays, d.1 = p → d.2.1 = l → d.2.2 = k) → (t.port p).delays.find? l = some k) ∧
    (trained = 0xFF → t.fw.phase = 4 ∧ t.fw.tuned = true ∧ t.fw.fail = false) ∧
    (trained ≠ 0xFF → t.fw.phase = 3 ∧ t.fw.fail = true ∧ t.fw.failCode = 4 ∧ t.pkg.alert = true)) ∧
  (∀ s : State, InPhase s 4 →
    (s.time.counting = true → exec .gtcDisciplineTimeout s = .next { s with fw := { s.fw with phase := 5, phaseAt := s.gtc } }) ∧
    (s.time.counting = false → exec .gtcDisciplineTimeout s = .next { s with
      gtc := 0, time := { s.time with counting := true }, fw := { s.fw with phase := 5, phaseAt := 0, timeFree := true } })) ∧
  (∀ (s : State) (ue : Bool), InPhase s 5 → s.MemOk →
    (s.gtc < s.initEnd → exec (.memoryInitDone ue) s = .next s) ∧
    (s.initEnd ≤ s.gtc → ∃ t, exec (.memoryInitDone ue) s = .next t ∧
      (∀ a, t.byteAt a = if a < 2 ^ 39 then 0 else s.byteAt a) ∧ (∀ a, a < 2 ^ 39 → t.markAt a = none) ∧
      (ue = false → t.fw.phase = 6 ∧ t.fw.ready = true ∧ t.fw.fail = false) ∧
      (ue = true → t.fw.phase = 5 ∧ t.fw.ready = s.fw.ready ∧ t.fw.fail = true ∧ t.fw.failCode = 5 ∧ t.pkg.alert = true))) ∧
  (∀ s : State, ∀ e ∈ ([(1, 2), (2, 3), (3, 4), (5, 5)] : List (Nat × Nat)), InPhase s e.1 → s.fw.recBoot = false →
    (e.1 = 5 → s.fw.phaseAt + 37978112 < s.gtc) → ∃ t, exec .bringupPhaseTimeout s = .next t ∧ Failed s t e.2) ∧
  (∀ s : State, InPhase s 5 → s.gtc ≤ s.fw.phaseAt + 37978112 → exec .bringupPhaseTimeout s = .next s) ∧
  -- the end of phase 5 by itself: its writes and its read-back take 39 beats of each stack a data tick, and no more than its bound
  (∀ s : State, s.initEnd ≤ s.fw.phaseAt + 37978112 ∧
    (s.initDue = true ↔ InPhase s 5 ∧ s.time.counting = true ∧ s.initEnd ≤ s.gtc))

/-- R20, R101, R102: recovery over SMBus, and the read of PKG_SUPPLY_STATUS. The device answers at address 0x50 plus STRAP bits 3 and 2
alone. Outside the receiving states a transaction is answered with NACK and changes nothing else; the status word is read in every
state of a recovery boot. NACK outside phase 1 of a recovery boot and for a block of another size, silence at another address, and the test that
the body lies within what was received are log entry 35 (DEDUCED). -/
def Obligations.Recovery : Prop :=
  let answer (s : State) (r : Reply) : State := { s with link := { s.link with replies := s.link.replies ++ [r] } }
  (∀ (s : State) (a : BitVec 7) (code : BitVec 8) (b : Bool) (off : Nat) (data : List Byte), a.toNat ≠ 0x50 + s.pkg.strap.toNat / 4 →
    exec (.recoveryStatus a code) s = .next s ∧ exec (.recoveryBlockWrite a b off data) s = .next s ∧
    exec (.imageDone a b) s = .next s ∧ exec (.abort a b) s = .next s) ∧
  (∀ (s : State) (a : BitVec 7), a.toNat = 0x50 + s.pkg.strap.toNat / 4 →
    exec (.recoveryStatus a 0x40) s = .next (answer s (.supply (s.readReg 0x40))) ∧
    (s.live = true → s.fw.recBoot = true →
      exec (.recoveryStatus a 0xB0) s = .next (answer s (.recovery (s.fw.recBlocks % 256 * 256 + s.fw.recState)))) ∧
    (s.live = false ∨ s.fw.recBoot = false → exec (.recoveryStatus a 0xB0) s = .next (answer s .nack)) ∧
    ∀ code : BitVec 8, code ≠ 0x40 → code ≠ 0xB0 → exec (.recoveryStatus a code) s = .next (answer s .nack)) ∧
  (∀ (s : State) (a : BitVec 7) (off : Nat) (data : List Byte), a.toNat = 0x50 + s.pkg.strap.toNat / 4 → InPhase s 1 →
    s.fw.recBoot = true → s.fw.recState ≠ 2 → s.fw.recState ≠ 4 →
    (off % 4 = 0 → data.length % 4 = 0 → 4 ≤ data.length → data.length ≤ 236 → off + data.length ≤ 2 ^ 25 →
      exec (.recoveryBlockWrite a true off data) s = .next { s.putCells (plainCells (hubBase + off) data) with
        fw := { s.fw with recState := 1, recBlocks := s.fw.recBlocks + 1, recTop := if s.fw.recTop.1 ≤ off then (off, off + data.length) else s.fw.recTop },
        link := { s.link with replies := s.link.replies ++ [.ack] } }) ∧
    (off % 4 ≠ 0 ∨ data.length % 4 ≠ 0 ∨ data.length < 4 ∨ 236 < data.length ∨ 2 ^ 25 < off + data.length →
      exec (.recoveryBlockWrite a true off data) s = .next (answer s .nack)) ∧
    exec (.imageDone a true) s = .next { s with fw := { s.fw with recState := 2 }, link := { s.link with replies := s.link.replies ++ [.ack] } } ∧
    (s.MemOk → ∃ t, exec (.abort a true) s = .next t ∧ t.fw.recState = 0 ∧ t.fw.recBlocks = 0 ∧
      ∀ x, t.byteAt x = if hubBase ≤ x ∧ x < hubBase + 2 ^ 25 then 0 else s.byteAt x)) ∧
  (∀ (s : State) (a : BitVec 7) (b : Bool) (off : Nat) (data : List Byte), a.toNat = 0x50 + s.pkg.strap.toNat / 4 →
    b = false ∨ s.fw.recBoot = false ∨ s.fw.phase ≠ 1 ∨ s.fw.recState = 2 ∨ s.fw.recState = 4 →
    exec (.recoveryBlockWrite a b off data) s = .next (answer s .nack) ∧ exec (.imageDone a b) s = .next (answer s .nack) ∧
    exec (.abort a b) s = .next (answer s .nack)) ∧
  (∀ s : State, InPhase s 1 → s.fw.recBoot = true → s.fw.recState = 2 →
    ∃ t, exec .recoveryVerifyDone s = .next t ∧
      if s.imageValid hubBase = true ∧ 4096 + s.natAt (hubBase + 8) 4 ≤ s.fw.recTop.2 then
        t = { s with fw := { s.fw with
          slot := false, svn := s.natAt (hubBase + 4) 2, layout := s.natAt (hubBase + 6) 2, hdr := s.bytesAt hubBase 64, phase := 2, recState := 4 } }
      else t.fw.recState = 3 ∧ t.fw.fail = false ∧ t.fw.phase = 1)

/-- R97: an event's lock is free when it names no logical queue, or one whose lock no running event holds. -/
def LockFree (s : State) (e : FwEvent) : Prop := ∀ q, e.lock = some q → ∀ r ∈ s.runningEvents, r.2.1.lock ≠ some q

/-- R18, R31, R97, R108, R109: the event queue and firmware update. The lowest idle core takes the oldest event whose lock is free. How long a
core runs an event is open: the model's free value, within the bound of an activation (log entry 59). That the lowest takes when several are idle,
and none while an activation waits, is log entry 34 (DEDUCED); that the staged image is a pool request of partition 0 and queue 0 is log entry 65. -/
def Obligations.FirmwareUpdate : Prop :=
  (∀ (s : State) (core : Fin 12) (k : Nat) (e : FwEvent), s.fw.held = false → (∀ r ∈ s.runningEvents, r.1 ≠ core.val) →
    (∀ c : Fin 12, c < core → ∃ r ∈ s.runningEvents, r.1 = c.val) → k < 4096 → s.fw.events[k]? = some e → LockFree s e →
    (∀ j f, j < k → s.fw.events[j]? = some f → ¬ LockFree s f) →
    ∃ t till, exec .fwEventTake s = .next t ∧ t = { s with fw := t.fw, draw := t.draw } ∧ t.fw.events = s.fw.events.eraseIdx k ∧
      t.fw.cores = s.fw.cores.put core.val (e, till) ∧ s.gtc ≤ till ∧ till < s.gtc + 6500000) ∧
  (∀ s : State, s.fw.held = true ∨ (∀ c : Fin 12, ∃ r ∈ s.runningEvents, r.1 = c.val) ∨
      (∀ j f, j < 4096 → s.fw.events[j]? = some f → ¬ LockFree s f) → exec .fwEventTake s = .next s) ∧
  (∀ s : State, s.live = false → exec .verify s = .next s ∧ exec .fwVerifyDone s = .next s ∧ exec .fwActivateDone s = .next s ∧
    ∀ f, exec (.activate f) s = .next s) ∧
  (∀ s : State, s.live = true →
    (s.fw.state ≠ 1 → s.fw.state ≠ 3 → exec .verify s = .next { s with
      fw := { s.fw with state := 1, verifyAt := 0 }, poolq := s.poolq ++ [⟨4, 0, 0, s.fw.stage, s.stagedBytes, .image⟩] }) ∧
    (s.natAt (s.fw.stage + 8) 4 ≤ 2 ^ 25 - 4096 → s.stagedBytes = 4096 + s.natAt (s.fw.stage + 8) 4) ∧
    (s.fw.state = 1 ∨ s.fw.state = 3 → exec .verify s = .next s ∧ ∀ f, exec (.activate f) s = .next s)) ∧
  (∀ s : State, s.live = true → s.fw.state ≠ 1 ∨ s.fw.verifyAt = 0 ∨ s.gtc < s.fw.verifyAt → exec .fwVerifyDone s = .next s) ∧
  (∀ s : State, s.live = true → s.fw.state = 1 → s.fw.verifyAt ≠ 0 → s.fw.verifyAt ≤ s.gtc →
    let n := 4096 + s.natAt (s.fw.stage + 8) 4
    exec .fwVerifyDone s = .next (if s.imageValid s.fw.stage then
        { s.putCells (plainCells (slotBase !s.fw.activeSlot) (s.bytesAt s.fw.stage n)) with fw := { s.fw with state := 2, result := 1 } }
      else { s with fw := { s.fw with state := 0, result := 3 } })) ∧
  (∀ (s : State) (f : Bool), s.live = true →
    (s.fw.state = 0 → exec (.activate f) s = .next { s with fw := { s.fw with result := 7 } }) ∧
    (s.fw.state = 2 → s.sched.state = .run ∨ s.sched.state = .fault ∨ s.sched.state = .agree ∨ s.sched.state = .realign →
      exec (.activate f) s = .next { s with fw := { s.fw with result := 5 } }) ∧
    (s.fw.state = 2 → s.sched.state = .idle ∨ s.sched.state = .halted →
      exec (.activate f) s = .next { s with fw := { s.fw with
        state := 3, force := f, held := true, actAt := s.gtc, images := s.fw.images ++ s.pendingImages } })) ∧
  (∀ s : State, s.live = true → s.fw.state = 3 → s.runningEvents ≠ [] → exec .fwActivateDone s = .next s) ∧
  (∀ s : State, s.live = true → s.fw.state = 3 → s.runningEvents = [] →
    let a := slotBase !s.fw.activeSlot
    let reads := fun i : StoredImage => i.layout ≤ s.natAt (a + 6) 2 ∧ s.natAt (a + 6) 2 ≤ i.layout + 2
    ((∀ i ∈ s.fw.images, reads i) → ∃ t, exec .fwActivateDone s = .next t ∧ t = { s with fw := t.fw, grids := t.grids } ∧
      (∀ k, t.grids.find? k = s.grids.find? k) ∧
      t.fw.state = 0 ∧ t.fw.result = 2 ∧ t.fw.activeSlot = !s.fw.activeSlot ∧ t.fw.held = false ∧ t.fw.images = s.fw.images ∧
      t.fw.svn = s.natAt (a + 4) 2 ∧ t.fw.layout = s.natAt (a + 6) 2 ∧ t.fw.hdr = s.bytesAt a 64 ∧ t.fw.failedQueues = 0) ∧
    ((∃ i ∈ s.fw.images, ¬ reads i) → s.fw.force = false → ∃ t, exec .fwActivateDone s = .next t ∧ t = { s with fw := t.fw } ∧
      t.fw.state = 2 ∧ t.fw.result = 4 ∧ t.fw.activeSlot = s.fw.activeSlot ∧ t.fw.held = false ∧ t.fw.layout = s.fw.layout ∧
      ∀ i ∈ s.fw.images, i.pending = false → i ∈ t.fw.images) ∧
    ((∃ i ∈ s.fw.images, ¬ reads i) → s.fw.force = true → ∃ t, exec .fwActivateDone s = .next t ∧ t = { s with fw := t.fw, grids := t.grids } ∧
      t.fw.state = 0 ∧ t.fw.result = 6 ∧ t.fw.activeSlot = !s.fw.activeSlot ∧ t.fw.held = false ∧
      (∀ i, i ∈ t.fw.images ↔ i ∈ s.fw.images ∧ reads i) ∧
      ∀ k g, s.grids.find? k = some g → g.d = none → g.checked = true → (∃ i ∈ s.fw.images, ¬ reads i ∧ i.pending = false ∧
        i.addr = g.image ∧ i.part = g.part) → ∃ h, t.grids.find? k = some h ∧ h.imageFault = some 24))

/-- R4, R5, R18, R20, R38, R57, R62, R74, R80, R334, R93, R63, R122, R184: writes of management registers. A write acts by the Access codes
of the register's fields: RW1C clears where a one is written, RW takes the value, RO and an offset without a register ignore it. A write
of 4 bytes leaves the other half of its register. The Access codes of POD_EPOCH, HBM_UE_ADDR, SCHED_FIRST and SCHED_RESUME are the model's
choice (log entry 58). -/
def Obligations.RegisterWrites : Prop :=
  (∀ (s : State) (bar : Fin 3) (size : Nat) (o : BitVec 26) (v : BitVec 64),
    (s.live = false → exec (.registerWrite bar size o v) s = .next s) ∧
    (s.live = true → (size ≠ 4 ∧ size ≠ 8) ∨ o.toNat % size ≠ 0 ∨ bar = 2 ∨ (bar = 0 ∧ 2 ^ 20 ≤ o.toNat) ∨ (bar = 1 ∧ 2 ^ 22 ≤ o.toNat) →
      exec (.registerWrite bar size o v) s = .next { s with link := { s.link with replies := s.link.replies ++ [.unsupportedAccess] } })) ∧
  (∀ (s : State) (v : BitVec 64), s.live = true →
    exec (.registerWrite 0 8 0x8 v) s = .next { s with fw := { s.fw with stage := v.toNat % 2 ^ 39 } } ∧
    exec (.registerWrite 0 8 0x40 v) s = .next { s with pkg := { s.pkg with
      seqErr := s.pkg.seqErr && !v.getLsbD 31, droop := s.pkg.droop && !v.getLsbD 30,
      railDroop := s.pkg.railDroop &&& ~~~ (v.extractLsb' 10 10) } } ∧
    exec (.registerWrite 0 8 0x300 v) s = .next { s with time := { s.time with timeFault := s.time.timeFault && !v.getLsbD 27 } } ∧
    exec (.registerWrite 0 8 0x310 v) s = .next { s with sched := { s.sched with rounds := v.toNat % 2 ^ 16 } } ∧
    exec (.registerWrite 0 8 0x320 v) s = .next { s with time := { s.time with epoch := v } } ∧
    exec (.registerWrite 0 8 0x600 v) s = .next { s with regEccLatent := field v.toNat 16 16, regEccConsumed := v.toNat % 2 ^ 16 } ∧
    exec (.registerWrite 0 8 0x1400 v) s = .next { s with journal := { s.journal with base := v.toNat % 2 ^ 39 } } ∧
    (∀ o ∈ ([0x0, 0x18, 0x140, 0x178, 0x318, 0x328, 0x400, 0x1410, 0xFFFF8] : List (BitVec 26)), exec (.registerWrite 0 8 o v) s = .next s)) ∧
  (∀ (s : State) (v : BitVec 64) (k : Fin 8), s.live = true → ∃ t, exec (.registerWrite 0 8 (BitVec.ofNat 26 (0x100 + 8 * k.val)) v) s = .next t ∧
    t = { s with hbm := t.hbm } ∧ (∀ j, j ≠ k.val → t.stack j = s.stack j) ∧ t.stack k.val = { s.stack k.val with
      ue := (s.stack k.val).ue && !v.getLsbD 31, debtFault := (s.stack k.val).debtFault && !v.getLsbD 30,
      retryPeak := field v.toNat 23 5, swapPeak := field v.toNat 16 3, ceCount := v.toNat % 2 ^ 16 }) ∧
  (∀ (s : State) (v : BitVec 64) (p : Fin 16), s.live = true → ∃ t, exec (.registerWrite 0 8 (BitVec.ofNat 26 (0x200 + 8 * p.val)) v) s = .next t ∧
    t = { s with ports := t.ports } ∧ (∀ j, j ≠ p.val → t.port j = s.port j) ∧ t.port p.val = { s.port p.val with
      dead := v.getLsbD 30, authFail := (s.port p.val).authFail && !v.getLsbD 29, protoErr := (s.port p.val).protoErr && !v.getLsbD 28,
      unrec := field v.toNat 16 8, replays := v.toNat % 2 ^ 16 }) ∧
  (∀ (s : State) (v : BitVec 64) (r : Fin 1024), s.live = true →
    let at_ := fun k : Nat => BitVec.ofNat 26 (0x10000 + 32 * r.val + k)
    let sets := fun (i : Instr) (x : Ring) => ∃ t, exec i s = .next t ∧ t = { s with rings := t.rings } ∧
      (∀ j, j ≠ r.val → t.ring j = s.ring j) ∧ t.ring r.val = x
    let base := (s.ring r.val).base
    sets (.registerWrite 0 8 (at_ 0) v) { s.ring r.val with base := v.toNat } ∧
    (base < 2 ^ 64 → sets (.registerWrite 0 4 (at_ 0) v) { s.ring r.val with base := base / 2 ^ 32 * 2 ^ 32 + v.toNat % 2 ^ 32 } ∧
      sets (.registerWrite 0 4 (at_ 4) v) { s.ring r.val with base := base % 2 ^ 32 + v.toNat % 2 ^ 32 * 2 ^ 32 }) ∧
    sets (.registerWrite 0 8 (at_ 24) v) { s.ring r.val with seq := v.toNat % 2 ^ 32 }) ∧
  (∀ (s : State) (v : BitVec 64), s.live = true →
    (∀ e ∈ ([(0x308, Instr.timeCfgWrite), (0x408, Instr.pwrCfgWrite), (0x1408, Instr.journalCfgWrite)] : List (BitVec 26 × (BitVec 32 → Instr))),
      exec (.registerWrite 0 8 e.1 v) s = .next { s with pending := e.2 (v.setWidth 32) :: s.pending }) ∧
    (∀ r : Fin 1024, exec (.registerWrite 1 4 (BitVec.ofNat 26 (4096 * r.val)) v) s =
      .next { s with pending := .doorbell r (v.setWidth 32) :: s.pending })) ∧
  (∀ (s : State) (v : BitVec 32), s.live = true →
    exec (.timeCfgWrite v) s = .next { s with time := { s.time with domain := v.toNat % 2 ^ 7 } } ∧
    (800 ≤ v.toNat % 2 ^ 12 → v.toNat % 2 ^ 12 ≤ 2000 →
      exec (.pwrCfgWrite v) s = .next { s with sec := { s.sec with cap := v.toNat % 2 ^ 12 } }) ∧
    (v.toNat % 2 ^ 12 < 800 ∨ 2000 < v.toNat % 2 ^ 12 → exec (.pwrCfgWrite v) s = .next s) ∧
    (v.getLsbD 31 = true → 10 ≤ v.toNat % 2 ^ 5 → v.toNat % 2 ^ 5 ≤ 20 → s.journal.enable = false →
      exec (.journalCfgWrite v) s = .next { s with journal := ⟨s.journal.base, true, false, v.toNat % 2 ^ 5, 0, []⟩ }) ∧
    (v.getLsbD 31 = true → 10 ≤ v.toNat % 2 ^ 5 → v.toNat % 2 ^ 5 ≤ 20 → s.journal.enable = true →
      exec (.journalCfgWrite v) s = .next { s with journal := { s.journal with log2 := v.toNat % 2 ^ 5 } }) ∧
    (v.getLsbD 31 = false ∨ v.toNat % 2 ^ 5 < 10 ∨ 20 < v.toNat % 2 ^ 5 →
      exec (.journalCfgWrite v) s = .next { s with journal := { s.journal with enable := false, log2 := v.toNat % 2 ^ 5 } })) ∧
  (∀ (s : State) (p : Fin 4) (v : BitVec 64), s.live = true →
    ((s.tenant p.val).sealed = true ∨ s.hasContext p.val = true → exec (.ptRootWrite p v) s = .next s) ∧
    ((s.tenant p.val).sealed = false → s.hasContext p.val = false → ∃ t, exec (.ptRootWrite p v) s = .next t ∧
      t = { s with tenants := t.tenants } ∧ (∀ j, j ≠ p.val → t.tenant j = s.tenant j) ∧
      t.tenant p.val = { s.tenant p.val with ptRoot := field v.toNat 15 24 * 2 ^ 15, ptValid := v.getLsbD 0 }) ∧
    ((s.tenant p.val).sealed = true → exec (.flush p) s = .next s) ∧
    ((s.tenant p.val).sealed = false → ∃ t, exec (.flush p) s = .next t ∧ t.mem = s.mem ∧
      ∀ core, t.fills.get [] core = (s.fills.get [] core).filter fun f => decide (f.part ≠ p.val) || (f.page.isNone && !f.fault)))

/-- A timing-port message is read now: the port runs, the message keeps the profile, it is no Announce, and its sender is the selected
master (R59). -/
def Heeds (s : State) (m : PtpMsg) : Prop := s.timing = true ∧ s.meetsProfile m = true ∧ m.kind ≠ .announce ∧ s.fromMaster m = true

/-- R21, R58 to R62, R104: global time. A TAI instant of T ns is the pod time (T - epoch) x 13 / 10 t. That POD_EPOCH counts seconds, and how
long an Announce counts, are the model's (log entries 58 and 64); so are a lock after tick 160 that observes and does not lock, the mean of the kerf
edges formed again at each lock, the receiver of a DEAD port and the one-tick PPS_OUT (DESIGN CHOICE, log entry 46), and the servo (log entry 8). -/
def ClockEvents : Prop :=
  (∀ (s : State) (m : PtpMsg), s.timing = false ∨ s.meetsProfile m = false ∨ (m.kind ≠ .announce ∧ s.fromMaster m = false) →
    exec (.ptpMessage m) s = .next s) ∧
  (∀ (s : State) (m : PtpMsg), m.transportOk = false ∨ m.domain ≠ s.time.domain ∨
    ((m.kind = .syncOneStep ∨ m.kind = .syncTwoStep) ∧ (m.logSync < -7 ∨ 0 < m.logSync)) → s.meetsProfile m = false) ∧
  -- the default algorithm: the least data set among the grandmasters heard in the domain
  (∀ (s : State) (m : PtpMsg), s.timing = true → s.meetsProfile m = true → m.kind = .announce →
    ∃ t, exec (.ptpMessage m) s = .next t ∧ t = { s with time := { s.time with masters := t.time.masters } } ∧
      (∃ x ∈ t.time.masters, x.domain = m.domain ∧ x.source = m.source ∧ x.rank = m.rank ∧ s.gtc ≤ x.till) ∧
      ∀ x : Master, x.domain ≠ m.domain ∨ x.source ≠ m.source → (x ∈ t.time.masters ↔ x ∈ s.time.masters)) ∧
  (∀ (s : State) (m : PtpMsg), s.fromMaster m = true → ∃ x ∈ s.time.masters, x.domain = s.time.domain ∧ x.source = m.source ∧ s.gtc ≤ x.till ∧
    ∀ y ∈ s.time.masters, y.domain = s.time.domain → s.gtc ≤ y.till → ¬ y.rank < x.rank) ∧
  (∀ (s : State) (tai : Nat), s.time.epoch.toNat * 10 ^ 9 ≤ tai → s.podTime tai = (tai - s.time.epoch.toNat * 10 ^ 9) * 13 / 10) ∧
  (∀ (s : State) (m : PtpMsg), Heeds s m → s.time.counting = false → s.inPhase 4 = true → m.kind = .syncOneStep ∨ m.kind = .followUp →
    ∃ t, exec (.ptpMessage m) s = .next t ∧ t.gtc = s.podTime m.tai ∧ t.time.counting = true ∧ t.time.lastSync = s.podTime m.tai) ∧
  (∀ (s : State) (m : PtpMsg), Heeds s m → s.time.counting = true → s.sec.power ≠ 2 →
    (m.kind = .syncTwoStep → exec (.ptpMessage m) s = .next { s with time := { s.time with lastSync := s.gtc, holdover := false } }) ∧
    (s.time.holdover = true → m.kind = .followUp ∨ m.kind = .delayResp → exec (.ptpMessage m) s = .next s) ∧
    (m.kind = .syncOneStep ∨ ((m.kind = .followUp ∨ m.kind = .delayResp) ∧ s.time.holdover = false) →
      let o := s.offset16 m
      let e := Config.servo s.time.servo o
      ∃ t, exec (.ptpMessage m) s = .next t ∧ t.gtc = s.gtc ∧ t.mem = s.mem ∧ t.time.ptp = o ∧ t.time.offset = e ∧
        (t.time.locked = true ↔ e.natAbs ≤ 48) ∧ (m.kind = .syncOneStep → t.time.lastSync = s.gtc ∧ t.time.holdover = false) ∧
        (s.sched.state = .run → 48 < e.natAbs → t.time.timeFault = true ∧ t.sched.cause = 7) ∧
        (s.inPhase 4 = true → e.natAbs ≤ 48 → t.fw.phase = 5))) ∧
  (∀ (s : State) (b : Bool), ∃ t, exec (.ppsIn b) s = .next t ∧ t.time.ppsOk = b ∧ t.pkg.pps = b ∧ t.gtc = s.gtc ∧ t.mem = s.mem ∧
    (b = false ∨ s.time.refOk = false ∨ s.time.holdover = true ∨ s.timing = false ∨ s.time.counting = false →
      t = { s with time := { s.time with ppsOk := b }, pkg := { s.pkg with pps := b } }) ∧
    (b = true → s.time.refOk = true → s.time.holdover = false → s.timing = true → s.time.counting = true →
      t.time.offset = Config.servo s.time.servo s.ppsOffset ∧ (s.gtc % 1300000000 = 0 → s.ppsOffset = 0))) ∧
  (∀ s : State, s.live = true → s.time.counting = true →
    (s.gtc % 1300000000 = 0 → exec .ppsOut s = .next { s with time := { s.time with ppsOut := true } }) ∧
    (s.gtc % 1300000000 ≠ 0 → exec .ppsOut s = .next s)) ∧
  (∀ s : State, s.timing = true → s.time.counting = true → s.time.holdover = false →
    (s.time.lastSync + 8 * 1300000000 ≤ s.gtc → exec .holdover s = .next { s with time := { s.time with holdover := true } }) ∧
    (s.gtc < s.time.lastSync + 8 * 1300000000 → exec .holdover s = .next s)) ∧
  (∀ s : State, s.sched.state = .run → s.time.lastSync + 1300000000 ≤ s.gtc → s.time.lastLock + 1300000000 ≤ s.gtc →
    ∃ t, exec .timeFaultTimeout s = .next t ∧ t.time.timeFault = true ∧ t.sched.cause = 7 ∧ t.sched.faultAt.isSome = true ∧
      t.sched.state = .run ∧ t.gtc = s.gtc ∧ t.mem = s.mem) ∧
  (∀ (s : State) (p : Fin 16) (tau : Nat), s.live = true → s.time.counting = true → (s.port p.val).dead = false →
    (s.port p.val).far (leafOf s.gtc) = false →
    ∃ t, exec (.portLock p tau) s = .next t ∧ t.gtc = s.gtc ∧ t.mem = s.mem ∧
      (t.port p.val).kerf = some (s.gtc / 4096, (tau : Int) - 2496) ∧
      (s.gtc % 4096 ≤ 160 → (t.port p.val).locked = some (s.gtc / 4096) ∧ t.time.lastLock = s.gtc) ∧
      (160 < s.gtc % 4096 → (t.port p.val).locked = (s.port p.val).locked ∧ t.time.lastLock = s.time.lastLock) ∧
      (let n := (t.kerfObs (s.gtc / 4096)).length
       t.time.kerfPorts = if 8 ≤ n then n - 4 else n) ∧
      (∀ q, q ≠ p.val → t.port q = s.port q)) ∧
  (∀ (s : State) (p : Fin 16) (tau : Nat), s.live = false ∨ s.time.counting = false ∨ (s.port p.val).dead = true ∨
    (s.port p.val).far (leafOf s.gtc) = true → exec (.portLock p tau) s = .next s)

/-- R75, R76: the realignment of the GTC by the whole ticks of the offset, PTP's or in HOLDOVER that of the kerf edges, and the device hold, which
ends when the GTC reads v + h; an offset beyond 32 t halts the device. What a hold moves, and whose offset it takes, is log entry 45 (DEDUCED). -/
def Realignment : Prop :=
  (∀ s : State, s.sched.state = .realign → s.sched.hold = none → s.gtc = (s.sched.first + 3) * 131072 + 16 * 4096 →
    let d := roundSixteenths (if s.time.holdover = true then s.time.kerf else s.time.ptp)
    (32 < d.natAbs → exec .gtcRealign s = .next { s with sched := { s.sched with state := .halted, active := false } }) ∧
    (d.natAbs ≤ 32 → ∃ t, exec .gtcRealign s = .next t ∧ t.mem = s.mem ∧ (t.gtc : Int) = s.gtc - d ∧
      t.sched.hold = some (s.gtc, (64 + d % 8 - d).toNat) ∧ t.sched.held = (64 + d % 8).toNat ∧ t.sched.state = .realign ∧
      -- what was due later falls h ticks later, or follows the HBM slot of its request to the slot's new place
      ∀ k w, s.warp? k = some w → ∃ v, t.warp? k = some v ∧ v.landings.length = w.landings.length ∧
        ∀ (i : Nat) (l : Landing), w.landings[i]? = some l → ∃ m : Landing, v.landings[i]? = some m ∧ m = { l with tick := m.tick } ∧ (l.tick < s.gtc → m.tick = l.tick) ∧
          (s.gtc ≤ l.tick → l.tick + (64 + d % 8 - d).toNat ≤ m.tick ∧
            ((∀ j, j < 8 → l.tick - 128 ∉ s.slots.get [] (w.core * 8 + j) ∧ l.tick - 216 ∉ s.slots.get [] (w.core * 8 + j)) →
              m.tick = l.tick + (64 + d % 8 - d).toNat)))) ∧
  (∀ s : State, s.gtcRealignDue = false → exec .gtcRealign s = .next s) ∧
  (∀ (s : State) (v h : Nat), s.sched.hold = some (v, h) → s.sched.held ≠ 0 →
    (v + h ≤ s.gtc → exec .deviceHoldEnd s = .next { s with sched := { s.sched with held := 0 } }) ∧
    (s.gtc < v + h → exec .deviceHoldEnd s = .next s)) ∧
  (∀ s : State, s.sched.hold = none ∨ s.sched.held = 0 → exec .deviceHoldEnd s = .next s) ∧
  (∀ o : Int, (16 * roundSixteenths o - o).natAbs ≤ 8)

/-- R21, R58 to R62, R75, R76, R104: global time and its realignment. Log entries 8, 45, 46, 58 and 64 name the model's choices in it. -/
def Obligations.TimeEvents : Prop := ClockEvents ∧ Realignment

/-- R18, R81 to R85, R94: rings and queues. A ring's queue, size and partition change only while it is disabled; a doorbell beyond
the ring's size rejects the queue with code 4; a packet at or beyond the tail is fetched no more. A queue that is disabled ends its taken packets
that are not dispatched with ABORTED, in the journal and by NOTIFY. That an enable keeps the tail is the model's choice (log entry 58). -/
def Obligations.RingsAndQueues : Prop :=
  (∀ (s : State) (i : Fin 1024) (q : Fin 64) (v : BitVec 32) (p : Packet), s.live = false →
    exec (.ringCfgWrite i v) s = .next s ∧ exec (.doorbell i v) s = .next s ∧ exec (.packetFetch i p) s = .next s ∧
    exec (.clear q) s = .next s ∧ exec (.mergeCfgWrite q v) s = .next s) ∧
  (∀ (s : State) (i : Fin 1024) (v : BitVec 32), s.live = true →
    let r := s.ring i.val
    let lq := field v.toNat 24 6
    let lg := field v.toNat 20 4
    let part := field v.toNat 18 2
    let en := v.getLsbD 31 && decide (lg ≤ 10)
    (r.enable = true → lq ≠ r.lq ∨ lg ≠ r.log2 ∨ part ≠ r.part → exec (.ringCfgWrite i v) s = .next s) ∧
    (r.enable = false ∨ (lq = r.lq ∧ lg = r.log2 ∧ part = r.part) → ∃ t, exec (.ringCfgWrite i v) s = .next t ∧
      t = { s with rings := t.rings } ∧ (∀ j, j ≠ i.val → t.ring j = s.ring j) ∧
      (en = true → r.enable = false → t.ring i.val = ⟨r.base, true, lq, lg, part, v.toNat % 2 ^ 11, 0, r.tail, r.seq, []⟩) ∧
      (en = false ∨ r.enable = true → t.ring i.val = { r with enable := en, lq := lq, log2 := lg, part := part, vector := v.toNat % 2 ^ 11 }))) ∧
  (∀ (s : State) (i : Fin 1024) (tail : BitVec 32), s.live = true → s.sec.power ≠ 2 →
    let r := s.ring i.val
    let ahead := fun k : Nat => (BitVec.ofNat 32 k - BitVec.ofNat 32 r.head).toNat
    let n := ahead tail.toNat
    (n ≤ 2 ^ (r.log2 + 6) → ∃ t, exec (.doorbell i tail) s = .next t ∧ t = { s with rings := t.rings } ∧
      (∀ j, j ≠ i.val → t.ring j = s.ring j) ∧
      t.ring i.val = { r with tail := tail.toNat, fetched := r.fetched.filter fun e => decide (ahead e.1 < n) }) ∧
    (2 ^ (r.log2 + 6) < n → ∃ t, exec (.doorbell i tail) s = .next t ∧ t.rings = s.rings ∧ t.mem = s.mem ∧
      (∀ q, q ≠ r.lq → t.lqueue q = s.lqueue q) ∧ t.lqueue r.lq = { s.lqueue r.lq with halted := true, err := 4, errRing := i.val })) ∧
  (∀ (s : State) (i : Fin 1024) (tail : BitVec 32), s.live = true → s.sec.power = 2 → s.sec.wakeAt = none →
    ∃ t, exec (.doorbell i tail) s = .next t ∧ t.sec = { s.sec with wakeAt := some (s.gtc + 13000) }) ∧
  (∀ (s : State) (i : Fin 1024) (p : Packet),
    let r := s.ring i.val
    let n := (r.head + r.fetched.length) % 2 ^ 32
    let room := (BitVec.ofNat 32 r.tail - BitVec.ofNat 32 r.head).toNat
    (s.live = true → s.fw.ready = true → s.link.busMaster = true → s.link.d3 = false → r.enable = true → r.fetched.length < room →
      ∃ t, exec (.packetFetch i p) s = .next t ∧ t = { s with rings := t.rings } ∧ (∀ j, j ≠ i.val → t.ring j = s.ring j) ∧
        (t.ring i.val).fetched.find? n = some p ∧ t.ring i.val = { r with fetched := (t.ring i.val).fetched }) ∧
    (s.fw.ready = false ∨ s.link.busMaster = false ∨ s.link.d3 = true ∨ r.enable = false ∨ room ≤ r.fetched.length →
      exec (.packetFetch i p) s = .next s)) ∧
  (∀ (s : State) (q : Fin 64), s.live = true → ∃ t, exec (.clear q) s = .next t ∧ t = { s with queues := t.queues } ∧
    (∀ k, k ≠ q.val → t.lqueue k = s.lqueue k) ∧ t.lqueue q.val = { s.lqueue q.val with halted := false, err := 0, errRing := 0 }) ∧
  (∀ (s : State) (q : Fin 64) (v : BitVec 32), s.live = true →
    let x := s.lqueue q.val
    ∃ t, exec (.mergeCfgWrite q v) s = .next t ∧ t.mem = s.mem ∧ (∀ k, k ≠ q.val → t.lqueue k = s.lqueue k) ∧
      (x.enable = false ∨ v.getLsbD 31 = true → t = { s with queues := t.queues } ∧
        t.lqueue q.val = { x with enable := v.getLsbD 31, prio := field v.toNat 28 3, watchdog := v.toNat % 2 ^ 24 }) ∧
      (x.enable = true → v.getLsbD 31 = false → (∀ id ∈ x.chain, t.cmds.find? id = none) ∧
        t.lqueue q.val = { x with enable := false, prio := field v.toNat 28 3, watchdog := v.toNat % 2 ^ 24, chain := [] } ∧
        (x.chain.Nodup → (∀ id ∈ x.chain, ∃ c, s.cmds.find? id = some c ∧ c.fin = none ∧ c.node = none) →
          (∀ id ∈ x.chain, ∀ c, s.cmds.find? id = some c → ∃ r ∈ t.poolq, r.cls = 1 ∧ r.addr = c.entry + 24 ∧ r.size = 8 ∧
            r.what = .cells ((leBytes 8 (9 * 2 ^ 56 + s.gtc % 2 ^ 48)).zipIdx.map fun e => (c.entry + 24 + e.2, e.1))) ∧
          t.link.msix = s.link.msix ++ x.chain.flatMap fun id => match s.cmds.find? id with
            | some c => if c.pkt.notify = true then [(s.ring c.ring).vector] else []
            | none => [])))

/-- R87, R88: the code of a packet that a ring may not hold. -/
def rejectCode (p : Packet) (seq : Nat) : Nat :=
  if ¬ (p.opcode ≤ 7 ∨ (0x10 ≤ p.opcode ∧ p.opcode ≤ 0x12)) then 1
  else if 0x10 ≤ p.opcode then 5
  else if p.reservedBad = true then 2
  else if p.seq ≠ seq then 3
  else 0

/-- Ring `i` is a member of queue `q` that holds a fetched packet at its head (R84). -/
def Holds (s : State) (q i : Nat) : Prop :=
  ∃ r, s.rings.find? i = some r ∧ r.enable = true ∧ r.lq = q ∧ (r.fetched.find? r.head).isSome = true

/-- The turns of a queue (R84): the next ring is the lowest one after the last that this turn visited that holds a packet, or else the lowest of a new
turn. When a queue takes a packet, and dispatches a command: the release and the D of R89. That none begins while its partition's regions are being
zeroed is log entry 50 (DEDUCED). -/
def TurnsAndReleases : Prop :=
  (∀ (s : State) (q : Nat), (s.rings.map (·.1)).Pairwise (· < ·) →
    (s.nextRing q = none ↔ ∀ i, ¬ Holds s q i) ∧
    ∀ i, s.nextRing q = some i → Holds s q i ∧
      ((s.lqueue q).visited = none → ∀ j, Holds s q j → i ≤ j) ∧
      (∀ v, (s.lqueue q).visited = some v → (v < i ∧ ∀ j, Holds s q j → v < j → i ≤ j) ∨
        ((∀ j, Holds s q j → j ≤ v) ∧ ∀ j, Holds s q j → i ≤ j))) ∧
  (∀ (s : State) (q : Nat), s.mayTake q = true ↔ s.live = true ∧ s.fw.ready = true ∧ s.journal.enable = true ∧ (s.lqueue q).enable = true ∧
    (s.lqueue q).halted = false ∧ (s.lqueue q).chain.length < 64 ∧ s.eventHeld = false ∧ s.sec.power ≠ 2 ∧ s.sec.wakeAt = none ∧
    s.pkg.stopped = false ∧ s.holding q ≠ []) ∧
  (∀ (s : State) (q id : Nat), s.mayDispatch q = some id ↔ s.live = true ∧ s.pkg.stopped = false ∧ s.fw.held = false ∧ (s.lqueue q).enable = true ∧
    (s.lqueue q).chain.head? = some id ∧ ∃ c, s.cmds.find? id = some c ∧ s.beingZeroed c.part = false ∧
      ∀ k p, (s.lqueue q).cur = some k → s.cmds.find? k = some p → ∃ d, p.d = some d ∧ d + 1 ≤ s.gtc ∧
        (c.pkt.overlap = true ∨ ∃ f, p.fin = some f ∧ f ≤ s.gtc))

/-- R84, R87 to R89, R92 to R94: a queue takes the packet at the head of its next ring, journals it, and accepts or rejects it;
the next command, or the next node of a graph, is dispatched. -/
def TakesAndDispatches : Prop :=
  (∀ (s : State) (q : Fin 64), s.mayTake q.val = false → exec (.packetTake q) s = .next s) ∧
  (∀ (s : State) (q : Fin 64), s.mayTake q.val = true → s.slotBusy = true →
    exec (.packetTake q) s = .next { s with journal := { s.journal with full := true } }) ∧
  (∀ (s : State) (q : Fin 64) (i : Nat) (p : Packet), s.mayTake q.val = true → s.slotBusy = false → s.nextRing q.val = some i →
    (s.ring i).fetched.find? (s.ring i).head = some p →
    let code := rejectCode p (s.ring i).seq
    ∃ t, exec (.packetTake q) s = .next t ∧ t.mem = s.mem ∧ t.gtc = s.gtc ∧ t.journal.taken = s.journal.taken + 1 ∧
      (t.ring i).head = ((s.ring i).head + 1) % 2 ^ 32 ∧ (t.ring i).fetched.find? (s.ring i).head = none ∧
      (∀ j, j ≠ i → t.ring j = s.ring j) ∧
      ((t.rings.map (·.1)).Pairwise (· < ·) → ((∀ k, i < k → ¬ Holds t q.val k) → (t.lqueue q.val).visited = none) ∧
        ∀ k, i < k → Holds t q.val k → (∀ j, i < j → j < k → ¬ Holds t q.val j) → (t.lqueue q.val).visited = some (k - 1)) ∧
      (∃ r, t.poolq = s.poolq ++ [r] ∧ r.cls = 1 ∧ r.size = 32 ∧ r.addr = s.journal.base + 32 * (s.journal.taken % 2 ^ s.journal.log2)) ∧
      (code ≠ 0 → (t.ring i).seq = (s.ring i).seq ∧ (t.lqueue q.val).halted = true ∧ (t.lqueue q.val).err = code ∧
        (t.lqueue q.val).errRing = i ∧ (t.lqueue q.val).chain = (s.lqueue q.val).chain ∧ t.cmds = s.cmds ∧
        t.link.msix = s.link.msix ++ (if p.notify = true then [(s.ring i).vector] else [])) ∧
      (code = 0 → (t.ring i).seq = ((s.ring i).seq + 1) % 2 ^ 32 ∧ (t.lqueue q.val).halted = (s.lqueue q.val).halted ∧
        (t.lqueue q.val).chain = (s.lqueue q.val).chain ++ [s.fresh] ∧
        ∃ c, t.cmds.find? s.fresh = some c ∧ c.pkt = p ∧ c.lq = q.val ∧ c.ring = i ∧ c.part = (s.ring i).part ∧ c.take = s.gtc ∧
          c.d = none ∧ c.fin = none ∧ c.status = .accepted ∧ (p.opcode = 1 ↔ c.grid.isSome = true) ∧
          ∀ g, c.grid = some g → ∃ h, t.grids.find? g = some h ∧ h.cmd = some s.fresh ∧ h.image = field p.w1.toNat 0 52 ∧
            h.start = p.w2.toNat ∧ h.take = s.gtc ∧ h.d = none)) ∧
  (∀ (s : State) (q : Fin 64), (∀ e ∈ s.readyGraphs, e.2.lq ≠ q.val) →
    (s.mayDispatch q.val = none → exec (.dispatch q) s = .next s) ∧
    (∀ id c, s.mayDispatch q.val = some id → s.cmds.find? id = some c → (s.lqueue q.val).cur ≠ some id → c.node = none →
      ∃ t, exec (.dispatch q) s = .next t ∧ t.pending = commandStep c.pkt.opcode id :: s.pending ∧ t.mem = s.mem ∧
        t.cmds.find? id = some { c with d := some s.gtc, status := .dispatched } ∧
        t.lqueue q.val = { s.lqueue q.val with chain := (s.lqueue q.val).chain.drop 1, cur := some id } ∧
        ∃ r, t.poolq = s.poolq ++ [r] ∧ r.cls = 1 ∧ r.size = 16)) ∧
  (∀ (s : State) (q : Fin 64) (gid : Nat) (g : Cmd) (p : Packet), s.readyGraphs.find? (fun e => decide (e.2.lq = q.val)) = some (gid, g) →
    g.nodes[g.nextNode]? = some p → ∃ t, exec (.dispatch q) s = .next t ∧ t.pending = commandStep p.opcode s.fresh :: s.pending ∧
      t.queues = s.queues ∧ t.mem = s.mem ∧ ∃ c, t.cmds.find? s.fresh = some c ∧ c.pkt = p ∧ c.node = some (gid, g.nextNode) ∧ c.d = some s.gtc)

/-- R84, R87 to R89, R92 to R94: the turns of a queue, what it takes and what it dispatches. -/
def Obligations.TakeAndDispatch : Prop := TurnsAndReleases ∧ TakesAndDispatches

/-- A command has just been dispatched: its effect is to come on this tick (R86, R89). -/
def Dispatched (s : State) (id : Nat) (c : Cmd) : Prop := s.cmds.find? id = some c ∧ c.fin = none ∧ c.d = some s.gtc

/-- A command of `s` has ended in `t` (R86, R93). -/
def Ended (s t : State) (id : Nat) (st : Status) (code : Nat) : Prop :=
  ∃ c, t.cmds.find? id = some c ∧ c.status = st ∧ c.code = code ∧ c.fin = some s.gtc

/-- R86, R92, R93: the host commands that run in the hub, and the nodes of a graph. `hostAddr` is the physical address of an aligned
address of the command's partition, none where it may not be used. That a FAILED or KILLED node ends its graph at once with the same status and code,
and that CMP 6 or 7 and LIMIT 0 fail the graph with code 18, is log entry 38 (DEDUCED); code 16 for a WRITE to a read-only page is log entry 37. -/
def Obligations.HostCommands : Prop :=
  -- the end of a command: its status, its journal write and its interrupt
  (∀ (s : State) (id : Nat) (c : Cmd) (st : Status) (code : Nat), s.cmds.find? id = some c → c.fin = none → c.node = none →
    let t := s.endCmd id st code
    t.cmds.find? id = some { c with status := st, code := code, fin := some s.gtc } ∧ (∀ k, k ≠ id → t.cmds.find? k = s.cmds.find? k) ∧
    t.mem = s.mem ∧ (∃ r, t.poolq = s.poolq ++ [r] ∧ r.cls = 1 ∧ r.size = 8) ∧
    t.link.msix = s.link.msix ++ (if c.pkt.notify = true then [(s.ring c.ring).vector] else []) ∧
    t.fw.events = s.fw.events ++ [⟨some c.lq, 1⟩]) ∧
  -- a node that ends FAILED or KILLED ends its graph with the same status and code
  (∀ (s : State) (id g i : Nat) (c G : Cmd) (st : Status) (code : Nat), s.cmds.find? id = some c → c.fin = none → c.node = some (g, i) →
    g ≠ id → s.cmds.find? g = some G → G.fin = none → let t := s.endNodeCmd id st code
    t.mem = s.mem ∧ Ended s t id st code ∧ (st = .failed ∨ st = .killed → Ended s t g st code) ∧
    (st ≠ .failed → st ≠ .killed → t = s.endCmd id st code)) ∧
  (∀ (s : State) (id : Nat) (c : Cmd) (st : Status) (code : Nat), s.cmds.find? id = some c → c.node = none →
    s.endNodeCmd id st code = s.endCmd id st code) ∧
  (∀ (s : State) (id : Nat) (c : Cmd), Dispatched s id c → exec (.nop id) s = .next (s.endCmd id .done 0)) ∧
  (∀ (s : State) (id : Nat) (c : Cmd), Dispatched s id c →
    (s.hostAddr c.part (field c.pkt.w1.toNat 0 52) 8 false = none → exec (.wait id) s = .next (s.endNodeCmd id .failed 16)) ∧
    (∀ pa, s.hostAddr c.part (field c.pkt.w1.toNat 0 52) 8 false = some pa →
      (c.pkt.w2.toNat ≤ s.natAt pa 8 → ∃ t, exec (.wait id) s = .next t ∧ t.mem = s.mem ∧ Ended s t id .done 0) ∧
      (s.natAt pa 8 < c.pkt.w2.toNat → ∃ t, exec (.wait id) s = .next t ∧ t = { s with cmds := t.cmds, hbm := t.hbm } ∧
        t.cmds.find? id = some { c with addr := pa } ∧ ∀ k, k ≠ id → t.cmds.find? k = s.cmds.find? k))) ∧
  (∀ (s : State) (id : Nat) (c : Cmd), (s.cmds.map (·.1)).Nodup → s.cmds.find? id = some c → c.pkt.opcode = 3 → c.fin = none →
    ∀ d, c.d = some d → let bound := (s.lqueue c.lq).watchdog
    (c.pkt.w2.toNat ≤ s.natAt c.addr 8 → bound = 0 ∨ s.gtc ≤ d + bound * 1300 →
      ∃ t, exec .waitSatisfied s = .next t ∧ t.mem = s.mem ∧ Ended s t id .done 0) ∧
    (s.natAt c.addr 8 < c.pkt.w2.toNat → ∃ t, exec .waitSatisfied s = .next t ∧ t.mem = s.mem ∧ t.cmds.find? id = some c) ∧
    (bound ≠ 0 → d + bound * 1300 < s.gtc → ∃ t, exec .waitWatchdog s = .next t ∧ t.mem = s.mem ∧ Ended s t id .killed 0) ∧
    (bound = 0 ∨ s.gtc ≤ d + bound * 1300 → (∀ e ∈ s.cmds, ∀ i, e.2.node ≠ some (id, i)) → ∃ t, exec .waitWatchdog s = .next t ∧ t.mem = s.mem ∧ t.cmds.find? id = some c)) ∧
  (∀ (s : State) (id : Nat) (c : Cmd), Dispatched s id c →
    (s.hostAddr c.part (field c.pkt.w1.toNat 0 52) 8 true = none → exec (.write id) s = .next (s.endNodeCmd id .failed 16)) ∧
    (∀ pa, s.hostAddr c.part (field c.pkt.w1.toNat 0 52) 8 true = some pa →
      ∃ t, exec (.write id) s = .next t ∧ t = { s with poolq := s.poolq ++ [⟨2, c.part, c.lq, pa, 8, .hostWrite id⟩], hbm := t.hbm })) ∧
  (∀ (s : State) (id : Nat) (c : Cmd), (s.cmds.map (·.1)).Nodup → s.cmds.find? id = some c → c.pkt.opcode = 4 → c.fin = none →
    c.d.isSome = true → ∀ w, c.due = some w →
    (w ≤ s.gtc → ∃ t, exec .writeCompletion s = .next t ∧ t.mem = s.mem ∧ Ended s t id .done 0) ∧
    (s.gtc < w → ∃ t, exec .writeCompletion s = .next t ∧ t.mem = s.mem ∧ t.cmds.find? id = some c)) ∧
  (∀ (s : State) (id : Nat) (c : Cmd), Dispatched s id c → c.node = none →
    let n := field c.pkt.w2.toNat 0 16
    let pas := (List.range n).map fun i => s.hostAddr c.part (field c.pkt.w1.toNat 0 52 + 64 * i) 64 false
    let ps := (pas.filterMap fun a => a).map s.packetAt
    (n = 0 ∨ 256 < n → exec (.graph id) s = .next (s.endCmd id .failed 18)) ∧
    (n ≠ 0 → n ≤ 256 → none ∈ pas → exec (.graph id) s = .next (s.endCmd id .failed 16)) ∧
    (n ≠ 0 → n ≤ 256 → none ∉ pas → (∃ e ∈ ps.zipIdx, nodeOk n e.2 e.1 = false) →
      ∃ t, exec (.graph id) s = .next t ∧ t.mem = s.mem ∧ Ended s t id .failed 18) ∧
    (n ≠ 0 → n ≤ 256 → none ∉ pas → (∀ e ∈ ps.zipIdx, nodeOk n e.2 e.1 = true) → c.nextNode = 0 →
      ∃ t k, exec (.graph id) s = .next t ∧ t.mem = s.mem ∧ t.pending = commandStep ((ps.getD 0 c.pkt).opcode) k :: s.pending ∧
        (t.cmds.find? k).bind (·.node) = some (id, 0) ∧ (t.cmds.find? k).bind (·.d) = some s.gtc)) ∧
  -- the nodes
  (∀ (s : State) (id g i : Nat) (c G : Cmd), Dispatched s id c → c.node = some (g, i) → g ≠ id → s.cmds.find? g = some G → G.fin = none →
    let va := field c.pkt.w1.toNat 0 52
    let tgt := field c.pkt.w2.toNat 48 16
    let max := field c.pkt.w3.toNat 0 32
    (s.hostAddr c.part va 4 false = none →
      (∃ t, exec (.cond id) s = .next t ∧ Ended s t id .failed 16 ∧ Ended s t g .failed 16) ∧
      (∃ t, exec (.loop id) s = .next t ∧ Ended s t id .failed 16 ∧ Ended s t g .failed 16)) ∧
    (∀ pa, s.hostAddr c.part va 4 false = some pa →
      let h := predicateHolds (field c.pkt.w2.toNat 32 3) (s.natAt pa 4) (field c.pkt.w2.toNat 0 32)
      (∃ t, exec (.cond id) s = .next t ∧ t.mem = s.mem ∧ Ended s t id .done 0 ∧
        t.cmds.find? g = some { G with nextNode := if h then tgt else i + 1 }) ∧
      (h = false → ∃ t, exec (.loop id) s = .next t ∧ t.mem = s.mem ∧ Ended s t id .done 0 ∧
        t.cmds.find? g = some { G with loops := G.loops.put i 0 }) ∧
      (h = true → G.loops.get 0 i < max → ∃ t, exec (.loop id) s = .next t ∧ t.mem = s.mem ∧ Ended s t id .done 0 ∧
        t.cmds.find? g = some { G with nextNode := tgt, loops := G.loops.put i (G.loops.get 0 i + 1) }) ∧
      (h = true → max ≤ G.loops.get 0 i → ∃ t, exec (.loop id) s = .next t ∧ t.mem = s.mem ∧ Ended s t id .failed 19 ∧ Ended s t g .failed 19)) ∧
    (∃ t, exec (.endNode id) s = .next t ∧ t.mem = s.mem ∧ Ended s t id .done 0 ∧ Ended s t g .done 0)) ∧
  (∀ w v : Nat, w < 2 ^ 32 → v < 2 ^ 32 → predicateHolds 0 w v = decide (w = v) ∧ predicateHolds 1 w v = decide (w ≠ v) ∧
    predicateHolds 2 w v = decide (w < v) ∧ predicateHolds 3 w v = decide (w ≥ v) ∧
    predicateHolds 4 w v = decide ((BitVec.ofNat 32 w).toInt < (BitVec.ofNat 32 v).toInt) ∧
    predicateHolds 5 w v = decide ((BitVec.ofNat 32 w).toInt ≥ (BitVec.ofNat 32 v).toInt))

/-- R90, R91, R127 to R129, R140, R141, R143: the life of a grid in the hub: staging, the checks, LAUNCH, PREEMPT, the freeze, the resume
image, the drain bound and the retire tick. That an image whose header cannot be read ends 16 before its layout is judged is log entry 39, and that
a freeze with Z = D acts on D, also without an active schedule image, is log entry 40 (DEDUCED). -/
def Obligations.GridLife : Prop :=
  -- staging moves 1,024 B on a data tick; the last one fixes the staged tick
  (∀ (s : State) (gid : Nat) (g : Grid), s.stagingDue = some (gid, g) → s.grids.find? gid = some g → g.s0.isSome = true →
    ∃ t h, exec .staging s = .next t ∧ t.mem = s.mem ∧ t.stageEnd = s.gtc + 1 ∧ t.grids.find? gid = some h ∧
      h.moved = g.moved + min 1024 (g.total - g.moved) ∧ (g.moved + 1024 < g.total → h.staged = none) ∧
      (g.total ≤ g.moved + 1024 → h.staged = some (s.gtc + 640 +
        if (g.unmapped = false ∨ 256 < g.total) ∧ layoutReadable s.fw.layout g.hdr.layout = true ∧ g.hdr.layout ≠ s.fw.layout then 13000 else 0))) ∧
  (∀ s : State, s.stagingDue = none → exec .staging s = .next s) ∧
  (∀ (s : State) (gid : Nat) (g : Grid), s.stagingDue = some (gid, g) → g.s0 = none →
    (s.openStaging gid g = none → exec .staging s = .next s) ∧
    ((s.openStaging gid g).isSome = true → s.grids.find? gid = some g → ∃ t h, exec .staging s = .next t ∧ t.mem = s.mem ∧
      t.grids.find? gid = some h ∧ h.s0 = some s.gtc ∧ h.moved = g.moved + min 1024 (h.total - g.moved))) ∧
  -- the checks, in their order
  (∀ (s : State) (g : Grid) (bs : List Byte),
    (g.unmapped = true → g.total ≤ 256 → (s.judgeImage g bs).1 = some 16) ∧
    (g.unmapped = false ∨ 256 < g.total →
      (layoutReadable s.fw.layout g.hdr.layout = false → (s.judgeImage g bs).1 = some 24) ∧
      (layoutReadable s.fw.layout g.hdr.layout = true →
        (g.hdr.rangeOk = false → (s.judgeImage g bs).1 = some 25) ∧
        (g.hdr.rangeOk = true → g.unmapped = true → (s.judgeImage g bs).1 = some 16)))) ∧
  (∀ (s : State) (gid : Nat) (g : Grid), s.grids.find? gid = some g → s.stagedNow = [(gid, g)] → g.d = none →
    (∀ e ∈ s.grids, e.2.stager ≠ some gid) → ∃ t h, exec .staged s = .next t ∧ t = { s with grids := t.grids } ∧
      t.grids.find? gid = some h ∧ h.checked = true ∧ h.imageFault = (s.judgeImage g (s.imageBytes gid)).1 ∧ h.poss = g.poss ∧
      ∀ k, k ≠ gid → t.grids.find? k = s.grids.find? k) ∧
  -- LAUNCH
  (∀ (s : State) (id gid : Nat) (c : Cmd) (g : Grid), Dispatched s id c → c.grid = some gid → s.grids.find? gid = some g →
    g.indirect = none → g.staged = none → g.checked = false → (∀ e ∈ s.stagedNow, e.1 ≠ g.stager.getD gid) → (s.grids.map (·.1)).Nodup → ∃ t h, exec (.launch id) s = .next t ∧ t.mem = s.mem ∧ t.cmds = s.cmds ∧
      t.grids.find? gid = some h ∧ h = { g with d := some s.gtc, slip0 := s.slips, prio := (s.lqueue c.lq).prio }) ∧
  (∀ (s : State) (id gid : Nat) (c : Cmd) (g : Grid), Dispatched s id c → c.grid = some gid → s.grids.find? gid = some g →
    g.indirect = none → g.checked = true → g.status = none → g.poss = [] → c.node = none → c.pkt.opcode = 1 → g.cmd = some id →
    g.eng = none → (∀ e ∈ s.stagedNow, e.1 ≠ g.stager.getD gid) → (s.cmds.map (·.1)).Nodup → (s.grids.map (·.1)).Nodup →
    let cs := cursorsOf g.hdr (s.imageBytes gid)
    (∀ code, (g.imageFault <|> countFault g (g.count.getD g.hdr.gcount) cs) = some code → ∃ t h, exec (.launch id) s = .next t ∧ t.mem = s.mem ∧
      Ended s t id .failed code ∧ t.grids.find? gid = some h ∧ h.status = some .failed) ∧
    ((g.imageFault <|> countFault g (g.count.getD g.hdr.gcount) cs) = none → ∃ t h, exec (.launch id) s = .next t ∧ t.mem = s.mem ∧
      t.cmds = s.cmds ∧ t.grids.find? gid = some h ∧ h.d = some s.gtc ∧ h.groups = g.count.getD g.hdr.gcount ∧
      h.poss.length = cs.length ∧ ∀ e ∈ h.poss, e.2.phase = .waiting ∨ e.2.phase = .released)) ∧
  -- PREEMPT
  (∀ (s : State) (id : Nat) (c : Cmd), Dispatched s id c →
    let mine (g : Grid) : Prop := g.lq = field c.pkt.w1.toNat 0 6 ∧ g.d.isSome = true ∧ g.status = none
    ((∀ e ∈ s.grids, ¬ mine e.2) → exec (.preempt id) s = .next (s.endCmd id .done 0)) ∧
    (∀ gid g, s.grids.find? gid = some g → mine g → ∃ t h C l, exec (.preempt id) s = .next t ∧
      t = { s with grids := t.grids, cmds := t.cmds, warps := t.warps, pending := l ++ s.pending } ∧ (∀ i ∈ l, ∃ a b, i = .resourceRelease a b) ∧
      t.grids.find? gid = some h ∧ h = { g with freeze := h.freeze } ∧ t.cmds.find? id = some C ∧ gid ∈ C.waiting ∧ C.fin = none ∧
      (∀ f, g.freeze = some f → f.acted = true ∨ s.gtc < f.z → h.freeze = some f) ∧
      -- with Z = D the freeze acts on this very tick
      (g.freeze = none → s.sched.active = false ∨ g.checked = false ∨ g.hdr.pod = false →
        (∃ z, h.freeze = some ⟨s.gtc, z, c.pkt.w1.getLsbD 8, true, (s.drainBound g).map (s.gtc + ·), false, false⟩) ∧
        ∀ k w, s.warp? k = some w → w.grid = gid → ∃ v, t.warp? k = some v ∧
          v.acc.ckptReq = (if c.pkt.w1.getLsbD 8 = true then !w.acc.gone else w.acc.ckptReq) ∧
          v.exe.ckptReq = (if c.pkt.w1.getLsbD 8 = true then !w.exe.gone else w.exe.ckptReq)))) ∧
  -- the freeze tick
  (∀ (s : State) (gid : Nat) (g : Grid) (f : Freeze), s.grids.find? gid = some g → g.freeze = some f → f.acted = false → f.z ≤ s.gtc →
    g.status = none → ∃ t h, exec (.freeze gid) s = .next t ∧ t = { s with grids := t.grids, warps := t.warps } ∧ t.grids.find? gid = some h ∧
      h = { g with freeze := some { f with acted := true, bound := (s.drainBound g).map (f.z + ·) } } ∧
      (∀ k w, s.warp? k = some w → (w.grid ≠ gid ∨ f.ckpt = false → t.warp? k = some w) ∧
        (w.grid = gid → f.ckpt = true → ∃ v, t.warp? k = some v ∧ v.acc.ckptReq = !w.acc.gone ∧ v.exe.ckptReq = !w.exe.gone))) ∧
  -- the resume image
  (∀ (s : State) (gid : Nat) (g : Grid) (f : Freeze) (cs : List (Nat × Byte)), s.grids.find? gid = some g → g.freeze = some f →
    g.imageDue s.gtc = true → s.cellsAt g.part g.hdr.resume (g.contextImage g.hdr.resume PosState.cursor) = some cs →
    ∃ t h w, exec (.resumeImageWrite gid) s = .next t ∧ t.mem = s.mem ∧ t.writes = s.writes ++ [w] ∧ w.wct = s.gtc + 680 ∧
      w.cells = cs.map (fun c => (c.1, c.2, none)) ∧ t.grids.find? gid = some h ∧ h.freeze = some { f with image := true } ∧
      h.maxWct = max g.maxWct (s.gtc + 680)) ∧
  -- the drain bound
  (∀ (s : State) (gid : Nat) (g : Grid), s.grids.find? gid = some g → s.drainDue g = true → ∃ t h, exec .drainBoundExpiry s = .next t ∧
    t.mem = s.mem ∧ t.grids.find? gid = some h ∧ h.killed = true ∧ ∀ k w, t.warp? k = some w → w.grid ≠ gid) ∧
  (∀ s : State, (∀ e ∈ s.grids, s.drainDue e.2 = false) → exec .drainBoundExpiry s = .next s) ∧
  -- the retire tick
  (∀ (s : State) (gid id : Nat) (g : Grid) (c : Cmd), s.grids.find? gid = some g → s.retireDue gid g = true → g.cmd = some id → g.eng = none →
    s.cmds.find? id = some c → c.fin = none → c.node = none → c.pkt.opcode = 1 → (s.cmds.map (·.1)).Nodup →
    ∃ t h, exec (.gridRetire gid) s = .next t ∧ t.mem = s.mem ∧ t.grids.find? gid = some h ∧
      (g.killed = true → h.status = some .killed ∧ Ended s t id .killed 0) ∧
      (g.killed = false → g.stopped = true → h.status = some .failed ∧ Ended s t id .failed g.failCode) ∧
      (g.killed = false → g.stopped = false →
        ((∃ f, g.freeze = some f ∧ f.acted = true ∧ f.image = true) → h.status = some .preempted ∧ Ended s t id .preempted 0) ∧
        ((∀ f, g.freeze = some f → f.acted = false ∨ f.image = false) → h.status = some .done ∧ Ended s t id .done 0)))

/-- R120, R130, R133 to R139, R178: the distributor: the next position that fits is placed, its units cleared; an instance starts with
its entry; the resources of a position are released. -/
def Obligations.Placement : Prop :=
  (∀ (s : State) (u : Pending) (j : Nat) (g : Grid) (q : PosState) (v : State), s.nextPlace = some (u, v) → u.js = [j] →
    s.grids.find? u.gid = some g → u.g = g → g.poss.find? j = some q → s.MemOk → g.hdr.codelen ≤ 65536 →
    (g.hdr.cunit < g.unit0 j ∨ g.unit0 j + g.hdr.scru ≤ g.hdr.cunit) → g.hdr.cunit < 95 → g.unit0 j + g.hdr.scru ≤ 95 →
    ∃ t h p, exec .placement s = .next t ∧ t.MemOk ∧ t.warps = s.warps ∧ t.grids.find? u.gid = some h ∧
      h.poss.find? j = some p ∧ p.phase = .loading (max (s.gtc + 104) g.start) ∧ p.next = q.next ∧
      (∀ a, scratchBase ((s.tenant g.part).slotBase + g.lcore j) + g.unit0 j * 65536 ≤ a →
        a < scratchBase ((s.tenant g.part).slotBase + g.lcore j) + (g.unit0 j + g.hdr.scru) * 65536 → t.byteAt a = 0) ∧
      (∀ a, a < 2 ^ 40 → t.byteAt a = s.byteAt a)) ∧
  (∀ s : State, s.nextPlace = none → exec .placement s = .next s) ∧
  (∀ (s : State) (gid j : Nat) (g : Grid) (p : PosState) (e : Entry), s.grids.find? gid = some g → g.poss.find? j = some p →
    g.starts j p s.gtc = true → posEntry g.groups g.hdr.iters g.npos j p.next = some e →
    ∃ t h, exec (.instanceStart gid j) s = .next t ∧ t.mem = s.mem ∧ t.grids.find? gid = some h ∧
      h.poss.find? j = some { p with phase := .running, next := p.next + 1, restore := false, cut := false } ∧
      (∀ w, w < g.hdr.wpt → ∃ v, t.warp? (((s.tenant g.part).slotBase + g.lcore j) * 32 + (g.warp0 j + w)) = some v ∧
        v.grid = gid ∧ v.pos = j ∧ v.w = w ∧ v.start = s.gtc ∧
        v.acc.pc = g.hdr.cunit * 65536 + (if p.restore = true then g.hdr.restoreA else g.hdr.entryA) ∧
        v.exe.pc = g.hdr.cunit * 65536 + (if p.restore = true then g.hdr.restoreE else g.hdr.entryE) ∧
        ∀ x : Strm, (v.strm x).mask = Mask.full ∧ (v.strm x).phase = .idle ∧ (v.strm x).reg 0 = RVal.ofWord (BitVec.ofNat 32 e.group) ∧
          (v.strm x).reg 1 = RVal.ofWord (BitVec.ofNat 32 e.first) ∧ (v.strm x).reg 2 = RVal.ofWord (BitVec.ofNat 32 e.count) ∧
          ∀ n, 6 ≤ n → (v.strm x).reg n = RVal.ofWord 0) ∧
      (∀ k v, s.warp? k = some v → (∀ w, w < g.hdr.wpt → k ≠ ((s.tenant g.part).slotBase + g.lcore j) * 32 + (g.warp0 j + w)) →
        t.warp? k = some v)) ∧
  (∀ (s : State) (gid j : Nat) (g : Grid) (p : PosState), s.grids.find? gid = some g → g.poss.find? j = some p →
    (g.releases j p s.gtc = true → ∃ t h, exec (.resourceRelease gid j) s = .next t ∧ t = { s with grids := t.grids } ∧
      t.grids.find? gid = some h ∧ h.poss.find? j = some { p with phase := .released, bank := 2 } ∧
      ∀ k, k ≠ gid → t.grids.find? k = s.grids.find? k) ∧
    (g.releases j p s.gtc = false → exec (.resourceRelease gid j) s = .next s))

/-- R146, R151, R155, R161, R180, R185, R201, R214, R216, R218, R334, R347, R369: idle beats, engine commands, deliveries, releases and
page walks. Where a register-file error strikes in a U and an A register is log entry 28, and that reservations of earlier ticks alone end the park
of a pop is log entry 17 (DEDUCED). -/
def Obligations.StreamEvents : Prop :=
  (∀ (s : State) (core : Nat) (p : Fin 4) (x : Strm),
    let slot := (s.feNow core p.val x).next
    ∃ t, exec (.idleBeat core p x) s = .next t ∧ t.mem = s.mem ∧ t.gtc = s.gtc ∧ t.grids = s.grids ∧
      (t.fe (feKey core p.val x)).turn = none ∧ (t.fe (feKey core p.val x)).slot = (slot + 1) % 8 ∧
      (t.fe (feKey core p.val x)).joined = [] ∧ (∀ k, k ≠ feKey core p.val x → t.fe k = s.fe k) ∧
      (∀ k, k ≠ slotKey core p.val slot → t.warp? k = s.warp? k) ∧
      ∀ w, s.warp? (slotKey core p.val slot) = some w → ∃ v, t.warp? (slotKey core p.val slot) = some v ∧
        (v.strm x).turnNo = (w.strm x).turnNo + 1 ∧ (v.strm x).skipTurn = false ∧ (v.strm x).regs = (w.strm x).regs ∧ (v.strm x).pc = (w.strm x).pc) ∧
  -- an engine command starts once its terms are known
  (∀ (s : State) (o : Nat) (c : EngCmd) (g : Grid), s.cmdsE.find? o = some c → c.ord = o → c.s = none → s.cmdGrid c = some g →
    (∀ u, s.startOf c = some u → s.gtc < u → exec (.engineCommandStart o) s = .next s) ∧
    (s.startOf c = none → exec (.engineCommandStart o) s = .next s) ∧
    (∀ u, s.startOf c = some u → u ≤ s.gtc → ∃ t e, exec (.engineCommandStart o) s = .next t ∧ (c.inc = 0 → t.mem = s.mem) ∧ t.gtc = s.gtc ∧
      t.cmdsE.find? o = some e ∧ e.s = some s.gtc ∧ e.fn = c.fn ∧ e.words = c.words ∧
      (c.fn = 9 → e.done = some (s.gtc + 16 + 8 * c.tpl.e 0)) ∧
      (c.fn = 10 → ∃ h, e.child = some s.fresh ∧ t.grids.find? s.fresh = some h ∧ h.image = c.va 3 ∧ h.take = s.gtc ∧ h.d = some s.gtc ∧
        h.eng = some o) ∧
      (c.fn = 11 → c.csp = 1 → e.done = some (s.gtc + 8)))) ∧
  (∀ (s : State) (o d : Nat) (c : EngCmd), s.cmdsE.find? o = some c → c.ord = o → c.done = some d → c.finished = false →
    (d ≤ s.gtc → ∃ t e, exec .engineDone s = .next t ∧ t.mem = s.mem ∧ t.cmdsE.find? o = some e ∧ e = { c with finished := true } ∧
      ∀ m w, c.fault = some m → s.warp? c.warp = some w → w.grid = c.grid → w.start = c.inst →
        ∃ v, t.warp? c.warp = some v ∧ (d, m) ∈ v.faulted) ∧
    (s.gtc < d → ∃ t, exec .engineDone s = .next t ∧ t.mem = s.mem ∧ t.cmdsE.find? o = some c)) ∧
  -- queue entries, mailboxes
  (∀ s : State, ∃ t, exec .queueLanding s = .next t ∧ t = { s with warps := t.warps } ∧
    ∀ k w, s.warp? k = some w → ∃ v, t.warp? k = some v ∧ v = { w with queues := v.queues } ∧
      ∀ q, v.queue q = (w.queue q).map fun r => if r.land.any (fun l => decide (l ≤ s.gtc)) = true ∧ r.val.isSome = true then { r with landed := true } else r) ∧
  (∀ (s : State) (m : MailMsg), s.mails = [m] → m.wct ≤ s.gtc → s.MemOk →
    (s.grids.find? m.grid = none → exec .mailboxDelivery s = .next { s with mails := [] }) ∧
    (∀ g h, s.grids.find? m.grid = some g → g.bankOn (m.core - (s.tenant g.part).slotBase) = some h →
      let n := s.mbox.get 0 (m.core * 2 + h)
      ∃ t, exec .mailboxDelivery s = .next t ∧ t.mails = [] ∧ t.MemOk ∧ t.mbox.get 0 (m.core * 2 + h) = (n + 1) % 2 ^ 32 ∧
        ∀ k, k < 128 → t.byteAt (scratchBase m.core + 0x5F0000 + 0x8000 * h + 128 * (n % 256) + k) =
          BitVec.ofNat 8 (field (m.words.getD (k / 4) 0).toNat (8 * (k % 4)) 8))) ∧
  -- parked streams
  (∀ (s : State) (k : Nat) (w : Warp) (x : Strm) (p : Park), (s.warps.map (·.1)).Nodup → s.warp? k = some w → (w.strm x).phase = .parked p →
    (∃ t v, exec .parkRelease s = .next t ∧ t.mem = s.mem ∧ t.gtc = s.gtc ∧ t.warp? k = some v ∧
      (s.clears k w x p = true → (v.strm x).phase = .released) ∧ (s.clears k w x p = false → v.strm x = w.strm x)) ∧
    (∃ t v, exec .barrierRelease s = .next t ∧ t.mem = s.mem ∧ t.gtc = s.gtc ∧ t.warp? k = some v ∧
      (p.onBarrier = true → s.clears k w x p = true → (v.strm x).phase = .released) ∧
      (p.onBarrier = false ∨ s.clears k w x p = false → v.strm x = w.strm x))) ∧
  (∀ (s : State) (k : Nat) (w : Warp) (x : Strm),
    (∀ q, s.clears k w x (.popEmpty q) = true ↔ (∃ r ∈ w.live q, r.issued < s.gtc) ∨ (w.strm (queueProducer q)).gone = true) ∧
    (∀ q n, s.clears k w x (.pushFull q n) = true ↔ (w.live q).length + n ≤ queueDepth q ∨ (w.strm (queueConsumer q)).gone = true) ∧
    (∀ u, s.clears k w x (.until u) = true ↔ u ≤ s.gtc) ∧ s.clears k w x .debug = false ∧
    (∀ n, s.clears k w x (.stage n) = true ↔ s.stageHeld w.core + n ≤ 64) ∧
    (∀ u, s.clears k w x (.hbmLimit u) = true ↔ u ≤ s.gtc) ∧
    (∀ o, s.clears k w x (.engLimit o) = true ↔ ∀ c, s.cmdsE.find? o = some c → ∃ d, c.done = some d ∧ d ≤ s.gtc)) ∧
  -- page walks
  (∀ (s : State) (core : Nat) (k : Walk) (f : Fill), s.walks = [(core, k)] → s.fills = [(core, [f])] → f.va = k.va → f.page = none →
    f.fault = false → k.done ≤ s.gtc →
    (∀ e ∈ s.parked, ∀ ps w, e.2.2 = .fill ps → s.warp? e.1 = some w → w.core = core ∧ w.part = f.part ∧ ∀ p ∈ ps, p = f.va) →
    (∀ a, s.ptJudge f.part k.level (k.va * 0x10000) k.val = .table a →
      let b := ptEntryAddr a (k.level + 1) (k.va * 0x10000)
      ∃ t, exec .pageWalkLevel s = .next t ∧ t.mem = s.mem ∧ t.fills = s.fills ∧
        t.walks = [(core, ⟨k.va, k.level + 1, b, s.natAt b 8, s.gtc + 640⟩)] ∧ t.poolq = s.poolq ++ [⟨3, f.part, 0, b / 64 * 64, 64, .walk core⟩]) ∧
    (∀ p, s.ptJudge f.part k.level (k.va * 0x10000) k.val = .page p → ∃ t, exec .pageWalkLevel s = .next t ∧ t.mem = s.mem ∧
      t.walks = [] ∧ t.fills = [(core, [{ f with page := some p }])]) ∧
    (s.ptJudge f.part k.level (k.va * 0x10000) k.val = .fault → ∃ t, exec .pageWalkLevel s = .next t ∧ t.mem = s.mem ∧
      t.walks = [] ∧ t.fills = [(core, [{ f with fault := true }])])) ∧
  -- an uncorrectable error of a register
  (∀ (s : State) (k : Nat) (w : Warp) (x : Strm) (r : Fin 112) (l : Fin 32), s.warp? k = some w →
    ∃ t v, exec (.registerFileError k x r l) s = .next t ∧ t = { s with warps := t.warps, regErr := t.regErr } ∧ t.warp? k = some v ∧
      (∀ n, n ≠ r.val → (v.strm x).reg n = (w.strm x).reg n) ∧ ((v.strm x).reg r.val).v = ((w.strm x).reg r.val).v ∧
      (∀ ws, ((w.strm x).reg r.val).v = .g ws → ((v.strm x).reg r.val).marks.find? l.val = some .ecc ∧
        ∀ j, j ≠ l.val → ((v.strm x).reg r.val).marks.find? j = ((w.strm x).reg r.val).marks.find? j) ∧
      (∀ y, ((w.strm x).reg r.val).v = .u y → (l.val = 0 → ∀ j, j < 32 → ((v.strm x).reg r.val).marks.find? j = some .ecc) ∧
        (l.val ≠ 0 → v.strm x = { w.strm x with regs := (v.strm x).regs } ∧ ((v.strm x).reg r.val) = (w.strm x).reg r.val)) ∧
      (∀ b g, ((w.strm x).reg r.val).v = .a b g → (l.val < 2 → ∀ j, j < 32 → ((v.strm x).reg r.val).marks.find? j = some .ecc) ∧
        (2 ≤ l.val → ((v.strm x).reg r.val) = (w.strm x).reg r.val)))

/-- R24, R32 to R38: the slack window of a leaf takes the temperature band, issues refreshes and keeps the debt, rereads, swaps and retries; what
the HBM controllers met is counted and marked; a beat of a closed row, or of an unopened segment of an open one, takes an activate. The tick of each
phase, the row open until its latest beat's slot + 64, one debt per stack, the counts that a refresh note restarts and the failed retry that goes behind
the others are log entry 54 (DEDUCED). -/
def Obligations.SlackWindow : Prop :=
  -- the drain: the band of the leaf
  (∀ (s : State) (temp : Nat), s.live = true → s.fw.tuned = true → s.time.counting = true → s.gtc % 4096 < 64 →
    s.hbmLeaf < s.gtc / 4096 * 8 + 1 → ∃ t, exec (.slackWindow temp []) s = .next t ∧ t.mem = s.mem ∧ t.gtc = s.gtc ∧ t.pkg.temp = temp ∧
      t.pkg.alert = (s.pkg.alert || decide (100 ≤ temp)) ∧ t.pkg.thermtrip = (s.pkg.thermtrip || decide (110 ≤ temp)) ∧
      t.hbmLeaf = s.gtc / 4096 * 8 + 1 ∧ t.poison = s.poison ∧ ∀ k, k < 8 →
        t.stack k = { s.stack k with band := if temp < 85 then 0 else if temp < 100 then 1 else 2, issued := 0 }) ∧
  -- the refreshes, the debt and the rereads
  (∀ (s : State) (temp : Nat), s.live = true → s.fw.tuned = true → s.time.counting = true → s.gtc % 4096 = 64 →
    s.hbmLeaf < s.gtc / 4096 * 8 + 2 → ∃ t, exec (.slackWindow temp []) s = .next t ∧ t.mem = s.mem ∧ t.gtc = s.gtc ∧
      t.hbmLeaf = s.gtc / 4096 * 8 + 2 ∧ ((∀ k, k < 8 → (s.stack k).rereads = []) → t.poison = s.poison) ∧ ∀ k, k < 8 →
        let x := s.stack k
        let need := if x.band = 0 then 8 else if x.band = 1 then 16 else 32
        let debt := x.debt + need - min 24 (need + x.debt)
        (t.stack k).band = x.band ∧ (t.stack k).debt = debt ∧ (t.stack k).issued = min 24 (need + x.debt) ∧
        (t.stack k).debtFault = (x.debtFault || decide (64 < debt)) ∧ (64 < debt → t.sched.cause = 1) ∧
        (t.stack k).retry = x.retry ∧ (t.stack k).cands = x.cands ∧ (t.stack k).ceCount = x.ceCount ∧ (t.stack k).ue = x.ue ∧
        ∀ b ∈ x.rereads, ∃ ok, (b, ok) ∈ (t.stack k).readLog) ∧
  -- the row swaps
  (∀ (s : State) (temp : Nat), s.live = true → s.fw.tuned = true → s.time.counting = true → s.gtc % 4096 = 244 →
    s.hbmLeaf < s.gtc / 4096 * 8 + 3 → ∃ t, exec (.slackWindow temp []) s = .next t ∧ t.mem = s.mem ∧ t.poison = s.poison ∧
      t.hbmLeaf = s.gtc / 4096 * 8 + 3 ∧ ∀ k, k < 8 → (8 < (s.stack k).issued → t.stack k = s.stack k) ∧
        ((s.stack k).issued ≤ 8 → (t.stack k).debt = (s.stack k).debt ∧ (t.stack k).retry = (s.stack k).retry ∧
          (∀ c, (s.stack k).cands = [c] → (t.stack k).cands = [] ∧ (t.stack k).rowCopy = some c) ∧
          ∀ c ∈ (t.stack k).cands, c ∈ (s.stack k).cands)) ∧
  -- the four retries of each channel
  (∀ (s : State) (temp i : Nat), s.live = true → s.fw.tuned = true → s.time.counting = true → i < 4 → s.gtc % 4096 = 340 + 11 * i →
    s.hbmLeaf < s.gtc / 4096 * 8 + 4 + i → ∃ t, exec (.slackWindow temp []) s = .next t ∧ t.mem = s.mem ∧ t.poison = s.poison ∧
      t.hbmLeaf = s.gtc / 4096 * 8 + 4 + i ∧ ∀ k, k < 8 → ∀ ch, (t.stack k).retry.get [] ch = ((s.stack k).retry.get [] ch).drop 1) ∧
  (∀ (failed r : List Nat) (b : Nat), retryOne failed (b :: r) = if b ∈ failed then r ++ [b] else r) ∧
  (∀ (s : State) (temp : Nat) (ns : List HbmNote), s.live = false ∨ s.fw.tuned = false → exec (.slackWindow temp ns) s = .next s) ∧
  -- what the controllers met
  (∀ (s : State) (temp pa : Nat), s.live = true → s.fw.tuned = true → s.windowDue = none → pa < 2 ^ 39 →
    let k := s.hbmStack pa
    (∃ t, exec (.slackWindow temp [.corrected pa]) s = .next t ∧ t.mem = s.mem ∧ t.stack k = { s.stack k with ceCount := min 0xFFFF ((s.stack k).ceCount + 1) }) ∧
    (∃ t, exec (.slackWindow temp [.uncorrectable pa]) s = .next t ∧ t.mem = s.mem ∧ pa / 64 ∈ (t.stack k).bad ∧
      (t.stack k).ue = (s.stack k).ue ∧ (t.stack k).rereads = (s.stack k).rereads ∧
      (∀ a, a / 64 = pa / 64 → t.markAt a = some ((s.markAt a).getD .ecc)) ∧ ∀ a, a / 64 ≠ pa / 64 → t.markAt a = s.markAt a) ∧
    (∃ t, exec (.slackWindow temp [.readFailed pa]) s = .next t ∧ t.mem = s.mem ∧ pa / 64 ∈ (t.stack k).bad ∧
      (t.stack k).rereads = (s.stack k).rereads ++ [pa / 64] ∧ ∀ a, a / 64 = pa / 64 → t.markAt a = some ((s.markAt a).getD .ecc)) ∧
    (∃ t, exec (.slackWindow temp [.recovered pa]) s = .next t ∧ t.mem = s.mem ∧ ∀ a, a / 64 = pa / 64 → t.markAt a ≠ some .ecc) ∧
    -- a refresh ends: one of those that the window issued, and one bank of each pseudo-channel
    (let bank := s.hbmBank pa
     let ends := ∃ i, i < (s.stack k).issued ∧ s.gtc % 4096 = 64 + 6 * i + 138
     let alone := ∀ b, (s.gtc, b) ∈ (s.stack k).refreshes → b = bank ∨ b % 64 ≠ bank % 64
     ∃ t, exec (.slackWindow temp [.refreshed pa]) s = .next t ∧ t.mem = s.mem ∧
      (ends ∧ alone → (t.stack k).acts.get 0 (rowKey bank ((s.stack k).physRow bank (s.hbmRow pa))) = 0 ∧ (s.gtc, bank) ∈ (t.stack k).refreshes) ∧
      (¬ (ends ∧ alone) → t.hbm = s.hbm)) ∧
    (((s.stack k).retry.get [] (s.hbmChannel pa)).length < 16 → ∃ t, exec (.slackWindow temp [.writeFailed pa]) s = .next t ∧ t.mem = s.mem ∧
      (t.stack k).retry.get [] (s.hbmChannel pa) = (s.stack k).retry.get [] (s.hbmChannel pa) ++ [pa / 64]) ∧
    (16 ≤ ((s.stack k).retry.get [] (s.hbmChannel pa)).length → ∃ t, exec (.slackWindow temp [.writeFailed pa]) s = .next t ∧
      (t.stack k).debtFault = true ∧ t.sched.cause = 3 ∧ ∀ a, a / 64 ≠ pa / 64 → s.MemOk → t.byteAt a = s.byteAt a)) ∧
  -- a read of a beat that reads as uncorrectable sets UE and keeps the first such address
  (∀ (s : State) (a : Nat), a < 2 ^ 39 → s.markAt a = some .ecc → a / 64 ∈ (s.stack (s.hbmStack (a / 64 * 64))).bad →
    let k := s.hbmStack (a / 64 * 64)
    ((s.sawBad [a]).stack k).ue = true ∧
    ((s.sawBad [a]).stack k).ueAddr = (if (s.stack k).ue = true then (s.stack k).ueAddr else a / 64 * 64)) ∧
  -- activates and swap candidates
  (∀ (s : State) (k bank row mask : Nat),
    let phys := (s.stack k).physRow bank row
    let key := rowKey bank phys
    let n := (s.stack k).acts.get 0 key
    let t := s.openRow k bank row mask
    t.mem = s.mem ∧
    ((∀ o ∈ (s.stack k).opens, o.bank = bank → o.row = phys → o.till ≤ s.gtc) →
      (t.stack k).acts.get 0 key = n + 1 ∧ (⟨bank, phys, mask, s.gtc + 64⟩ : OpenRow) ∈ (t.stack k).opens) ∧
    (∀ o, (s.stack k).opens = [o] → o.bank = bank → o.row = phys → s.gtc < o.till →
      (t.stack k).acts.get 0 key = (if o.mask ||| mask = o.mask then n else n + 1) ∧
      (t.stack k).opens = [⟨bank, phys, o.mask ||| mask, s.gtc + 64⟩])) ∧
  (∀ (s : State) (k bank row : Nat),
    let key := rowKey bank ((s.stack k).physRow bank row)
    ((s.stack k).acts.get 0 key + 1 ≠ 4096 → ((s.countActivate k bank row).stack k).cands = (s.stack k).cands) ∧
    ((s.stack k).acts.get 0 key + 1 = 4096 →
      (((s.stack k).cands.filter fun c => decide (c.1 = bank)).length < 4 →
        ((s.countActivate k bank row).stack k).cands = (s.stack k).cands ++ [(bank, row)]) ∧
      (4 ≤ ((s.stack k).cands.filter fun c => decide (c.1 = bank)).length →
        ((s.countActivate k bank row).stack k).debtFault = true ∧ (s.countActivate k bank row).sched.cause = 2 ∧
        ((s.countActivate k bank row).stack k).cands = (s.stack k).cands)))

/-- A data position of a port is launched now (R44, R46, R48, R52): sealed under the key of its direction of the leaf's link, kept until its verdict is
known, with the verdicts that wait. -/
def SentAs (s t : State) (p pos : Nat) (c : Content) : Prop :=
  let x := s.port p
  let leaf := s.gtc / 4096
  ∃ b, (t.port p).out = some b ∧ b ∈ (t.port p).store ∧ (t.port p).store.length ≤ 64 ∧ b.pos = pos ∧ b.leaf = leaf ∧
    b.launch = s.gtc ∧ b.counter = x.counter ∧ (t.port p).counter = x.counter + 1 ∧
    b.keyGen = ((x.txRots.get [] (leaf % 32)).filter (· ≤ x.counter)).length ∧
    (b.cipher, b.tag) = Config.gcmSeal (Config.linkKey s.sched.podNumber (s.partner p (leaf % 32)) p b.keyGen)
      (bundleIv s.sched.podNumber p x.counter) (bundleAad leaf p pos) c.payload ∧
    b.poison = c.poison ∧ b.dataPoison = c.dataPoison ∧ b.verdicts = x.verdicts ∧ (t.port p).verdicts = []

/-- The device is in FAULT or AGREE: every bundle that begins carries the control record and the poison bit (R70, R75). -/
def Poisons (s : State) : Prop := s.sched.state = .fault ∨ s.sched.state = .agree

/-- R44, R70, R73 to R75: control records as they are sent, each early by the delay of its port's link, and received. -/
def ControlRecords : Prop :=
  (∀ s : State, ∃ t, exec .controlRecord s = .next t ∧ t = { s with ports := t.ports } ∧ t.port 0 = s.port 0 ∧ ∀ p, 0 < p → p < 16 →
    let due := s.gtc / 4096 % 32 = 0 ∧ s.gtc % 4096 + (s.port p).delays.get 0 0 = 160 ∧ s.sends p s.gtc = true
    (¬ due → t.port p = s.port p) ∧
    (due → ∃ b : Bool, (b = true ↔ Poisons s) ∧ SentAs s t p 0 ⟨s.controlBytes (s.gtc / 131072), b, false⟩)) ∧
  (∀ (s : State) (frame : Nat), (dedup (s.ownDead ++ s.sched.deadLinks)).length ≤ 1952 → frame < 2 ^ 64 →
    let bs := s.controlBytes frame
    bs.length = 4096 ∧ getLE bs 0 4 = 1 ∧ getLE bs 4 2 = s.sched.podNumber % 2 ^ 16 ∧ getLE bs 6 1 = s.sched.state.code ∧ getLE bs 8 8 = frame ∧
    getLE bs 66 2 = (dedup (s.ownDead ++ s.sched.deadLinks)).length) ∧
  (∀ (s : State) (p : Fin 16) (r : CtrlRecord), s.live = false → exec (.controlRecordReceive p r) s = .next s) ∧
  (∀ (s : State) (p : Fin 16) (r : CtrlRecord), s.live = true → ∃ t, exec (.controlRecordReceive p r) s = .next t ∧ t.mem = s.mem ∧ t.gtc = s.gtc ∧
    (r.zeroTail = false → (t.port p.val).protoErr = true) ∧
    (s.sched.state = .run ∨ s.sched.state = .fault →
      (∀ l ∈ r.dead, l ∈ t.sched.deadLinks) ∧ (∀ l ∈ s.sched.deadLinks, l ∈ t.sched.deadLinks) ∧ t.sched.state = s.sched.state ∧
      (r.fFirst = none → t.sched = { s.sched with deadLinks := t.sched.deadLinks }) ∧
      (∀ f, r.fFirst = some f → t.sched.cause = 8 ∧ t.sched.faultAt.isSome = true ∧ (∃ e, t.sched.knownFirst = some e ∧ e ≤ f ∧
        ∀ g, s.sched.knownFirst = some g → e ≤ g) ∧ (∀ d ∈ r.faulted, d ∈ t.sched.faulted) ∧
        (s.sched.state = .fault → t.sched.knownFirst = some t.sched.first ∧ t.sched.resume = t.sched.first + 4))) ∧
    (let agrees := r.fFirst = some s.sched.first ∧ r.fResume = some s.sched.resume ∧ r.imageId.toNat = s.imageId
     (s.sched.state = .agree → s.sched.first + 3 ≤ r.frame → ¬ agrees → t.sched.agreeOk = false ∧ t.sched.state = .agree) ∧
     (s.sched.state = .realign → s.sched.first + 3 ≤ r.frame → ¬ agrees → t.sched.state = .halted ∧ t.sched.active = false) ∧
     (s.sched.state = .agree ∨ s.sched.state = .realign → agrees ∨ r.frame < s.sched.first + 3 → t.sched.state = s.sched.state ∧
       t.sched.agreeOk = s.sched.agreeOk)))

/-- R66 to R69, R74, R78, R79, R86: loading, activating and recording with a pod schedule image. -/
def ImageCommands : Prop :=
  (∀ (s : State) (id : Nat) (c : Cmd), Dispatched s id c →
    let va := field c.pkt.w1.toNat 0 52
    let n := field c.pkt.w2.toNat 0 32
    (s.spanAt c.part va n = none → exec (.schedLoad id) s = .next (s.endCmd id .failed 16)) ∧
    (∀ bs, s.spanAt c.part va n = some bs → ∃ t w, exec (.schedLoad id) s = .next t ∧ t.mem = s.mem ∧
      t.cmds.find? id = some { c with data := bs, due := some w } ∧ s.gtc ≤ w ∧ w ≤ s.gtc + 13000000 + (n + 63) / 64)) ∧
  (∀ (s : State) (id w : Nat) (c : Cmd), s.cmds.find? id = some c → c.pkt.opcode = 5 → c.fin = none → c.due = some w → w ≤ s.gtc →
    let index := field c.pkt.w2.toNat 32 4
    let judged := s.judgeSchedule c.data index
    (judged.1 = [] → ∃ t, exec (.schedLoadDone id) s = .next t ∧ t.mem = s.mem ∧ Ended s t id .done 0 ∧
      t.sched = { s.sched with loadErr := 0, images := s.sched.images.put index judged.2 }) ∧
    (judged.1 ≠ [] → ∃ t k, exec (.schedLoadDone id) s = .next t ∧ t.mem = s.mem ∧ Ended s t id .failed 20 ∧
      t.sched = { s.sched with loadErr := k } ∧ k ∈ judged.1 ∧ ∀ j ∈ judged.1, k ≤ j)) ∧
  (∀ (s : State) (id : Nat) (c : Cmd), Dispatched s id c →
    let index := field c.pkt.w1.toNat 0 4
    let base := field c.pkt.w2.toNat 0 47
    let ok := (s.sched.state = .idle ∨ s.sched.state = .halted) ∧ s.gtc / 131072 + 2 ≤ base ∧ (s.sched.images.find? index).isSome = true
    (ok → exec (.schedActivate id) s = .next { s with cmds := s.cmds.modify id fun c => { c with addr := index, due := some (base * 131072) } }) ∧
    (¬ ok → exec (.schedActivate id) s = .next (s.endCmd id .failed 21))) ∧
  (∀ (s : State) (id b : Nat) (c : Cmd), (s.cmds.map (·.1)).Nodup → s.cmds.find? id = some c → c.pkt.opcode = 6 → c.d.isSome = true →
    c.fin = none → c.due = some (b * 131072) → b * 131072 ≤ s.gtc → s.activations = [(id, c)] →
    ∃ t, exec .activationTakesEffect s = .next t ∧ t.mem = s.mem ∧ Ended s t id .done 0 ∧ t.sched.state = .run ∧ t.sched.active = true ∧
      t.sched.image = c.addr ∧ t.sched.base = b ∧ t.sched.knownFirst = none ∧ t.sched.faultAt = none ∧ t.sched.images = s.sched.images) ∧
  -- boundary images
  (∀ s : State, s.sched.state ≠ .run ∨ s.gtc % 131072 ≠ 0 ∨ s.isBoundary (s.gtc / 131072) = false → exec .boundaryImage s = .next s) ∧
  (∀ (s : State) (gid : Nat) (g : Grid) (cs : List (Nat × Byte)), s.sched.state = .run → s.gtc % 131072 = 0 →
    s.isBoundary (s.gtc / 131072) = true → s.podGrids = [(gid, g)] → s.grids.find? gid = some g → g.stopped = false →
    (∃ q ∈ g.poss, q.2.blocks ≠ []) → ∀ a, a = g.hdr.boundary + g.bcount % 2 * boundarySize g.npos →
    s.cellsAt g.part a (g.contextImage a PosState.exited) = some cs →
    ∃ t h, exec .boundaryImage s = .next t ∧ t.mem = s.mem ∧ t.grids.find? gid = some h ∧ h = { g with bcount := g.bcount + 1 } ∧
      (⟨gid, g.hdr.layout, g.lq, a, some (s.gtc / 131072), false, g.part, g.start⟩ : StoredImage) ∈ t.fw.images ∧
      ∀ c ∈ cs, ∃ r ∈ t.poolq, r.cls = 0 ∧ r.part = g.part ∧ r.addr = c.1 / 64 * 64 ∧ r.size = 64 ∧
        ∃ l, r.what = .cells l ∧ c ∈ l)

/-- R44, R66 to R70, R73 to R75, R78, R79, R86: pod schedule images and control records. How long a check takes is open within its bound (log entry
9). Which codes the reserved bits of an avoid entry and a relay to a position that carries nothing earn is log entry 44 (DESIGN CHOICE). That the dead
links of a record join whether or not it names a fault frame, that agreement is judged from F_first + 3 on, and that a mismatch in REALIGN halts at once,
are log entry 42 (DEDUCED); CAUSE 8 on each receipt is log entry 48. -/
def Obligations.ScheduleImages : Prop := ImageCommands ∧ ControlRecords

/-- R70, R73 to R78: rounds of resynchronisation: a schedule fault, the states of a round at their boundaries, and the relaunch. That a device
without an image halts at leaf 0 of F_first + 2 is log entry 42; that a START of 0 stays 0, and that the stored images go over to the relaunched context,
is log entry 45 (DEDUCED). -/
def Obligations.Resynchronisation : Prop :=
  -- a schedule fault records its cause at once; outside a run it does nothing more
  (∀ (s : State) (cause : Nat), let t := s.schedFault cause
    t.sched.cause = cause ∧ t.mem = s.mem ∧ t.gtc = s.gtc ∧ t.fw.events = s.fw.events ++ [⟨none, 3⟩] ∧ t.sched.state = s.sched.state ∧
    (s.sched.state = .idle ∨ s.sched.state = .halted → t.sched = { s.sched with cause := cause }) ∧
    (s.sched.state ≠ .idle → s.sched.state ≠ .halted → t.sched.faultAt = some (s.sched.faultAt.getD s.gtc) ∧
      (s.sched.knownFirst = none → ¬ (s.gtc / 4096 % 32 = 0 ∧ s.isBoundary (s.gtc / 131072) = true) →
        t.sched.knownFirst = some (s.gtc / 131072)) ∧
      (s.sched.knownFirst = none → s.gtc / 4096 % 32 = 0 → s.isBoundary (s.gtc / 131072) = true →
        t.sched.knownFirst = some (s.gtc / 131072 - 1)))) ∧
  (∀ (s : State) (u f : Nat), s.sched.state = .run → s.gtc % 4096 = 0 → s.sched.faultAt = some u → u < s.gtc → s.sched.held = 0 →
    s.sched.knownFirst = some f → ∃ t, exec .enterFault s = .next t ∧ t.sched.state = .fault ∧ t.sched.first = f ∧ t.sched.resume = f + 4 ∧
      t.gtc = s.gtc ∧ (∀ r ∈ t.recs, r.cmd = none) ∧
      (s.podGrids = [] → t.stage = s.stage ∧ ∀ o c w, s.cmdsE.find? o = some c → c.ord = o → 5 ≤ c.fn → c.fn ≤ 8 →
        c.s.isSome = true → (∀ d, c.done = some d → s.gtc < d) → s.warp? c.warp = some w → w.grid = c.grid → w.start = c.inst →
        ∃ v, t.warp? c.warp = some v ∧ s.gtc ∈ v.failed) ∧
      ∀ gid g, s.podGrids.find? (fun e => decide (e.1 = gid)) = some (gid, g) →
        (∃ h, t.grids.find? gid = some h ∧ h.stopped = true) ∧ (∀ k, ∀ b ∈ t.stage.get [] k, b.grid ≠ gid) ∧ ∀ k w, t.warp? k = some w → w.grid ≠ gid) ∧
  (∀ s : State, s.faultDue = false → exec .enterFault s = .next s) ∧
  (∀ (s : State) (f : Nat), s.sched.state = .fault → s.gtc % 4096 = 0 → s.sched.knownFirst = some f → (f + 2) * 131072 ≤ s.gtc →
    let dead := dedup (s.ownDead ++ s.sched.deadLinks)
    let c := { s.sched with first := f, resume := f + 4, deadLinks := dead, chosen := s.chooseImage dead, agreeOk := true }
    (s.chooseImage dead ≠ none → exec .enterAgree s = .next { s with sched := { c with state := .agree } }) ∧
    (s.chooseImage dead = none → exec .enterAgree s = .next { s with sched := { c with state := .halted, active := false } })) ∧
  (∀ (s : State), s.sched.state = .agree → s.gtc % 4096 = 0 → (s.sched.first + 3) * 131072 ≤ s.gtc →
    (s.sched.agreeOk = true → exec .enterRealign s = .next { s with sched := { s.sched with state := .realign } }) ∧
    (s.sched.agreeOk = false → exec .enterRealign s = .next { s with sched := { s.sched with state := .halted, active := false } })) ∧
  (∀ s : State, s.agreeDue = false → exec .enterAgree s = .next s) ∧ (∀ s : State, s.realignDue = false → exec .enterRealign s = .next s) ∧
  (∀ s : State, s.sched.state = .realign → s.sched.resume * 131072 ≤ s.gtc → ∃ t, exec .resumeRun s = .next t ∧ t.mem = s.mem ∧
    t.sched.state = .run ∧ t.sched.active = true ∧ t.sched.image = s.sched.chosen.getD s.sched.image ∧ t.sched.base = s.sched.resume ∧
    t.sched.rounds = min 0xFFFF (s.sched.rounds + 1) ∧ t.sched.hold = none ∧ t.sched.held = 0 ∧
    (s.relaunches = [] → t.grids = s.grids) ∧
    ∀ i, s.relaunches = [i] → ∃ g, t.grids.find? s.fresh = some g ∧ g.image = i.addr ∧ g.part = i.part ∧ g.take = s.gtc ∧ g.d = some s.gtc ∧
      (i.start = 0 → g.start = 0) ∧ (i ∈ s.fw.images → i.frame.isSome = true → ∃ j ∈ t.fw.images, j.addr = i.addr ∧ j.frame = i.frame ∧ j.grid = s.fresh)) ∧
  (∀ s : State, s.resumeDue = false → exec .resumeRun s = .next s)

/-- A bundle that waits in a port's landing buffer (R48 to R50). -/
def Waits (s : State) (p pos : Nat) (rx : RxBundle) (ok raised : Bool) (bs : List Byte) : Prop :=
  (⟨pos, s.gtc / 4096, s.gtc / 4096 * 4096 + landTick pos, ok, raised, rx.poison, rx.dataPoison, rx.source, bs⟩ : LandBuf) ∈ (s.port p).lands

/-- Every write of this tick that names one of these bytes comes before a landing in write order (R50, R190). -/
def Precede (s : State) (dst : List Nat) : Prop :=
  ∀ x ∈ s.applied, x.wct < s.gtc ∨ (x.wct = s.gtc ∧ x.cls = 0) ∨ ∀ a ∈ dst, a ∉ x.addrs

/-- R43 to R54, R67, R70, R75, R214, R393, R401: what a port sends: a data position is read 192 t before it starts, and launched early by the delay of its
link. That a bundle that is relayed after the launch of its position takes the place of its payload is log entry 63 (DEDUCED). -/
def Transmission : Prop :=
  (∀ (s : State) (p : Fin 16) (pos : Nat), s.readPos = some pos → s.sends p.val (s.gtc + 192) = true → s.startPos p.val ≠ some pos →
    ∃ t d, exec (.bundleTransmit p pos) s = .next t ∧ ((∀ r, s.runAt (s.gtc + 192) p.val true pos = some r → r.use ≠ 3) → t.mem = s.mem) ∧ t.gtc = s.gtc ∧ d ∈ (t.port p.val).drafts ∧ d.pos = pos ∧
      d.leaf = (s.gtc + 192) / 4096 ∧ t.port p.val = { s.port p.val with drafts := (t.port p.val).drafts } ∧
      ((s.gtc + 192) / 4096 % 32 ≠ 0 ∨ 6 < pos → ¬ Poisons s →
        (s.runAt (s.gtc + 192) p.val true pos = none → d.payload = List.replicate 4096 0 ∧ d.poison = false ∧ d.dataPoison = false) ∧
        ∀ r, s.runAt (s.gtc + 192) p.val true pos = some r →
          (r.use = 1 → r.staged = false → let cs := s.runCells r.core (r.addr + 4096 * (pos - r.first))
            d.poison = false ∧ d.payload = cs.map (fun a => (a.map s.byteAt).getD 0) ∧
            (d.dataPoison = true ↔ ∃ a, some a ∈ cs ∧ s.markAt a ≠ none)) ∧
          -- a request bundle takes the records that fit, in their order, and zeros behind them
          (r.use = 3 → let q := packRecords r.dest (s.gtc + 192) s.recs 4096 []
            let bs := q.1.flatMap RecOut.bytes
            d.poison = false ∧ d.payload = bs ++ List.replicate (4096 - bs.length) 0 ∧
            (d.dataPoison = true ↔ ∃ x ∈ q.1, x.poisoned = true) ∧ t.recs.map (·.desc) = q.2.map (·.desc)) ∧
          (r.use = 1 → r.staged = true → ∀ h, (s.podHolders r.core).head? = some h →
            let key := ((s.tenant h.g.part).slotBase + r.core) * 16 + r.eq
            let staged := (s.stage.get [] key).find? fun b => decide (b.grid = h.gid ∧ b.num = h.g.sent.get 0 key ∧ b.ready ≤ s.gtc)
            (∀ b, staged = some b → d.payload = b.data ∧ d.poison = false ∧ d.dataPoison = b.poisoned) ∧
            (staged = none → d.poison = true ∧ t.sched.cause = 5)))) ∧
  (∀ (s : State) (p : Fin 16) (pos : Nat), s.startPos p.val = some pos → s.sends p.val s.gtc = true → s.controlPos p.val pos = false →
    s.readPos ≠ some pos → ∃ t c, exec (.bundleTransmit p pos) s = .next t ∧ t = { s with ports := t.ports } ∧
      (∀ q, q ≠ p.val → t.port q = s.port q) ∧ SentAs s t p.val pos c ∧
      -- the control leaf
      (s.gtc / 4096 % 32 = 0 → pos ≤ 6 → (c.poison = true ↔ Poisons s) ∧ c.dataPoison = false ∧
        c.payload = if pos = 0 then s.controlBytes (s.gtc / 131072) else List.replicate 4096 0) ∧
      (s.gtc / 4096 % 32 ≠ 0 ∨ 6 < pos →
        (Poisons s → c.payload = s.controlBytes (s.gtc / 131072) ∧ c.poison = true) ∧
        (¬ Poisons s → ∀ d, (s.port p.val).drafts.find? (fun d => decide (d.pos = pos ∧ d.leaf = s.gtc / 4096)) = some d →
          c.payload = d.payload ∧ c.poison = d.poison ∧ c.dataPoison = d.dataPoison))) ∧
  (∀ (s : State) (p : Fin 16) (pos : Nat), s.readPos ≠ some pos ∨ s.sends p.val (s.gtc + 192) = false →
    s.startPos p.val ≠ some pos ∨ s.sends p.val s.gtc = false ∨ s.controlPos p.val pos = true →
    exec (.bundleTransmit p pos) s = .next s) ∧
  -- what keeps a port from sending
  (∀ (s : State) (p t : Nat), s.sends p t = true → s.mayTransmit = true ∧ (s.port p).dead = false ∧ (s.port p).delays.get 0 (t / 4096 % 32) ≤ 128 ∧
    s.paired p (t / 4096 % 32) = true) ∧
  -- replays go out unchanged
  (∀ (s : State) (p : Fin 16) (k : Nat) (pos : Nat), s.replayDue p.val = some k → s.launching p.val = some pos → s.sends p.val s.gtc = true →
    ∃ t, exec (.replay p pos) s = .next t ∧ t = { s with ports := t.ports } ∧
      (t.port p.val).replays = min 0xFFFF ((s.port p.val).replays + 1) ∧ (t.port p.val).store = (s.port p.val).store ∧
      (t.port p.val).out = ((s.port p.val).store.find? (fun b => decide (b.pos = k ∧ b.leaf = s.gtc / 4096))).map (fun b =>
        { b with launch := s.gtc }) ∧
      (∀ j ∈ (t.port p.val).resend, replayPos j ≠ pos) ∧ ∀ q, q ≠ p.val → t.port q = s.port q) ∧
  (∀ (s : State) (p : Fin 16) (pos : Nat), s.replayDue p.val = none ∨ s.launching p.val ≠ some pos ∨ s.sends p.val s.gtc = false →
    exec (.replay p pos) s = .next s) ∧
  -- relays: the bundle of the outgoing position, which starts now, carries the relayed payload under its own counter
  (∀ (s : State) (p : Fin 16) (r : RelayBuf), s.relayDue p.val = some r →
    (Poisons s ∨ (s.gtc / 4096 % 32 = 0 ∧ r.outPos ≤ 6) → exec (.relay p r.outPos) s = .next { s with relays := s.relays.erase r }) ∧
    (¬ Poisons s → s.gtc / 4096 % 32 ≠ 0 ∨ 6 < r.outPos →
      let leaf := s.gtc / 4096
      let x := s.port p.val
      let carries (b : TxBundle) : TxBundle :=
        let e := Config.gcmSeal (Config.linkKey s.sched.podNumber (s.partner p.val (leaf % 32)) p.val
            ((x.txRots.get [] (leaf % 32)).filter (· ≤ b.counter)).length)
          (bundleIv s.sched.podNumber p.val b.counter) (bundleAad leaf p.val b.pos) r.payload
        if b.pos = r.outPos ∧ b.leaf = leaf then { b with cipher := e.1, tag := e.2, poison := r.poison, dataPoison := r.dataPoison } else b
      ∃ t, exec (.relay p r.outPos) s = .next t ∧ t = { s with ports := t.ports, relays := s.relays.erase r } ∧
        t.port p.val = { x with store := x.store.map carries, out := x.out.map carries } ∧ ∀ q, q ≠ p.val → t.port q = s.port q) ∧
    ∀ pos, pos ≠ r.outPos → exec (.relay p pos) s = .next s) ∧
  (∀ (s : State) (p : Fin 16) (pos : Nat), s.relayDue p.val = none → exec (.relay p pos) s = .next s) ∧
  -- keys: a link is a port in a leaf
  (∀ (s : State) (k : Fin 512) (tx : Bool) (n : Nat), let p := k.val / 32
    let leaf := k.val % 32
    (s.live = false → exec (.keyRotation k tx n) s = .next s) ∧
    (s.live = true → ∃ t, exec (.keyRotation k tx n) s = .next t ∧ t = { s with ports := t.ports } ∧
      t.port p = { s.port p with txRots := (t.port p).txRots, rxRots := (t.port p).rxRots } ∧
      (t.port p).txRots.get [] leaf = (s.port p).txRots.get [] leaf ++ (if tx = true then [n] else []) ∧
      (t.port p).rxRots.get [] leaf = (s.port p).rxRots.get [] leaf ++ (if tx = true then [] else [n]) ∧
      (∀ j, j ≠ leaf → (t.port p).txRots.get [] j = (s.port p).txRots.get [] j ∧ (t.port p).rxRots.get [] j = (s.port p).rxRots.get [] j) ∧
      ∀ q, q ≠ p → t.port q = s.port q))

/-- R44 to R53, R57, R70, R393, R401: dark and dead ports, what a port receives, and what lands. The bytes of a bundle that did not come whole
are the model's free values (log entry 9). Verdicts dropped at a leaf's end, the transmitter's count as it comes with the bundle, and UNRECOVERED
counted for every data position are log entry 47, CAUSE 8 on each receipt log entry 48, the link that is too long log entry 63. -/
def Reception : Prop :=
  (∀ (s : State) (p : Fin 16), s.darkCheck p.val = true →
    let x := { s.port p.val with verdicts := [], resend := [] }
    ((s.port p.val).locked = some (s.gtc / 4096) → ∃ t, exec (.portDark p) s = .next t ∧ t = { s with ports := t.ports } ∧
      t.port p.val = { x with dark := false, darkLeaves := 0 } ∧ ∀ q, q ≠ p.val → t.port q = s.port q) ∧
    ((s.port p.val).locked ≠ some (s.gtc / 4096) → ∃ t, exec (.portDark p) s = .next t ∧ t.mem = s.mem ∧
      t.port p.val = { x with dark := true, darkLeaves := (s.port p.val).darkLeaves + 1 } ∧
      (∀ q, q ≠ p.val → t.port q = s.port q) ∧ (s.linkDead p.val (s.gtc / 4096 % 32) = true → t.sched = s.sched) ∧
      (s.linkDead p.val (s.gtc / 4096 % 32) = false → t.sched.cause = 6))) ∧
  (∀ (s : State) (p leaf : Nat), s.linkDead p leaf = true ↔ (s.port p).dead = true ∨ 128 < (s.port p).delays.get 0 leaf) ∧
  (∀ (s : State) (p : Fin 16), s.darkCheck p.val = false → exec (.portDark p) s = .next s) ∧
  (∀ (s : State) (p : Fin 16),
    (s.darkCheck p.val = true → (s.port p.val).dead = false → 3 ≤ (s.port p.val).darkLeaves → ∃ t, exec (.portDead p) s = .next t ∧
      t = { s with ports := t.ports } ∧ t.port p.val = { s.port p.val with dead := true } ∧ ∀ q, q ≠ p.val → t.port q = s.port q) ∧
    (s.darkCheck p.val = false ∨ (s.port p.val).dead = true ∨ (s.port p.val).darkLeaves < 3 → exec (.portDead p) s = .next s)) ∧
  -- reception
  (∀ (s : State) (p : Fin 16) (pos : Nat) (rx : RxBundle),
    let leaf := s.gtc / 4096 % 32
    let tx := s.partner p.val leaf
    (rx.crcOk = false → s.opened p.val pos rx = none) ∧
    (rx.crcOk = true → s.opened p.val pos rx = Config.gcmOpen
      (Config.linkKey tx s.sched.podNumber p.val (((s.port p.val).rxRots.get [] leaf).filter (· ≤ rx.counter)).length)
      (bundleIv tx p.val rx.counter) (bundleAad (s.gtc / 4096) p.val pos) rx.cipher rx.tag)) ∧
  (∀ (s : State) (p : Fin 16) (pos : Nat) (rx : RxBundle), s.live = true → (s.port p.val).locked = some (s.gtc / 4096) →
    s.paired p.val (s.gtc / 4096 % 32) = true → s.arrives pos rx.replayed = true → ∃ t, exec (.bundleReceive p pos rx) s = .next t ∧
      t.mem = s.mem ∧ t.gtc = s.gtc ∧ (rx.replayed = false → (pos, rx.crcOk) ∈ (t.port p.val).verdicts) ∧
      (∀ bs, s.opened p.val pos rx = some bs → Waits t p.val pos rx true false bs ∧ (t.port p.val).authFail = (s.port p.val).authFail ∧
        (t.port p.val).unrec = (s.port p.val).unrec ∧ (rx.poison = true → t.sched.cause = 8) ∧
        ((s.gtc / 4096 % 32 = 0 ∧ pos = 0) ∨ (rx.poison = true ∧ (s.gtc / 4096 % 32 ≠ 0 ∨ 6 < pos)) → getLE bs 0 4 = 1 →
          t.pending = .controlRecordReceive p (readControl bs) :: s.pending) ∧
        (s.gtc / 4096 % 32 = 0 → 1 ≤ pos → pos ≤ 6 → (∃ b ∈ bs, b ≠ 0) → (t.port p.val).protoErr = true)) ∧
      (s.opened p.val pos rx = none → rx.crcOk = true → Waits t p.val pos rx false true [] ∧ (t.port p.val).authFail = true ∧
        (t.port p.val).unrec = min 0xFF ((s.port p.val).unrec + 1) ∧ (s.linkDead p.val (s.gtc / 4096 % 32) = false → t.sched.cause = 6)) ∧
      (rx.crcOk = false → (rx.replayed = true ∨ 564 ≤ pos) → Waits t p.val pos rx false true [] ∧
        (t.port p.val).unrec = min 0xFF ((s.port p.val).unrec + 1) ∧ (s.linkDead p.val (s.gtc / 4096 % 32) = false → t.sched.cause = 6)) ∧
      (rx.crcOk = false → rx.replayed = false → pos < 564 → Waits t p.val pos rx false false [] ∧
        (t.port p.val).unrec = (s.port p.val).unrec ∧ t.sched = s.sched)) ∧
  (∀ (s : State) (p : Fin 16) (pos : Nat) (rx : RxBundle), s.live = false ∨ (s.port p.val).locked ≠ some (s.gtc / 4096) ∨
    s.paired p.val (s.gtc / 4096 % 32) = false ∨ s.arrives pos rx.replayed = false → exec (.bundleReceive p pos rx) s = .next s) ∧
  -- landings
  (∀ (s : State) (p : Fin 16) (pos : Nat) (b : LandBuf) (r : Run), s.gtc = s.gtc / 4096 * 4096 + landTick pos → pos ∈ s.landsNow p.val →
    (s.port p.val).lands.find? (fun x => decide (x.pos = pos ∧ x.leaf = s.gtc / 4096)) = some b →
    s.runAt (s.gtc / 4096 * 4096) p.val false pos = some r → s.MemOk →
    let cells := s.runCells r.core (r.addr + 4096 * (pos - r.first))
    ∃ t, exec (.landing p pos) s = .next t ∧ t.gtc = s.gtc ∧ t.MemOk ∧
      (∀ x ∈ (t.port p.val).lands, x.pos ≠ pos ∨ x.leaf ≠ s.gtc / 4096) ∧
      (b.ok = false → b.raised = false → (t.port p.val).unrec = min 0xFF ((s.port p.val).unrec + 1) ∧
        (s.linkDead p.val (s.gtc / 4096 % 32) = false → t.sched.cause = 6)) ∧
      (b.ok = true ∨ b.raised = true → (t.port p.val).unrec = (s.port p.val).unrec ∧ t.sched = s.sched) ∧
      (r.use = 1 → Precede s (cells.filterMap fun a => a) → (∀ k a, k < 4096 → cells[k]? = some (some a) →
        (b.ok = true → t.byteAt a = b.payload.getD k 0) ∧
        t.markAt a = (if b.ok = true ∧ b.poison = false ∧ b.dataPoison = false then none else some .fabric)) ∧
        ∀ a, some a ∉ cells → t.byteAt a = s.byteAt a ∧ t.markAt a = s.markAt a) ∧
      (r.use = 2 → t.mem = s.mem ∧ ∃ bs, (b.ok = true → bs = b.payload) ∧ t.relays = s.relays ++
        [⟨r.outPort, r.outPos + (pos - r.first), s.gtc / 4096 * 4096 + r.outLeaf * 4096, bs, !b.ok || b.poison, b.dataPoison⟩]) ∧
      (r.use = 3 → t.mem = s.mem ∧
        (b.ok = true → b.poison = false →
          t.pending = (readRecords pos b.dataPoison 256 b.payload).map (recordStep p b.source) ++ s.pending) ∧
        (b.ok = false ∨ b.poison = true → t.pending = s.pending))) ∧
  -- a bundle that never came
  (∀ (s : State) (p : Fin 16) (pos : Nat), s.gtc = s.gtc / 4096 * 4096 + landTick pos → pos ∈ s.landsNow p.val →
    (s.port p.val).lands.find? (fun x => decide (x.pos = pos ∧ x.leaf = s.gtc / 4096)) = none →
    ∃ t, exec (.landing p pos) s = .next t ∧ (t.port p.val).unrec = min 0xFF ((s.port p.val).unrec + 1) ∧
      (s.linkDead p.val (s.gtc / 4096 % 32) = false → t.sched.cause = 6))

/-- R43 to R54, R57, R67, R70, R75, R214, R393, R401: bundles on the rotor ports. Log entries 9, 47, 48 and 63 name the model's choices in it. -/
def Obligations.FabricBundles : Prop := Transmission ∧ Reception

/-- R54 to R56, R175, R192, R194, R213, R218, R367, R401: request records, replies of commands without a counter, failure notices and the resolution
of a multicast. The device that a notice comes from, and its DCORE as the core of the record not performed, are log entry 13; the first holder of a
logical core and the first command that a reply fits are log entry 49 (DESIGN CHOICE); the fabric mark on what a bundle of poisoned data writes is log
entry 32 (DEDUCED). -/
def Obligations.FabricRequests : Prop :=
  (∀ (s : State) (p : Fin 16) (dev : Nat) (r : FabRecord), s.live = false →
    exec (.requestRecord p r) s = .next s ∧ exec (.failureNotice p dev r) s = .next s) ∧
  (∀ (s : State) (p : Fin 16) (r : FabRecord), s.live = true → r.bad = true → ∃ t, exec (.requestRecord p r) s = .next t ∧ t = { s with ports := t.ports } ∧
    t.port p.val = { s.port p.val with protoErr := true }) ∧
  (∀ (s : State) (p : Fin 16) (r : FabRecord) (g : Grid), s.live = true → r.bad = false → s.landGrid r.dcore r.daddr (if r.kind = 4 then 4 else r.len) = some g →
    let base := scratchBase ((s.tenant g.part).slotBase + r.dcore) + r.daddr
    (r.kind = 1 → s.MemOk → Precede s ((List.range r.len).map (base + ·)) → ∃ t, exec (.requestRecord p r) s = .next t ∧ t.MemOk ∧ t.recs = s.recs ∧
      (∀ k, k < r.len → t.byteAt (base + k) = r.data.getD k 0 ∧ t.markAt (base + k) = (if r.poison = true then some .fabric else none)) ∧
      ∀ a, a < base ∨ base + r.len ≤ a → t.byteAt a = s.byteAt a) ∧
    (r.kind = 2 → ∃ t x, exec (.requestRecord p r) s = .next t ∧ t = { s with recs := s.recs ++ [x] } ∧ x.ready = s.gtc + 200 ∧ x.dest = r.odev ∧
      field x.desc 124 4 = 3 ∧ x.fetch = (List.range r.len).map (base + ·)) ∧
    (r.kind = 4 → r.daddr % 4 = 0 → s.MemOk → Precede s ((List.range 4).map (base + ·)) → (∀ y ∈ s.recs, y.cmd = none → y.member ≤ s.fresh) →
      ∃ t x, exec (.requestRecord p r) s = .next t ∧ t.MemOk ∧ t.recs = s.recs ++ [x] ∧ x.dest = r.odev ∧
      x.ready = s.gtc + 200 ∧ field x.desc 124 4 = 5 ∧ x.data = leBytes 16 (leNat ((List.range 4).map fun k => s.byteAt (base + k))) ∧
      (x.poisoned = true ↔ ∃ k, k < 4 ∧ s.markAt (base + k) ≠ none) ∧
      (let w (u : State) : Word := BitVec.ofNat 32 (leNat ((List.range 4).map fun k => u.byteAt (base + k)))
       let b : Word := BitVec.ofNat 32 (getLE r.data 0 4)
       w t = match r.afn with
         | 0 => w s + b
         | 1 => if (w s).toInt ≤ b.toInt then w s else b
         | 2 => if b.toInt ≤ (w s).toInt then w s else b
         | 3 => w s &&& b
         | 4 => w s ||| b
         | 5 => w s ^^^ b
         | 6 => b
         | _ => if w s = BitVec.ofNat 32 (getLE r.data 4 4) then b else w s) ∧
      ∀ a, a < base ∨ base + 4 ≤ a → t.byteAt a = s.byteAt a)) ∧
  -- a get's answer reads its bytes once every write of the tick has taken effect
  (∀ s : State, s.fetchGets = { s with recs := s.fetchGets.recs } ∧ s.fetchGets.recs.length = s.recs.length ∧
    ∀ (i : Nat) (r : RecOut), s.recs[i]? = some r → ∃ x : RecOut, s.fetchGets.recs[i]? = some x ∧ (r.fetch = [] → x = r) ∧
      (r.fetch ≠ [] → x = { r with data := r.fetch.map s.byteAt, poisoned := x.poisoned, fetch := [] } ∧
        (x.poisoned = true ↔ ∃ a ∈ r.fetch, s.markAt a ≠ none))) ∧
  (∀ (s : State) (p : Fin 16) (r : FabRecord), s.live = true → r.bad = false → r.kind = 1 ∨ r.kind = 2 ∨ r.kind = 4 →
    (r.kind = 4 ∧ r.daddr % 4 ≠ 0) ∨ s.landGrid r.dcore r.daddr (if r.kind = 4 then 4 else r.len) = none →
    ∃ t x, exec (.requestRecord p r) s = .next t ∧ t = { s with recs := s.recs ++ [x] } ∧ x.dest = r.odev ∧ field x.desc 124 4 = 6 ∧
      field x.desc 32 8 = r.dcore ∧ x.ready = s.gtc + 200 ∧ x.data = []) ∧
  -- a reply for a command of this device: its data lands in mode 0
  (∀ (s : State) (p : Fin 16) (r : FabRecord) (c : EngCmd), s.live = true → r.bad = false → r.kind = 3 ∨ r.kind = 5 → r.odev = s.sched.podNumber →
    s.fabricCmd (if r.kind = 3 then 6 else 7) r.ocore r.oq r.tag = some c → s.cmdsE.find? c.ord = some c → c.killed = false → c.done = none →
    s.MemOk → c.inc = 0 →
    let n := if r.kind = 3 then c.tpl.e 0 else 4
    let base := scratchBase c.core + (if r.kind = 3 then c.word 5 else c.word 7) % 2 ^ 23
    Precede s ((List.range n).map (base + ·)) → ∃ t e, exec (.requestRecord p r) s = .next t ∧ t.MemOk ∧ t.cmdsE.find? c.ord = some e ∧
      e.done = some s.gtc ∧ e.fault = (c.fault <|> if r.poison = true then some (.fabric, 0) else none) ∧
      (∀ k, k < n → t.byteAt (base + k) = r.data.getD k 0 ∧ t.markAt (base + k) = (if r.poison = true then some .fabric else none)) ∧
      ∀ a, a < base ∨ base + n ≤ a → t.byteAt a = s.byteAt a) ∧
  (∀ (s : State) (p : Fin 16) (r : FabRecord), r.bad = false → r.kind = 3 ∨ r.kind = 5 →
    r.odev ≠ s.sched.podNumber ∨ s.fabricCmd (if r.kind = 3 then 6 else 7) r.ocore r.oq r.tag = none → exec (.requestRecord p r) s = .next s) ∧
  -- failure notices
  (∀ (s : State) (p : Fin 16) (dev : Nat) (r : FabRecord),
    r.odev ≠ s.sched.podNumber ∨ (∀ fn, s.fabricCmd fn r.ocore r.oq r.tag = none) → exec (.failureNotice p dev r) s = .next s) ∧
  (∀ (s : State) (p : Fin 16) (dev : Nat) (r : FabRecord) (c : EngCmd) (w : Warp), s.live = true → r.odev = s.sched.podNumber →
    s.fabricCmd 5 r.ocore r.oq r.tag = some c → s.warp? c.warp = some w → w.grid = c.grid → w.start = c.inst →
    ∃ t v, exec (.failureNotice p dev r) s = .next t ∧ t.mem = s.mem ∧ t.warp? c.warp = some v ∧ v = { w with failed := w.failed ++ [s.gtc] }) ∧
  (∀ (s : State) (p : Fin 16) (dev : Nat) (r : FabRecord) (c : EngCmd) (fn : Nat), s.live = true → r.odev = s.sched.podNumber → fn = 6 ∨ fn = 7 →
    (∀ f, 5 ≤ f → f < fn → s.fabricCmd f r.ocore r.oq r.tag = none) → s.fabricCmd fn r.ocore r.oq r.tag = some c →
    s.cmdsE.find? c.ord = some c → c.done = none → c.killed = false → c.inc = 0 → Precede s c.replyBytes →
    ∃ t e, exec (.failureNotice p dev r) s = .next t ∧ t.cmdsE.find? c.ord = some e ∧ e.done = some s.gtc ∧
      (∀ a ∈ c.replyBytes, t.markAt a = some .fabric) ∧
      ∀ w, s.warp? c.warp = some w → w.grid = c.grid → w.start = c.inst → ∃ v, t.warp? c.warp = some v ∧ s.gtc ∈ v.failed) ∧
  (∀ (s : State) (p : Fin 16) (dev : Nat) (r : FabRecord) (c : EngCmd), s.live = true → r.odev = s.sched.podNumber →
    (∀ f, 5 ≤ f → f < 8 → s.fabricCmd f r.ocore r.oq r.tag = none) → s.fabricCmd 8 r.ocore r.oq r.tag = some c →
    s.cmdsE.find? c.ord = some c → ∃ t e, exec (.failureNotice p dev r) s = .next t ∧ t = { s with cmdsE := t.cmdsE } ∧
      t.cmdsE.find? c.ord = some e ∧ e = { c with failMask := e.failMask } ∧ ∀ k, e.failMask.testBit k = (c.failMask.testBit k ||
        match c.idx[k]? with
        | some m => decide (field m 0 9 = dev ∧ field m 9 8 = r.dcore)
        | none => false)) ∧
  -- the end of a multicast
  (∀ (s : State) (c : EngCmd), s.resolving = [c] → s.cmdsE.find? c.ord = some c → c.killed = false → s.MemOk →
    let v := c.failMask % 2 ^ c.tpl.e 1
    ∃ t e, exec .multicastResolution s = .next t ∧ t.MemOk ∧ t.cmdsE.find? c.ord = some e ∧ e.mStart = 1 ∧
      (v < 2 ^ 64 → (c.spanBytes (c.word 6) 8).Nodup → (∀ x ∈ s.applied, ∀ a ∈ c.spanBytes (c.word 6) 8, a ∉ x.addrs) →
        leNat ((c.spanBytes (c.word 6) 8).map t.byteAt) = v) ∧
      (v = 0 → t.warps.map (·.1) = s.warps.map (·.1) ∧ ∀ k w, s.warp? k = some w → ∃ u, t.warp? k = some u ∧ u.failed = w.failed) ∧
      ∀ w, v ≠ 0 → s.warp? c.warp = some w → w.grid = c.grid → w.start = c.inst → ∃ u, t.warp? c.warp = some u ∧ s.gtc ∈ u.failed)

/-- A DOE message was answered with `rs` and nothing else than the fields of `t` named by the caller differs (R97, R111, R118). -/
def Answered (s t : State) (rs : List Reply) : Prop :=
  t.link.replies = s.link.replies ++ rs ∧ t.fw.events = s.fw.events ++ [⟨none, 4⟩] ∧ t.mem = s.mem ∧ t.gtc = s.gtc ∧
  (s.sec.power ≠ 2 → t.sec = s.sec) ∧ (s.sec.power = 2 → s.sec.wakeAt = none → t.sec = { s.sec with wakeAt := some (s.gtc + 13000) })

/-- A request of R111 that names a certificate slot, with its version. -/
def SlottedRequest (v : BitVec 8) (slot : Nat) (i : Instr) : Prop :=
  i = .getCertificate v slot ∨ (∃ nonce, i = .challenge v slot nonce) ∨ (∃ index signed nonce, i = .getMeasurements v slot index signed nonce) ∨
  ∃ share, i = .keyExchange v slot share

/-- A request of R111 with its version: the standard ones, VENDOR_DEFINED_REQUEST in each of its uses, and any other. -/
def VersionedRequest (v : BitVec 8) (i : Instr) : Prop :=
  i ∈ [.getCapabilities v, .negotiateAlgorithms v, .getDigests v, .unsupportedRequest v, .debugNonce v] ∨
  (∃ slot, SlottedRequest v slot i) ∨ (∃ k tenant, i = .finish v k tenant) ∨ (∃ k, i = .endSession v k) ∨
  (∃ k m, i = .seal v k m) ∨
  (∃ k p, i ∈ [.unseal v k p, .ideStreamBind v k p, .tenantDebugExit v k p]) ∨ (∃ k p flush val, i = .tenantPtRootWrite v k p flush val) ∨
  (∃ k p sig, i = .tenantDebugUnlock v k p sig) ∨ ∃ token, i = .vendorDebugToken v token

/-- R18, R97, R110 to R112: SPDM over the DOE mailbox: each request and its answer. None is answered in reset; another version than 1.3
receives VersionMismatch; another slot than 0 an error of SPDM (PRESUMED, log entry 60); a signed request is refused in the REVOKED state;
a session belongs to the tenant that its handshake shows (DESIGN CHOICE, log entry 61). That requests are answered in any order, what each signature
covers and the list of the capabilities answer are log entry 52, and the one nonce of both unlocks is log entry 50 (DEDUCED). -/
def Obligations.SpdmMessages : Prop :=
  (∀ (s : State) (v : BitVec 8) (i : Instr), VersionedRequest v i →
    (s.live = false → exec i s = .next s ∧ exec .getVersion s = .next s) ∧
    (s.live = true → v ≠ 0x13 → ∃ t, exec i s = .next t ∧ Answered s t [.versionMismatch] ∧ t.tenants = s.tenants ∧
      t.link = { s.link with replies := t.link.replies })) ∧
  (∀ (s : State) (slot : Nat) (i : Instr), SlottedRequest 0x13 slot i → s.live = true → slot ≠ 0 →
    ∃ t, exec i s = .next t ∧ Answered s t [.invalid] ∧ t.link.opening = s.link.opening) ∧
  (∀ s : State, s.live = true →
    (∃ t, exec .getVersion s = .next t ∧ Answered s t [.version 0x13]) ∧
    (∃ t, exec (.getCapabilities 0x13) s = .next t ∧ Answered s t [.capabilities spdmRequests]) ∧
    (∃ t, exec (.negotiateAlgorithms 0x13) s = .next t ∧ Answered s t [.algorithms "SHA3-256" "ML-DSA-44" "secp384r1" "AES-256-GCM"] ∧
      t.link.negotiated = true) ∧
    (∃ t, exec (.getDigests 0x13) s = .next t ∧ Answered s t [.digests (Config.sha3 s.chain)]) ∧
    (∃ t, exec (.getCertificate 0x13 0) s = .next t ∧ Answered s t [.certificate s.chain]) ∧
    (∃ t, exec (.unsupportedRequest 0x13) s = .next t ∧ Answered s t [.unsupported]) ∧
    (∃ t, exec (.debugNonce 0x13) s = .next t ∧ t.mem = s.mem ∧ t.sec.nonce = some (Config.draw s.draw % 2 ^ 256) ∧
      t.link.replies = s.link.replies ++ [.nonce (Config.draw s.draw % 2 ^ 256)] ∧ t.draw = s.draw + 1)) ∧
  (∀ (s : State) (n : BitVec 256) (share : BitVec 768), s.live = true →
    (s.sec.revoked = true →
      (∃ t, exec (.challenge 0x13 0 n) s = .next t ∧ Answered s t [.unspecified]) ∧
      (∃ t, exec (.keyExchange 0x13 0 share) s = .next t ∧ Answered s t [.unspecified] ∧ t.link.opening = s.link.opening) ∧
      ∀ i, ∃ t, exec (.getMeasurements 0x13 0 i true n) s = .next t ∧ Answered s t [.unspecified]) ∧
    (s.sec.revoked = false →
      (∃ t, exec (.challenge 0x13 0 n) s = .next t ∧ Answered s t [s.signedBy (leBytes 32 n.toNat)]) ∧
      (∃ t, exec (.keyExchange 0x13 0 share) s = .next t ∧
        Answered s t [.keyExchange s.link.nextSession, s.signedBy (leBytes 96 share.toNat ++ leBytes 2 s.link.nextSession)] ∧
        t.link.nextSession = s.link.nextSession + 1 ∧ t.link.opening = s.link.opening ++ [s.link.nextSession]) ∧
      ∀ i, 1 ≤ i → i ≤ 6 → ∃ t, exec (.getMeasurements 0x13 0 i true n) s = .next t ∧
        Answered s t [.measurements [s.block i], s.signedBy (leBytes 1 i ++ leBytes 32 (s.block i).2 ++ leBytes 32 n.toNat)]) ∧
    (∀ i, 1 ≤ i → i ≤ 6 → ∃ t, exec (.getMeasurements 0x13 0 i false n) s = .next t ∧ Answered s t [.measurements [s.block i]]) ∧
    (∃ t, exec (.getMeasurements 0x13 0 0xFF false n) s = .next t ∧ Answered s t [.measurements ([1, 2, 3, 4, 5, 6].map s.block)])) ∧
  (∀ (s : State) (k tenant : Nat), s.live = true →
    (k ∈ s.link.opening → ∃ t, exec (.finish 0x13 k tenant) s = .next t ∧ Answered s t [.finished k] ∧
      t.link.opening = s.link.opening.erase k ∧ t.link.sessions.find? k = some tenant ∧
      ∀ j, j ≠ k → t.link.sessions.find? j = s.link.sessions.find? j) ∧
    (k ∉ s.link.opening → ∃ t, exec (.finish 0x13 k tenant) s = .next t ∧ Answered s t [.unspecified] ∧ t.link.sessions = s.link.sessions) ∧
    (s.hasSession k = true → ∃ t, exec (.endSession 0x13 k) s = .next t ∧ Answered s t [.ended k] ∧ t.hasSession k = false ∧
      ∀ j, j ≠ k → t.link.sessions.find? j = s.link.sessions.find? j) ∧
    (s.hasSession k = false → ∃ t, exec (.endSession 0x13 k) s = .next t ∧ Answered s t [.unspecified] ∧ t.link.sessions = s.link.sessions))

/-- Every dispatched context of a partition is killed: it retires as KILLED, and its warps are gone (R114, R117). -/
def KillsContexts (s t : State) (p : Nat) : Prop :=
  ∀ gid g, s.grids.find? gid = some g → g.part = p → g.d.isSome = true → g.status = none →
    (∃ h, t.grids.find? gid = some h ∧ h.killed = true) ∧ ∀ k w, t.warp? k = some w → w.grid ≠ gid

/-- The partition table, the modes of its regions, sealing and release (R27, R113, R114, R124). -/
def PartitionEvents : Prop :=
  (∀ (s : State) (l : List PartEntry) (p : Fin 4) (why : ZeroFor), s.live = false →
    ∀ i ∈ [.partitionTableSet l, .operatorRelease p, .zeroingComplete why p], exec i s = .next s) ∧
  (∀ (s : State) (l : List PartEntry), s.live = true →
    (s.tableOk l = false → ∃ t, exec (.partitionTableSet l) s = .next t ∧ Answered s t [.refused] ∧ t.tenants = s.tenants) ∧
    (s.tableOk l = true → s.MemOk → ∃ t, exec (.partitionTableSet l) s = .next t ∧ t.MemOk ∧
      t.link.replies = s.link.replies ++ [.accepted] ∧
      (∀ p : Fin 4,
        (∀ e ∈ l, e.part = p → t.tenant p.val =
          { s.tenant p.val with present := true, shape := e.shape, slotBase := e.slotBase, regions := e.regions }) ∧
        ((∀ e ∈ l, e.part ≠ p) → t.tenant p.val = { s.tenant p.val with present := false, shape := 0, slotBase := 0, regions := [] })) ∧
      ∀ r, let flips := ∃ e ∈ l, r ∈ e.regions ∧ s.regionMapped r = false ∧ s.localRegions.contains r ≠ e.locals.contains r
        (flips → t.localRegions.contains r = !s.localRegions.contains r) ∧
        (¬ flips → t.localRegions.contains r = s.localRegions.contains r) ∧
        ∀ a, a / 2 ^ 30 = r →
          (flips → t.byteAt a = s.byteAt (hbmSwap true a) ∧ t.markAt a = s.markAt (hbmSwap true a)) ∧
          (¬ flips → t.byteAt a = s.byteAt a ∧ t.markAt a = s.markAt a))) ∧
  (∀ (s : State) (k : Nat) (m : SealMsg), s.live = true →
    (s.hasSession k = false ∨ 4 ≤ m.part ∨ (s.tenant m.part).present = false ∨ s.hasContext m.part = true ∨ s.partBusy m.part = true ∨ (s.tenant m.part).sealed = true ∨
      s.zeroingOf m.part = true ∨ s.sec.revoked = true →
      ∃ t, exec (.seal 0x13 k m) s = .next t ∧ Answered s t [.refused] ∧ t.tenants = s.tenants) ∧
    (s.hasSession k = true → m.part < 4 → (s.tenant m.part).present = true → s.hasContext m.part = false → s.partBusy m.part = false → (s.tenant m.part).sealed = false →
      s.zeroingOf m.part = false → s.sec.revoked = false → ∃ t, exec (.seal 0x13 k m) s = .next t ∧ t.mem = s.mem ∧
        t.link.replies = s.link.replies ++ [.accepted] ∧ t.sec.zeroing = s.sec.zeroing ++ [(.seal, m.part, s.gtc)] ∧
        (∀ w, s.link.sessions.find? k = some w → t.tenant m.part =
          { s.tenant m.part with
            owner := w, xtsKey := m.xtsKey.toNat, xferKey := m.transferKey.toNat,
            debugKey := if ∀ b ∈ m.debugKey, b = 0 then none else some m.debugKey }) ∧
        ∀ p, p ≠ m.part → t.tenant p = s.tenant p)) ∧
  (∀ (s : State) (k : Nat) (p : Fin 4), s.live = true →
    (s.isOwner k p.val = false ∨ s.zeroingOf p.val = true → ∃ t, exec (.unseal 0x13 k p) s = .next t ∧ Answered s t [.refused] ∧ t.tenants = s.tenants) ∧
    (s.isOwner k p.val = true → s.zeroingOf p.val = false → ∃ t, exec (.unseal 0x13 k p) s = .next t ∧ t.mem = s.mem ∧
      KillsContexts s t p.val ∧ t.sec.zeroing = s.sec.zeroing ++ [(.release, p.val, s.gtc)] ∧ t.tenant p.val = { s.tenant p.val with tdebug := false }) ∧
    ((s.tenant p.val).sealed = false ∨ s.zeroingOf p.val = true → ∃ t, exec (.operatorRelease p) s = .next t ∧ Answered s t [.refused] ∧
      t.tenants = s.tenants) ∧
    ((s.tenant p.val).sealed = true → s.zeroingOf p.val = false → ∃ t, exec (.operatorRelease p) s = .next t ∧ t.mem = s.mem ∧
      KillsContexts s t p.val ∧ t.sec.zeroing = s.sec.zeroing ++ [(.release, p.val, s.gtc)] ∧ t.tenant p.val = { s.tenant p.val with tdebug := false })) ∧
  (∀ (s : State) (why : ZeroFor) (p : Fin 4), s.zeroingFor why p.val = false → exec (.zeroingComplete why p) s = .next s) ∧
  (∀ (s : State) (p : Fin 4), s.live = true → s.MemOk →
    (s.zeroingFor .seal p.val = true → ∃ t, exec (.zeroingComplete .seal p) s = .next t ∧ t.MemOk ∧ t.zeroingFor .seal p.val = false ∧
      t.tenant p.val = { s.tenant p.val with sealed := true } ∧
      ∀ a, t.byteAt a = if a / 2 ^ 30 ∈ (s.tenant p.val).regions then 0 else s.byteAt a) ∧
    (s.zeroingFor .release p.val = true → ∃ t, exec (.zeroingComplete .release p) s = .next t ∧ t.MemOk ∧ t.zeroingFor .release p.val = false ∧
      t.tenant p.val = { s.tenant p.val with sealed := false, tdebug := false, xtsKey := 0, xferKey := 0, debugKey := none, ideBound := false, owner := 0 } ∧
      ∀ a, t.byteAt a = if a / 2 ^ 30 ∈ (s.tenant p.val).regions then 0 else s.byteAt a) ∧
    (s.zeroingFor .vendor p.val = true → ∃ t, exec (.zeroingComplete .vendor p) s = .next t ∧ t.MemOk ∧ t.sec.revoked = true ∧
      t.sec.vendor = true ∧ t.sec.zeroing = [] ∧
      (∀ q, q < 4 → t.tenant q =
        { s.tenant q with sealed := false, tdebug := false, xtsKey := 0, xferKey := 0, debugKey := none, ideBound := false, owner := 0 }) ∧
      ∀ a, let taken := ∃ q, q < 4 ∧ s.vendorTakes q = true ∧ a / 2 ^ 30 ∈ (s.tenant q).regions
        (taken → t.byteAt a = 0) ∧ (¬ taken → t.byteAt a = s.byteAt a)))

/-- A sealed transfer record's pool requests: class 5 of R31, and the cells it writes. -/
def RecordAsked (s t : State) (cs : List (Nat × Byte × Option MCls)) : Prop :=
  ∃ l, t = { s with poolq := s.poolq ++ l, draw := t.draw } ∧ (∀ r ∈ l, r.cls = 4 ∧ ∃ x, r.what = .marked x ∧ ∀ c ∈ x, c ∈ cs) ∧
    ∀ c ∈ cs, ∃ r ∈ l, ∃ x, r.what = .marked x ∧ c ∈ x

/-- A tenant's own registers, its stream and its records (R115, R184). -/
def TenantEvents : Prop :=
  (∀ (s : State) (k : Nat) (p : Fin 4) (v : BitVec 64), s.live = true →
    (s.isOwner k p.val = false → (∀ b, ∃ t, exec (.tenantPtRootWrite 0x13 k p b v) s = .next t ∧ Answered s t [.refused] ∧ t.tenants = s.tenants) ∧
      ∃ t, exec (.ideStreamBind 0x13 k p) s = .next t ∧ Answered s t [.refused] ∧ t.tenants = s.tenants) ∧
    (s.isOwner k p.val = true →
      (s.hasContext p.val = false → ∃ t, exec (.tenantPtRootWrite 0x13 k p false v) s = .next t ∧ Answered s t [.accepted] ∧
        t.tenant p.val = { s.tenant p.val with ptRoot := field v.toNat 15 24 * 2 ^ 15, ptValid := v.getLsbD 0 }) ∧
      (s.hasContext p.val = true → ∃ t, exec (.tenantPtRootWrite 0x13 k p false v) s = .next t ∧ Answered s t [.accepted] ∧ t.tenants = s.tenants) ∧
      (∃ t, exec (.tenantPtRootWrite 0x13 k p true v) s = .next t ∧ Answered s t [.accepted] ∧ t.tenants = s.tenants ∧
        (v.getLsbD 0 = true → ∀ c, ∀ f ∈ t.fills.get [] c, f.part = p.val → f.page = none ∧ f.fault = false)) ∧
      ∃ t, exec (.ideStreamBind 0x13 k p) s = .next t ∧ Answered s t [.accepted] ∧ t.tenant p.val = { s.tenant p.val with ideBound := true })) ∧
  (∀ (s : State) (st : Option (Fin 4)) (p : Fin 4) (out : Bool) (x : BitVec 32) (i : BitVec 64) (va : Nat) (c : List Byte) (tag : BitVec 128),
    (s.live = false → exec (.sealedTransferRecord st p out x i va c tag) s = .next s) ∧
    (s.live = true → (s.tenant p.val).sealed = false ∨ (s.tenant p.val).ideBound = false ∨ st ≠ some p ∨ (out = false ∧ c.length ≠ 4096) →
      exec (.sealedTransferRecord st p out x i va c tag) s = .next (s.reply .accessFault))) ∧
  (∀ (s : State) (p : Fin 4) (x : BitVec 32) (i : BitVec 64) (va : Nat) (c : List Byte) (tag : BitVec 128), s.live = true →
    (s.tenant p.val).sealed = true → (s.tenant p.val).ideBound = true →
    let key := (s.tenant p.val).xferKey
    let iv := x.toNat * 2 ^ 64 + i.toNat
    -- out of the partition
    ((∃ k, k < 4096 ∧ s.translate p.val (va + k) = none) →
      exec (.sealedTransferRecord (some p) p true x i va c tag) s = .next (s.reply .accessFault)) ∧
    (∀ pas : List (Nat × Bool), (List.range 4096).map (fun k => s.translate p.val (va + k)) = pas.map some →
      -- its beats are asked of the pool, and the last one's delivery answers it; a poisoned byte does not leave
      let r := Config.gcmSeal key iv [] (pas.map fun a => s.byteAt a.1)
      ∃ t l rep, exec (.sealedTransferRecord (some p) p true x i va c tag) s = .next t ∧
        t = { s with hbm := t.hbm, fresh := t.fresh, poolq := s.poolq ++ l,
                     link := { s.link with leaving := s.link.leaving ++ [(s.fresh, 0, rep)] } } ∧
        ((∀ a ∈ pas, s.markAt a.1 = none) → rep = .record r.1 r.2) ∧ ((∃ a ∈ pas, s.markAt a.1 ≠ none) → rep = .accessFault) ∧
        (∀ a ∈ pas, ∃ q ∈ l, q.addr = a.1 / 64 * 64) ∧ ∀ q ∈ l, q.cls = 4 ∧ q.part = p.val ∧ q.size = 64 ∧ q.what = .record s.fresh) ∧
    -- into the partition
    (c.length = 4096 → ∃ t, exec (.sealedTransferRecord (some p) p false x i va c tag) s = .next t ∧
      match Config.gcmOpen key iv [] c tag.toNat with
      | some y => match s.cellsAt p.val va (y.take 4096) with
        | some ds => t.draw = s.draw ∧ RecordAsked s t (ds.map fun e => (e.1, e.2, none))
        | none => t = s.reply .accessFault
      | none => ∀ cs, s.cellsAt p.val va (List.replicate 4096 0) = some cs →
        ∃ ds : List (Nat × Byte), ds.map (·.1) = cs.map (·.1) ∧ RecordAsked s t (ds.map fun e => (e.1, e.2, some .access))))

/-- A debugger's request reaches the device (R97, R116, R118): a tenant's is a DOE message, which is an event for firmware and wakes the device. -/
def Reached (s u : State) : Prop :=
  (s.sec.vendor = true → u = s) ∧
  (s.sec.vendor = false → u = { s with fw := { s.fw with events := s.fw.events ++ [⟨none, 4⟩] }, sec := u.sec } ∧
    (s.sec.power ≠ 2 → u.sec = s.sec) ∧ (s.sec.power = 2 → s.sec.wakeAt = none → u.sec = { s.sec with wakeAt := some (s.gtc + 13000) }))

/-- The debug states: who may look, and what a debugger does (R116, R117, R123, R160, R332). -/
def DebugEvents : Prop :=
  (∀ (s : State) (k key : Nat) (x : Strm) (act : DebugAct), s.live = false →
    ∀ i ∈ [.debuggerHalt k key x act, .singleStep k key x, .debugRelease k key x, .debugDeliverBreakpoint k key x], exec i s = .next s) ∧
  (∀ (s : State) (k : Nat) (p : Fin 4) (sig : List Byte), s.live = true →
    (∀ key n, (s.tenant p.val).debugKey = some key → s.sec.nonce = some n → s.isOwner k p.val = true → s.zeroingOf p.val = false →
      s.sec.revoked = false →
      let ok := Config.mldsaVerify (leNat key) (unlockMsg p.val n) sig
      ∃ t, exec (.tenantDebugUnlock 0x13 k p sig) s = .next t ∧ t.mem = s.mem ∧ t.sec.nonce = none ∧
        t.tenant p.val = (if ok then { s.tenant p.val with tdebug := true } else s.tenant p.val) ∧
        t.link.replies = s.link.replies ++ [if ok then .accepted else .refused]) ∧
    ((s.tenant p.val).debugKey = none ∨ s.sec.nonce = none ∨ s.isOwner k p.val = false ∨ s.zeroingOf p.val = true ∨ s.sec.revoked = true →
      ∃ t, exec (.tenantDebugUnlock 0x13 k p sig) s = .next t ∧ t.mem = s.mem ∧ t.sec.nonce = none ∧ t.tenants = s.tenants ∧
        t.link.replies = s.link.replies ++ [.refused]) ∧
    (s.isOwner k p.val = true → (s.tenant p.val).tdebug = true → ∃ t, exec (.tenantDebugExit 0x13 k p) s = .next t ∧ t.mem = s.mem ∧
      t.tenant p.val = { s.tenant p.val with tdebug := false } ∧
      ∀ key w x, t.warp? key = some w → w.part = p.val → (w.strm x).halted = false ∧ (w.strm x).phase ≠ .parked .debug) ∧
    (s.isOwner k p.val = false ∨ (s.tenant p.val).tdebug = false → ∃ t, exec (.tenantDebugExit 0x13 k p) s = .next t ∧ Answered s t [.refused] ∧
      t.tenants = s.tenants)) ∧
  (∀ (s : State) (token : List Byte), s.live = true →
    (∀ n, s.sec.nonce = some n → s.sec.revoked = false → s.zeroingFor .vendor 0 = false →
      let ok := decide (Config.sha3 (token.take 1312) = Config.vendorKey) &&
        Config.mldsaVerify (leNat (token.take 1312)) (vendorMsg n) (token.drop 1312)
      ∃ t, exec (.vendorDebugToken 0x13 token) s = .next t ∧ t.mem = s.mem ∧ t.sec.nonce = none ∧ t.sec.vendor = s.sec.vendor ∧
        (ok = true → ∀ q, q < 4 → s.vendorTakes q = true → KillsContexts s t q) ∧
        t.sec.zeroing = (if ok then s.sec.zeroing ++ [(.vendor, 0, s.gtc)] else s.sec.zeroing) ∧
        t.link.replies = s.link.replies ++ [if ok then .accepted else .refused]) ∧
    (s.sec.nonce = none ∨ s.sec.revoked = true ∨ s.zeroingFor .vendor 0 = true →
      ∃ t, exec (.vendorDebugToken 0x13 token) s = .next t ∧ t.mem = s.mem ∧ t.sec.nonce = none ∧ t.sec.zeroing = s.sec.zeroing ∧
        t.link.replies = s.link.replies ++ [.refused])) ∧
  -- without access, and in D3HOT
  (∀ (s : State) (k key : Nat) (w : Warp) (x : Strm), s.live = true → s.warp? key = some w →
    (s.mayDebug k w.part = false → ∀ i ∈ [.debuggerHalt k key x .halt, .debuggerHalt k key x .readState, .singleStep k key x,
      .debugRelease k key x, .debugDeliverBreakpoint k key x], exec i s = .next s) ∧
    (s.mayDebug k w.part = true → s.link.d3 = true → s.sec.vendor = false → ∀ i ∈ [.debuggerHalt k key x .halt,
      .debuggerHalt k key x .readState, .singleStep k key x, .debugRelease k key x, .debugDeliverBreakpoint k key x],
      ∃ t, exec i s = .next t ∧ Answered s t [.busy] ∧ t.warps = s.warps)) ∧
  -- a stream
  (∀ (s : State) (k key : Nat) (w : Warp) (x : Strm), s.live = true → s.warp? key = some w → s.mayDebug k w.part = true →
    s.link.d3 = false ∨ s.sec.vendor = true → ∃ u, Reached s u ∧
    ((w.strm x).phase = .exited → exec (.debuggerHalt k key x .halt) s = .next u) ∧
    ((w.strm x).phase ≠ .exited → (w.strm x).phase ≠ .inRun → ∃ t v, exec (.debuggerHalt k key x .halt) s = .next t ∧
      t = { u with warps := t.warps } ∧ t.warp? key = some v ∧ v.strm x = { w.strm x with halted := true }) ∧
    ((w.strm x).phase = .inRun → exec (.debuggerHalt k key x .halt) s = .next (u.parkStream key x .debug)) ∧
    ((w.strm x).halted = true ∨ (w.strm x).phase = .parked .debug → ∃ t v, exec (.singleStep k key x) s = .next t ∧ t = { u with warps := t.warps } ∧
      t.warp? key = some v ∧ (v.strm x).stepOne = true ∧ (v.strm x).halted = false ∧ (v.strm x).phase ≠ .parked .debug ∧ (v.strm x).pc = (w.strm x).pc) ∧
    ((w.strm x).halted = false → (w.strm x).phase ≠ .parked .debug → exec (.singleStep k key x) s = .next u) ∧
    ((w.strm x).phase ≠ .parked .debug → exec (.debugDeliverBreakpoint k key x) s = .next u ∧
      ∃ t v, exec (.debugRelease k key x) s = .next t ∧ t = { u with warps := t.warps } ∧
        t.warp? key = some v ∧ v.strm x = { w.strm x with halted := false }) ∧
    ((w.strm x).phase = .parked .debug → (∀ o : E0, s.fetch key x ≠ .brk o) → exec (.debugDeliverBreakpoint k key x) s = .next u ∧
      ∃ t v, exec (.debugRelease k key x) s = .next t ∧ t = { u with warps := t.warps } ∧
        t.warp? key = some v ∧ v.strm x = { w.strm x with halted := false, phase := .released }) ∧
    (∀ o : E0, (w.strm x).phase = .parked .debug → s.fetch key x = .brk o →
      (∃ t v, exec (.debugRelease k key x) s = .next t ∧ t = { u with warps := t.warps } ∧ t.warp? key = some v ∧
        (v.strm x).pc = (w.strm x).pc + 4 ∧ (v.strm x).runCount = (w.strm x).runCount + 1 ∧ (v.strm x).phase = .idle ∧ (v.strm x).halted = false) ∧
      (∀ g, s.gridOf w = some g → (w.strm x).unhandled g.hdr.codelen = false → ∃ t v, exec (.debugDeliverBreakpoint k key x) s = .next t ∧
        t.mem = s.mem ∧ t.fes = s.fes ∧ t.warp? key = some v ∧ (v.strm x).trapActive = true ∧ field (v.strm x).trapcause.toNat 8 5 = 13 ∧
        (v.strm x).trappc = BitVec.ofNat 32 (w.strm x).pc))) ∧
  -- a warp's state, read
  (∀ (s : State) (k key n : Nat) (w : Warp) (x : Strm), s.live = true → s.warp? key = some w →
    s.mayDebug k w.part = true → s.link.d3 = false ∨ s.sec.vendor = true → ∃ u, Reached s u ∧
    let st := w.strm x
    let shows (act : DebugAct) (l : List Nat) := exec (.debuggerHalt k key x act) s = .next (u.reply (.data l))
    let latch (l : Latch) : List Nat :=
      (match l.kind with | .empty => 0 | .void => 1 | .val => 2) :: l.ready :: laneList.map fun i => (l.v.lane i).toNat
    shows (.readReg n) (laneList.map fun l => ((st.regs.get RVal.zero n).lane l).toNat) ∧
    shows (.readPred n) [(st.preds.get 0 n).toNat] ∧ shows .readState [st.pc, st.mask.toNat, st.stack.length] ∧
    (∀ b, st.guards.find? n = some b → shows (.readGuard n) [b.pred, if b.neg = true then 1 else 0]) ∧
    (st.guards.find? n = none → shows (.readGuard n) []) ∧
    (∀ d, st.stack[n]? = some d → shows (.readDiv n) [if d.call = true then 1 else 0, d.mask.toNat, d.addr]) ∧
    (∀ l, st.latches[n]? = some l → shows (.readLatch false n) (latch l)) ∧ (∀ l, st.shadow[n]? = some l → shows (.readLatch true n) (latch l)) ∧
    shows (.readFormat n) [(w.fmts.get 0 n).toNat] ∧ shows (.readTile n) [(w.accs.get 0 n).toNat] ∧
    shows (.readQueue n) ((w.live n).flatMap fun r =>
      (if r.landed = true then 1 else 0) :: laneList.map fun l => ((r.val.getD RVal.zero).lane l).toNat)) ∧
  -- and written
  (∀ (s : State) (k key n : Nat) (w : Warp) (x : Strm), s.live = true → s.warp? key = some w →
    s.mayDebug k w.part = true → s.link.d3 = false ∨ s.sec.vendor = true → ∃ u, Reached s u ∧
    let makes (act : DebugAct) (v : Warp) := ∃ t, exec (.debuggerHalt k key x act) s = .next t ∧ t = { u with warps := t.warps } ∧ t.warp? key = some v ∧
      ∀ j, j ≠ key → t.warp? j = s.warp? j
    let st := w.strm x
    let stream (f : Stream → Stream) : Warp := w.setStrm x (f st)
    let lanes (ws : List Word) : RVal := ⟨.g (laneList.map fun l => ws.getD l 0), []⟩
    (∀ ws, makes (.writeReg n ws) (stream fun st => { st with regs := st.regs.put n (lanes ws) })) ∧
    (∀ m, makes (.writePred n m) (stream fun st => { st with preds := st.preds.put n m })) ∧
    (∀ pc, makes (.writePc pc) (stream fun st => { st with pc := pc })) ∧ (∀ m, makes (.writeMask m) (stream fun st => { st with mask := m })) ∧
    (∀ p neg, makes (.writeGuard n p neg) (stream fun st => { st with guards := st.guards.put n ⟨p, neg⟩ })) ∧
    (∀ call m a, makes (.writeDiv n call m a) (stream fun st => { st with stack := st.stack.set n ⟨call, m, a⟩ })) ∧
    (∀ ws, makes (.writeLatch false n ws) (stream fun st => { st with latches := st.latches.set n ⟨.val, s.gtc, lanes ws, 0⟩ }) ∧
      makes (.writeLatch true n ws) (stream fun st => { st with shadow := st.shadow.set n ⟨.val, s.gtc, lanes ws, 0⟩ })) ∧
    (∀ v, makes (.writeFormat n v) { w with fmts := w.fmts.put n v } ∧ makes (.writeTile n v) { w with accs := w.accs.put n v }) ∧
    (∀ es, ∃ t v, exec (.debuggerHalt k key x (.writeQueue n es)) s = .next t ∧ t = { u with warps := t.warps, fresh := t.fresh } ∧
      t.warp? key = some v ∧ v = { w with queues := v.queues } ∧ (∀ q, q ≠ n → v.queue q = w.queue q) ∧
      (v.queue n).length = min (queueDepth n) es.length ∧
      ∀ (i : Nat) (ws : List Word), i < queueDepth n → es[i]? = some ws →
        ∃ r : Resv, (v.queue n)[i]? = some r ∧ r.landed = true ∧ r.val = some (lanes ws))) ∧
  -- memory
  (∀ (s : State) (k key p a n : Nat) (x : Strm) (bs : List Byte), s.live = true →
    (s.mayDebug k p = false → exec (.debuggerHalt k key x (.readMem p a n)) s = .next s ∧ exec (.debuggerHalt k key x (.writeMem p a bs)) s = .next s) ∧
    (s.mayDebug k p = true → s.link.d3 = false ∨ s.sec.vendor = true → ∃ u, Reached s u ∧
      ((∀ j, j < n → s.debugReach p (a + j) = true) → ∃ t, exec (.debuggerHalt k key x (.readMem p a n)) s = .next t ∧
        t = { u with hbm := t.hbm, link := { s.link with replies := s.link.replies ++ [.data ((s.bytesAt a n).map (·.toNat))] } }) ∧
      ((∃ j, j < n ∧ s.debugReach p (a + j) = false) → exec (.debuggerHalt k key x (.readMem p a n)) s = .next u) ∧
      ((∃ j, j < bs.length ∧ s.debugReach p (a + j) = false) → exec (.debuggerHalt k key x (.writeMem p a bs)) s = .next u) ∧
      (s.MemOk → (∀ j, j < bs.length → s.debugReach p (a + j) = true) → ∃ t, exec (.debuggerHalt k key x (.writeMem p a bs)) s = .next t ∧
        t.MemOk ∧ (∀ (j : Nat) (b : Byte), bs[j]? = some b → t.byteAt (a + j) = b ∧ t.markAt (a + j) = none) ∧
        ∀ y, y < a ∨ a + bs.length ≤ y → t.byteAt y = s.byteAt y))) ∧
  -- a vendor looks into the hub die
  (∀ (s : State) (k key o p c q g : Nat) (x y : Strm) (v : BitVec 64), s.live = true →
    (s.sec.vendor = false → ∀ act ∈ [.readHub o, .writeHub o v, .readKeys p, .readFront c q y, .readGrid g],
      exec (.debuggerHalt k key x act) s = .next s) ∧
    (s.sec.vendor = true →
      exec (.debuggerHalt k key x (.readHub o)) s = .next (s.reply (.data [s.readReg (o / 8 * 8)])) ∧
      exec (.debuggerHalt k key x (.writeHub o v)) s = .next (s.writeReg 8 (o / 8 * 8) v.toNat) ∧
      exec (.debuggerHalt k key x (.readKeys p)) s =
        .next (s.reply (.data [(s.tenant p).xtsKey, (s.tenant p).xferKey, if (s.tenant p).ideBound = true then 1 else 0])) ∧
      (∃ l, exec (.debuggerHalt k key x (.readFront c q y)) s = .next (s.reply (.data l)) ∧ l.length = 4 + (s.fe (feKey c q y)).joined.length) ∧
      ∃ l, exec (.debuggerHalt k key x (.readGrid g)) s = .next (s.reply (.data l)) ∧ ∀ h, s.grids.find? g = some h → l.take 3 = [h.part, h.lq, h.prio]))

/-- Core gating, DEVICE_IDLE and its wake (R118, R119). -/
def PowerEvents : Prop :=
  (∀ s : State, ∃ t, exec .coreGate s = .next t ∧ t = { s with sec := t.sec } ∧ ∀ core,
    ((∃ u, (core, u) ∈ s.sec.outs ∧ u + 64 ≤ s.gtc) → t.sec.outs.find? core = none ∧
      ((∀ e ∈ s.warps, e.2.core ≠ core) → core ∈ t.sec.gated) ∧
      ((∃ e ∈ s.warps, e.2.core = core) → (core ∈ t.sec.gated ↔ core ∈ s.sec.gated))) ∧
    ((∀ u, (core, u) ∈ s.sec.outs → s.gtc < u + 64) → t.sec.outs.find? core = s.sec.outs.find? core ∧
      (core ∈ t.sec.gated ↔ core ∈ s.sec.gated))) ∧
  (∀ s : State,
    (s.live = true → s.fw.ready = true → s.sec.power = 0 → s.link.d3 = false → s.quietNow = true → s.sec.lastBusy + 1300000 ≤ s.gtc →
      exec .deviceIdleEntry s = .next { s with sec := { s.sec with power := 2 } }) ∧
    (s.live = false ∨ s.fw.ready = false ∨ s.sec.power ≠ 0 ∨ s.link.d3 = true ∨ s.quietNow = false ∨ s.gtc < s.sec.lastBusy + 1300000 →
      exec .deviceIdleEntry s = .next s) ∧
    (∀ u, s.sec.wakeAt = some u → u ≤ s.gtc → exec .wakeComplete s =
      .next { s with sec := { s.sec with power := if s.sec.power = 2 then 0 else s.sec.power, wakeAt := none, lastBusy := s.gtc } }) ∧
    ((∀ u, s.sec.wakeAt = some u → s.gtc < u) → exec .wakeComplete s = .next s))

/-- R18, R27, R113 to R119, R122 to R124, R160, R184, R332: partitions, sealing and release, sealed transfers, debug and power. TDEBUG cleared at the start
of a release, keys stored at acceptance, refusal during a zeroing and the partitions that vendor entry takes are log entry 50; the debugger's halt, step,
reach and the form of its answers are log entry 51; the count of quiet ticks is log entry 53 (DEDUCED). -/
def Obligations.PartitionsDebugPower : Prop := PartitionEvents ∧ TenantEvents ∧ DebugEvents ∧ PowerEvents
end

