-- ==== Sys2Proof/Laws/Exec.lean ====
section
/-! SUPPORT. What `exec` does with each instruction: the meaning that its arm calls. -/

namespace Sys2Proof.Machine

variable (s : State)

@[simp] theorem exec_pwrokRise (railsOk : BitVec 10) (inOrder : Bool) (landsTied : Bool) (strap : BitVec 4) : exec (.pwrokRise railsOk inOrder landsTied strap) s = execPwrokRise railsOk inOrder landsTied strap s := rfl
@[simp] theorem exec_railDroop (monitor : BitVec 10) (past : BitVec 10) : exec (.railDroop monitor past) s = execRailDroop monitor past s := rfl
@[simp] theorem exec_tuningAndTrainingDone (failedPorts : BitVec 16) (stacksOk : BitVec 8) (join : PodJoin) : exec (.tuningAndTrainingDone failedPorts stacksOk join) s = execTuningAndTrainingDone failedPorts stacksOk join s := rfl
@[simp] theorem exec_memoryInitDone (readBackUe : Bool) : exec (.memoryInitDone readBackUe) s = execMemoryInitDone readBackUe s := rfl
@[simp] theorem exec_recoveryBlockWrite (addr : BitVec 7) (pecOk : Bool) (offset : Nat) (data : List Byte) : exec (.recoveryBlockWrite addr pecOk offset data) s = execRecoveryBlockWrite addr pecOk offset data s := rfl
@[simp] theorem exec_imageDone (addr : BitVec 7) (pecOk : Bool) : exec (.imageDone addr pecOk) s = execImageDone addr pecOk s := rfl
@[simp] theorem exec_abort (addr : BitVec 7) (pecOk : Bool) : exec (.abort addr pecOk) s = execAbort addr pecOk s := rfl
@[simp] theorem exec_activate (force : Bool) : exec (.activate force) s = execActivate force s := rfl
@[simp] theorem exec_slackWindow (temp : Nat) (notes : List HbmNote) : exec (.slackWindow temp notes) s = execSlackWindow temp notes s := rfl
@[simp] theorem exec_portLock (port : Fin 16) (tau16 : Nat) : exec (.portLock port tau16) s = execPortLock port tau16 s := rfl
@[simp] theorem exec_portDark (port : Fin 16) : exec (.portDark port) s = execPortDark port s := rfl
@[simp] theorem exec_portDead (port : Fin 16) : exec (.portDead port) s = execPortDead port s := rfl
@[simp] theorem exec_bundleTransmit (port : Fin 16) (pos : Nat) : exec (.bundleTransmit port pos) s = execBundleTransmit port pos s := rfl
@[simp] theorem exec_bundleReceive (port : Fin 16) (pos : Nat) (rx : RxBundle) : exec (.bundleReceive port pos rx) s = execBundleReceive port pos rx s := rfl
@[simp] theorem exec_replay (port : Fin 16) (pos : Nat) : exec (.replay port pos) s = execReplay port pos s := rfl
@[simp] theorem exec_landing (port : Fin 16) (pos : Nat) : exec (.landing port pos) s = execLanding port pos s := rfl
@[simp] theorem exec_relay (port : Fin 16) (pos : Nat) : exec (.relay port pos) s = execRelay port pos s := rfl
@[simp] theorem exec_requestRecord (port : Fin 16) (rec : FabRecord) : exec (.requestRecord port rec) s = execRequestRecord port rec s := rfl
@[simp] theorem exec_failureNotice (port : Fin 16) (dev : Nat) (rec : FabRecord) : exec (.failureNotice port dev rec) s = execFailureNotice port dev rec s := rfl
@[simp] theorem exec_keyRotation (port : Fin 512) (tx : Bool) (counter : Nat) : exec (.keyRotation port tx counter) s = execKeyRotation port tx counter s := rfl
@[simp] theorem exec_controlRecordReceive (port : Fin 16) (rec : CtrlRecord) : exec (.controlRecordReceive port rec) s = execControlRecordReceive port rec s := rfl
@[simp] theorem exec_ptpMessage (msg : PtpMsg) : exec (.ptpMessage msg) s = execPtpMessage msg s := rfl
@[simp] theorem exec_ppsIn (within : Bool) : exec (.ppsIn within) s = execPpsIn within s := rfl
@[simp] theorem exec_timeCfgWrite (val : BitVec 32) : exec (.timeCfgWrite val) s = execTimeCfgWrite val s := rfl
@[simp] theorem exec_doorbell (ring : Fin 1024) (tail : BitVec 32) : exec (.doorbell ring tail) s = execDoorbell ring tail s := rfl
@[simp] theorem exec_packetFetch (ring : Fin 1024) (pkt : Packet) : exec (.packetFetch ring pkt) s = execPacketFetch ring pkt s := rfl
@[simp] theorem exec_packetTake (lq : Fin 64) : exec (.packetTake lq) s = execPacketTake lq s := rfl
@[simp] theorem exec_dispatch (lq : Fin 64) : exec (.dispatch lq) s = execDispatch lq s := rfl
@[simp] theorem exec_nop (cmd : Nat) : exec (.nop cmd) s = execNop cmd s := rfl
@[simp] theorem exec_launch (cmd : Nat) : exec (.launch cmd) s = execLaunch cmd s := rfl
@[simp] theorem exec_graph (cmd : Nat) : exec (.graph cmd) s = execGraph cmd s := rfl
@[simp] theorem exec_wait (cmd : Nat) : exec (.wait cmd) s = execWait cmd s := rfl
@[simp] theorem exec_write (cmd : Nat) : exec (.write cmd) s = execWrite cmd s := rfl
@[simp] theorem exec_schedLoad (cmd : Nat) : exec (.schedLoad cmd) s = execSchedLoad cmd s := rfl
@[simp] theorem exec_schedLoadDone (cmd : Nat) : exec (.schedLoadDone cmd) s = execSchedLoadDone cmd s := rfl
@[simp] theorem exec_schedActivate (cmd : Nat) : exec (.schedActivate cmd) s = execSchedActivate cmd s := rfl
@[simp] theorem exec_preempt (cmd : Nat) : exec (.preempt cmd) s = execPreempt cmd s := rfl
@[simp] theorem exec_cond (cmd : Nat) : exec (.cond cmd) s = execCond cmd s := rfl
@[simp] theorem exec_loop (cmd : Nat) : exec (.loop cmd) s = execLoop cmd s := rfl
@[simp] theorem exec_endNode (cmd : Nat) : exec (.endNode cmd) s = execEndNode cmd s := rfl
@[simp] theorem exec_ringCfgWrite (ring : Fin 1024) (val : BitVec 32) : exec (.ringCfgWrite ring val) s = execRingCfgWrite ring val s := rfl
@[simp] theorem exec_mergeCfgWrite (lq : Fin 64) (val : BitVec 32) : exec (.mergeCfgWrite lq val) s = execMergeCfgWrite lq val s := rfl
@[simp] theorem exec_clear (lq : Fin 64) : exec (.clear lq) s = execClear lq s := rfl
@[simp] theorem exec_journalCfgWrite (val : BitVec 32) : exec (.journalCfgWrite val) s = execJournalCfgWrite val s := rfl
@[simp] theorem exec_ptRootWrite (part : Fin 4) (val : BitVec 64) : exec (.ptRootWrite part val) s = execPtRootWrite part val s := rfl
@[simp] theorem exec_flush (part : Fin 4) : exec (.flush part) s = execFlush part s := rfl
@[simp] theorem exec_pwrCfgWrite (val : BitVec 32) : exec (.pwrCfgWrite val) s = execPwrCfgWrite val s := rfl
@[simp] theorem exec_registerWrite (bar : Fin 3) (size : Nat) (offset : BitVec 26) (val : BitVec 64) : exec (.registerWrite bar size offset val) s = execRegisterWrite bar size offset val s := rfl
@[simp] theorem exec_challenge (version : BitVec 8) (slot : Nat) (nonce : BitVec 256) : exec (.challenge version slot nonce) s = execChallenge version slot nonce s := rfl
@[simp] theorem exec_getMeasurements (version : BitVec 8) (slot : Nat) (index : Nat) (signed : Bool) (nonce : BitVec 256) : exec (.getMeasurements version slot index signed nonce) s = execGetMeasurements version slot index signed nonce s := rfl
@[simp] theorem exec_keyExchange (version : BitVec 8) (slot : Nat) (share : BitVec 768) : exec (.keyExchange version slot share) s = execKeyExchange version slot share s := rfl
@[simp] theorem exec_finish (version : BitVec 8) (session : Nat) (tenant : Nat) : exec (.finish version session tenant) s = execFinish version session tenant s := rfl
@[simp] theorem exec_endSession (version : BitVec 8) (session : Nat) : exec (.endSession version session) s = execEndSession version session s := rfl
@[simp] theorem exec_partitionTableSet (table : List PartEntry) : exec (.partitionTableSet table) s = execPartitionTableSet table s := rfl
@[simp] theorem exec_seal (version : BitVec 8) (session : Nat) (msg : SealMsg) : exec (.seal version session msg) s = execSeal version session msg s := rfl
@[simp] theorem exec_unseal (version : BitVec 8) (session : Nat) (part : Fin 4) : exec (.unseal version session part) s = execUnseal version session part s := rfl
@[simp] theorem exec_operatorRelease (part : Fin 4) : exec (.operatorRelease part) s = execOperatorRelease part s := rfl
@[simp] theorem exec_tenantPtRootWrite (version : BitVec 8) (session : Nat) (part : Fin 4) (flush : Bool) (val : BitVec 64) : exec (.tenantPtRootWrite version session part flush val) s = execTenantPtRootWrite version session part flush val s := rfl
@[simp] theorem exec_tenantDebugUnlock (version : BitVec 8) (session : Nat) (part : Fin 4) (sig : List Byte) : exec (.tenantDebugUnlock version session part sig) s = execTenantDebugUnlock version session part sig s := rfl
@[simp] theorem exec_tenantDebugExit (version : BitVec 8) (session : Nat) (part : Fin 4) : exec (.tenantDebugExit version session part) s = execTenantDebugExit version session part s := rfl
@[simp] theorem exec_vendorDebugToken (version : BitVec 8) (token : List Byte) : exec (.vendorDebugToken version token) s = execVendorDebugToken version token s := rfl
@[simp] theorem exec_debugRelease (session : Nat) (warp : Nat) (strm : Strm) : exec (.debugRelease session warp strm) s = execDebugRelease session warp strm s := rfl
@[simp] theorem exec_debugDeliverBreakpoint (session : Nat) (warp : Nat) (strm : Strm) : exec (.debugDeliverBreakpoint session warp strm) s = execDebugDeliverBreakpoint session warp strm s := rfl
@[simp] theorem exec_sealedTransferRecord (stream : Option (Fin 4)) (part : Fin 4) (out : Bool) (xferId : BitVec 32) (index : BitVec 64) (addr : Nat) (cipher : List Byte) (tag : BitVec 128) : exec (.sealedTransferRecord stream part out xferId index addr cipher tag) s = execSealedTransferRecord stream part out xferId index addr cipher tag s := rfl
@[simp] theorem exec_instanceStart (grid : Nat) (pos : Nat) : exec (.instanceStart grid pos) s = execInstanceStart grid pos s := rfl
@[simp] theorem exec_resourceRelease (grid : Nat) (pos : Nat) : exec (.resourceRelease grid pos) s = execResourceRelease grid pos s := rfl
@[simp] theorem exec_gridRetire (grid : Nat) : exec (.gridRetire grid) s = execGridRetire grid s := rfl
@[simp] theorem exec_freeze (grid : Nat) : exec (.freeze grid) s = execFreeze grid s := rfl
@[simp] theorem exec_resumeImageWrite (grid : Nat) : exec (.resumeImageWrite grid) s = execResumeImageWrite grid s := rfl
@[simp] theorem exec_idleBeat (core : Nat) (part : Fin 4) (strm : Strm) : exec (.idleBeat core part strm) s = execIdleBeat core part strm s := rfl
@[simp] theorem exec_engineCommandStart (cmd : Nat) : exec (.engineCommandStart cmd) s = execEngineCommandStart cmd s := rfl
@[simp] theorem exec_iadd (o : T3) : exec (.iadd o) s = execIadd o s := rfl
@[simp] theorem exec_isub (o : T3) : exec (.isub o) s = execIsub o s := rfl
@[simp] theorem exec_imul (o : T3) : exec (.imul o) s = execImul o s := rfl
@[simp] theorem exec_imulh (o : T3) : exec (.imulh o) s = execImulh o s := rfl
@[simp] theorem exec_imulhu (o : T3) : exec (.imulhu o) s = execImulhu o s := rfl
@[simp] theorem exec_imad (o : T3d) : exec (.imad o) s = execImad o s := rfl
@[simp] theorem exec_imin (o : T3) : exec (.imin o) s = execImin o s := rfl
@[simp] theorem exec_imax (o : T3) : exec (.imax o) s = execImax o s := rfl
@[simp] theorem exec_iminu (o : T3) : exec (.iminu o) s = execIminu o s := rfl
@[simp] theorem exec_imaxu (o : T3) : exec (.imaxu o) s = execImaxu o s := rfl
@[simp] theorem exec_iabsd (o : T3) : exec (.iabsd o) s = execIabsd o s := rfl
@[simp] theorem exec_and (o : T3) : exec (.and o) s = execAnd o s := rfl
@[simp] theorem exec_or (o : T3) : exec (.or o) s = execOr o s := rfl
@[simp] theorem exec_xor (o : T3) : exec (.xor o) s = execXor o s := rfl
@[simp] theorem exec_andn (o : T3) : exec (.andn o) s = execAndn o s := rfl
@[simp] theorem exec_shl (o : T3) : exec (.shl o) s = execShl o s := rfl
@[simp] theorem exec_shr (o : T3) : exec (.shr o) s = execShr o s := rfl
@[simp] theorem exec_sar (o : T3) : exec (.sar o) s = execSar o s := rfl
@[simp] theorem exec_bfi (o : T3d) : exec (.bfi o) s = execBfi o s := rfl
@[simp] theorem exec_bperm (o : T3d) : exec (.bperm o) s = execBperm o s := rfl
@[simp] theorem exec_sel (o : T3) : exec (.sel o) s = execSel o s := rfl
@[simp] theorem exec_fadd (o : T3) : exec (.fadd o) s = execFadd o s := rfl
@[simp] theorem exec_fsub (o : T3) : exec (.fsub o) s = execFsub o s := rfl
@[simp] theorem exec_fmul (o : T3) : exec (.fmul o) s = execFmul o s := rfl
@[simp] theorem exec_ffma (o : T3d) : exec (.ffma o) s = execFfma o s := rfl
@[simp] theorem exec_fmin (o : T3) : exec (.fmin o) s = execFmin o s := rfl
@[simp] theorem exec_fmax (o : T3) : exec (.fmax o) s = execFmax o s := rfl
@[simp] theorem exec_hadd2 (o : T3) : exec (.hadd2 o) s = execHadd2 o s := rfl
@[simp] theorem exec_hmul2 (o : T3) : exec (.hmul2 o) s = execHmul2 o s := rfl
@[simp] theorem exec_hfma2 (o : T3d) : exec (.hfma2 o) s = execHfma2 o s := rfl
@[simp] theorem exec_icmp (o : TC) : exec (.icmp o) s = execIcmp o s := rfl
@[simp] theorem exec_icmpu (o : TC) : exec (.icmpu o) s = execIcmpu o s := rfl
@[simp] theorem exec_icmpi (o : TCi) : exec (.icmpi o) s = execIcmpi o s := rfl
@[simp] theorem exec_fcmp (o : TC) : exec (.fcmp o) s = execFcmp o s := rfl
@[simp] theorem exec_sts (o : St) : exec (.sts o) s = execSts o s := rfl
@[simp] theorem exec_stsw (o : St) : exec (.stsw o) s = execStsw o s := rfl
@[simp] theorem exec_stg (o : St) : exec (.stg o) s = execStg o s := rfl
@[simp] theorem exec_send (o : Snd) : exec (.send o) s = execSend o s := rfl
@[simp] theorem exec_ats (o : TA) : exec (.ats o) s = execAts o s := rfl
@[simp] theorem exec_atg (o : TA) : exec (.atg o) s = execAtg o s := rfl
@[simp] theorem exec_iaddi (o : TI) : exec (.iaddi o) s = execIaddi o s := rfl
@[simp] theorem exec_andi (o : TI) : exec (.andi o) s = execAndi o s := rfl
@[simp] theorem exec_ori (o : TI) : exec (.ori o) s = execOri o s := rfl
@[simp] theorem exec_xori (o : TI) : exec (.xori o) s = execXori o s := rfl
@[simp] theorem exec_shli (o : TIs) : exec (.shli o) s = execShli o s := rfl
@[simp] theorem exec_shri (o : TIs) : exec (.shri o) s = execShri o s := rfl
@[simp] theorem exec_sari (o : TIs) : exec (.sari o) s = execSari o s := rfl
@[simp] theorem exec_movil (o : TL) : exec (.movil o) s = execMovil o s := rfl
@[simp] theorem exec_movih (o : TLd) : exec (.movih o) s = execMovih o s := rfl
@[simp] theorem exec_bra (o : TB) : exec (.bra o) s = execBra o s := rfl
@[simp] theorem exec_call (o : TB) : exec (.call o) s = execCall o s := rfl
@[simp] theorem exec_mmq (o : TM) : exec (.mmq o) s = execMmq o s := rfl
@[simp] theorem exec_mmqs (o : TM) : exec (.mmqs o) s = execMmqs o s := rfl
@[simp] theorem exec_mov (o : T2) : exec (.mov o) s = execMov o s := rfl
@[simp] theorem exec_popc (o : T2) : exec (.popc o) s = execPopc o s := rfl
@[simp] theorem exec_clz (o : T2) : exec (.clz o) s = execClz o s := rfl
@[simp] theorem exec_brev (o : T2) : exec (.brev o) s = execBrev o s := rfl
@[simp] theorem exec_ineg (o : T2) : exec (.ineg o) s = execIneg o s := rfl
@[simp] theorem exec_iabs (o : T2) : exec (.iabs o) s = execIabs o s := rfl
@[simp] theorem exec_bfx (o : T2d) : exec (.bfx o) s = execBfx o s := rfl
@[simp] theorem exec_sext (o : T2n) : exec (.sext o) s = execSext o s := rfl
@[simp] theorem exec_rotl (o : T2n) : exec (.rotl o) s = execRotl o s := rfl
@[simp] theorem exec_frcp (o : T2) : exec (.frcp o) s = execFrcp o s := rfl
@[simp] theorem exec_frsq (o : T2) : exec (.frsq o) s = execFrsq o s := rfl
@[simp] theorem exec_fsqrt (o : T2) : exec (.fsqrt o) s = execFsqrt o s := rfl
@[simp] theorem exec_fex2 (o : T2) : exec (.fex2 o) s = execFex2 o s := rfl
@[simp] theorem exec_flg2 (o : T2) : exec (.flg2 o) s = execFlg2 o s := rfl
@[simp] theorem exec_fsinp (o : T2) : exec (.fsinp o) s = execFsinp o s := rfl
@[simp] theorem exec_fcosp (o : T2) : exec (.fcosp o) s = execFcosp o s := rfl
@[simp] theorem exec_ftanh (o : T2) : exec (.ftanh o) s = execFtanh o s := rfl
@[simp] theorem exec_fcvt (o : Cvt) : exec (.fcvt o) s = execFcvt o s := rfl
@[simp] theorem exec_i2f (o : T2r) : exec (.i2f o) s = execI2f o s := rfl
@[simp] theorem exec_f2i (o : T2r) : exec (.f2i o) s = execF2i o s := rfl
@[simp] theorem exec_fmtw (o : NA) : exec (.fmtw o) s = execFmtw o s := rfl
@[simp] theorem exec_cmpr (o : T2d) : exec (.cmpr o) s = execCmpr o s := rfl
@[simp] theorem exec_accz (o : N3) : exec (.accz o) s = execAccz o s := rfl
@[simp] theorem exec_accrd (o : Accrd) : exec (.accrd o) s = execAccrd o s := rfl
@[simp] theorem exec_accwr (o : NA) : exec (.accwr o) s = execAccwr o s := rfl
@[simp] theorem exec_pand (o : PP) : exec (.pand o) s = execPand o s := rfl
@[simp] theorem exec_por (o : PP) : exec (.por o) s = execPor o s := rfl
@[simp] theorem exec_pxor (o : PP) : exec (.pxor o) s = execPxor o s := rfl
@[simp] theorem exec_pnot (o : P2) : exec (.pnot o) s = execPnot o s := rfl
@[simp] theorem exec_pmov (o : P2) : exec (.pmov o) s = execPmov o s := rfl
@[simp] theorem exec_pvec (o : PV) : exec (.pvec o) s = execPvec o s := rfl
@[simp] theorem exec_gbind (o : GB) : exec (.gbind o) s = execGbind o s := rfl
@[simp] theorem exec_gbindNeg (o : GB) : exec (.gbindNeg o) s = execGbindNeg o s := rfl
@[simp] theorem exec_shflx (o : T2n) : exec (.shflx o) s = execShflx o s := rfl
@[simp] theorem exec_shflu (o : T2n) : exec (.shflu o) s = execShflu o s := rfl
@[simp] theorem exec_shfld (o : T2n) : exec (.shfld o) s = execShfld o s := rfl
@[simp] theorem exec_shfli (o : T2d) : exec (.shfli o) s = execShfli o s := rfl
@[simp] theorem exec_bcast (o : T2) : exec (.bcast o) s = execBcast o s := rfl
@[simp] theorem exec_ballot (o : PV) : exec (.ballot o) s = execBallot o s := rfl
@[simp] theorem exec_vall (o : P2) : exec (.vall o) s = execVall o s := rfl
@[simp] theorem exec_vany (o : P2) : exec (.vany o) s = execVany o s := rfl
@[simp] theorem exec_redl (o : T2o) : exec (.redl o) s = execRedl o s := rfl
@[simp] theorem exec_scanl (o : T2o) : exec (.scanl o) s = execScanl o s := rfl
@[simp] theorem exec_lds (o : Lds) : exec (.lds o) s = execLds o s := rfl
@[simp] theorem exec_ldsw (o : T2d) : exec (.ldsw o) s = execLdsw o s := rfl
@[simp] theorem exec_ldg (o : Ldg) : exec (.ldg o) s = execLdg o s := rfl
@[simp] theorem exec_ldgi (o : Ldg) : exec (.ldgi o) s = execLdgi o s := rfl
@[simp] theorem exec_qstat (o : QS) : exec (.qstat o) s = execQstat o s := rfl
@[simp] theorem exec_sendm (o : Sndm) : exec (.sendm o) s = execSendm o s := rfl
@[simp] theorem exec_bar (o : N2) : exec (.bar o) s = execBar o s := rfl
@[simp] theorem exec_arrive (o : N2) : exec (.arrive o) s = execArrive o s := rfl
@[simp] theorem exec_waitb (o : N2) : exec (.waitb o) s = execWaitb o s := rfl
@[simp] theorem exec_waitc (o : A1) : exec (.waitc o) s = execWaitc o s := rfl
@[simp] theorem exec_waitcHbm (o : A1) : exec (.waitcHbm o) s = execWaitcHbm o s := rfl
@[simp] theorem exec_waitt (o : A1) : exec (.waitt o) s = execWaitt o s := rfl
@[simp] theorem exec_fence (o : N2) : exec (.fence o) s = execFence o s := rfl
@[simp] theorem exec_qfence (o : A1) : exec (.qfence o) s = execQfence o s := rfl
@[simp] theorem exec_yield (o : E0) : exec (.yield o) s = execYield o s := rfl
@[simp] theorem exec_brx (o : AG) : exec (.brx o) s = execBrx o s := rfl
@[simp] theorem exec_ret (o : G0) : exec (.ret o) s = execRet o s := rfl
@[simp] theorem exec_split (o : Spl) : exec (.split o) s = execSplit o s := rfl
@[simp] theorem exec_join (o : E0) : exec (.join o) s = execJoin o s := rfl
@[simp] theorem exec_exit (o : G0) : exec (.exit o) s = execExit o s := rfl
@[simp] theorem exec_nopInstr (o : E0) : exec (.nopInstr o) s = execNopInstr o s := rfl
@[simp] theorem exec_ckpt (o : E0) : exec (.ckpt o) s = execCkpt o s := rfl
@[simp] theorem exec_copy (o : A1) : exec (.copy o) s = execCopy o s := rfl
@[simp] theorem exec_gather (o : A1) : exec (.gather o) s = execGather o s := rfl
@[simp] theorem exec_scatter (o : A1) : exec (.scatter o) s = execScatter o s := rfl
@[simp] theorem exec_mgx (o : A1) : exec (.mgx o) s = execMgx o s := rfl
@[simp] theorem exec_mmv (o : A1) : exec (.mmv o) s = execMmv o s := rfl
@[simp] theorem exec_fput (o : A1) : exec (.fput o) s = execFput o s := rfl
@[simp] theorem exec_fget (o : A1) : exec (.fget o) s = execFget o s := rfl
@[simp] theorem exec_fatom (o : A1) : exec (.fatom o) s = execFatom o s := rfl
@[simp] theorem exec_fmcast (o : A1) : exec (.fmcast o) s = execFmcast o s := rfl
@[simp] theorem exec_coll (o : A1) : exec (.coll o) s = execColl o s := rfl
@[simp] theorem exec_launchInstr (o : A1) : exec (.launchInstr o) s = execLaunchInstr o s := rfl
@[simp] theorem exec_cntadd (o : A1) : exec (.cntadd o) s = execCntadd o s := rfl
@[simp] theorem exec_rdsr (o : Rdsr) : exec (.rdsr o) s = execRdsr o s := rfl
@[simp] theorem exec_wrsr (o : Wrsr) : exec (.wrsr o) s = execWrsr o s := rfl
@[simp] theorem exec_spill (o : SF) : exec (.spill o) s = execSpill o s := rfl
@[simp] theorem exec_fill (o : SF) : exec (.fill o) s = execFill o s := rfl
@[simp] theorem exec_ctag (o : Ctag) : exec (.ctag o) s = execCtag o s := rfl
@[simp] theorem exec_psave (o : D1) : exec (.psave o) s = execPsave o s := rfl
@[simp] theorem exec_prest (o : D1) : exec (.prest o) s = execPrest o s := rfl
@[simp] theorem exec_dsave (o : D1) : exec (.dsave o) s = execDsave o s := rfl
@[simp] theorem exec_drest (o : D1) : exec (.drest o) s = execDrest o s := rfl
@[simp] theorem exec_bsave (o : D1) : exec (.bsave o) s = execBsave o s := rfl
@[simp] theorem exec_brest (o : D1) : exec (.brest o) s = execBrest o s := rfl
@[simp] theorem exec_lsave (o : D1) : exec (.lsave o) s = execLsave o s := rfl
@[simp] theorem exec_lrest (o : D1) : exec (.lrest o) s = execLrest o s := rfl
@[simp] theorem exec_brk (o : E0) : exec (.brk o) s = execBrk o s := rfl
@[simp] theorem exec_trap (o : E0) : exec (.trap o) s = execTrap o s := rfl
@[simp] theorem exec_asave (o : ND) : exec (.asave o) s = execAsave o s := rfl
@[simp] theorem exec_arest (o : ND) : exec (.arest o) s = execArest o s := rfl
@[simp] theorem exec_movH16 (o : H16) : exec (.movH16 o) s = execMovH16 o s := rfl
@[simp] theorem exec_iaddH16 (o : H16) : exec (.iaddH16 o) s = execIaddH16 o s := rfl
@[simp] theorem exec_isubH16 (o : H16) : exec (.isubH16 o) s = execIsubH16 o s := rfl
@[simp] theorem exec_imulH16 (o : H16) : exec (.imulH16 o) s = execImulH16 o s := rfl
@[simp] theorem exec_andH16 (o : H16) : exec (.andH16 o) s = execAndH16 o s := rfl
@[simp] theorem exec_orH16 (o : H16) : exec (.orH16 o) s = execOrH16 o s := rfl
@[simp] theorem exec_xorH16 (o : H16) : exec (.xorH16 o) s = execXorH16 o s := rfl
@[simp] theorem exec_andnH16 (o : H16) : exec (.andnH16 o) s = execAndnH16 o s := rfl
@[simp] theorem exec_shlH16 (o : H16) : exec (.shlH16 o) s = execShlH16 o s := rfl
@[simp] theorem exec_shrH16 (o : H16) : exec (.shrH16 o) s = execShrH16 o s := rfl
@[simp] theorem exec_sarH16 (o : H16) : exec (.sarH16 o) s = execSarH16 o s := rfl
@[simp] theorem exec_faddH16 (o : H16) : exec (.faddH16 o) s = execFaddH16 o s := rfl
@[simp] theorem exec_fsubH16 (o : H16) : exec (.fsubH16 o) s = execFsubH16 o s := rfl
@[simp] theorem exec_fmulH16 (o : H16) : exec (.fmulH16 o) s = execFmulH16 o s := rfl
@[simp] theorem exec_fminH16 (o : H16) : exec (.fminH16 o) s = execFminH16 o s := rfl
@[simp] theorem exec_fmaxH16 (o : H16) : exec (.fmaxH16 o) s = execFmaxH16 o s := rfl
@[simp] theorem exec_registerFileError (warp : Nat) (strm : Strm) (reg : Fin 112) (lane : Fin 32) : exec (.registerFileError warp strm reg lane) s = execRegisterFileError warp strm reg lane s := rfl
@[simp] theorem exec_ref10m (present : Bool) : exec (.ref10m present) s = execRef10m present s := rfl
@[simp] theorem exec_debuggerHalt (session : Nat) (warp : Nat) (strm : Strm) (act : DebugAct) : exec (.debuggerHalt session warp strm act) s = execDebuggerHalt session warp strm act s := rfl
@[simp] theorem exec_singleStep (session : Nat) (warp : Nat) (strm : Strm) : exec (.singleStep session warp strm) s = execSingleStep session warp strm s := rfl
@[simp] theorem exec_ideStreamBind (version : BitVec 8) (session : Nat) (part : Fin 4) : exec (.ideStreamBind version session part) s = execIdeStreamBind version session part s := rfl
@[simp] theorem exec_zeroingComplete (why : ZeroFor) (part : Fin 4) : exec (.zeroingComplete why part) s = execZeroingComplete why part s := rfl
@[simp] theorem exec_recoveryStatus (addr : BitVec 7) (code : BitVec 8) : exec (.recoveryStatus addr code) s = execRecoveryStatus addr code s := rfl
@[simp] theorem exec_getCapabilities (version : BitVec 8) : exec (.getCapabilities version) s = execGetCapabilities version s := rfl
@[simp] theorem exec_negotiateAlgorithms (version : BitVec 8) : exec (.negotiateAlgorithms version) s = execNegotiateAlgorithms version s := rfl
@[simp] theorem exec_getDigests (version : BitVec 8) : exec (.getDigests version) s = execGetDigests version s := rfl
@[simp] theorem exec_getCertificate (version : BitVec 8) (slot : Nat) : exec (.getCertificate version slot) s = execGetCertificate version slot s := rfl
@[simp] theorem exec_coreGate : exec (.coreGate) s = execCoreGate s := rfl
@[simp] theorem exec_staging : exec (.staging) s = execStaging s := rfl
@[simp] theorem exec_placement : exec (.placement) s = execPlacement s := rfl
@[simp] theorem exec_drainBoundExpiry : exec (.drainBoundExpiry) s = execDrainBoundExpiry s := rfl
@[simp] theorem exec_fwEventTake : exec (.fwEventTake) s = execFwEventTake s := rfl
@[simp] theorem exec_pwrokFall : exec (.pwrokFall) s = execPwrokFall s := rfl
@[simp] theorem exec_overtempAlert : exec (.overtempAlert) s = execOvertempAlert s := rfl
@[simp] theorem exec_thermtrip : exec (.thermtrip) s = execThermtrip s := rfl
@[simp] theorem exec_perstAssert : exec (.perstAssert) s = execPerstAssert s := rfl
@[simp] theorem exec_perstDeassert : exec (.perstDeassert) s = execPerstDeassert s := rfl
@[simp] theorem exec_busMasterEnable : exec (.busMasterEnable) s = execBusMasterEnable s := rfl
@[simp] theorem exec_d3hotEntry : exec (.d3hotEntry) s = execD3hotEntry s := rfl
@[simp] theorem exec_d0Entry : exec (.d0Entry) s = execD0Entry s := rfl
@[simp] theorem exec_romBoot : exec (.romBoot) s = execRomBoot s := rfl
@[simp] theorem exec_pllLock : exec (.pllLock) s = execPllLock s := rfl
@[simp] theorem exec_bringupPhaseTimeout : exec (.bringupPhaseTimeout) s = execBringupPhaseTimeout s := rfl
@[simp] theorem exec_gtcDisciplineTimeout : exec (.gtcDisciplineTimeout) s = execGtcDisciplineTimeout s := rfl
@[simp] theorem exec_recoveryVerifyDone : exec (.recoveryVerifyDone) s = execRecoveryVerifyDone s := rfl
@[simp] theorem exec_verify : exec (.verify) s = execVerify s := rfl
@[simp] theorem exec_fwVerifyDone : exec (.fwVerifyDone) s = execFwVerifyDone s := rfl
@[simp] theorem exec_fwActivateDone : exec (.fwActivateDone) s = execFwActivateDone s := rfl
@[simp] theorem exec_multicastResolution : exec (.multicastResolution) s = execMulticastResolution s := rfl
@[simp] theorem exec_controlRecord : exec (.controlRecord) s = execControlRecord s := rfl
@[simp] theorem exec_ppsOut : exec (.ppsOut) s = execPpsOut s := rfl
@[simp] theorem exec_timeFaultTimeout : exec (.timeFaultTimeout) s = execTimeFaultTimeout s := rfl
@[simp] theorem exec_holdover : exec (.holdover) s = execHoldover s := rfl
@[simp] theorem exec_enterFault : exec (.enterFault) s = execEnterFault s := rfl
@[simp] theorem exec_enterAgree : exec (.enterAgree) s = execEnterAgree s := rfl
@[simp] theorem exec_enterRealign : exec (.enterRealign) s = execEnterRealign s := rfl
@[simp] theorem exec_gtcRealign : exec (.gtcRealign) s = execGtcRealign s := rfl
@[simp] theorem exec_deviceHoldEnd : exec (.deviceHoldEnd) s = execDeviceHoldEnd s := rfl
@[simp] theorem exec_resumeRun : exec (.resumeRun) s = execResumeRun s := rfl
@[simp] theorem exec_boundaryImage : exec (.boundaryImage) s = execBoundaryImage s := rfl
@[simp] theorem exec_activationTakesEffect : exec (.activationTakesEffect) s = execActivationTakesEffect s := rfl
@[simp] theorem exec_waitSatisfied : exec (.waitSatisfied) s = execWaitSatisfied s := rfl
@[simp] theorem exec_waitWatchdog : exec (.waitWatchdog) s = execWaitWatchdog s := rfl
@[simp] theorem exec_getVersion : exec (.getVersion) s = execGetVersion s := rfl
@[simp] theorem exec_debugNonce (version : BitVec 8) : exec (.debugNonce version) s = execDebugNonce version s := rfl
@[simp] theorem exec_deviceIdleEntry : exec (.deviceIdleEntry) s = execDeviceIdleEntry s := rfl
@[simp] theorem exec_wakeComplete : exec (.wakeComplete) s = execWakeComplete s := rfl
@[simp] theorem exec_staged : exec (.staged) s = execStaged s := rfl
@[simp] theorem exec_resultLanding : exec (.resultLanding) s = execResultLanding s := rfl
@[simp] theorem exec_queueLanding : exec (.queueLanding) s = execQueueLanding s := rfl
@[simp] theorem exec_parkRelease : exec (.parkRelease) s = execParkRelease s := rfl
@[simp] theorem exec_barrierRelease : exec (.barrierRelease) s = execBarrierRelease s := rfl
@[simp] theorem exec_mailboxDelivery : exec (.mailboxDelivery) s = execMailboxDelivery s := rfl
@[simp] theorem exec_pageWalkLevel : exec (.pageWalkLevel) s = execPageWalkLevel s := rfl
@[simp] theorem exec_engineDone : exec (.engineDone) s = execEngineDone s := rfl
@[simp] theorem exec_trapret : exec (.trapret) s = execTrapret s := rfl
@[simp] theorem exec_illegalInstruction : exec (.illegalInstruction) s = execIllegalInstruction s := rfl
@[simp] theorem exec_writeCompletion : exec (.writeCompletion) s = execWriteCompletion s := rfl
@[simp] theorem exec_unsupportedRequest (version : BitVec 8) : exec (.unsupportedRequest version) s = execUnsupportedRequest version s := rfl
@[simp] theorem exec_vddAuxLost : exec (.vddAuxLost) s = execVddAuxLost s := rfl

end Sys2Proof.Machine
end

