-- ==== Sys2Proof/Laws/State.lean ====
section
/-! SUPPORT. The fields of a state after each named update of it. -/

namespace Sys2Proof.Machine

section
variable (s : State) (k : Nat) (f : Warp → Warp)
@[simp] theorem State.updWarp_gtc : (s.updWarp k f).gtc = s.gtc := rfl
@[simp] theorem State.updWarp_pending : (s.updWarp k f).pending = s.pending := rfl
@[simp] theorem State.updWarp_feTodo : (s.updWarp k f).feTodo = s.feTodo := rfl
@[simp] theorem State.updWarp_agenda : (s.updWarp k f).agenda = s.agenda := rfl
@[simp] theorem State.updWarp_cur : (s.updWarp k f).cur = s.cur := rfl
@[simp] theorem State.updWarp_mem : (s.updWarp k f).mem = s.mem := rfl
@[simp] theorem State.updWarp_poison : (s.updWarp k f).poison = s.poison := rfl
@[simp] theorem State.updWarp_writes : (s.updWarp k f).writes = s.writes := rfl
@[simp] theorem State.updWarp_reads : (s.updWarp k f).reads = s.reads := rfl
@[simp] theorem State.updWarp_mails : (s.updWarp k f).mails = s.mails := rfl
@[simp] theorem State.updWarp_warps : (s.updWarp k f).warps = s.warps.modify k f := rfl
@[simp] theorem State.updWarp_fes : (s.updWarp k f).fes = s.fes := rfl
@[simp] theorem State.updWarp_slips : (s.updWarp k f).slips = s.slips := rfl
@[simp] theorem State.updWarp_slots : (s.updWarp k f).slots = s.slots := rfl
@[simp] theorem State.updWarp_pool : (s.updWarp k f).pool = s.pool := rfl
@[simp] theorem State.updWarp_poolq : (s.updWarp k f).poolq = s.poolq := rfl
@[simp] theorem State.updWarp_beats : (s.updWarp k f).beats = s.beats := rfl
@[simp] theorem State.updWarp_hbmOut : (s.updWarp k f).hbmOut = s.hbmOut := rfl
@[simp] theorem State.updWarp_hist : (s.updWarp k f).hist = s.hist := rfl
@[simp] theorem State.updWarp_applied : (s.updWarp k f).applied = s.applied := rfl
@[simp] theorem State.updWarp_base : (s.updWarp k f).base = s.base := rfl
@[simp] theorem State.updWarp_mulFree : (s.updWarp k f).mulFree = s.mulFree := rfl
@[simp] theorem State.updWarp_grids : (s.updWarp k f).grids = s.grids := rfl
@[simp] theorem State.updWarp_copies : (s.updWarp k f).copies = s.copies := rfl
@[simp] theorem State.updWarp_banks : (s.updWarp k f).banks = s.banks := rfl
@[simp] theorem State.updWarp_stageEnd : (s.updWarp k f).stageEnd = s.stageEnd := rfl
@[simp] theorem State.updWarp_cmdsE : (s.updWarp k f).cmdsE = s.cmdsE := rfl
@[simp] theorem State.updWarp_joins : (s.updWarp k f).joins = s.joins := rfl
@[simp] theorem State.updWarp_stage : (s.updWarp k f).stage = s.stage := rfl
@[simp] theorem State.updWarp_mbox : (s.updWarp k f).mbox = s.mbox := rfl
@[simp] theorem State.updWarp_fills : (s.updWarp k f).fills = s.fills := rfl
@[simp] theorem State.updWarp_walks : (s.updWarp k f).walks = s.walks := rfl
@[simp] theorem State.updWarp_rings : (s.updWarp k f).rings = s.rings := rfl
@[simp] theorem State.updWarp_queues : (s.updWarp k f).queues = s.queues := rfl
@[simp] theorem State.updWarp_cmds : (s.updWarp k f).cmds = s.cmds := rfl
@[simp] theorem State.updWarp_journal : (s.updWarp k f).journal = s.journal := rfl
@[simp] theorem State.updWarp_ports : (s.updWarp k f).ports = s.ports := rfl
@[simp] theorem State.updWarp_relays : (s.updWarp k f).relays = s.relays := rfl
@[simp] theorem State.updWarp_recs : (s.updWarp k f).recs = s.recs := rfl
@[simp] theorem State.updWarp_hbm : (s.updWarp k f).hbm = s.hbm := rfl
@[simp] theorem State.updWarp_hbmLeaf : (s.updWarp k f).hbmLeaf = s.hbmLeaf := rfl
@[simp] theorem State.updWarp_tenants : (s.updWarp k f).tenants = s.tenants := rfl
@[simp] theorem State.updWarp_localRegions : (s.updWarp k f).localRegions = s.localRegions := rfl
@[simp] theorem State.updWarp_pkg : (s.updWarp k f).pkg = s.pkg := rfl
@[simp] theorem State.updWarp_fw : (s.updWarp k f).fw = s.fw := rfl
@[simp] theorem State.updWarp_link : (s.updWarp k f).link = s.link := rfl
@[simp] theorem State.updWarp_time : (s.updWarp k f).time = s.time := rfl
@[simp] theorem State.updWarp_sched : (s.updWarp k f).sched = s.sched := rfl
@[simp] theorem State.updWarp_sec : (s.updWarp k f).sec = s.sec := rfl
@[simp] theorem State.updWarp_regEccLatent : (s.updWarp k f).regEccLatent = s.regEccLatent := rfl
@[simp] theorem State.updWarp_regEccConsumed : (s.updWarp k f).regEccConsumed = s.regEccConsumed := rfl
@[simp] theorem State.updWarp_regErr : (s.updWarp k f).regErr = s.regErr := rfl
@[simp] theorem State.updWarp_fresh : (s.updWarp k f).fresh = s.fresh := rfl
@[simp] theorem State.updWarp_draw : (s.updWarp k f).draw = s.draw := rfl
end

section
variable (s : State) (k : Nat) (x : Strm) (f : Stream → Stream)
@[simp] theorem State.updStream_gtc : (s.updStream k x f).gtc = s.gtc := rfl
@[simp] theorem State.updStream_pending : (s.updStream k x f).pending = s.pending := rfl
@[simp] theorem State.updStream_feTodo : (s.updStream k x f).feTodo = s.feTodo := rfl
@[simp] theorem State.updStream_agenda : (s.updStream k x f).agenda = s.agenda := rfl
@[simp] theorem State.updStream_cur : (s.updStream k x f).cur = s.cur := rfl
@[simp] theorem State.updStream_mem : (s.updStream k x f).mem = s.mem := rfl
@[simp] theorem State.updStream_poison : (s.updStream k x f).poison = s.poison := rfl
@[simp] theorem State.updStream_writes : (s.updStream k x f).writes = s.writes := rfl
@[simp] theorem State.updStream_reads : (s.updStream k x f).reads = s.reads := rfl
@[simp] theorem State.updStream_mails : (s.updStream k x f).mails = s.mails := rfl
@[simp] theorem State.updStream_fes : (s.updStream k x f).fes = s.fes := rfl
@[simp] theorem State.updStream_slips : (s.updStream k x f).slips = s.slips := rfl
@[simp] theorem State.updStream_slots : (s.updStream k x f).slots = s.slots := rfl
@[simp] theorem State.updStream_pool : (s.updStream k x f).pool = s.pool := rfl
@[simp] theorem State.updStream_poolq : (s.updStream k x f).poolq = s.poolq := rfl
@[simp] theorem State.updStream_beats : (s.updStream k x f).beats = s.beats := rfl
@[simp] theorem State.updStream_hbmOut : (s.updStream k x f).hbmOut = s.hbmOut := rfl
@[simp] theorem State.updStream_hist : (s.updStream k x f).hist = s.hist := rfl
@[simp] theorem State.updStream_applied : (s.updStream k x f).applied = s.applied := rfl
@[simp] theorem State.updStream_base : (s.updStream k x f).base = s.base := rfl
@[simp] theorem State.updStream_mulFree : (s.updStream k x f).mulFree = s.mulFree := rfl
@[simp] theorem State.updStream_grids : (s.updStream k x f).grids = s.grids := rfl
@[simp] theorem State.updStream_copies : (s.updStream k x f).copies = s.copies := rfl
@[simp] theorem State.updStream_banks : (s.updStream k x f).banks = s.banks := rfl
@[simp] theorem State.updStream_stageEnd : (s.updStream k x f).stageEnd = s.stageEnd := rfl
@[simp] theorem State.updStream_cmdsE : (s.updStream k x f).cmdsE = s.cmdsE := rfl
@[simp] theorem State.updStream_joins : (s.updStream k x f).joins = s.joins := rfl
@[simp] theorem State.updStream_stage : (s.updStream k x f).stage = s.stage := rfl
@[simp] theorem State.updStream_mbox : (s.updStream k x f).mbox = s.mbox := rfl
@[simp] theorem State.updStream_fills : (s.updStream k x f).fills = s.fills := rfl
@[simp] theorem State.updStream_walks : (s.updStream k x f).walks = s.walks := rfl
@[simp] theorem State.updStream_rings : (s.updStream k x f).rings = s.rings := rfl
@[simp] theorem State.updStream_queues : (s.updStream k x f).queues = s.queues := rfl
@[simp] theorem State.updStream_cmds : (s.updStream k x f).cmds = s.cmds := rfl
@[simp] theorem State.updStream_journal : (s.updStream k x f).journal = s.journal := rfl
@[simp] theorem State.updStream_ports : (s.updStream k x f).ports = s.ports := rfl
@[simp] theorem State.updStream_relays : (s.updStream k x f).relays = s.relays := rfl
@[simp] theorem State.updStream_recs : (s.updStream k x f).recs = s.recs := rfl
@[simp] theorem State.updStream_hbm : (s.updStream k x f).hbm = s.hbm := rfl
@[simp] theorem State.updStream_hbmLeaf : (s.updStream k x f).hbmLeaf = s.hbmLeaf := rfl
@[simp] theorem State.updStream_tenants : (s.updStream k x f).tenants = s.tenants := rfl
@[simp] theorem State.updStream_localRegions : (s.updStream k x f).localRegions = s.localRegions := rfl
@[simp] theorem State.updStream_pkg : (s.updStream k x f).pkg = s.pkg := rfl
@[simp] theorem State.updStream_fw : (s.updStream k x f).fw = s.fw := rfl
@[simp] theorem State.updStream_link : (s.updStream k x f).link = s.link := rfl
@[simp] theorem State.updStream_time : (s.updStream k x f).time = s.time := rfl
@[simp] theorem State.updStream_sched : (s.updStream k x f).sched = s.sched := rfl
@[simp] theorem State.updStream_sec : (s.updStream k x f).sec = s.sec := rfl
@[simp] theorem State.updStream_regEccLatent : (s.updStream k x f).regEccLatent = s.regEccLatent := rfl
@[simp] theorem State.updStream_regEccConsumed : (s.updStream k x f).regEccConsumed = s.regEccConsumed := rfl
@[simp] theorem State.updStream_regErr : (s.updStream k x f).regErr = s.regErr := rfl
@[simp] theorem State.updStream_fresh : (s.updStream k x f).fresh = s.fresh := rfl
@[simp] theorem State.updStream_draw : (s.updStream k x f).draw = s.draw := rfl
end

section
variable (s : State) (g : Nat) (f : Grid → Grid)
@[simp] theorem State.updGrid_gtc : (s.updGrid g f).gtc = s.gtc := rfl
@[simp] theorem State.updGrid_pending : (s.updGrid g f).pending = s.pending := rfl
@[simp] theorem State.updGrid_feTodo : (s.updGrid g f).feTodo = s.feTodo := rfl
@[simp] theorem State.updGrid_agenda : (s.updGrid g f).agenda = s.agenda := rfl
@[simp] theorem State.updGrid_cur : (s.updGrid g f).cur = s.cur := rfl
@[simp] theorem State.updGrid_mem : (s.updGrid g f).mem = s.mem := rfl
@[simp] theorem State.updGrid_poison : (s.updGrid g f).poison = s.poison := rfl
@[simp] theorem State.updGrid_writes : (s.updGrid g f).writes = s.writes := rfl
@[simp] theorem State.updGrid_reads : (s.updGrid g f).reads = s.reads := rfl
@[simp] theorem State.updGrid_mails : (s.updGrid g f).mails = s.mails := rfl
@[simp] theorem State.updGrid_warps : (s.updGrid g f).warps = s.warps := rfl
@[simp] theorem State.updGrid_fes : (s.updGrid g f).fes = s.fes := rfl
@[simp] theorem State.updGrid_slips : (s.updGrid g f).slips = s.slips := rfl
@[simp] theorem State.updGrid_slots : (s.updGrid g f).slots = s.slots := rfl
@[simp] theorem State.updGrid_pool : (s.updGrid g f).pool = s.pool := rfl
@[simp] theorem State.updGrid_poolq : (s.updGrid g f).poolq = s.poolq := rfl
@[simp] theorem State.updGrid_beats : (s.updGrid g f).beats = s.beats := rfl
@[simp] theorem State.updGrid_hbmOut : (s.updGrid g f).hbmOut = s.hbmOut := rfl
@[simp] theorem State.updGrid_hist : (s.updGrid g f).hist = s.hist := rfl
@[simp] theorem State.updGrid_applied : (s.updGrid g f).applied = s.applied := rfl
@[simp] theorem State.updGrid_base : (s.updGrid g f).base = s.base := rfl
@[simp] theorem State.updGrid_mulFree : (s.updGrid g f).mulFree = s.mulFree := rfl
@[simp] theorem State.updGrid_grids : (s.updGrid g f).grids = s.grids.modify g f := rfl
@[simp] theorem State.updGrid_copies : (s.updGrid g f).copies = s.copies := rfl
@[simp] theorem State.updGrid_banks : (s.updGrid g f).banks = s.banks := rfl
@[simp] theorem State.updGrid_stageEnd : (s.updGrid g f).stageEnd = s.stageEnd := rfl
@[simp] theorem State.updGrid_cmdsE : (s.updGrid g f).cmdsE = s.cmdsE := rfl
@[simp] theorem State.updGrid_joins : (s.updGrid g f).joins = s.joins := rfl
@[simp] theorem State.updGrid_stage : (s.updGrid g f).stage = s.stage := rfl
@[simp] theorem State.updGrid_mbox : (s.updGrid g f).mbox = s.mbox := rfl
@[simp] theorem State.updGrid_fills : (s.updGrid g f).fills = s.fills := rfl
@[simp] theorem State.updGrid_walks : (s.updGrid g f).walks = s.walks := rfl
@[simp] theorem State.updGrid_rings : (s.updGrid g f).rings = s.rings := rfl
@[simp] theorem State.updGrid_queues : (s.updGrid g f).queues = s.queues := rfl
@[simp] theorem State.updGrid_cmds : (s.updGrid g f).cmds = s.cmds := rfl
@[simp] theorem State.updGrid_journal : (s.updGrid g f).journal = s.journal := rfl
@[simp] theorem State.updGrid_ports : (s.updGrid g f).ports = s.ports := rfl
@[simp] theorem State.updGrid_relays : (s.updGrid g f).relays = s.relays := rfl
@[simp] theorem State.updGrid_recs : (s.updGrid g f).recs = s.recs := rfl
@[simp] theorem State.updGrid_hbm : (s.updGrid g f).hbm = s.hbm := rfl
@[simp] theorem State.updGrid_hbmLeaf : (s.updGrid g f).hbmLeaf = s.hbmLeaf := rfl
@[simp] theorem State.updGrid_tenants : (s.updGrid g f).tenants = s.tenants := rfl
@[simp] theorem State.updGrid_localRegions : (s.updGrid g f).localRegions = s.localRegions := rfl
@[simp] theorem State.updGrid_pkg : (s.updGrid g f).pkg = s.pkg := rfl
@[simp] theorem State.updGrid_fw : (s.updGrid g f).fw = s.fw := rfl
@[simp] theorem State.updGrid_link : (s.updGrid g f).link = s.link := rfl
@[simp] theorem State.updGrid_time : (s.updGrid g f).time = s.time := rfl
@[simp] theorem State.updGrid_sched : (s.updGrid g f).sched = s.sched := rfl
@[simp] theorem State.updGrid_sec : (s.updGrid g f).sec = s.sec := rfl
@[simp] theorem State.updGrid_regEccLatent : (s.updGrid g f).regEccLatent = s.regEccLatent := rfl
@[simp] theorem State.updGrid_regEccConsumed : (s.updGrid g f).regEccConsumed = s.regEccConsumed := rfl
@[simp] theorem State.updGrid_regErr : (s.updGrid g f).regErr = s.regErr := rfl
@[simp] theorem State.updGrid_fresh : (s.updGrid g f).fresh = s.fresh := rfl
@[simp] theorem State.updGrid_draw : (s.updGrid g f).draw = s.draw := rfl
end

section
variable (s : State) (k : Nat) (f : FrontEnd → FrontEnd)
@[simp] theorem State.updFe_gtc : (s.updFe k f).gtc = s.gtc := rfl
@[simp] theorem State.updFe_pending : (s.updFe k f).pending = s.pending := rfl
@[simp] theorem State.updFe_feTodo : (s.updFe k f).feTodo = s.feTodo := rfl
@[simp] theorem State.updFe_agenda : (s.updFe k f).agenda = s.agenda := rfl
@[simp] theorem State.updFe_cur : (s.updFe k f).cur = s.cur := rfl
@[simp] theorem State.updFe_mem : (s.updFe k f).mem = s.mem := rfl
@[simp] theorem State.updFe_poison : (s.updFe k f).poison = s.poison := rfl
@[simp] theorem State.updFe_writes : (s.updFe k f).writes = s.writes := rfl
@[simp] theorem State.updFe_reads : (s.updFe k f).reads = s.reads := rfl
@[simp] theorem State.updFe_mails : (s.updFe k f).mails = s.mails := rfl
@[simp] theorem State.updFe_warps : (s.updFe k f).warps = s.warps := rfl
@[simp] theorem State.updFe_fes : (s.updFe k f).fes = s.fes.update FrontEnd.fresh k f := rfl
@[simp] theorem State.updFe_slips : (s.updFe k f).slips = s.slips := rfl
@[simp] theorem State.updFe_slots : (s.updFe k f).slots = s.slots := rfl
@[simp] theorem State.updFe_pool : (s.updFe k f).pool = s.pool := rfl
@[simp] theorem State.updFe_poolq : (s.updFe k f).poolq = s.poolq := rfl
@[simp] theorem State.updFe_beats : (s.updFe k f).beats = s.beats := rfl
@[simp] theorem State.updFe_hbmOut : (s.updFe k f).hbmOut = s.hbmOut := rfl
@[simp] theorem State.updFe_hist : (s.updFe k f).hist = s.hist := rfl
@[simp] theorem State.updFe_applied : (s.updFe k f).applied = s.applied := rfl
@[simp] theorem State.updFe_base : (s.updFe k f).base = s.base := rfl
@[simp] theorem State.updFe_mulFree : (s.updFe k f).mulFree = s.mulFree := rfl
@[simp] theorem State.updFe_grids : (s.updFe k f).grids = s.grids := rfl
@[simp] theorem State.updFe_copies : (s.updFe k f).copies = s.copies := rfl
@[simp] theorem State.updFe_banks : (s.updFe k f).banks = s.banks := rfl
@[simp] theorem State.updFe_stageEnd : (s.updFe k f).stageEnd = s.stageEnd := rfl
@[simp] theorem State.updFe_cmdsE : (s.updFe k f).cmdsE = s.cmdsE := rfl
@[simp] theorem State.updFe_joins : (s.updFe k f).joins = s.joins := rfl
@[simp] theorem State.updFe_stage : (s.updFe k f).stage = s.stage := rfl
@[simp] theorem State.updFe_mbox : (s.updFe k f).mbox = s.mbox := rfl
@[simp] theorem State.updFe_fills : (s.updFe k f).fills = s.fills := rfl
@[simp] theorem State.updFe_walks : (s.updFe k f).walks = s.walks := rfl
@[simp] theorem State.updFe_rings : (s.updFe k f).rings = s.rings := rfl
@[simp] theorem State.updFe_queues : (s.updFe k f).queues = s.queues := rfl
@[simp] theorem State.updFe_cmds : (s.updFe k f).cmds = s.cmds := rfl
@[simp] theorem State.updFe_journal : (s.updFe k f).journal = s.journal := rfl
@[simp] theorem State.updFe_ports : (s.updFe k f).ports = s.ports := rfl
@[simp] theorem State.updFe_relays : (s.updFe k f).relays = s.relays := rfl
@[simp] theorem State.updFe_recs : (s.updFe k f).recs = s.recs := rfl
@[simp] theorem State.updFe_hbm : (s.updFe k f).hbm = s.hbm := rfl
@[simp] theorem State.updFe_hbmLeaf : (s.updFe k f).hbmLeaf = s.hbmLeaf := rfl
@[simp] theorem State.updFe_tenants : (s.updFe k f).tenants = s.tenants := rfl
@[simp] theorem State.updFe_localRegions : (s.updFe k f).localRegions = s.localRegions := rfl
@[simp] theorem State.updFe_pkg : (s.updFe k f).pkg = s.pkg := rfl
@[simp] theorem State.updFe_fw : (s.updFe k f).fw = s.fw := rfl
@[simp] theorem State.updFe_link : (s.updFe k f).link = s.link := rfl
@[simp] theorem State.updFe_time : (s.updFe k f).time = s.time := rfl
@[simp] theorem State.updFe_sched : (s.updFe k f).sched = s.sched := rfl
@[simp] theorem State.updFe_sec : (s.updFe k f).sec = s.sec := rfl
@[simp] theorem State.updFe_regEccLatent : (s.updFe k f).regEccLatent = s.regEccLatent := rfl
@[simp] theorem State.updFe_regEccConsumed : (s.updFe k f).regEccConsumed = s.regEccConsumed := rfl
@[simp] theorem State.updFe_regErr : (s.updFe k f).regErr = s.regErr := rfl
@[simp] theorem State.updFe_fresh : (s.updFe k f).fresh = s.fresh := rfl
@[simp] theorem State.updFe_draw : (s.updFe k f).draw = s.draw := rfl
end

section
variable (s : State) (k : Nat) (x : Strm)
@[simp] theorem State.endTurn_gtc : (s.endTurn k x).gtc = s.gtc := rfl
@[simp] theorem State.endTurn_pending : (s.endTurn k x).pending = s.pending := rfl
@[simp] theorem State.endTurn_feTodo : (s.endTurn k x).feTodo = s.feTodo := rfl
@[simp] theorem State.endTurn_agenda : (s.endTurn k x).agenda = s.agenda := rfl
@[simp] theorem State.endTurn_cur : (s.endTurn k x).cur = s.cur := rfl
@[simp] theorem State.endTurn_mem : (s.endTurn k x).mem = s.mem := rfl
@[simp] theorem State.endTurn_poison : (s.endTurn k x).poison = s.poison := rfl
@[simp] theorem State.endTurn_writes : (s.endTurn k x).writes = s.writes := rfl
@[simp] theorem State.endTurn_reads : (s.endTurn k x).reads = s.reads := rfl
@[simp] theorem State.endTurn_mails : (s.endTurn k x).mails = s.mails := rfl
@[simp] theorem State.endTurn_warps : (s.endTurn k x).warps = s.warps := rfl
@[simp] theorem State.endTurn_slips : (s.endTurn k x).slips = s.slips := rfl
@[simp] theorem State.endTurn_slots : (s.endTurn k x).slots = s.slots := rfl
@[simp] theorem State.endTurn_pool : (s.endTurn k x).pool = s.pool := rfl
@[simp] theorem State.endTurn_poolq : (s.endTurn k x).poolq = s.poolq := rfl
@[simp] theorem State.endTurn_beats : (s.endTurn k x).beats = s.beats := rfl
@[simp] theorem State.endTurn_hbmOut : (s.endTurn k x).hbmOut = s.hbmOut := rfl
@[simp] theorem State.endTurn_hist : (s.endTurn k x).hist = s.hist := rfl
@[simp] theorem State.endTurn_applied : (s.endTurn k x).applied = s.applied := rfl
@[simp] theorem State.endTurn_base : (s.endTurn k x).base = s.base := rfl
@[simp] theorem State.endTurn_mulFree : (s.endTurn k x).mulFree = s.mulFree := rfl
@[simp] theorem State.endTurn_grids : (s.endTurn k x).grids = s.grids := rfl
@[simp] theorem State.endTurn_copies : (s.endTurn k x).copies = s.copies := rfl
@[simp] theorem State.endTurn_banks : (s.endTurn k x).banks = s.banks := rfl
@[simp] theorem State.endTurn_stageEnd : (s.endTurn k x).stageEnd = s.stageEnd := rfl
@[simp] theorem State.endTurn_cmdsE : (s.endTurn k x).cmdsE = s.cmdsE := rfl
@[simp] theorem State.endTurn_joins : (s.endTurn k x).joins = s.joins := rfl
@[simp] theorem State.endTurn_stage : (s.endTurn k x).stage = s.stage := rfl
@[simp] theorem State.endTurn_mbox : (s.endTurn k x).mbox = s.mbox := rfl
@[simp] theorem State.endTurn_fills : (s.endTurn k x).fills = s.fills := rfl
@[simp] theorem State.endTurn_walks : (s.endTurn k x).walks = s.walks := rfl
@[simp] theorem State.endTurn_rings : (s.endTurn k x).rings = s.rings := rfl
@[simp] theorem State.endTurn_queues : (s.endTurn k x).queues = s.queues := rfl
@[simp] theorem State.endTurn_cmds : (s.endTurn k x).cmds = s.cmds := rfl
@[simp] theorem State.endTurn_journal : (s.endTurn k x).journal = s.journal := rfl
@[simp] theorem State.endTurn_ports : (s.endTurn k x).ports = s.ports := rfl
@[simp] theorem State.endTurn_relays : (s.endTurn k x).relays = s.relays := rfl
@[simp] theorem State.endTurn_recs : (s.endTurn k x).recs = s.recs := rfl
@[simp] theorem State.endTurn_hbm : (s.endTurn k x).hbm = s.hbm := rfl
@[simp] theorem State.endTurn_hbmLeaf : (s.endTurn k x).hbmLeaf = s.hbmLeaf := rfl
@[simp] theorem State.endTurn_tenants : (s.endTurn k x).tenants = s.tenants := rfl
@[simp] theorem State.endTurn_localRegions : (s.endTurn k x).localRegions = s.localRegions := rfl
@[simp] theorem State.endTurn_pkg : (s.endTurn k x).pkg = s.pkg := rfl
@[simp] theorem State.endTurn_fw : (s.endTurn k x).fw = s.fw := rfl
@[simp] theorem State.endTurn_link : (s.endTurn k x).link = s.link := rfl
@[simp] theorem State.endTurn_time : (s.endTurn k x).time = s.time := rfl
@[simp] theorem State.endTurn_sched : (s.endTurn k x).sched = s.sched := rfl
@[simp] theorem State.endTurn_sec : (s.endTurn k x).sec = s.sec := rfl
@[simp] theorem State.endTurn_regEccLatent : (s.endTurn k x).regEccLatent = s.regEccLatent := rfl
@[simp] theorem State.endTurn_regEccConsumed : (s.endTurn k x).regEccConsumed = s.regEccConsumed := rfl
@[simp] theorem State.endTurn_regErr : (s.endTurn k x).regErr = s.regErr := rfl
@[simp] theorem State.endTurn_fresh : (s.endTurn k x).fresh = s.fresh := rfl
@[simp] theorem State.endTurn_draw : (s.endTurn k x).draw = s.draw := rfl
end

section
variable (s : State) 
@[simp] theorem State.bump_gtc : (s.bump).gtc = s.gtc := rfl
@[simp] theorem State.bump_pending : (s.bump).pending = s.pending := rfl
@[simp] theorem State.bump_feTodo : (s.bump).feTodo = s.feTodo := rfl
@[simp] theorem State.bump_agenda : (s.bump).agenda = s.agenda := rfl
@[simp] theorem State.bump_cur : (s.bump).cur = s.cur := rfl
@[simp] theorem State.bump_mem : (s.bump).mem = s.mem := rfl
@[simp] theorem State.bump_poison : (s.bump).poison = s.poison := rfl
@[simp] theorem State.bump_writes : (s.bump).writes = s.writes := rfl
@[simp] theorem State.bump_reads : (s.bump).reads = s.reads := rfl
@[simp] theorem State.bump_mails : (s.bump).mails = s.mails := rfl
@[simp] theorem State.bump_warps : (s.bump).warps = s.warps := rfl
@[simp] theorem State.bump_fes : (s.bump).fes = s.fes := rfl
@[simp] theorem State.bump_slips : (s.bump).slips = s.slips := rfl
@[simp] theorem State.bump_slots : (s.bump).slots = s.slots := rfl
@[simp] theorem State.bump_pool : (s.bump).pool = s.pool := rfl
@[simp] theorem State.bump_poolq : (s.bump).poolq = s.poolq := rfl
@[simp] theorem State.bump_beats : (s.bump).beats = s.beats := rfl
@[simp] theorem State.bump_hbmOut : (s.bump).hbmOut = s.hbmOut := rfl
@[simp] theorem State.bump_hist : (s.bump).hist = s.hist := rfl
@[simp] theorem State.bump_applied : (s.bump).applied = s.applied := rfl
@[simp] theorem State.bump_base : (s.bump).base = s.base := rfl
@[simp] theorem State.bump_mulFree : (s.bump).mulFree = s.mulFree := rfl
@[simp] theorem State.bump_grids : (s.bump).grids = s.grids := rfl
@[simp] theorem State.bump_copies : (s.bump).copies = s.copies := rfl
@[simp] theorem State.bump_banks : (s.bump).banks = s.banks := rfl
@[simp] theorem State.bump_stageEnd : (s.bump).stageEnd = s.stageEnd := rfl
@[simp] theorem State.bump_cmdsE : (s.bump).cmdsE = s.cmdsE := rfl
@[simp] theorem State.bump_joins : (s.bump).joins = s.joins := rfl
@[simp] theorem State.bump_stage : (s.bump).stage = s.stage := rfl
@[simp] theorem State.bump_mbox : (s.bump).mbox = s.mbox := rfl
@[simp] theorem State.bump_fills : (s.bump).fills = s.fills := rfl
@[simp] theorem State.bump_walks : (s.bump).walks = s.walks := rfl
@[simp] theorem State.bump_rings : (s.bump).rings = s.rings := rfl
@[simp] theorem State.bump_queues : (s.bump).queues = s.queues := rfl
@[simp] theorem State.bump_cmds : (s.bump).cmds = s.cmds := rfl
@[simp] theorem State.bump_journal : (s.bump).journal = s.journal := rfl
@[simp] theorem State.bump_ports : (s.bump).ports = s.ports := rfl
@[simp] theorem State.bump_relays : (s.bump).relays = s.relays := rfl
@[simp] theorem State.bump_recs : (s.bump).recs = s.recs := rfl
@[simp] theorem State.bump_hbm : (s.bump).hbm = s.hbm := rfl
@[simp] theorem State.bump_hbmLeaf : (s.bump).hbmLeaf = s.hbmLeaf := rfl
@[simp] theorem State.bump_tenants : (s.bump).tenants = s.tenants := rfl
@[simp] theorem State.bump_localRegions : (s.bump).localRegions = s.localRegions := rfl
@[simp] theorem State.bump_pkg : (s.bump).pkg = s.pkg := rfl
@[simp] theorem State.bump_fw : (s.bump).fw = s.fw := rfl
@[simp] theorem State.bump_link : (s.bump).link = s.link := rfl
@[simp] theorem State.bump_time : (s.bump).time = s.time := rfl
@[simp] theorem State.bump_sched : (s.bump).sched = s.sched := rfl
@[simp] theorem State.bump_sec : (s.bump).sec = s.sec := rfl
@[simp] theorem State.bump_regEccLatent : (s.bump).regEccLatent = s.regEccLatent := rfl
@[simp] theorem State.bump_regEccConsumed : (s.bump).regEccConsumed = s.regEccConsumed := rfl
@[simp] theorem State.bump_regErr : (s.bump).regErr = s.regErr := rfl
@[simp] theorem State.bump_fresh : (s.bump).fresh = s.fresh + 1 := rfl
@[simp] theorem State.bump_draw : (s.bump).draw = s.draw := rfl
end

section
variable (s : State) (k : Nat) (x : Strm) (n : Nat) (e : Eff)
@[simp] theorem State.land_gtc : (s.land k x n e).gtc = s.gtc := rfl
@[simp] theorem State.land_pending : (s.land k x n e).pending = s.pending := rfl
@[simp] theorem State.land_feTodo : (s.land k x n e).feTodo = s.feTodo := rfl
@[simp] theorem State.land_agenda : (s.land k x n e).agenda = s.agenda := rfl
@[simp] theorem State.land_cur : (s.land k x n e).cur = s.cur := rfl
@[simp] theorem State.land_mem : (s.land k x n e).mem = s.mem := rfl
@[simp] theorem State.land_poison : (s.land k x n e).poison = s.poison := rfl
@[simp] theorem State.land_writes : (s.land k x n e).writes = s.writes := rfl
@[simp] theorem State.land_reads : (s.land k x n e).reads = s.reads := rfl
@[simp] theorem State.land_mails : (s.land k x n e).mails = s.mails := rfl
@[simp] theorem State.land_fes : (s.land k x n e).fes = s.fes := rfl
@[simp] theorem State.land_slips : (s.land k x n e).slips = s.slips := rfl
@[simp] theorem State.land_slots : (s.land k x n e).slots = s.slots := rfl
@[simp] theorem State.land_pool : (s.land k x n e).pool = s.pool := rfl
@[simp] theorem State.land_poolq : (s.land k x n e).poolq = s.poolq := rfl
@[simp] theorem State.land_beats : (s.land k x n e).beats = s.beats := rfl
@[simp] theorem State.land_hbmOut : (s.land k x n e).hbmOut = s.hbmOut := rfl
@[simp] theorem State.land_hist : (s.land k x n e).hist = s.hist := rfl
@[simp] theorem State.land_applied : (s.land k x n e).applied = s.applied := rfl
@[simp] theorem State.land_base : (s.land k x n e).base = s.base := rfl
@[simp] theorem State.land_mulFree : (s.land k x n e).mulFree = s.mulFree := rfl
@[simp] theorem State.land_grids : (s.land k x n e).grids = s.grids := rfl
@[simp] theorem State.land_copies : (s.land k x n e).copies = s.copies := rfl
@[simp] theorem State.land_banks : (s.land k x n e).banks = s.banks := rfl
@[simp] theorem State.land_stageEnd : (s.land k x n e).stageEnd = s.stageEnd := rfl
@[simp] theorem State.land_cmdsE : (s.land k x n e).cmdsE = s.cmdsE := rfl
@[simp] theorem State.land_joins : (s.land k x n e).joins = s.joins := rfl
@[simp] theorem State.land_stage : (s.land k x n e).stage = s.stage := rfl
@[simp] theorem State.land_mbox : (s.land k x n e).mbox = s.mbox := rfl
@[simp] theorem State.land_fills : (s.land k x n e).fills = s.fills := rfl
@[simp] theorem State.land_walks : (s.land k x n e).walks = s.walks := rfl
@[simp] theorem State.land_rings : (s.land k x n e).rings = s.rings := rfl
@[simp] theorem State.land_queues : (s.land k x n e).queues = s.queues := rfl
@[simp] theorem State.land_cmds : (s.land k x n e).cmds = s.cmds := rfl
@[simp] theorem State.land_journal : (s.land k x n e).journal = s.journal := rfl
@[simp] theorem State.land_ports : (s.land k x n e).ports = s.ports := rfl
@[simp] theorem State.land_relays : (s.land k x n e).relays = s.relays := rfl
@[simp] theorem State.land_recs : (s.land k x n e).recs = s.recs := rfl
@[simp] theorem State.land_hbm : (s.land k x n e).hbm = s.hbm := rfl
@[simp] theorem State.land_hbmLeaf : (s.land k x n e).hbmLeaf = s.hbmLeaf := rfl
@[simp] theorem State.land_tenants : (s.land k x n e).tenants = s.tenants := rfl
@[simp] theorem State.land_localRegions : (s.land k x n e).localRegions = s.localRegions := rfl
@[simp] theorem State.land_pkg : (s.land k x n e).pkg = s.pkg := rfl
@[simp] theorem State.land_fw : (s.land k x n e).fw = s.fw := rfl
@[simp] theorem State.land_link : (s.land k x n e).link = s.link := rfl
@[simp] theorem State.land_time : (s.land k x n e).time = s.time := rfl
@[simp] theorem State.land_sched : (s.land k x n e).sched = s.sched := rfl
@[simp] theorem State.land_sec : (s.land k x n e).sec = s.sec := rfl
@[simp] theorem State.land_regEccLatent : (s.land k x n e).regEccLatent = s.regEccLatent := rfl
@[simp] theorem State.land_regEccConsumed : (s.land k x n e).regEccConsumed = s.regEccConsumed := rfl
@[simp] theorem State.land_regErr : (s.land k x n e).regErr = s.regErr := rfl
@[simp] theorem State.land_fresh : (s.land k x n e).fresh = s.fresh + 1 := rfl
@[simp] theorem State.land_draw : (s.land k x n e).draw = s.draw := rfl
end

section
variable (s : State) (a : Nat) (b : Byte) (m : Option MCls)
@[simp] theorem State.putByte_gtc : (s.putByte a b m).gtc = s.gtc := rfl
@[simp] theorem State.putByte_pending : (s.putByte a b m).pending = s.pending := rfl
@[simp] theorem State.putByte_feTodo : (s.putByte a b m).feTodo = s.feTodo := rfl
@[simp] theorem State.putByte_agenda : (s.putByte a b m).agenda = s.agenda := rfl
@[simp] theorem State.putByte_cur : (s.putByte a b m).cur = s.cur := rfl
@[simp] theorem State.putByte_mem : (s.putByte a b m).mem = Mem.write s.mem a b := rfl
@[simp] theorem State.putByte_writes : (s.putByte a b m).writes = s.writes := rfl
@[simp] theorem State.putByte_reads : (s.putByte a b m).reads = s.reads := rfl
@[simp] theorem State.putByte_mails : (s.putByte a b m).mails = s.mails := rfl
@[simp] theorem State.putByte_warps : (s.putByte a b m).warps = s.warps := rfl
@[simp] theorem State.putByte_fes : (s.putByte a b m).fes = s.fes := rfl
@[simp] theorem State.putByte_slips : (s.putByte a b m).slips = s.slips := rfl
@[simp] theorem State.putByte_slots : (s.putByte a b m).slots = s.slots := rfl
@[simp] theorem State.putByte_pool : (s.putByte a b m).pool = s.pool := rfl
@[simp] theorem State.putByte_poolq : (s.putByte a b m).poolq = s.poolq := rfl
@[simp] theorem State.putByte_beats : (s.putByte a b m).beats = s.beats := rfl
@[simp] theorem State.putByte_hbmOut : (s.putByte a b m).hbmOut = s.hbmOut := rfl
@[simp] theorem State.putByte_hist : (s.putByte a b m).hist = s.hist := rfl
@[simp] theorem State.putByte_applied : (s.putByte a b m).applied = s.applied := rfl
@[simp] theorem State.putByte_base : (s.putByte a b m).base = s.base := rfl
@[simp] theorem State.putByte_mulFree : (s.putByte a b m).mulFree = s.mulFree := rfl
@[simp] theorem State.putByte_grids : (s.putByte a b m).grids = s.grids := rfl
@[simp] theorem State.putByte_copies : (s.putByte a b m).copies = s.copies := rfl
@[simp] theorem State.putByte_banks : (s.putByte a b m).banks = s.banks := rfl
@[simp] theorem State.putByte_stageEnd : (s.putByte a b m).stageEnd = s.stageEnd := rfl
@[simp] theorem State.putByte_cmdsE : (s.putByte a b m).cmdsE = s.cmdsE := rfl
@[simp] theorem State.putByte_joins : (s.putByte a b m).joins = s.joins := rfl
@[simp] theorem State.putByte_stage : (s.putByte a b m).stage = s.stage := rfl
@[simp] theorem State.putByte_mbox : (s.putByte a b m).mbox = s.mbox := rfl
@[simp] theorem State.putByte_fills : (s.putByte a b m).fills = s.fills := rfl
@[simp] theorem State.putByte_walks : (s.putByte a b m).walks = s.walks := rfl
@[simp] theorem State.putByte_rings : (s.putByte a b m).rings = s.rings := rfl
@[simp] theorem State.putByte_queues : (s.putByte a b m).queues = s.queues := rfl
@[simp] theorem State.putByte_cmds : (s.putByte a b m).cmds = s.cmds := rfl
@[simp] theorem State.putByte_journal : (s.putByte a b m).journal = s.journal := rfl
@[simp] theorem State.putByte_ports : (s.putByte a b m).ports = s.ports := rfl
@[simp] theorem State.putByte_relays : (s.putByte a b m).relays = s.relays := rfl
@[simp] theorem State.putByte_recs : (s.putByte a b m).recs = s.recs := rfl
@[simp] theorem State.putByte_hbm : (s.putByte a b m).hbm = s.hbm := rfl
@[simp] theorem State.putByte_hbmLeaf : (s.putByte a b m).hbmLeaf = s.hbmLeaf := rfl
@[simp] theorem State.putByte_tenants : (s.putByte a b m).tenants = s.tenants := rfl
@[simp] theorem State.putByte_localRegions : (s.putByte a b m).localRegions = s.localRegions := rfl
@[simp] theorem State.putByte_pkg : (s.putByte a b m).pkg = s.pkg := rfl
@[simp] theorem State.putByte_fw : (s.putByte a b m).fw = s.fw := rfl
@[simp] theorem State.putByte_link : (s.putByte a b m).link = s.link := rfl
@[simp] theorem State.putByte_time : (s.putByte a b m).time = s.time := rfl
@[simp] theorem State.putByte_sched : (s.putByte a b m).sched = s.sched := rfl
@[simp] theorem State.putByte_sec : (s.putByte a b m).sec = s.sec := rfl
@[simp] theorem State.putByte_regEccLatent : (s.putByte a b m).regEccLatent = s.regEccLatent := rfl
@[simp] theorem State.putByte_regEccConsumed : (s.putByte a b m).regEccConsumed = s.regEccConsumed := rfl
@[simp] theorem State.putByte_regErr : (s.putByte a b m).regErr = s.regErr := rfl
@[simp] theorem State.putByte_fresh : (s.putByte a b m).fresh = s.fresh := rfl
@[simp] theorem State.putByte_draw : (s.putByte a b m).draw = s.draw := rfl
end

end Sys2Proof.Machine
end

