-- ==== Sys2Proof/Laws/Tab.lean ====
section
/-! SUPPORT. Sparse tables: what a lookup gives after each operation. -/

namespace Sys2Proof.Tab

variable {α : Type}

@[simp] theorem find?_nil (k : Nat) : Tab.find? ([] : Tab α) k = none := rfl

@[simp] theorem find?_put_self (t : Tab α) (k : Nat) (a : α) : (t.put k a).find? k = some a := by
  induction t with
  | nil => simp [Tab.put, Tab.find?]
  | cons e r ih =>
    obtain ⟨j, b⟩ := e
    simp only [Tab.put]
    split
    · simp [Tab.find?]
    · split
      · simp [Tab.find?]
      · rename_i h; simp [Tab.find?, Ne.symm h, ih]

theorem find?_put_ne (t : Tab α) {k k' : Nat} (a : α) (h : k' ≠ k) : (t.put k a).find? k' = t.find? k' := by
  induction t with
  | nil => simp [Tab.put, Tab.find?, Ne.symm h]
  | cons e r ih =>
    obtain ⟨j, b⟩ := e
    simp only [Tab.put]
    split
    · simp [Tab.find?, Ne.symm h]
    · split
      · subst_vars; simp [Tab.find?, Ne.symm h]
      · simp only [Tab.find?, ih]

theorem find?_modify (t : Tab α) (k k' : Nat) (f : α → α) :
    (t.modify k f).find? k' = if k' = k then (t.find? k').map f else t.find? k' := by
  induction t with
  | nil => simp [Tab.modify, Tab.find?]
  | cons e r ih =>
    obtain ⟨j, b⟩ := e
    rw [show Tab.modify ((j, b) :: r) k f = (if j = k then (j, f b) else (j, b)) :: Tab.modify r k f from rfl]
    by_cases hj : j = k' <;> by_cases hk : k' = k
    · simp [Tab.find?, hj, hk]
    · have : j ≠ k := hj ▸ hk
      simp [Tab.find?, hj, hk]
    · have : j ≠ k := hk ▸ hj
      simp [Tab.find?, hk, this] at ih ⊢; exact ih
    · simp only [hk, if_false] at ih ⊢
      by_cases hjk : j = k <;> simp [Tab.find?, hj, hjk, ih] <;> aesop

@[simp] theorem find?_modify_self (t : Tab α) (k : Nat) (f : α → α) : (t.modify k f).find? k = (t.find? k).map f := by
  simp [find?_modify]

theorem find?_modify_ne (t : Tab α) {k k' : Nat} (f : α → α) (h : k' ≠ k) : (t.modify k f).find? k' = t.find? k' := by
  simp [find?_modify, h]

@[simp] theorem get_put_self (t : Tab α) (d : α) (k : Nat) (a : α) : (t.put k a).get d k = a := by simp [Tab.get]

theorem get_put_ne (t : Tab α) (d : α) {k k' : Nat} (a : α) (h : k' ≠ k) : (t.put k a).get d k' = t.get d k' := by
  simp [Tab.get, find?_put_ne _ _ h]

@[simp] theorem get_update_self (t : Tab α) (d : α) (k : Nat) (f : α → α) : (t.update d k f).get d k = f (t.get d k) := by
  simp [Tab.update]

theorem get_update_ne (t : Tab α) (d : α) {k k' : Nat} (f : α → α) (h : k' ≠ k) : (t.update d k f).get d k' = t.get d k' := by
  simp [Tab.update, get_put_ne _ _ _ h]

@[simp] theorem find?_update_self (t : Tab α) (d : α) (k : Nat) (f : α → α) : (t.update d k f).find? k = some (f (t.get d k)) := by
  simp [Tab.update]

theorem find?_update_ne (t : Tab α) (d : α) {k k' : Nat} (f : α → α) (h : k' ≠ k) : (t.update d k f).find? k' = t.find? k' := by
  simp [Tab.update, find?_put_ne _ _ h]

theorem find?_filter_ne (t : Tab α) {k k' : Nat} (h : k' ≠ k) :
    Tab.find? (t.filter fun e => decide (e.1 ≠ k)) k' = t.find? k' := by
  induction t with
  | nil => rfl
  | cons e r ih =>
    obtain ⟨j, b⟩ := e
    by_cases hj : j = k
    · rw [List.filter_cons_of_neg (by simp [hj]), ih]
      simp [Tab.find?, hj, Ne.symm h]
    · rw [List.filter_cons_of_pos (by simp [hj])]
      simp only [Tab.find?, ih]

theorem find?_del_ne (t : Tab α) {k k' : Nat} (h : k' ≠ k) : (t.del k).find? k' = t.find? k' := find?_filter_ne t h

@[simp] theorem find?_del_self (t : Tab α) (k : Nat) : (t.del k).find? k = none := by
  induction t with
  | nil => rfl
  | cons e r ih =>
    obtain ⟨j, b⟩ := e
    unfold Tab.del at ih ⊢
    by_cases hj : j = k
    · rw [List.filter_cons_of_neg (by simp [hj]), ih]
    · rw [List.filter_cons_of_pos (by simp [hj])]
      simp [Tab.find?, hj]; simpa using ih

/-- Mapping the values of a table. -/
theorem find?_map (t : Tab α) {β : Type} (f : α → β) (k : Nat) :
    Tab.find? (t.map fun e => (e.1, f e.2)) k = (t.find? k).map f := by
  induction t with
  | nil => rfl
  | cons e r ih =>
    obtain ⟨j, b⟩ := e
    simp only [List.map_cons, Tab.find?, ih]
    split <;> simp

end Sys2Proof.Tab
end

