-- ==== Sys2Proof/Laws/Issue.lean ====
section
/-! SUPPORT. What presenting an instruction gives when the checks of R262 pass, and what an instruction that issues leaves. -/

namespace Sys2Proof.Machine

/-! ### The checks before an instruction's own -/

theorem joinGates_go {l : List Gate} (h : ∀ g ∈ l, g = .go) : joinGates l = .go := by
  have h1 : ∀ p : Gate → Bool, p .go = false → l.find? p = none := by
    intro p hp; rw [List.find?_eq_none]; intro g hg; rw [h g hg, hp]; simp
  unfold joinGates
  rw [h1 _ rfl, h1 _ rfl]
  have : l.contains Gate.slip = false := by
    rw [List.contains_eq_any_beq, List.any_eq_false]; intro g hg; rw [h g hg]; simp
  rw [this]; rfl

/-- An instruction that meets `Ctx.Issues` passes steps 2 to 6 of R262. -/
theorem Ctx.Issues.gate {c : Ctx} {s : State} (h : c.Issues s) : c.use.gate c.w c.x s.gtc = .go := by
  have hst := h.strm
  unfold Use.gate
  simp only [← hst]
  have h1 : ¬(c.st.runCount = 23 ∧ (!c.use.e) = true) := by
    intro hh; rcases h.run with hr | hr
    · exact hr hh.1
    · simp [hr] at hh
  rw [if_neg h1]
  have h2 : c.use.encodingOk c.w c.x = true := by
    unfold Use.encodingOk
    rw [← hst]
    have ha := h.stream.1; have hx := h.stream.2
    simp only [Bool.and_eq_true, h.legal, Bool.or_eq_true, decide_eq_true_eq, List.all_eq_true]
    refine ⟨⟨⟨trivial, ?_⟩, fun n hn => h.regs n hn⟩, h.guard⟩
    cases hc : c.x
    · exact ha hc
    · exact hx hc
  simp only [h2, Bool.not_true, Bool.false_eq_true, if_false]
  have h3 : c.use.wrongWay c.x = none := by
    unfold Use.wrongWay
    have : (srcPops c.use.srcs).find? (fun q => decide (queueConsumer q ≠ c.x)) = none := by
      rw [List.find?_eq_none]; intro q hq; simp [h.pops q hq]
    rw [this]
    cases hd : dstQueue c.use.dst with
    | none => rfl
    | some q => simp [(h.push q hd).1]
  have h5 : badLatch c.st s.gtc (srcLatches c.use.srcs) = none := by
    unfold badLatch
    rw [List.find?_eq_none]; intro k hk
    obtain ⟨l, hl, hv, hr⟩ := h.latches k hk
    rw [h.now] at hr
    simp [hl, hv, hr]
  have h6 : joinGates ((dedup (srcPops c.use.srcs)).map fun q => popGate c.w s.gtc q ((srcPops c.use.srcs).count q)) = .go := by
    apply joinGates_go
    intro g hg
    obtain ⟨q, hq, rfl⟩ := List.mem_map.1 hg
    have hq' : q ∈ srcPops c.use.srcs := by
      have aux : ∀ (l acc : List Nat), q ∈ l.foldl (fun acc x => if x ∈ acc then acc else acc ++ [x]) acc → q ∈ l ∨ q ∈ acc := by
        intro l; induction l with
        | nil => intro acc h; exact .inr h
        | cons a r ih =>
          intro acc h
          rcases ih _ h with h | h
          · exact .inl (List.mem_cons_of_mem _ h)
          · beta_reduce at h
            split at h
            · exact .inr h
            · rcases List.mem_append.1 h with h | h
              · exact .inr h
              · rw [List.mem_singleton.1 h]; exact .inl (List.mem_cons_self ..)
      rcases aux _ _ hq with h | h
      · exact h
      · simp at h
    obtain ⟨hn, hl⟩ := h.landed q hq'
    rw [h.now] at hn hl
    unfold popGate
    simp only [List.length_take]
    rw [if_neg (by omega), if_pos]
    rw [List.all_eq_true]; exact fun r hr => hl r hr
  simp only [h3, h5]
  cases hd : dstQueue c.use.dst with
  | none => simp only [h6]
  | some q =>
    have hp : pushGate c.w q 1 = .go := by
      have := (h.push q hd).2
      unfold pushGate; rw [if_neg (by omega)]
    simp only [hp, h6]

/-- What a presented instruction sees when it passes the checks. -/
theorem issue_go {c : Ctx} {s : State} {u : Use} {k : Ctx → Out} (hu : c.use = u) (h : c.Issues s) : issue u s k = k c := by
  subst hu
  unfold issue
  rw [h.cur]; dsimp only
  rw [h.warp]; dsimp only
  rw [h.grid]; dsimp only
  rw [h.gate]; dsimp only
  have e : Ctx.mk c.key c.x c.w (c.w.strm c.x) c.g s.gtc ((c.w.strm c.x).active c.use.guard)
      (srcVals c.w (c.w.strm c.x) c.use.srcs []) c.use = c := by
    rw [← h.now, ← h.strm, ← h.act, ← h.vals]
  rw [e]

/-! ### Marks -/

theorem mem_insertBy {α : Type} {lt : α → α → Bool} {x y : α} {l : List α} : y ∈ insertBy lt x l ↔ y = x ∨ y ∈ l := by
  induction l with
  | nil => simp [insertBy]
  | cons a r ih =>
    unfold insertBy; split
    · simp [ih]; tauto
    · simp

theorem mem_sortBy {α : Type} {lt : α → α → Bool} {y : α} {l : List α} : y ∈ sortBy lt l ↔ y ∈ l := by
  induction l with
  | nil => simp [sortBy]
  | cons a r ih => simp [sortBy, mem_insertBy, ih]

theorem RVal.markIn_clean {r : RVal} {m : Mask} (h : r.Clean m) : r.markIn m = none := by
  unfold RVal.markIn
  rw [List.find?_eq_none]; intro e he
  simp [h e (mem_sortBy.1 he)]

theorem markTrap_clean {l : List (RVal × Mask)} (h : ∀ e ∈ l, e.1.Clean e.2) : markTrap l = none := by
  unfold markTrap
  have : l.filterMap (fun e => e.1.markIn e.2) = [] := by
    rw [List.filterMap_eq_nil_iff]; intro e he; exact RVal.markIn_clean (h e he)
  simp [this, sortBy]

theorem Ctx.unmarked_clean {c : Ctx} {s : State} {l : List RVal} {k : Out} (h : ∀ r ∈ l, r.Clean c.act) : c.unmarked s l k = k := by
  unfold Ctx.unmarked
  rw [markTrap_clean]
  intro e he; obtain ⟨r, hr, rfl⟩ := List.mem_map.1 he; exact h r hr

/-! ### Popping -/

theorem popMark_append {now n : Nat} {l rs : List Resv} (h : n ≤ (l.filter fun r => r.popAt.isNone).length) :
    popMark now n (l ++ rs) = popMark now n l ++ rs := by
  induction l generalizing n with
  | nil => have : n = 0 := by simpa using h
           subst this; simp [popMark]
  | cons r l ih =>
    cases n with
    | zero => simp [popMark]
    | succ n =>
      by_cases hr : r.popAt.isNone
      · simp only [List.cons_append, popMark, hr, if_true]
        rw [ih (by simp [hr] at h; omega)]
      · simp only [List.cons_append, popMark, hr, Bool.false_eq_true, if_false]
        rw [ih (by simpa [hr] using h)]

theorem Warp.pop_queue (w : Warp) (now : Nat) (qs : List Nat) (q : Nat) :
    (w.pop now qs).queue q = popMark now (qs.count q) (w.queue q) := by
  unfold Warp.pop Warp.queue Tab.get
  generalize w.queues = t
  simp only
  induction t with
  | nil => simp only [List.map_nil, Tab.find?]; cases qs.count q <;> rfl
  | cons e r ih =>
    obtain ⟨j, b⟩ := e
    simp only [List.map_cons, Tab.find?]
    by_cases hj : j = q
    · simp [hj]
    · simp only [hj, if_false, ih]

@[simp] theorem Warp.setStrm_queue (w : Warp) (x : Strm) (st : Stream) (q : Nat) : (w.setStrm x st).queue q = w.queue q := by
  cases x <;> rfl

theorem Warp.setStrm_queues (w : Warp) (x : Strm) (st : Stream) : (w.setStrm x st).queues = w.queues := by cases x <;> rfl

@[simp] theorem Warp.setStrm_strm (w : Warp) (x : Strm) (st : Stream) : (w.setStrm x st).strm x = st := by cases x <;> rfl

theorem Warp.setStrm_strm_ne (w : Warp) {x y : Strm} (st : Stream) (h : y ≠ x) : (w.setStrm x st).strm y = w.strm y := by
  cases x <;> cases y <;> first | rfl | exact absurd rfl h

/-! ### Tables of the state -/

@[simp] theorem State.warp?_updWarp_self (s : State) (k : Nat) (f : Warp → Warp) : (s.updWarp k f).warp? k = (s.warp? k).map f := by
  simp [State.warp?]

theorem State.warp?_updWarp_ne (s : State) {k j : Nat} (f : Warp → Warp) (h : j ≠ k) : (s.updWarp k f).warp? j = s.warp? j := by
  simp [State.warp?, Tab.find?_modify_ne _ _ h]

@[simp] theorem State.fe_updFe_self (s : State) (k : Nat) (f : FrontEnd → FrontEnd) : (s.updFe k f).fe k = f (s.fe k) := by
  simp [State.fe]

theorem State.fe_updFe_ne (s : State) {k j : Nat} (f : FrontEnd → FrontEnd) (h : j ≠ k) : (s.updFe k f).fe j = s.fe j := by
  simp [State.fe, Tab.get_update_ne _ _ _ h]

/-! ### Issue -/

/-- The queues of a presented warp hold what the instruction pops; `s` may be any state that keeps its queues. -/
def Ctx.Holds (c : Ctx) (s : State) (w : Warp) : Prop :=
  s.warp? c.key = some w ∧ ∀ q, (srcPops c.use.srcs).count q ≤ ((w.queue q).filter fun r => r.popAt.isNone).length

theorem Ctx.Issues.holds {c : Ctx} {s : State} (h : c.Issues s) : c.Holds s c.w := by
  refine ⟨h.warp, fun q => ?_⟩
  by_cases hm : q ∈ srcPops c.use.srcs
  · have := (h.landed q hm).1
    have h2 := List.length_filter_le (fun r : Resv => decide (r.issued < c.now)) (c.w.live q)
    unfold Warp.live at h2 this
    omega
  · rw [List.count_eq_zero_of_not_mem hm]; exact Nat.zero_le _

/-- An instruction that passed the checks issues over a state `s1` in which only its warp took landings and reservations
and numbers were drawn: nothing else differs. -/
theorem Ctx.went_commitTo {c : Ctx} {s s1 : State} (e : Latch) (pc : Nat) {ls : List Landing} {rs : List (Nat × Resv)} {w0 w1 : Warp}
    (h : c.Holds s w0)
    (hr : s1 = { s with warps := s1.warps, fresh := s1.fresh })
    (ho : ∀ k, k ≠ c.key → s1.warp? k = s.warp? k)
    (hw : s1.warp? c.key = some w1)
    (hl : w1 = { w0 with landings := w0.landings ++ ls, queues := w1.queues })
    (hq : ∀ q, w1.queue q = w0.queue q ++ (rs.filter fun r => decide (r.1 = q)).map (·.2)) :
    c.Went s (c.commitTo s1 e pc) e pc ls rs := by
  have hfe : ∀ k, s1.fe k = s.fe k := by intro k; unfold State.fe; rw [hr]
  have hcnt := h.2
  have hc : ∀ k, (c.commitTo s1 e pc).warp? k = (s1.updWarp c.key fun w => (w.pop c.now (srcPops c.use.srcs)).setStrm c.x ((w.strm c.x).issued e pc c.use.e)).warp? k := by
    intro k; unfold Ctx.commitTo; split <;> rfl
  constructor
  · unfold Ctx.commitTo
    obtain ⟨W, F, rfl⟩ : ∃ W F, s1 = { s with warps := W, fresh := F } := ⟨_, _, hr⟩
    dsimp only
    split <;> rfl
  · intro k hk
    rw [hc, State.warp?_updWarp_ne _ _ hk, ho k hk]
  · have hv : (c.commitTo s1 e pc).warp? c.key =
        some ((w1.pop c.now (srcPops c.use.srcs)).setStrm c.x ((w1.strm c.x).issued e pc c.use.e)) := by
      rw [hc, State.warp?_updWarp_self, hw]; rfl
    refine ⟨w0, _, h.1, hv, ?_, ?_⟩
    · have e1 : w1.strm c.x = w0.strm c.x := by rw [hl]; cases c.x <;> rfl
      rw [e1]
      generalize (w0.strm c.x).issued e pc c.use.e = z
      conv_lhs => rw [hl]
      cases c.x <;> (rw [hl]; rfl)
    · intro q
      rw [Warp.setStrm_queue, Warp.pop_queue, hq q, popMark_append (hcnt q)]
  · intro k
    unfold Ctx.commitTo
    by_cases he : c.use.e = true
    · simp only [he, if_true, true_and]
      unfold State.endTurn
      by_cases hk : k = c.feKey
      · rw [if_pos hk, hk]
        unfold Ctx.feKey
        rw [State.fe_updFe_self]
        exact congrArg FrontEnd.endTurn (hfe _)
      · rw [if_neg hk]
        exact (State.fe_updFe_ne _ _ hk).trans (hfe k)
    · simp only [he, Bool.false_eq_true, if_false, false_and]
      exact hfe k

/-! ### Results put in flight before the issue -/

/-- `s1` is `s` but for landings `ls` and reservations `rs` that the presented warp `w0` took, and numbers drawn. -/
structure Ctx.Prep (c : Ctx) (s : State) (w0 : Warp) (s1 : State) (ls : List Landing) (rs : List (Nat × Resv)) : Prop where
  rest : s1 = { s with warps := s1.warps, fresh := s1.fresh }
  others : ∀ k, k ≠ c.key → s1.warp? k = s.warp? k
  own : ∃ w, s1.warp? c.key = some w ∧ w = { w0 with landings := w0.landings ++ ls, queues := w.queues } ∧
    ∀ q, w.queue q = w0.queue q ++ (rs.filter fun r => decide (r.1 = q)).map (·.2)

theorem Ctx.Prep.refl {c : Ctx} {s : State} {w0 : Warp} (h : c.Holds s w0) : c.Prep s w0 s [] [] :=
  ⟨rfl, fun _ _ => rfl, w0, h.1, by simp, by simp⟩

theorem Ctx.Prep.land {c : Ctx} {s s1 : State} {w0 : Warp} {ls : List Landing} {rs : List (Nat × Resv)} (h : c.Prep s w0 s1 ls rs) (t : Nat) (e : Eff) :
    c.Prep s w0 (s1.land c.key c.x t e) (ls ++ [⟨s1.fresh, t, c.x, e⟩]) rs := by
  obtain ⟨hr, ho, w, hw, hl, hq⟩ := h
  refine ⟨?_, ?_, w.addLanding ⟨s1.fresh, t, c.x, e⟩, ?_, ?_, hq⟩
  · conv_lhs => rw [hr]
    conv_rhs => rw [hr]
    rfl
  · intro k hk
    exact (State.warp?_updWarp_ne s1 (fun w => w.addLanding ⟨s1.fresh, t, c.x, e⟩) hk).trans (ho k hk)
  · have := State.warp?_updWarp_self s1 c.key (fun w => w.addLanding ⟨s1.fresh, t, c.x, e⟩)
    rw [hw] at this; exact this
  · obtain ⟨Q, rfl⟩ : ∃ Q, w = { w0 with landings := w0.landings ++ ls, queues := Q } := ⟨_, hl⟩
    simp [Warp.addLanding]

theorem Ctx.Prep.reserve {c : Ctx} {s s1 : State} {w0 : Warp} {ls : List Landing} {rs : List (Nat × Resv)} (h : c.Prep s w0 s1 ls rs) (q : Nat) (r : Resv) :
    c.Prep s w0 (s1.updWarp c.key fun w => w.reserve q r) ls (rs ++ [(q, r)]) := by
  obtain ⟨hr, ho, w, hw, hl, hq⟩ := h
  refine ⟨?_, ?_, w.reserve q r, ?_, ?_, ?_⟩
  · conv_lhs => rw [hr]
    conv_rhs => rw [hr]
    rfl
  · intro k hk; rw [State.warp?_updWarp_ne _ _ hk, ho k hk]
  · rw [State.warp?_updWarp_self, hw]; rfl
  · obtain ⟨Q, rfl⟩ : ∃ Q, w = { w0 with landings := w0.landings ++ ls, queues := Q } := ⟨_, hl⟩
    rfl
  · intro k
    unfold Warp.reserve Warp.queue
    by_cases hk : k = q
    · subst hk; simp [List.filter_append, ← List.append_assoc]
      exact hq k
    · have : ¬ q = k := fun h => hk h.symm
      simp [Tab.get_put_ne _ _ _ hk, List.filter_append, this]
      exact hq k

theorem Ctx.Prep.commitTo {c : Ctx} {s s1 : State} {w0 : Warp} {ls : List Landing} {rs : List (Nat × Resv)} (h : c.Prep s w0 s1 ls rs)
    (hi : c.Holds s w0) (e : Latch) (pc : Nat) : c.Went s (c.commitTo s1 e pc) e pc ls rs := by
  obtain ⟨hr, ho, w, hw, hl, hq⟩ := h
  exact c.went_commitTo e pc hi hr ho hw hl hq

/-- A vector result put in flight. -/
theorem Ctx.Prep.putVec {c : Ctx} {s s1 : State} {w0 : Warp} {ls : List Landing} {rs : List (Nat × Resv)} (h : c.Prep s w0 s1 ls rs)
    (d : Dst) (lat : Nat) (v : RVal) (act : Mask) :
    c.Prep s w0 (c.putVec s1 d lat v act) (ls ++ [⟨s1.fresh, c.now + lat, c.x, .vec (dstTgt d s1.fresh) (some v) act⟩])
      (rs ++ resvOf d s1.fresh c.now (c.now + lat) v act) := by
  have hl := h.land (c.now + lat) (.vec (dstTgt d s1.fresh) (some v) act)
  unfold Ctx.putVec
  cases d with
  | q n => exact hl.reserve n.val _
  | v n => simpa [resvOf, dstQueue] using hl
  | discard => simpa [resvOf, dstQueue] using hl
  | reserved n => simpa [resvOf, dstQueue] using hl

/-! ### How an instruction ends -/

/-- An instruction without a result issues. -/
theorem Ctx.finish_plain {c : Ctx} {s : State} {w0 : Warp} (h : c.Holds s w0) : ∃ t, c.finish s = .next t ∧ c.Plain s t [] :=
  ⟨_, rfl, (Prep.refl h).commitTo h _ _⟩

/-- An effect that lands issues. -/
theorem Ctx.land_plain {c : Ctx} {s : State} {w0 : Warp} (h : c.Holds s w0) (t : Nat) (e : Eff) :
    c.Plain s (c.commit (s.land c.key c.x t e) Latch.voidEntry) [⟨s.fresh, t, c.x, e⟩] :=
  ((Prep.refl h).land t e).commitTo h _ _

theorem Ctx.finishEff_plain {c : Ctx} {s : State} {w0 : Warp} (h : c.Holds s w0) (e : Eff) :
    ∃ t, c.finishEff s e = .next t ∧ c.Plain s t [⟨s.fresh, c.now + 1, c.x, e⟩] := ⟨_, rfl, c.land_plain h _ _⟩

theorem Ctx.finishPred_plain {c : Ctx} {s : State} {w0 : Warp} (h : c.Holds s w0) (p lat : Nat) (v m : Mask) :
    ∃ t, c.finishPred s p lat v m = .next t ∧ c.Plain s t [⟨s.fresh, c.now + lat, c.x, .pred p v m⟩] := ⟨_, rfl, c.land_plain h _ _⟩

/-- A vector result issues. -/
theorem Ctx.finishVec_gave {c : Ctx} {s : State} {w0 : Warp} (h : c.Holds s w0) (d : Dst) (lat : Nat) (v : RVal) :
    ∃ t, c.finishVec s d lat v = .next t ∧ c.Gave s t d lat v c.act :=
  ⟨_, rfl, by
    have := ((Prep.refl h).putVec d lat v c.act).commitTo h (latchOf s.fresh (c.now + lat) (c.dstTag d v.v.tag c.act)) c.nextPc
    rw [List.nil_append, List.nil_append] at this; exact this⟩

/-- A vector result with flags issues when no raised flag is enabled (R253). -/
theorem Ctx.finishArith_gave {c : Ctx} {s : State} {w0 : Warp} (h : c.Holds s w0) (d : Dst) (lat : Nat) (r : Vec × BitVec 6) (hq : c.Quiet r.2) :
    ∃ t, c.finishArith s d lat r = .next t ∧ c.GaveFlags s t d lat ⟨r.1, []⟩ r.2 := by
  unfold Ctx.finishArith Ctx.arith
  rw [if_neg (by simpa [Ctx.Quiet] using hq)]
  unfold Ctx.raise Ctx.GaveFlags
  split
  · exact c.finishVec_gave h d lat _
  · refine ⟨_, rfl, ?_⟩
    have := (((Prep.refl h).land (c.now + 4) (.flags r.2)).putVec d lat ⟨r.1, []⟩ c.act).commitTo h
      (latchOf (s.fresh + 1) (c.now + lat) (c.dstTag d r.1.tag c.act)) c.nextPc
    rw [List.nil_append, List.nil_append] at this; exact this

/-- An enabled flag traps in place of completion (R253). -/
theorem Ctx.finishArith_trap {c : Ctx} {s : State} (d : Dst) (lat : Nat) (r : Vec × BitVec 6) (hq : ¬ c.Quiet r.2) :
    c.finishArith s d lat r = .next ((c.raise s r.2).takeTrap c.key c.x ⟨9, r.2.toNat, 0⟩) := by
  unfold Ctx.finishArith Ctx.arith
  rw [if_pos (by simpa [Ctx.Quiet] using hq)]
  unfold Ctx.trap Ctx.countEcc
  simp

/-! ### Lanes -/

theorem orFlags_getLsbD (act : Mask) (rs : List LaneRes) (k : Nat) :
    (orFlags act rs).getLsbD k = true ↔ ∃ l, l < rs.length ∧ act.getLsbD l = true ∧ (rs.getD l (0, 0)).2.getLsbD k = true := by
  unfold orFlags
  have aux : ∀ (ls : List Nat) (f0 : BitVec 6),
      (ls.foldl (fun f l => if act.getLsbD l then f ||| (rs.getD l (0, 0)).2 else f) f0).getLsbD k = true ↔
      f0.getLsbD k = true ∨ ∃ l ∈ ls, act.getLsbD l = true ∧ (rs.getD l (0, 0)).2.getLsbD k = true := by
    intro ls
    induction ls with
    | nil => simp
    | cons a r ih =>
      intro f0
      rw [List.foldl_cons, ih]
      by_cases ha : act.getLsbD a = true
      · simp [ha, or_assoc]
      · simp [ha]
  rw [aux]
  simp

theorem mask_ne_zero {act : Mask} : act ≠ 0 ↔ ∃ l, l < 32 ∧ act.getLsbD l = true := by
  constructor
  · intro h
    by_contra hc
    apply h
    apply BitVec.eq_of_getLsbD_eq
    intro i hi
    simp
    by_contra hh
    exact hc ⟨i, hi, by simpa using hh⟩
  · rintro ⟨l, _, hl⟩ rfl
    simp at hl

theorem lanes_range (l : Nat) (h : l < 32) {α : Type} (f : Nat → α) (d : α) : (laneList.map f).getD l d = f l := by
  unfold laneList lanes
  rw [List.getD_eq_getElem?_getD, List.getElem?_map, List.getElem?_range h]; rfl

/-- What a lane-by-lane function gives: its words, tag and flags (R162, R252, R294). -/
theorem Ctx.lanewise_spec (c : Ctx) (vs : List RVal) (f : List Word → LaneRes) :
    c.Lanewise vs (fun ws => (f ws).1) ⟨(lanewise c.act (vs.map (·.v)) f).1, []⟩ ∧
    c.FlagsOf vs (fun ws => (f ws).2) (lanewise c.act (vs.map (·.v)) f).2 := by
  have hm : ∀ l, (vs.map (·.v)).map (fun v => v.lane l) = vs.map (·.lane l) := by
    intro l; rw [List.map_map]; rfl
  by_cases hu : allU (vs.map (·.v)) = true
  · have hU : AllU vs := by
      intro r hr
      simpa using (List.all_eq_true.1 hu) r.v (List.mem_map_of_mem hr)
    have h0 : ∀ l, vs.map (·.lane l) = vs.map (·.lane 0) := by
      intro l
      apply List.map_congr_left
      intro r hr
      have := hU r hr
      unfold RVal.lane
      cases hv : r.v with
      | u x => rfl
      | a b g => rw [hv] at this; simp [Vec.tag] at this
      | g ws => rw [hv] at this; simp [Vec.tag] at this
    have e : lanewise c.act (vs.map (·.v)) f = (.u (f (vs.map (·.lane 0))).1, if c.act = 0 then 0 else (f (vs.map (·.lane 0))).2) := by
      unfold lanewise; rw [if_pos hu]; simp only [hm]
    rw [e]
    refine ⟨⟨rfl, fun _ => rfl, fun h => absurd hU h, ?_⟩, ?_⟩
    · intro l _ _
      simp only [h0 l]; rfl
    · intro k
      simp only [h0]
      split
      · rename_i hz
        constructor
        · intro h; simp at h
        · rintro ⟨l, _, hl, _⟩; rw [hz] at hl; simp at hl
      · rename_i hz
        obtain ⟨l, hl, ha⟩ := mask_ne_zero.1 hz
        exact ⟨fun h => ⟨l, hl, ha, h⟩, fun ⟨_, _, _, h⟩ => h⟩
  · have hU : ¬ AllU vs := by
      intro h; apply hu
      unfold allU; rw [List.all_eq_true]; intro v hv
      obtain ⟨r, hr, rfl⟩ := List.mem_map.1 hv
      simpa using h r hr
    have e : lanewise c.act (vs.map (·.v)) f =
        (.g ((laneList.map fun l => if c.act.getLsbD l then f (vs.map (·.lane l)) else (0, 0)).map (·.1)),
          orFlags c.act (laneList.map fun l => if c.act.getLsbD l then f (vs.map (·.lane l)) else (0, 0))) := by
      unfold lanewise; rw [if_neg hu]; simp only [hm]
    rw [e]
    refine ⟨⟨rfl, fun h => absurd h hU, fun _ => rfl, ?_⟩, ?_⟩
    · intro l hl ha
      show (List.map (fun (x : LaneRes) => x.1) _).getD l 0 = _
      rw [List.map_map, lanes_range l hl]
      simp [ha]
    · intro k
      rw [orFlags_getLsbD]
      have hlen : (laneList.map fun l => if c.act.getLsbD l then f (vs.map (·.lane l)) else ((0, 0) : LaneRes)).length = 32 := by
        simp [laneList, lanes]
      rw [hlen]
      constructor
      · rintro ⟨l, hl, ha, h⟩
        rw [lanes_range l hl] at h
        exact ⟨l, hl, ha, by simpa [ha] using h⟩
      · rintro ⟨l, hl, ha, h⟩
        refine ⟨l, hl, ha, ?_⟩
        rw [lanes_range l hl]; simpa [ha] using h

theorem Ctx.FlagsOf.unique {c : Ctx} {vs : List RVal} {f : List Word → BitVec 6} {a b : BitVec 6}
    (ha : c.FlagsOf vs f a) (hb : c.FlagsOf vs f b) : a = b := by
  apply BitVec.eq_of_getLsbD_eq
  intro i _
  have := (ha i).trans (hb i).symm
  cases h1 : a.getLsbD i <;> cases h2 : b.getLsbD i <;> simp_all

theorem Ctx.flagsOf_zero (c : Ctx) (vs : List RVal) : c.FlagsOf vs (fun _ => 0) 0 := by
  intro k; simp

theorem Ctx.quiet_zero (c : Ctx) : c.Quiet 0 := by simp [Ctx.Quiet, enabledFlags]

/-- A lane-by-lane vector instruction that issues (R294). -/
theorem vecInstr_gave {c : Ctx} {s : State} {u : Use} (lat : Nat) (f : List Word → LaneRes) {fl : BitVec 6} (hu : c.use = u)
    (h : c.Issues s) (hc : ∀ r ∈ c.vals, r.Clean c.act) (hf : c.FlagsOf c.vals (fun ws => (f ws).2) fl) (hq : c.Quiet fl) :
    ∃ t v, vecInstr u lat f s = .next t ∧ c.GaveFlags s t u.dst lat v fl ∧ c.Lanewise c.vals (fun ws => (f ws).1) v := by
  obtain ⟨hl, hf'⟩ := c.lanewise_spec c.vals f
  have e := hf.unique hf'; subst e
  obtain ⟨t, ht, hg⟩ := c.finishArith_gave h.holds u.dst lat (lanewise c.act (c.vals.map (·.v)) f) hq
  exact ⟨t, _, by unfold vecInstr; rw [issue_go hu h, Ctx.unmarked_clean hc]; exact ht, hg, hl⟩

/-- A lane-by-lane vector instruction whose destination is a further source (R276). -/
theorem vecInstrD_gave {c : Ctx} {s : State} {u : Use} (lat : Nat) (f : List Word → LaneRes) {fl : BitVec 6} (hu : c.use = u)
    (h : c.Issues s) (hc : ∀ r ∈ c.vals ++ [c.dval u.dst], r.Clean c.act)
    (hf : c.FlagsOf (c.vals ++ [c.dval u.dst]) (fun ws => (f ws).2) fl) (hq : c.Quiet fl) :
    ∃ t v, vecInstrD u lat f s = .next t ∧ c.GaveFlags s t u.dst lat v fl ∧
      c.Lanewise (c.vals ++ [c.dval u.dst]) (fun ws => (f ws).1) v := by
  obtain ⟨hl, hf'⟩ := c.lanewise_spec (c.vals ++ [c.dval u.dst]) f
  have e := hf.unique hf'; subst e
  obtain ⟨t, ht, hg⟩ := c.finishArith_gave h.holds u.dst lat (lanewise c.act ((c.vals ++ [c.dval u.dst]).map (·.v)) f) hq
  exact ⟨t, _, by unfold vecInstrD; rw [issue_go hu h]; dsimp only; rw [Ctx.unmarked_clean hc]; exact ht, hg, hl⟩

/-- Without flags. -/
theorem vecInstr_quiet {c : Ctx} {s : State} {u : Use} (lat : Nat) (f : List Word → Word) (hu : c.use = u)
    (h : c.Issues s) (hc : ∀ r ∈ c.vals, r.Clean c.act) :
    ∃ t v, vecInstr u lat (fun ws => quiet (f ws)) s = .next t ∧ c.Gave s t u.dst lat v c.act ∧ c.Lanewise c.vals f v := by
  obtain ⟨t, v, h1, h2, h3⟩ := vecInstr_gave lat (fun ws => quiet (f ws)) hu h hc (c.flagsOf_zero _) c.quiet_zero
  exact ⟨t, v, h1, by simpa [Ctx.GaveFlags] using h2, h3⟩

theorem vecInstrD_quiet {c : Ctx} {s : State} {u : Use} (lat : Nat) (f : List Word → Word) (hu : c.use = u)
    (h : c.Issues s) (hc : ∀ r ∈ c.vals ++ [c.dval u.dst], r.Clean c.act) :
    ∃ t v, vecInstrD u lat (fun ws => quiet (f ws)) s = .next t ∧ c.Gave s t u.dst lat v c.act ∧
      c.Lanewise (c.vals ++ [c.dval u.dst]) f v := by
  obtain ⟨t, v, h1, h2, h3⟩ := vecInstrD_gave lat (fun ws => quiet (f ws)) hu h hc (c.flagsOf_zero _) c.quiet_zero
  exact ⟨t, v, h1, by simpa [Ctx.GaveFlags] using h2, h3⟩

end Sys2Proof.Machine
end

