-- ==== Sys2Proof/Laws/Mem.lean ====
section
/-! SUPPORT. Memory: every operation keeps the canonical form, a write is read back, and other bytes stay. -/

namespace Sys2Proof.Machine

theorem Mem.above_of_above {a b : Nat} {m : List Cell} (h : a ≤ b) (hm : Mem.above b m = true) : Mem.above a m = true := by
  cases m with
  | nil => rfl
  | cons c r => obtain ⟨k, v⟩ := c; simp [Mem.above] at *; omega

theorem Mem.wf_tail {c : Cell} {r : List Cell} (h : Mem.wf (c :: r) = true) : Mem.wf r = true := by
  obtain ⟨k, b⟩ := c; simp [Mem.wf] at h; exact h.2

theorem Mem.above_write {k a : Nat} {v : Byte} {m : List Cell} (hk : k < a) (h : Mem.above k m = true) (hm : Mem.wf m = true) :
    Mem.above k (Mem.write m a v) = true := by
  induction m with
  | nil => simp only [Mem.write]; split <;> simp [Mem.above, hk]
  | cons c r ih =>
    obtain ⟨j, b⟩ := c
    have hj : k < j := by simpa [Mem.above] using h
    simp only [Mem.write]
    split
    · split <;> simp [Mem.above, hj, hk]
    · split
      · split
        · simp [Mem.wf] at hm; exact Mem.above_of_above (Nat.le_of_lt hj) hm.1.2
        · simp [Mem.above, hk]
      · simp [Mem.above, hj]

/-- A write keeps the canonical form. -/
theorem Mem.wf_write {m : List Cell} (a : Nat) (v : Byte) (h : Mem.wf m = true) : Mem.wf (Mem.write m a v) = true := by
  induction m with
  | nil => simp only [Mem.write]; split <;> simp_all [Mem.wf, Mem.above]
  | cons c r ih =>
    obtain ⟨k, b⟩ := c
    have hr := Mem.wf_tail h
    have hb : b ≠ Mem.unlisted ∧ Mem.above k r = true := by simp [Mem.wf] at h; exact h.1
    simp only [Mem.write]
    split
    · split
      · exact h
      · simp_all [Mem.wf, Mem.above]
    · split
      · split
        · exact hr
        · subst_vars; simp_all [Mem.wf]
      · have : k < a := by omega
        simp [Mem.wf, hb.1, ih hr, Mem.above_write this hb.2 hr]

theorem Mem.wf_filter {m : List Cell} (p : Cell → Bool) (h : Mem.wf m = true) : Mem.wf (m.filter p) = true := by
  have ab : ∀ (k : Nat) (l : List Cell), Mem.above k l = true → Mem.wf l = true → Mem.above k (l.filter p) = true := by
    intro k l
    induction l with
    | nil => intro _ _; rfl
    | cons c r ih =>
      obtain ⟨j, b⟩ := c
      intro ha hw
      have hj : k < j := by simpa [Mem.above] using ha
      by_cases hp : p (j, b) = true
      · simp [hp, Mem.above, hj]
      · simp only [List.filter_cons, hp]
        have := hw; simp [Mem.wf] at this
        exact ih (Mem.above_of_above (Nat.le_of_lt hj) this.1.2) this.2
  induction m with
  | nil => rfl
  | cons c r ih =>
    obtain ⟨k, b⟩ := c
    have hh := h; simp [Mem.wf] at hh
    by_cases hp : p (k, b) = true
    · simp [hp, Mem.wf, hh.1.1, ih hh.2, ab k r hh.1.2 hh.2]
    · simpa [List.filter_cons, hp] using ih hh.2

/-- Clearing a span keeps the canonical form. -/
theorem Mem.wf_clear {m : List Cell} (lo n : Nat) (h : Mem.wf m = true) : Mem.wf (Mem.clear m lo n) = true := Mem.wf_filter _ h

theorem Mem.read_above {m : List Cell} {a k : Nat} (h : Mem.above k m = true) (ha : a ≤ k) : Mem.read m a = Mem.unlisted := by
  cases m with
  | nil => rfl
  | cons c r =>
    obtain ⟨j, b⟩ := c
    have : k < j := by simpa [Mem.above] using h
    simp only [Mem.read]; split
    · omega
    · rw [if_pos (by omega)]

/-- A byte that was written is read back. -/
theorem Mem.read_write_self {m : List Cell} (a : Nat) (v : Byte) (h : Mem.wf m = true) : Mem.read (Mem.write m a v) a = v := by
  induction m with
  | nil => simp only [Mem.write]; split <;> simp_all [Mem.read]
  | cons c r ih =>
    obtain ⟨k, b⟩ := c
    have hb : Mem.above k r = true := by simp [Mem.wf] at h; exact h.1.2
    simp only [Mem.write]
    split
    · split
      · rename_i h1 h2; simp only [Mem.read]; rw [if_neg (by omega), if_pos h1, h2]
      · simp [Mem.read]
    · split
      · split
        · subst_vars; exact Mem.read_above hb (Nat.le_refl _)
        · simp [Mem.read]
      · simp only [Mem.read]; rw [if_neg (by omega), if_neg (by omega), ih (Mem.wf_tail h)]

/-- A write leaves every other byte. -/
theorem Mem.read_write_ne {m : List Cell} {a x : Nat} (v : Byte) (hx : x ≠ a) (h : Mem.wf m = true) :
    Mem.read (Mem.write m a v) x = Mem.read m x := by
  induction m with
  | nil => simp only [Mem.write]; split <;> simp [Mem.read, Ne.symm hx]
  | cons c r ih =>
    obtain ⟨k, b⟩ := c
    have hb : Mem.above k r = true := by simp [Mem.wf] at h; exact h.1.2
    simp only [Mem.write]
    split
    · split
      · rfl
      · rename_i h1 _
        simp only [Mem.read]
        rw [if_neg (Ne.symm hx)]
        split
        · rw [if_neg (by omega), if_pos (by omega)]
        · rfl
    · split
      · split
        · subst_vars
          simp only [Mem.read]
          rw [if_neg (Ne.symm hx)]
          split
          · exact Mem.read_above hb (by omega)
          · rfl
        · subst_vars; simp only [Mem.read, if_neg (Ne.symm hx)]
      · simp only [Mem.read, ih (Mem.wf_tail h)]

/-! ### The same for a state -/

theorem State.putByte_wf {s : State} (a : Nat) (b : Byte) (m : Option MCls) (h : Mem.wf s.mem = true) :
    Mem.wf (s.putByte a b m).mem = true := Mem.wf_write a b h

theorem State.putCells_wf {s : State} (cs : List (Nat × Byte × Option MCls)) (h : Mem.wf s.mem = true) :
    Mem.wf (s.putCells cs).mem = true := by
  induction cs generalizing s with
  | nil => exact h
  | cons c r ih => exact ih (State.putByte_wf _ _ _ h)

/-- Cells written leave every byte whose address is not among theirs. -/
theorem State.byteAt_putCells_of_notMem {s : State} (cs : List (Nat × Byte × Option MCls)) (h : Mem.wf s.mem = true) {a : Nat}
    (ha : ∀ c ∈ cs, c.1 ≠ a) : (s.putCells cs).byteAt a = s.byteAt a := by
  induction cs generalizing s with
  | nil => rfl
  | cons c r ih =>
    have h1 := ih (s := s.putByte c.1 c.2.1 c.2.2) (State.putByte_wf _ _ _ h) (fun d hd => ha d (List.mem_cons_of_mem _ hd))
    have h2 : (s.putByte c.1 c.2.1 c.2.2).byteAt a = s.byteAt a :=
      Mem.read_write_ne _ (Ne.symm (ha c (List.mem_cons_self ..))) h
    exact h1.trans h2

end Sys2Proof.Machine
end

