-- ==== Sys2Proof/Laws/PerInstr.lean ====
section
/-! SUPPORT. Per constructor of `Instr`: only an instruction that has an encoding can be ill-formed. -/

namespace Sys2Proof.Laws

/-- An event, which has no encoding, is well-formed. -/
def EventsWellFormed.Statement (i : Instr) : Prop := encode i = none → i.wf = true

theorem EventsWellFormed.pwrokRise (x0 : BitVec 10) (x1 : Bool) (x2 : Bool) (x3 : BitVec 4) : EventsWellFormed.Statement (.pwrokRise x0 x1 x2 x3) := fun _ => rfl
theorem EventsWellFormed.railDroop (x0 : BitVec 10) (x1 : BitVec 10) : EventsWellFormed.Statement (.railDroop x0 x1) := fun _ => rfl
theorem EventsWellFormed.tuningAndTrainingDone (x0 : BitVec 16) (x1 : BitVec 8) (x2 : PodJoin) : EventsWellFormed.Statement (.tuningAndTrainingDone x0 x1 x2) := fun _ => rfl
theorem EventsWellFormed.memoryInitDone (x0 : Bool) : EventsWellFormed.Statement (.memoryInitDone x0) := fun _ => rfl
theorem EventsWellFormed.recoveryBlockWrite (x0 : BitVec 7) (x1 : Bool) (x2 : Nat) (x3 : List Byte) : EventsWellFormed.Statement (.recoveryBlockWrite x0 x1 x2 x3) := fun _ => rfl
theorem EventsWellFormed.imageDone (x0 : BitVec 7) (x1 : Bool) : EventsWellFormed.Statement (.imageDone x0 x1) := fun _ => rfl
theorem EventsWellFormed.abort (x0 : BitVec 7) (x1 : Bool) : EventsWellFormed.Statement (.abort x0 x1) := fun _ => rfl
theorem EventsWellFormed.activate (x0 : Bool) : EventsWellFormed.Statement (.activate x0) := fun _ => rfl
theorem EventsWellFormed.slackWindow (x0 : Nat) (x1 : List HbmNote) : EventsWellFormed.Statement (.slackWindow x0 x1) := fun _ => rfl
theorem EventsWellFormed.portLock (x0 : Fin 16) (x1 : Nat) : EventsWellFormed.Statement (.portLock x0 x1) := fun _ => rfl
theorem EventsWellFormed.portDark (x0 : Fin 16) : EventsWellFormed.Statement (.portDark x0) := fun _ => rfl
theorem EventsWellFormed.portDead (x0 : Fin 16) : EventsWellFormed.Statement (.portDead x0) := fun _ => rfl
theorem EventsWellFormed.bundleTransmit (x0 : Fin 16) (x1 : Nat) : EventsWellFormed.Statement (.bundleTransmit x0 x1) := fun _ => rfl
theorem EventsWellFormed.bundleReceive (x0 : Fin 16) (x1 : Nat) (x2 : RxBundle) : EventsWellFormed.Statement (.bundleReceive x0 x1 x2) := fun _ => rfl
theorem EventsWellFormed.replay (x0 : Fin 16) (x1 : Nat) : EventsWellFormed.Statement (.replay x0 x1) := fun _ => rfl
theorem EventsWellFormed.landing (x0 : Fin 16) (x1 : Nat) : EventsWellFormed.Statement (.landing x0 x1) := fun _ => rfl
theorem EventsWellFormed.relay (x0 : Fin 16) (x1 : Nat) : EventsWellFormed.Statement (.relay x0 x1) := fun _ => rfl
theorem EventsWellFormed.requestRecord (x0 : Fin 16) (x1 : FabRecord) : EventsWellFormed.Statement (.requestRecord x0 x1) := fun _ => rfl
theorem EventsWellFormed.failureNotice (x0 : Fin 16) (x1 : Nat) (x2 : FabRecord) : EventsWellFormed.Statement (.failureNotice x0 x1 x2) := fun _ => rfl
theorem EventsWellFormed.keyRotation (x0 : Fin 512) (x1 : Bool) (x2 : Nat) : EventsWellFormed.Statement (.keyRotation x0 x1 x2) := fun _ => rfl
theorem EventsWellFormed.controlRecordReceive (x0 : Fin 16) (x1 : CtrlRecord) : EventsWellFormed.Statement (.controlRecordReceive x0 x1) := fun _ => rfl
theorem EventsWellFormed.ptpMessage (x0 : PtpMsg) : EventsWellFormed.Statement (.ptpMessage x0) := fun _ => rfl
theorem EventsWellFormed.ppsIn (x0 : Bool) : EventsWellFormed.Statement (.ppsIn x0) := fun _ => rfl
theorem EventsWellFormed.timeCfgWrite (x0 : BitVec 32) : EventsWellFormed.Statement (.timeCfgWrite x0) := fun _ => rfl
theorem EventsWellFormed.doorbell (x0 : Fin 1024) (x1 : BitVec 32) : EventsWellFormed.Statement (.doorbell x0 x1) := fun _ => rfl
theorem EventsWellFormed.packetFetch (x0 : Fin 1024) (x1 : Packet) : EventsWellFormed.Statement (.packetFetch x0 x1) := fun _ => rfl
theorem EventsWellFormed.packetTake (x0 : Fin 64) : EventsWellFormed.Statement (.packetTake x0) := fun _ => rfl
theorem EventsWellFormed.dispatch (x0 : Fin 64) : EventsWellFormed.Statement (.dispatch x0) := fun _ => rfl
theorem EventsWellFormed.nop (x0 : Nat) : EventsWellFormed.Statement (.nop x0) := fun _ => rfl
theorem EventsWellFormed.launch (x0 : Nat) : EventsWellFormed.Statement (.launch x0) := fun _ => rfl
theorem EventsWellFormed.graph (x0 : Nat) : EventsWellFormed.Statement (.graph x0) := fun _ => rfl
theorem EventsWellFormed.wait (x0 : Nat) : EventsWellFormed.Statement (.wait x0) := fun _ => rfl
theorem EventsWellFormed.write (x0 : Nat) : EventsWellFormed.Statement (.write x0) := fun _ => rfl
theorem EventsWellFormed.schedLoad (x0 : Nat) : EventsWellFormed.Statement (.schedLoad x0) := fun _ => rfl
theorem EventsWellFormed.schedLoadDone (x0 : Nat) : EventsWellFormed.Statement (.schedLoadDone x0) := fun _ => rfl
theorem EventsWellFormed.schedActivate (x0 : Nat) : EventsWellFormed.Statement (.schedActivate x0) := fun _ => rfl
theorem EventsWellFormed.preempt (x0 : Nat) : EventsWellFormed.Statement (.preempt x0) := fun _ => rfl
theorem EventsWellFormed.cond (x0 : Nat) : EventsWellFormed.Statement (.cond x0) := fun _ => rfl
theorem EventsWellFormed.loop (x0 : Nat) : EventsWellFormed.Statement (.loop x0) := fun _ => rfl
theorem EventsWellFormed.endNode (x0 : Nat) : EventsWellFormed.Statement (.endNode x0) := fun _ => rfl
theorem EventsWellFormed.ringCfgWrite (x0 : Fin 1024) (x1 : BitVec 32) : EventsWellFormed.Statement (.ringCfgWrite x0 x1) := fun _ => rfl
theorem EventsWellFormed.mergeCfgWrite (x0 : Fin 64) (x1 : BitVec 32) : EventsWellFormed.Statement (.mergeCfgWrite x0 x1) := fun _ => rfl
theorem EventsWellFormed.clear (x0 : Fin 64) : EventsWellFormed.Statement (.clear x0) := fun _ => rfl
theorem EventsWellFormed.journalCfgWrite (x0 : BitVec 32) : EventsWellFormed.Statement (.journalCfgWrite x0) := fun _ => rfl
theorem EventsWellFormed.ptRootWrite (x0 : Fin 4) (x1 : BitVec 64) : EventsWellFormed.Statement (.ptRootWrite x0 x1) := fun _ => rfl
theorem EventsWellFormed.flush (x0 : Fin 4) : EventsWellFormed.Statement (.flush x0) := fun _ => rfl
theorem EventsWellFormed.pwrCfgWrite (x0 : BitVec 32) : EventsWellFormed.Statement (.pwrCfgWrite x0) := fun _ => rfl
theorem EventsWellFormed.registerWrite (x0 : Fin 3) (x1 : Nat) (x2 : BitVec 26) (x3 : BitVec 64) : EventsWellFormed.Statement (.registerWrite x0 x1 x2 x3) := fun _ => rfl
theorem EventsWellFormed.challenge (x0 : BitVec 8) (x1 : Nat) (x2 : BitVec 256) : EventsWellFormed.Statement (.challenge x0 x1 x2) := fun _ => rfl
theorem EventsWellFormed.getMeasurements (x0 : BitVec 8) (x1 : Nat) (x2 : Nat) (x3 : Bool) (x4 : BitVec 256) : EventsWellFormed.Statement (.getMeasurements x0 x1 x2 x3 x4) := fun _ => rfl
theorem EventsWellFormed.keyExchange (x0 : BitVec 8) (x1 : Nat) (x2 : BitVec 768) : EventsWellFormed.Statement (.keyExchange x0 x1 x2) := fun _ => rfl
theorem EventsWellFormed.finish (x0 : BitVec 8) (x1 : Nat) (x2 : Nat) : EventsWellFormed.Statement (.finish x0 x1 x2) := fun _ => rfl
theorem EventsWellFormed.endSession (x0 : BitVec 8) (x1 : Nat) : EventsWellFormed.Statement (.endSession x0 x1) := fun _ => rfl
theorem EventsWellFormed.partitionTableSet (x0 : List PartEntry) : EventsWellFormed.Statement (.partitionTableSet x0) := fun _ => rfl
theorem EventsWellFormed.seal (v : BitVec 8) (x0 : Nat) (x1 : SealMsg) : EventsWellFormed.Statement (.seal v x0 x1) := fun _ => rfl
theorem EventsWellFormed.unseal (v : BitVec 8) (x0 : Nat) (x1 : Fin 4) : EventsWellFormed.Statement (.unseal v x0 x1) := fun _ => rfl
theorem EventsWellFormed.operatorRelease (x0 : Fin 4) : EventsWellFormed.Statement (.operatorRelease x0) := fun _ => rfl
theorem EventsWellFormed.tenantPtRootWrite (v : BitVec 8) (x0 : Nat) (x1 : Fin 4) (x2 : Bool) (x3 : BitVec 64) : EventsWellFormed.Statement (.tenantPtRootWrite v x0 x1 x2 x3) := fun _ => rfl
theorem EventsWellFormed.tenantDebugUnlock (v : BitVec 8) (x0 : Nat) (x1 : Fin 4) (x2 : List Byte) : EventsWellFormed.Statement (.tenantDebugUnlock v x0 x1 x2) := fun _ => rfl
theorem EventsWellFormed.tenantDebugExit (v : BitVec 8) (x0 : Nat) (x1 : Fin 4) : EventsWellFormed.Statement (.tenantDebugExit v x0 x1) := fun _ => rfl
theorem EventsWellFormed.vendorDebugToken (v : BitVec 8) (x0 : List Byte) : EventsWellFormed.Statement (.vendorDebugToken v x0) := fun _ => rfl
theorem EventsWellFormed.debugRelease (x0 : Nat) (x1 : Nat) (x2 : Strm) : EventsWellFormed.Statement (.debugRelease x0 x1 x2) := fun _ => rfl
theorem EventsWellFormed.debugDeliverBreakpoint (x0 : Nat) (x1 : Nat) (x2 : Strm) : EventsWellFormed.Statement (.debugDeliverBreakpoint x0 x1 x2) := fun _ => rfl
theorem EventsWellFormed.sealedTransferRecord (x0 : Option (Fin 4)) (x1 : Fin 4) (x2 : Bool) (x3 : BitVec 32) (x4 : BitVec 64) (x5 : Nat) (x6 : List Byte) (x7 : BitVec 128) : EventsWellFormed.Statement (.sealedTransferRecord x0 x1 x2 x3 x4 x5 x6 x7) := fun _ => rfl
theorem EventsWellFormed.instanceStart (x0 : Nat) (x1 : Nat) : EventsWellFormed.Statement (.instanceStart x0 x1) := fun _ => rfl
theorem EventsWellFormed.resourceRelease (x0 : Nat) (x1 : Nat) : EventsWellFormed.Statement (.resourceRelease x0 x1) := fun _ => rfl
theorem EventsWellFormed.gridRetire (x0 : Nat) : EventsWellFormed.Statement (.gridRetire x0) := fun _ => rfl
theorem EventsWellFormed.freeze (x0 : Nat) : EventsWellFormed.Statement (.freeze x0) := fun _ => rfl
theorem EventsWellFormed.resumeImageWrite (x0 : Nat) : EventsWellFormed.Statement (.resumeImageWrite x0) := fun _ => rfl
theorem EventsWellFormed.idleBeat (x0 : Nat) (x1 : Fin 4) (x2 : Strm) : EventsWellFormed.Statement (.idleBeat x0 x1 x2) := fun _ => rfl
theorem EventsWellFormed.engineCommandStart (x0 : Nat) : EventsWellFormed.Statement (.engineCommandStart x0) := fun _ => rfl
theorem EventsWellFormed.iadd (x0 : T3) : EventsWellFormed.Statement (.iadd x0) := fun h => nomatch h
theorem EventsWellFormed.isub (x0 : T3) : EventsWellFormed.Statement (.isub x0) := fun h => nomatch h
theorem EventsWellFormed.imul (x0 : T3) : EventsWellFormed.Statement (.imul x0) := fun h => nomatch h
theorem EventsWellFormed.imulh (x0 : T3) : EventsWellFormed.Statement (.imulh x0) := fun h => nomatch h
theorem EventsWellFormed.imulhu (x0 : T3) : EventsWellFormed.Statement (.imulhu x0) := fun h => nomatch h
theorem EventsWellFormed.imad (x0 : T3d) : EventsWellFormed.Statement (.imad x0) := fun h => nomatch h
theorem EventsWellFormed.imin (x0 : T3) : EventsWellFormed.Statement (.imin x0) := fun h => nomatch h
theorem EventsWellFormed.imax (x0 : T3) : EventsWellFormed.Statement (.imax x0) := fun h => nomatch h
theorem EventsWellFormed.iminu (x0 : T3) : EventsWellFormed.Statement (.iminu x0) := fun h => nomatch h
theorem EventsWellFormed.imaxu (x0 : T3) : EventsWellFormed.Statement (.imaxu x0) := fun h => nomatch h
theorem EventsWellFormed.iabsd (x0 : T3) : EventsWellFormed.Statement (.iabsd x0) := fun h => nomatch h
theorem EventsWellFormed.and (x0 : T3) : EventsWellFormed.Statement (.and x0) := fun h => nomatch h
theorem EventsWellFormed.or (x0 : T3) : EventsWellFormed.Statement (.or x0) := fun h => nomatch h
theorem EventsWellFormed.xor (x0 : T3) : EventsWellFormed.Statement (.xor x0) := fun h => nomatch h
theorem EventsWellFormed.andn (x0 : T3) : EventsWellFormed.Statement (.andn x0) := fun h => nomatch h
theorem EventsWellFormed.shl (x0 : T3) : EventsWellFormed.Statement (.shl x0) := fun h => nomatch h
theorem EventsWellFormed.shr (x0 : T3) : EventsWellFormed.Statement (.shr x0) := fun h => nomatch h
theorem EventsWellFormed.sar (x0 : T3) : EventsWellFormed.Statement (.sar x0) := fun h => nomatch h
theorem EventsWellFormed.bfi (x0 : T3d) : EventsWellFormed.Statement (.bfi x0) := fun h => nomatch h
theorem EventsWellFormed.bperm (x0 : T3d) : EventsWellFormed.Statement (.bperm x0) := fun h => nomatch h
theorem EventsWellFormed.sel (x0 : T3) : EventsWellFormed.Statement (.sel x0) := fun h => nomatch h
theorem EventsWellFormed.fadd (x0 : T3) : EventsWellFormed.Statement (.fadd x0) := fun h => nomatch h
theorem EventsWellFormed.fsub (x0 : T3) : EventsWellFormed.Statement (.fsub x0) := fun h => nomatch h
theorem EventsWellFormed.fmul (x0 : T3) : EventsWellFormed.Statement (.fmul x0) := fun h => nomatch h
theorem EventsWellFormed.ffma (x0 : T3d) : EventsWellFormed.Statement (.ffma x0) := fun h => nomatch h
theorem EventsWellFormed.fmin (x0 : T3) : EventsWellFormed.Statement (.fmin x0) := fun h => nomatch h
theorem EventsWellFormed.fmax (x0 : T3) : EventsWellFormed.Statement (.fmax x0) := fun h => nomatch h
theorem EventsWellFormed.hadd2 (x0 : T3) : EventsWellFormed.Statement (.hadd2 x0) := fun h => nomatch h
theorem EventsWellFormed.hmul2 (x0 : T3) : EventsWellFormed.Statement (.hmul2 x0) := fun h => nomatch h
theorem EventsWellFormed.hfma2 (x0 : T3d) : EventsWellFormed.Statement (.hfma2 x0) := fun h => nomatch h
theorem EventsWellFormed.icmp (x0 : TC) : EventsWellFormed.Statement (.icmp x0) := fun h => nomatch h
theorem EventsWellFormed.icmpu (x0 : TC) : EventsWellFormed.Statement (.icmpu x0) := fun h => nomatch h
theorem EventsWellFormed.icmpi (x0 : TCi) : EventsWellFormed.Statement (.icmpi x0) := fun h => nomatch h
theorem EventsWellFormed.fcmp (x0 : TC) : EventsWellFormed.Statement (.fcmp x0) := fun h => nomatch h
theorem EventsWellFormed.sts (x0 : St) : EventsWellFormed.Statement (.sts x0) := fun h => nomatch h
theorem EventsWellFormed.stsw (x0 : St) : EventsWellFormed.Statement (.stsw x0) := fun h => nomatch h
theorem EventsWellFormed.stg (x0 : St) : EventsWellFormed.Statement (.stg x0) := fun h => nomatch h
theorem EventsWellFormed.send (x0 : Snd) : EventsWellFormed.Statement (.send x0) := fun h => nomatch h
theorem EventsWellFormed.ats (x0 : TA) : EventsWellFormed.Statement (.ats x0) := fun h => nomatch h
theorem EventsWellFormed.atg (x0 : TA) : EventsWellFormed.Statement (.atg x0) := fun h => nomatch h
theorem EventsWellFormed.iaddi (x0 : TI) : EventsWellFormed.Statement (.iaddi x0) := fun h => nomatch h
theorem EventsWellFormed.andi (x0 : TI) : EventsWellFormed.Statement (.andi x0) := fun h => nomatch h
theorem EventsWellFormed.ori (x0 : TI) : EventsWellFormed.Statement (.ori x0) := fun h => nomatch h
theorem EventsWellFormed.xori (x0 : TI) : EventsWellFormed.Statement (.xori x0) := fun h => nomatch h
theorem EventsWellFormed.shli (x0 : TIs) : EventsWellFormed.Statement (.shli x0) := fun h => nomatch h
theorem EventsWellFormed.shri (x0 : TIs) : EventsWellFormed.Statement (.shri x0) := fun h => nomatch h
theorem EventsWellFormed.sari (x0 : TIs) : EventsWellFormed.Statement (.sari x0) := fun h => nomatch h
theorem EventsWellFormed.movil (x0 : TL) : EventsWellFormed.Statement (.movil x0) := fun h => nomatch h
theorem EventsWellFormed.movih (x0 : TLd) : EventsWellFormed.Statement (.movih x0) := fun h => nomatch h
theorem EventsWellFormed.bra (x0 : TB) : EventsWellFormed.Statement (.bra x0) := fun h => nomatch h
theorem EventsWellFormed.call (x0 : TB) : EventsWellFormed.Statement (.call x0) := fun h => nomatch h
theorem EventsWellFormed.mmq (x0 : TM) : EventsWellFormed.Statement (.mmq x0) := fun h => nomatch h
theorem EventsWellFormed.mmqs (x0 : TM) : EventsWellFormed.Statement (.mmqs x0) := fun h => nomatch h
theorem EventsWellFormed.mov (x0 : T2) : EventsWellFormed.Statement (.mov x0) := fun h => nomatch h
theorem EventsWellFormed.popc (x0 : T2) : EventsWellFormed.Statement (.popc x0) := fun h => nomatch h
theorem EventsWellFormed.clz (x0 : T2) : EventsWellFormed.Statement (.clz x0) := fun h => nomatch h
theorem EventsWellFormed.brev (x0 : T2) : EventsWellFormed.Statement (.brev x0) := fun h => nomatch h
theorem EventsWellFormed.ineg (x0 : T2) : EventsWellFormed.Statement (.ineg x0) := fun h => nomatch h
theorem EventsWellFormed.iabs (x0 : T2) : EventsWellFormed.Statement (.iabs x0) := fun h => nomatch h
theorem EventsWellFormed.bfx (x0 : T2d) : EventsWellFormed.Statement (.bfx x0) := fun h => nomatch h
theorem EventsWellFormed.sext (x0 : T2n) : EventsWellFormed.Statement (.sext x0) := fun h => nomatch h
theorem EventsWellFormed.rotl (x0 : T2n) : EventsWellFormed.Statement (.rotl x0) := fun h => nomatch h
theorem EventsWellFormed.frcp (x0 : T2) : EventsWellFormed.Statement (.frcp x0) := fun h => nomatch h
theorem EventsWellFormed.frsq (x0 : T2) : EventsWellFormed.Statement (.frsq x0) := fun h => nomatch h
theorem EventsWellFormed.fsqrt (x0 : T2) : EventsWellFormed.Statement (.fsqrt x0) := fun h => nomatch h
theorem EventsWellFormed.fex2 (x0 : T2) : EventsWellFormed.Statement (.fex2 x0) := fun h => nomatch h
theorem EventsWellFormed.flg2 (x0 : T2) : EventsWellFormed.Statement (.flg2 x0) := fun h => nomatch h
theorem EventsWellFormed.fsinp (x0 : T2) : EventsWellFormed.Statement (.fsinp x0) := fun h => nomatch h
theorem EventsWellFormed.fcosp (x0 : T2) : EventsWellFormed.Statement (.fcosp x0) := fun h => nomatch h
theorem EventsWellFormed.ftanh (x0 : T2) : EventsWellFormed.Statement (.ftanh x0) := fun h => nomatch h
theorem EventsWellFormed.fcvt (x0 : Cvt) : EventsWellFormed.Statement (.fcvt x0) := fun h => nomatch h
theorem EventsWellFormed.i2f (x0 : T2r) : EventsWellFormed.Statement (.i2f x0) := fun h => nomatch h
theorem EventsWellFormed.f2i (x0 : T2r) : EventsWellFormed.Statement (.f2i x0) := fun h => nomatch h
theorem EventsWellFormed.fmtw (x0 : NA) : EventsWellFormed.Statement (.fmtw x0) := fun h => nomatch h
theorem EventsWellFormed.cmpr (x0 : T2d) : EventsWellFormed.Statement (.cmpr x0) := fun h => nomatch h
theorem EventsWellFormed.accz (x0 : N3) : EventsWellFormed.Statement (.accz x0) := fun h => nomatch h
theorem EventsWellFormed.accrd (x0 : Accrd) : EventsWellFormed.Statement (.accrd x0) := fun h => nomatch h
theorem EventsWellFormed.accwr (x0 : NA) : EventsWellFormed.Statement (.accwr x0) := fun h => nomatch h
theorem EventsWellFormed.pand (x0 : PP) : EventsWellFormed.Statement (.pand x0) := fun h => nomatch h
theorem EventsWellFormed.por (x0 : PP) : EventsWellFormed.Statement (.por x0) := fun h => nomatch h
theorem EventsWellFormed.pxor (x0 : PP) : EventsWellFormed.Statement (.pxor x0) := fun h => nomatch h
theorem EventsWellFormed.pnot (x0 : P2) : EventsWellFormed.Statement (.pnot x0) := fun h => nomatch h
theorem EventsWellFormed.pmov (x0 : P2) : EventsWellFormed.Statement (.pmov x0) := fun h => nomatch h
theorem EventsWellFormed.pvec (x0 : PV) : EventsWellFormed.Statement (.pvec x0) := fun h => nomatch h
theorem EventsWellFormed.gbind (x0 : GB) : EventsWellFormed.Statement (.gbind x0) := fun h => nomatch h
theorem EventsWellFormed.gbindNeg (x0 : GB) : EventsWellFormed.Statement (.gbindNeg x0) := fun h => nomatch h
theorem EventsWellFormed.shflx (x0 : T2n) : EventsWellFormed.Statement (.shflx x0) := fun h => nomatch h
theorem EventsWellFormed.shflu (x0 : T2n) : EventsWellFormed.Statement (.shflu x0) := fun h => nomatch h
theorem EventsWellFormed.shfld (x0 : T2n) : EventsWellFormed.Statement (.shfld x0) := fun h => nomatch h
theorem EventsWellFormed.shfli (x0 : T2d) : EventsWellFormed.Statement (.shfli x0) := fun h => nomatch h
theorem EventsWellFormed.bcast (x0 : T2) : EventsWellFormed.Statement (.bcast x0) := fun h => nomatch h
theorem EventsWellFormed.ballot (x0 : PV) : EventsWellFormed.Statement (.ballot x0) := fun h => nomatch h
theorem EventsWellFormed.vall (x0 : P2) : EventsWellFormed.Statement (.vall x0) := fun h => nomatch h
theorem EventsWellFormed.vany (x0 : P2) : EventsWellFormed.Statement (.vany x0) := fun h => nomatch h
theorem EventsWellFormed.redl (x0 : T2o) : EventsWellFormed.Statement (.redl x0) := fun h => nomatch h
theorem EventsWellFormed.scanl (x0 : T2o) : EventsWellFormed.Statement (.scanl x0) := fun h => nomatch h
theorem EventsWellFormed.lds (x0 : Lds) : EventsWellFormed.Statement (.lds x0) := fun h => nomatch h
theorem EventsWellFormed.ldsw (x0 : T2d) : EventsWellFormed.Statement (.ldsw x0) := fun h => nomatch h
theorem EventsWellFormed.ldg (x0 : Ldg) : EventsWellFormed.Statement (.ldg x0) := fun h => nomatch h
theorem EventsWellFormed.ldgi (x0 : Ldg) : EventsWellFormed.Statement (.ldgi x0) := fun h => nomatch h
theorem EventsWellFormed.qstat (x0 : QS) : EventsWellFormed.Statement (.qstat x0) := fun h => nomatch h
theorem EventsWellFormed.sendm (x0 : Sndm) : EventsWellFormed.Statement (.sendm x0) := fun h => nomatch h
theorem EventsWellFormed.bar (x0 : N2) : EventsWellFormed.Statement (.bar x0) := fun h => nomatch h
theorem EventsWellFormed.arrive (x0 : N2) : EventsWellFormed.Statement (.arrive x0) := fun h => nomatch h
theorem EventsWellFormed.waitb (x0 : N2) : EventsWellFormed.Statement (.waitb x0) := fun h => nomatch h
theorem EventsWellFormed.waitc (x0 : A1) : EventsWellFormed.Statement (.waitc x0) := fun h => nomatch h
theorem EventsWellFormed.waitcHbm (x0 : A1) : EventsWellFormed.Statement (.waitcHbm x0) := fun h => nomatch h
theorem EventsWellFormed.waitt (x0 : A1) : EventsWellFormed.Statement (.waitt x0) := fun h => nomatch h
theorem EventsWellFormed.fence (x0 : N2) : EventsWellFormed.Statement (.fence x0) := fun h => nomatch h
theorem EventsWellFormed.qfence (x0 : A1) : EventsWellFormed.Statement (.qfence x0) := fun h => nomatch h
theorem EventsWellFormed.yield (x0 : E0) : EventsWellFormed.Statement (.yield x0) := fun h => nomatch h
theorem EventsWellFormed.brx (x0 : AG) : EventsWellFormed.Statement (.brx x0) := fun h => nomatch h
theorem EventsWellFormed.ret (x0 : G0) : EventsWellFormed.Statement (.ret x0) := fun h => nomatch h
theorem EventsWellFormed.split (x0 : Spl) : EventsWellFormed.Statement (.split x0) := fun h => nomatch h
theorem EventsWellFormed.join (x0 : E0) : EventsWellFormed.Statement (.join x0) := fun h => nomatch h
theorem EventsWellFormed.exit (x0 : G0) : EventsWellFormed.Statement (.exit x0) := fun h => nomatch h
theorem EventsWellFormed.nopInstr (x0 : E0) : EventsWellFormed.Statement (.nopInstr x0) := fun h => nomatch h
theorem EventsWellFormed.ckpt (x0 : E0) : EventsWellFormed.Statement (.ckpt x0) := fun h => nomatch h
theorem EventsWellFormed.copy (x0 : A1) : EventsWellFormed.Statement (.copy x0) := fun h => nomatch h
theorem EventsWellFormed.gather (x0 : A1) : EventsWellFormed.Statement (.gather x0) := fun h => nomatch h
theorem EventsWellFormed.scatter (x0 : A1) : EventsWellFormed.Statement (.scatter x0) := fun h => nomatch h
theorem EventsWellFormed.mgx (x0 : A1) : EventsWellFormed.Statement (.mgx x0) := fun h => nomatch h
theorem EventsWellFormed.mmv (x0 : A1) : EventsWellFormed.Statement (.mmv x0) := fun h => nomatch h
theorem EventsWellFormed.fput (x0 : A1) : EventsWellFormed.Statement (.fput x0) := fun h => nomatch h
theorem EventsWellFormed.fget (x0 : A1) : EventsWellFormed.Statement (.fget x0) := fun h => nomatch h
theorem EventsWellFormed.fatom (x0 : A1) : EventsWellFormed.Statement (.fatom x0) := fun h => nomatch h
theorem EventsWellFormed.fmcast (x0 : A1) : EventsWellFormed.Statement (.fmcast x0) := fun h => nomatch h
theorem EventsWellFormed.coll (x0 : A1) : EventsWellFormed.Statement (.coll x0) := fun h => nomatch h
theorem EventsWellFormed.launchInstr (x0 : A1) : EventsWellFormed.Statement (.launchInstr x0) := fun h => nomatch h
theorem EventsWellFormed.cntadd (x0 : A1) : EventsWellFormed.Statement (.cntadd x0) := fun h => nomatch h
theorem EventsWellFormed.rdsr (x0 : Rdsr) : EventsWellFormed.Statement (.rdsr x0) := fun h => nomatch h
theorem EventsWellFormed.wrsr (x0 : Wrsr) : EventsWellFormed.Statement (.wrsr x0) := fun h => nomatch h
theorem EventsWellFormed.spill (x0 : SF) : EventsWellFormed.Statement (.spill x0) := fun h => nomatch h
theorem EventsWellFormed.fill (x0 : SF) : EventsWellFormed.Statement (.fill x0) := fun h => nomatch h
theorem EventsWellFormed.ctag (x0 : Ctag) : EventsWellFormed.Statement (.ctag x0) := fun h => nomatch h
theorem EventsWellFormed.psave (x0 : D1) : EventsWellFormed.Statement (.psave x0) := fun h => nomatch h
theorem EventsWellFormed.prest (x0 : D1) : EventsWellFormed.Statement (.prest x0) := fun h => nomatch h
theorem EventsWellFormed.dsave (x0 : D1) : EventsWellFormed.Statement (.dsave x0) := fun h => nomatch h
theorem EventsWellFormed.drest (x0 : D1) : EventsWellFormed.Statement (.drest x0) := fun h => nomatch h
theorem EventsWellFormed.bsave (x0 : D1) : EventsWellFormed.Statement (.bsave x0) := fun h => nomatch h
theorem EventsWellFormed.brest (x0 : D1) : EventsWellFormed.Statement (.brest x0) := fun h => nomatch h
theorem EventsWellFormed.lsave (x0 : D1) : EventsWellFormed.Statement (.lsave x0) := fun h => nomatch h
theorem EventsWellFormed.lrest (x0 : D1) : EventsWellFormed.Statement (.lrest x0) := fun h => nomatch h
theorem EventsWellFormed.brk (x0 : E0) : EventsWellFormed.Statement (.brk x0) := fun h => nomatch h
theorem EventsWellFormed.trap (x0 : E0) : EventsWellFormed.Statement (.trap x0) := fun h => nomatch h
theorem EventsWellFormed.asave (x0 : ND) : EventsWellFormed.Statement (.asave x0) := fun h => nomatch h
theorem EventsWellFormed.arest (x0 : ND) : EventsWellFormed.Statement (.arest x0) := fun h => nomatch h
theorem EventsWellFormed.movH16 (x0 : H16) : EventsWellFormed.Statement (.movH16 x0) := fun h => nomatch h
theorem EventsWellFormed.iaddH16 (x0 : H16) : EventsWellFormed.Statement (.iaddH16 x0) := fun h => nomatch h
theorem EventsWellFormed.isubH16 (x0 : H16) : EventsWellFormed.Statement (.isubH16 x0) := fun h => nomatch h
theorem EventsWellFormed.imulH16 (x0 : H16) : EventsWellFormed.Statement (.imulH16 x0) := fun h => nomatch h
theorem EventsWellFormed.andH16 (x0 : H16) : EventsWellFormed.Statement (.andH16 x0) := fun h => nomatch h
theorem EventsWellFormed.orH16 (x0 : H16) : EventsWellFormed.Statement (.orH16 x0) := fun h => nomatch h
theorem EventsWellFormed.xorH16 (x0 : H16) : EventsWellFormed.Statement (.xorH16 x0) := fun h => nomatch h
theorem EventsWellFormed.andnH16 (x0 : H16) : EventsWellFormed.Statement (.andnH16 x0) := fun h => nomatch h
theorem EventsWellFormed.shlH16 (x0 : H16) : EventsWellFormed.Statement (.shlH16 x0) := fun h => nomatch h
theorem EventsWellFormed.shrH16 (x0 : H16) : EventsWellFormed.Statement (.shrH16 x0) := fun h => nomatch h
theorem EventsWellFormed.sarH16 (x0 : H16) : EventsWellFormed.Statement (.sarH16 x0) := fun h => nomatch h
theorem EventsWellFormed.faddH16 (x0 : H16) : EventsWellFormed.Statement (.faddH16 x0) := fun h => nomatch h
theorem EventsWellFormed.fsubH16 (x0 : H16) : EventsWellFormed.Statement (.fsubH16 x0) := fun h => nomatch h
theorem EventsWellFormed.fmulH16 (x0 : H16) : EventsWellFormed.Statement (.fmulH16 x0) := fun h => nomatch h
theorem EventsWellFormed.fminH16 (x0 : H16) : EventsWellFormed.Statement (.fminH16 x0) := fun h => nomatch h
theorem EventsWellFormed.fmaxH16 (x0 : H16) : EventsWellFormed.Statement (.fmaxH16 x0) := fun h => nomatch h
theorem EventsWellFormed.registerFileError (x0 : Nat) (x1 : Strm) (x2 : Fin 112) (x3 : Fin 32) : EventsWellFormed.Statement (.registerFileError x0 x1 x2 x3) := fun _ => rfl
theorem EventsWellFormed.ref10m (x0 : Bool) : EventsWellFormed.Statement (.ref10m x0) := fun _ => rfl
theorem EventsWellFormed.debuggerHalt (x0 : Nat) (x1 : Nat) (x2 : Strm) (x3 : DebugAct) : EventsWellFormed.Statement (.debuggerHalt x0 x1 x2 x3) := fun _ => rfl
theorem EventsWellFormed.singleStep (x0 : Nat) (x1 : Nat) (x2 : Strm) : EventsWellFormed.Statement (.singleStep x0 x1 x2) := fun _ => rfl
theorem EventsWellFormed.ideStreamBind (v : BitVec 8) (x0 : Nat) (x1 : Fin 4) : EventsWellFormed.Statement (.ideStreamBind v x0 x1) := fun _ => rfl
theorem EventsWellFormed.zeroingComplete (x0 : ZeroFor) (x1 : Fin 4) : EventsWellFormed.Statement (.zeroingComplete x0 x1) := fun _ => rfl
theorem EventsWellFormed.recoveryStatus (x0 : BitVec 7) (x1 : BitVec 8) : EventsWellFormed.Statement (.recoveryStatus x0 x1) := fun _ => rfl
theorem EventsWellFormed.getCapabilities (x0 : BitVec 8) : EventsWellFormed.Statement (.getCapabilities x0) := fun _ => rfl
theorem EventsWellFormed.negotiateAlgorithms (x0 : BitVec 8) : EventsWellFormed.Statement (.negotiateAlgorithms x0) := fun _ => rfl
theorem EventsWellFormed.getDigests (x0 : BitVec 8) : EventsWellFormed.Statement (.getDigests x0) := fun _ => rfl
theorem EventsWellFormed.getCertificate (x0 : BitVec 8) (x1 : Nat) : EventsWellFormed.Statement (.getCertificate x0 x1) := fun _ => rfl
theorem EventsWellFormed.coreGate : EventsWellFormed.Statement .coreGate := fun _ => rfl
theorem EventsWellFormed.staging : EventsWellFormed.Statement .staging := fun _ => rfl
theorem EventsWellFormed.placement : EventsWellFormed.Statement .placement := fun _ => rfl
theorem EventsWellFormed.drainBoundExpiry : EventsWellFormed.Statement .drainBoundExpiry := fun _ => rfl
theorem EventsWellFormed.fwEventTake : EventsWellFormed.Statement .fwEventTake := fun _ => rfl
theorem EventsWellFormed.pwrokFall : EventsWellFormed.Statement .pwrokFall := fun _ => rfl
theorem EventsWellFormed.overtempAlert : EventsWellFormed.Statement .overtempAlert := fun _ => rfl
theorem EventsWellFormed.thermtrip : EventsWellFormed.Statement .thermtrip := fun _ => rfl
theorem EventsWellFormed.perstAssert : EventsWellFormed.Statement .perstAssert := fun _ => rfl
theorem EventsWellFormed.perstDeassert : EventsWellFormed.Statement .perstDeassert := fun _ => rfl
theorem EventsWellFormed.busMasterEnable : EventsWellFormed.Statement .busMasterEnable := fun _ => rfl
theorem EventsWellFormed.d3hotEntry : EventsWellFormed.Statement .d3hotEntry := fun _ => rfl
theorem EventsWellFormed.d0Entry : EventsWellFormed.Statement .d0Entry := fun _ => rfl
theorem EventsWellFormed.romBoot : EventsWellFormed.Statement .romBoot := fun _ => rfl
theorem EventsWellFormed.pllLock : EventsWellFormed.Statement .pllLock := fun _ => rfl
theorem EventsWellFormed.bringupPhaseTimeout : EventsWellFormed.Statement .bringupPhaseTimeout := fun _ => rfl
theorem EventsWellFormed.gtcDisciplineTimeout : EventsWellFormed.Statement .gtcDisciplineTimeout := fun _ => rfl
theorem EventsWellFormed.recoveryVerifyDone : EventsWellFormed.Statement .recoveryVerifyDone := fun _ => rfl
theorem EventsWellFormed.verify : EventsWellFormed.Statement .verify := fun _ => rfl
theorem EventsWellFormed.fwVerifyDone : EventsWellFormed.Statement .fwVerifyDone := fun _ => rfl
theorem EventsWellFormed.fwActivateDone : EventsWellFormed.Statement .fwActivateDone := fun _ => rfl
theorem EventsWellFormed.multicastResolution : EventsWellFormed.Statement .multicastResolution := fun _ => rfl
theorem EventsWellFormed.controlRecord : EventsWellFormed.Statement .controlRecord := fun _ => rfl
theorem EventsWellFormed.ppsOut : EventsWellFormed.Statement .ppsOut := fun _ => rfl
theorem EventsWellFormed.timeFaultTimeout : EventsWellFormed.Statement .timeFaultTimeout := fun _ => rfl
theorem EventsWellFormed.holdover : EventsWellFormed.Statement .holdover := fun _ => rfl
theorem EventsWellFormed.enterFault : EventsWellFormed.Statement .enterFault := fun _ => rfl
theorem EventsWellFormed.enterAgree : EventsWellFormed.Statement .enterAgree := fun _ => rfl
theorem EventsWellFormed.enterRealign : EventsWellFormed.Statement .enterRealign := fun _ => rfl
theorem EventsWellFormed.gtcRealign : EventsWellFormed.Statement .gtcRealign := fun _ => rfl
theorem EventsWellFormed.deviceHoldEnd : EventsWellFormed.Statement .deviceHoldEnd := fun _ => rfl
theorem EventsWellFormed.resumeRun : EventsWellFormed.Statement .resumeRun := fun _ => rfl
theorem EventsWellFormed.boundaryImage : EventsWellFormed.Statement .boundaryImage := fun _ => rfl
theorem EventsWellFormed.activationTakesEffect : EventsWellFormed.Statement .activationTakesEffect := fun _ => rfl
theorem EventsWellFormed.waitSatisfied : EventsWellFormed.Statement .waitSatisfied := fun _ => rfl
theorem EventsWellFormed.waitWatchdog : EventsWellFormed.Statement .waitWatchdog := fun _ => rfl
theorem EventsWellFormed.getVersion : EventsWellFormed.Statement .getVersion := fun _ => rfl
theorem EventsWellFormed.debugNonce (v : BitVec 8) : EventsWellFormed.Statement (.debugNonce v) := fun _ => rfl
theorem EventsWellFormed.deviceIdleEntry : EventsWellFormed.Statement .deviceIdleEntry := fun _ => rfl
theorem EventsWellFormed.wakeComplete : EventsWellFormed.Statement .wakeComplete := fun _ => rfl
theorem EventsWellFormed.staged : EventsWellFormed.Statement .staged := fun _ => rfl
theorem EventsWellFormed.resultLanding : EventsWellFormed.Statement .resultLanding := fun _ => rfl
theorem EventsWellFormed.queueLanding : EventsWellFormed.Statement .queueLanding := fun _ => rfl
theorem EventsWellFormed.parkRelease : EventsWellFormed.Statement .parkRelease := fun _ => rfl
theorem EventsWellFormed.barrierRelease : EventsWellFormed.Statement .barrierRelease := fun _ => rfl
theorem EventsWellFormed.mailboxDelivery : EventsWellFormed.Statement .mailboxDelivery := fun _ => rfl
theorem EventsWellFormed.pageWalkLevel : EventsWellFormed.Statement .pageWalkLevel := fun _ => rfl
theorem EventsWellFormed.engineDone : EventsWellFormed.Statement .engineDone := fun _ => rfl
theorem EventsWellFormed.trapret : EventsWellFormed.Statement .trapret := fun h => nomatch h
theorem EventsWellFormed.illegalInstruction : EventsWellFormed.Statement .illegalInstruction := fun _ => rfl
theorem EventsWellFormed.writeCompletion : EventsWellFormed.Statement .writeCompletion := fun _ => rfl
theorem EventsWellFormed.unsupportedRequest (v : BitVec 8) : EventsWellFormed.Statement (.unsupportedRequest v) := fun _ => rfl
theorem EventsWellFormed.vddAuxLost : EventsWellFormed.Statement .vddAuxLost := fun _ => rfl

end Sys2Proof.Laws
end

