-- ==== Sys2Proof/Laws/Writes.lean ====
section
/-! SUPPORT. The operations that write memory keep its canonical form. -/

namespace Sys2Proof.Machine

/-- An update that leaves memory alone leaves it over a fold. -/
theorem foldl_mem {α : Type} (f : State → α → State) (hf : ∀ s x, (f s x).mem = s.mem) (l : List α) (s : State) :
    (l.foldl f s).mem = s.mem := by
  induction l generalizing s with
  | nil => rfl
  | cons x r ih => rw [List.foldl_cons, ih, hf]

/-- An operation that keeps the canonical form keeps it over a fold. -/
theorem foldl_wf {α : Type} (f : State → α → State) (hf : ∀ s x, Mem.wf s.mem = true → Mem.wf (f s x).mem = true) (l : List α)
    (s : State) (h : Mem.wf s.mem = true) : Mem.wf (l.foldl f s).mem = true := by
  induction l generalizing s with
  | nil => exact h
  | cons x r ih => exact ih _ (hf _ _ h)

@[simp] theorem State.remember_mem (s : State) (as : List Nat) : (s.remember as).mem = s.mem := by
  unfold State.remember; dsimp only; split <;> rfl

@[simp] theorem State.sawBad_mem (s : State) (as : List Nat) : (s.sawBad as).mem = s.mem := by
  unfold State.sawBad
  generalize dedup (((as.filter fun a => decide (a < hbmEnd ∧ s.markAt a = some .ecc)).map (· / 64))) = l
  induction l generalizing s with
  | nil => rfl
  | cons b r ih => rw [List.foldl_cons, ih]; rfl

@[simp] theorem State.deliver_mem (s : State) (k id : Nat) (v : RVal) : (s.deliver k id v).mem = s.mem := rfl

/-- One atomic operation. -/
theorem State.atom_wf {s : State} (a : Atom) (h : Mem.wf s.mem = true) : Mem.wf (s.atom a).2.2.mem = true := by
  unfold State.atom; exact State.putCells_wf _ (by simpa using h)

/-- Atomic operations in order. -/
theorem State.atoms_wf {s : State} (l : List Atom) (h : Mem.wf s.mem = true) : Mem.wf (s.atoms l).2.2.mem = true := by
  unfold State.atoms
  generalize ([] : Tab Word) = o
  generalize ([] : Tab MCls) = m
  induction l generalizing s o m with
  | nil => exact h
  | cons a r ih => exact ih (State.atom_wf a h) _ _

/-- A counter add. -/
theorem State.addTo_wf {s : State} (a inc : Nat) (h : Mem.wf s.mem = true) : Mem.wf (s.addTo a inc).mem = true := by
  unfold State.addTo; exact State.putCells_wf _ (by simpa using h)

/-- The bytes a tick found are kept beside memory. -/
@[simp] theorem State.keepBase_mem (s : State) (as : List Nat) : (s.keepBase as).mem = s.mem := rfl

/-- A reply record in hand is apart from memory. -/
@[simp] theorem State.fillAnswer_mem (s : State) (id : Nat) (old : Word) (m : Option MCls) : (s.fillAnswer id old m).mem = s.mem := rfl

/-- A write under a bit mask. -/
theorem State.putBits_wf {s : State} (c : Nat × Byte × Byte × Option MCls) (h : Mem.wf s.mem = true) :
    Mem.wf (s.putBits c).mem = true := State.putByte_wf _ _ _ h

/-- One write. -/
theorem State.applyWrite_wf {s : State} (w : PWrite) (h : Mem.wf s.mem = true) : Mem.wf (s.applyWrite w).mem = true := by
  have h0 : Mem.wf (w.bits.foldl State.putBits
      (((s.keepBase w.addrs).remember (w.cells.map (·.1) ++ w.bits.map (·.1))).putCells w.cells)).mem = true :=
    foldl_wf _ (fun _ c hs => State.putBits_wf c hs) _ _ (State.putCells_wf _ (by simpa using h))
  have h1 := State.atoms_wf w.atoms h0
  unfold State.applyWrite
  rcases w.add with _ | ⟨a, i⟩ <;> rcases w.ret with _ | ⟨k, id⟩ | id <;>
    simp only [State.deliver_mem, State.fillAnswer_mem] <;>
    first
    | exact h1
    | exact State.addTo_wf _ _ h1

/-- The writes of a tick. -/
theorem State.applyDue_wf {s : State} (t : Nat) (h : Mem.wf s.mem = true) : Mem.wf (s.applyDue t).mem = true :=
  foldl_wf _ (fun _ w hs => State.applyWrite_wf w hs) _ _ h

/-- The writes of a tick done again. -/
theorem State.redo_wf {s : State} (h : Mem.wf s.mem = true) : Mem.wf s.redo.mem = true :=
  foldl_wf _ (fun _ w hs => State.applyWrite_wf w hs) _ _ (State.putCells_wf _ h)

/-- A write known only on its own tick. -/
theorem State.writeNow_wf {s : State} (w : PWrite) (h : Mem.wf s.mem = true) : Mem.wf (s.writeNow w).mem = true := by
  unfold State.writeNow; dsimp only; split
  · exact State.redo_wf h
  · exact State.applyWrite_wf w h

/-- A write put in flight, or in its place on its own tick. -/
theorem State.issueWrite_wf {s : State} (w : PWrite) (h : Mem.wf s.mem = true) : Mem.wf (s.issueWrite w).mem = true := by
  unfold State.issueWrite; split
  · exact State.writeNow_wf w h
  · exact h

/-- The mailbox counters are apart from memory. -/
theorem State.withMbox_mem (s : State) (t : Tab Nat) : ({ s with mbox := t } : State).mem = s.mem := rfl

/-- One message copy. -/
theorem State.deliverMail_wf {s : State} (m : MailMsg) (h : Mem.wf s.mem = true) : Mem.wf (s.deliverMail m).mem = true := by
  unfold State.deliverMail
  split
  · exact h
  · split
    · exact h
    · rw [State.withMbox_mem]; exact State.putCells_wf _ h

/-- The message copies of a tick. -/
theorem State.deliverMails_wf {s : State} (t : Nat) (h : Mem.wf s.mem = true) : Mem.wf (s.deliverMails t).mem = true :=
  foldl_wf _ (fun _ m hs => State.deliverMail_wf m hs) _ _ h

/-- Clearing scratch units. -/
theorem State.clearScratch_wf {s : State} (core lo n : Nat) (h : Mem.wf s.mem = true) : Mem.wf (s.clearScratch core lo n).mem = true :=
  Mem.wf_clear _ _ h

/-- Zeroing a partition's regions. -/
theorem State.zeroRegions_wf {s : State} (p : Nat) (h : Mem.wf s.mem = true) : Mem.wf (s.zeroRegions p).mem = true := by
  unfold State.zeroRegions
  refine foldl_wf _ ?_ _ _ h
  intro u r hu
  show Mem.wf (Mem.clear u.mem _ _) = true
  exact Mem.wf_clear _ _ hu

/-- A change of a region's memory mode. -/
theorem State.flipMode_wf {s : State} (r : Nat) (h : Mem.wf s.mem = true) : Mem.wf (s.flipMode r).mem = true :=
  State.putCells_wf _ (Mem.wf_clear _ _ h)

/-- A cold reset. -/
theorem State.coldReset_wf {s : State} (h : Mem.wf s.mem = true) : Mem.wf s.coldReset.mem = true := Mem.wf_filter _ h

end Sys2Proof.Machine
end

