-- ==== Sys2Proof/Tests/Slice0.lean ====
section
/-! SUPPORT. Own tests: decoding, well-formedness, single steps on small states, and for each obligation a witness: concrete
states and operands that meet its hypotheses together, clause by clause. -/

section

set_option Elab.async false

open Sys2Proof Sys2Proof.Machine

/-! ### Decoding: for every encoded instruction a word written out from its encoding (R256 to R261, R275 to R291), fields in the
order b, a, d, major, G, W, E, L, or a, d, operation, E, L -/

theorem test_decode_arith :
    decodeTableWord 32 0b0000110_0000101_0000011_000000_10_0_1_1 = some (.iadd ⟨.v 3, .v 5, .v 6, 2, false, true⟩) ∧
    decodeTableWord 32 0b0000110_0000101_0000011_000001_10_0_1_1 = some (.isub ⟨.v 3, .v 5, .v 6, 2, false, true⟩) ∧
    decodeTableWord 32 0b0000110_0000101_0000011_000010_10_0_1_1 = some (.imul ⟨.v 3, .v 5, .v 6, 2, false, true⟩) ∧
    decodeTableWord 32 0b0000110_0000101_0000011_000011_10_0_1_1 = some (.imulh ⟨.v 3, .v 5, .v 6, 2, false, true⟩) ∧
    decodeTableWord 32 0b0000110_0000101_0000011_000100_10_0_1_1 = some (.imulhu ⟨.v 3, .v 5, .v 6, 2, false, true⟩) ∧
    decodeTableWord 32 0b0000110_0000101_0000011_000110_10_0_1_1 = some (.imin ⟨.v 3, .v 5, .v 6, 2, false, true⟩) ∧
    decodeTableWord 32 0b0000110_0000101_0000011_000111_10_0_1_1 = some (.imax ⟨.v 3, .v 5, .v 6, 2, false, true⟩) ∧
    decodeTableWord 32 0b0000110_0000101_0000011_001000_10_0_1_1 = some (.iminu ⟨.v 3, .v 5, .v 6, 2, false, true⟩) ∧
    decodeTableWord 32 0b0000110_0000101_0000011_001001_10_0_1_1 = some (.imaxu ⟨.v 3, .v 5, .v 6, 2, false, true⟩) ∧
    decodeTableWord 32 0b0000110_0000101_0000011_001010_10_0_1_1 = some (.iabsd ⟨.v 3, .v 5, .v 6, 2, false, true⟩) ∧
    decodeTableWord 32 0b0000110_0000101_0000011_001011_10_0_1_1 = some (.and ⟨.v 3, .v 5, .v 6, 2, false, true⟩) ∧
    decodeTableWord 32 0b0000110_0000101_0000011_001100_10_0_1_1 = some (.or ⟨.v 3, .v 5, .v 6, 2, false, true⟩) ∧
    decodeTableWord 32 0b0000110_0000101_0000011_001101_10_0_1_1 = some (.xor ⟨.v 3, .v 5, .v 6, 2, false, true⟩) ∧
    decodeTableWord 32 0b0000110_0000101_0000011_001110_10_0_1_1 = some (.andn ⟨.v 3, .v 5, .v 6, 2, false, true⟩) ∧
    decodeTableWord 32 0b0000110_0000101_0000011_001111_10_0_1_1 = some (.shl ⟨.v 3, .v 5, .v 6, 2, false, true⟩) ∧
    decodeTableWord 32 0b0000110_0000101_0000011_010000_10_0_1_1 = some (.shr ⟨.v 3, .v 5, .v 6, 2, false, true⟩) ∧
    decodeTableWord 32 0b0000110_0000101_0000011_010001_10_0_1_1 = some (.sar ⟨.v 3, .v 5, .v 6, 2, false, true⟩) ∧
    decodeTableWord 32 0b0000110_0000101_0000011_010100_10_0_1_1 = some (.sel ⟨.v 3, .v 5, .v 6, 2, false, true⟩) ∧
    decodeTableWord 32 0b0000110_0000101_0000011_010101_10_0_1_1 = some (.fadd ⟨.v 3, .v 5, .v 6, 2, false, true⟩) ∧
    decodeTableWord 32 0b0000110_0000101_0000011_010110_10_0_1_1 = some (.fsub ⟨.v 3, .v 5, .v 6, 2, false, true⟩) ∧
    decodeTableWord 32 0b0000110_0000101_0000011_010111_10_0_1_1 = some (.fmul ⟨.v 3, .v 5, .v 6, 2, false, true⟩) ∧
    decodeTableWord 32 0b0000110_0000101_0000011_011001_10_0_1_1 = some (.fmin ⟨.v 3, .v 5, .v 6, 2, false, true⟩) ∧
    decodeTableWord 32 0b0000110_0000101_0000011_011010_10_0_1_1 = some (.fmax ⟨.v 3, .v 5, .v 6, 2, false, true⟩) ∧
    decodeTableWord 32 0b0000110_0000101_0000011_011011_10_0_1_1 = some (.hadd2 ⟨.v 3, .v 5, .v 6, 2, false, true⟩) ∧
    decodeTableWord 32 0b0000110_0000101_0000011_011100_10_0_1_1 = some (.hmul2 ⟨.v 3, .v 5, .v 6, 2, false, true⟩) ∧
    decodeTableWord 32 0b0000110_0000101_0000011_000101_10_0_1_1 = some (.imad ⟨.v 3, .v 5, .v 6, 2, true⟩) ∧
    decodeTableWord 32 0b0000110_0000101_0000011_010010_10_0_1_1 = some (.bfi ⟨.v 3, .v 5, .v 6, 2, true⟩) ∧
    decodeTableWord 32 0b0000110_0000101_0000011_010011_10_0_1_1 = some (.bperm ⟨.v 3, .v 5, .v 6, 2, true⟩) ∧
    decodeTableWord 32 0b0000110_0000101_0000011_011000_10_0_1_1 = some (.ffma ⟨.v 3, .v 5, .v 6, 2, true⟩) ∧
    decodeTableWord 32 0b0000110_0000101_0000011_011101_10_0_1_1 = some (.hfma2 ⟨.v 3, .v 5, .v 6, 2, true⟩) := by decide

theorem test_decode_formats :
    decodeTableWord 32 0b0000110_0000101_1100001_011110_10_0_1_1 = some (.icmp ⟨true, 33, 4, .v 5, .v 6, true⟩) ∧
    decodeTableWord 32 0b0000110_0000101_1100001_011111_10_0_1_1 = some (.icmpu ⟨true, 33, 4, .v 5, .v 6, true⟩) ∧
    decodeTableWord 32 0b0000110_0000101_1100001_100001_10_0_1_1 = some (.fcmp ⟨true, 33, 4, .v 5, .v 6, true⟩) ∧
    decodeTableWord 32 0b1001011_0000101_1100001_100000_10_0_1_1 = some (.icmpi ⟨true, 33, 4, .v 5, 75, true⟩) ∧
    decodeTableWord 32 0b0000110_0000101_1111100_100010_10_0_1_1 = some (.sts ⟨.v 5, .v 6, 2, true⟩) ∧
    decodeTableWord 32 0b0000110_0000101_1111100_100011_10_0_1_1 = some (.stsw ⟨.v 5, .v 6, 2, true⟩) ∧
    decodeTableWord 32 0b0000110_0000101_1111100_100100_10_0_1_1 = some (.stg ⟨.v 5, .v 6, 2, true⟩) ∧
    decodeTableWord 32 0b0000110_0000101_1111100_100101_00_0_1_1 = some (.send ⟨.v 5, .v 6, true⟩) ∧
    decodeTableWord 32 0b0000110_0000101_0000011_100110_11_0_1_1 = some (.ats ⟨.v 3, .v 5, .v 6, 6, true⟩) ∧
    decodeTableWord 32 0b0000110_0000101_0000011_100111_11_0_1_1 = some (.atg ⟨.v 3, .v 5, .v 6, 6, true⟩) ∧
    decodeTableWord 32 0b1001011_0000101_0000011_101000_10_0_1_1 = some (.iaddi ⟨331, .v 5, .v 3, false, true⟩) ∧
    decodeTableWord 32 0b1001011_0000101_0000011_101001_10_0_1_1 = some (.andi ⟨331, .v 5, .v 3, false, true⟩) ∧
    decodeTableWord 32 0b1001011_0000101_0000011_101010_10_0_1_1 = some (.ori ⟨331, .v 5, .v 3, false, true⟩) ∧
    decodeTableWord 32 0b1001011_0000101_0000011_101011_10_0_1_1 = some (.xori ⟨331, .v 5, .v 3, false, true⟩) ∧
    decodeTableWord 32 0b0010101_0000101_0000011_101100_00_0_1_1 = some (.shli ⟨21, .v 5, .v 3, false, true⟩) ∧
    decodeTableWord 32 0b0010101_0000101_0000011_101101_00_0_1_1 = some (.shri ⟨21, .v 5, .v 3, false, true⟩) ∧
    decodeTableWord 32 0b0010101_0000101_0000011_101110_00_0_1_1 = some (.sari ⟨21, .v 5, .v 3, false, true⟩) ∧
    decodeTableWord 32 0b1010101_1001111_0000011_110000_10_0_1_1 = some (.movil ⟨43838, .v 3, false, true⟩) ∧
    decodeTableWord 32 0b1010101_1001111_0000011_110001_10_0_1_1 = some (.movih ⟨43838, .v 3, true⟩) ∧
    decodeTableWord 32 0b1101010_1111001_1011110_110010_10_0_1_1 = some (.bra ⟨1752286, 2⟩) ∧
    decodeTableWord 32 0b1101010_1111001_1011110_110011_10_0_1_1 = some (.call ⟨1752286, 2⟩) ∧
    decodeTableWord 32 0b0000110_0000101_1001101_110100_10_0_1_1 = some (.mmq ⟨2, 1, 5, .v 5, .v 6, 2, true⟩) ∧
    decodeTableWord 32 0b0000110_0000101_1001101_110101_10_0_1_1 = some (.mmqs ⟨2, 1, 5, .v 5, .v 6, 2, true⟩) := by decide

theorem test_decode_major56 :
    decodeTableWord 32 0b0000000_0000101_0000011_111000_10_0_1_1 = some (.mov ⟨.v 3, .v 5, 2, false, true⟩) ∧
    decodeTableWord 32 0b0000001_0000101_0000011_111000_10_0_1_1 = some (.popc ⟨.v 3, .v 5, 2, false, true⟩) ∧
    decodeTableWord 32 0b0000010_0000101_0000011_111000_10_0_1_1 = some (.clz ⟨.v 3, .v 5, 2, false, true⟩) ∧
    decodeTableWord 32 0b0000011_0000101_0000011_111000_10_0_1_1 = some (.brev ⟨.v 3, .v 5, 2, false, true⟩) ∧
    decodeTableWord 32 0b0000100_0000101_0000011_111000_10_0_1_1 = some (.ineg ⟨.v 3, .v 5, 2, false, true⟩) ∧
    decodeTableWord 32 0b0000101_0000101_0000011_111000_10_0_1_1 = some (.iabs ⟨.v 3, .v 5, 2, false, true⟩) ∧
    decodeTableWord 32 0b0000110_0000101_0000011_111000_10_0_1_1 = some (.bfx ⟨.v 3, .v 5, 2, true⟩) ∧
    decodeTableWord 32 0b0110011_0000101_0000011_111000_10_0_1_1 = some (.sext ⟨19, .v 3, .v 5, 2, false, true⟩) ∧
    decodeTableWord 32 0b1010011_0000101_0000011_111000_10_0_1_1 = some (.rotl ⟨19, .v 3, .v 5, 2, false, true⟩) := by decide

theorem test_decode_major57 :
    decodeTableWord 32 0b0000000_0000101_0000011_111001_10_0_1_1 = some (.frcp ⟨.v 3, .v 5, 2, false, true⟩) ∧
    decodeTableWord 32 0b0000001_0000101_0000011_111001_10_0_1_1 = some (.frsq ⟨.v 3, .v 5, 2, false, true⟩) ∧
    decodeTableWord 32 0b0000010_0000101_0000011_111001_10_0_1_1 = some (.fsqrt ⟨.v 3, .v 5, 2, false, true⟩) ∧
    decodeTableWord 32 0b0000011_0000101_0000011_111001_10_0_1_1 = some (.fex2 ⟨.v 3, .v 5, 2, false, true⟩) ∧
    decodeTableWord 32 0b0000100_0000101_0000011_111001_10_0_1_1 = some (.flg2 ⟨.v 3, .v 5, 2, false, true⟩) ∧
    decodeTableWord 32 0b0000101_0000101_0000011_111001_10_0_1_1 = some (.fsinp ⟨.v 3, .v 5, 2, false, true⟩) ∧
    decodeTableWord 32 0b0000110_0000101_0000011_111001_10_0_1_1 = some (.fcosp ⟨.v 3, .v 5, 2, false, true⟩) ∧
    decodeTableWord 32 0b0000111_0000101_0000011_111001_10_0_1_1 = some (.ftanh ⟨.v 3, .v 5, 2, false, true⟩) ∧
    decodeTableWord 32 0b1001000_0000101_0000011_111001_10_0_1_1 = some (.cmpr ⟨.v 3, .v 5, 2, true⟩) ∧
    decodeTableWord 32 0b0100010_0000101_0000011_111001_10_0_1_1 = some (.fcvt ⟨4, 2, .v 3, .v 5, 2, false, true⟩) ∧
    decodeTableWord 32 0b0101001_0000101_0000011_111001_10_0_1_1 = some (.i2f ⟨1, .v 3, .v 5, 2, false, true⟩) ∧
    decodeTableWord 32 0b0101101_0000101_0000011_111001_10_0_1_1 = some (.f2i ⟨1, .v 3, .v 5, 2, false, true⟩) ∧
    decodeTableWord 32 0b1000101_0000101_1111100_111001_00_0_1_1 = some (.fmtw ⟨5, .v 5, true⟩) ∧
    decodeTableWord 32 0b1100101_0000101_1111100_111001_00_0_1_1 = some (.accwr ⟨5, .v 5, true⟩) ∧
    decodeTableWord 32 0b1010101_1111100_1111100_111001_00_0_1_1 = some (.accz ⟨5, true⟩) ∧
    decodeTableWord 32 0b1011101_1111100_0000011_111001_10_0_1_1 = some (.accrd ⟨5, .v 3, 2, true⟩) := by decide

theorem test_decode_major59 :
    decodeTableWord 32 0b1100001_0000101_0000011_111011_10_0_1_1 = some (.bcast ⟨.v 3, .v 5, 2, false, true⟩) ∧
    decodeTableWord 32 0b1100000_0000101_0000011_111011_10_0_1_1 = some (.shfli ⟨.v 3, .v 5, 2, true⟩) ∧
    decodeTableWord 32 0b0010011_0000101_0000011_111011_10_0_1_1 = some (.shflx ⟨19, .v 3, .v 5, 2, false, true⟩) ∧
    decodeTableWord 32 0b0110011_0000101_0000011_111011_10_0_1_1 = some (.shflu ⟨19, .v 3, .v 5, 2, false, true⟩) ∧
    decodeTableWord 32 0b1010011_0000101_0000011_111011_10_0_1_1 = some (.shfld ⟨19, .v 3, .v 5, 2, false, true⟩) ∧
    decodeTableWord 32 0b1100011_0000101_0000011_111011_10_0_1_1 = some (.vall ⟨3, 5, 2, true⟩) ∧
    decodeTableWord 32 0b1100100_0000101_0000011_111011_10_0_1_1 = some (.vany ⟨3, 5, 2, true⟩) ∧
    decodeTableWord 32 0b1100010_0000101_0000011_111011_10_0_1_1 = some (.ballot ⟨.v 3, 5, 2, false, true⟩) ∧
    decodeTableWord 32 0b1101111_0000101_0000011_111011_10_0_1_1 = some (.redl ⟨7, .v 3, .v 5, 2, false, true⟩) ∧
    decodeTableWord 32 0b1111101_0000101_0000011_111011_10_0_1_1 = some (.scanl ⟨10, .v 3, .v 5, 2, false, true⟩) := by decide

theorem test_decode_major60 :
    decodeTableWord 32 0b0000101_0000101_0000011_111100_10_0_1_1 = some (.ldsw ⟨.v 3, .v 5, 2, true⟩) ∧
    decodeTableWord 32 0b0000011_0000101_0000011_111100_10_0_1_1 = some (.lds ⟨3, .v 3, .v 5, 2, false, true⟩) ∧
    decodeTableWord 32 0b0001100_0000101_0000011_111100_10_0_1_1 = some (.ldg ⟨4, .v 3, .v 5, 2, true⟩) ∧
    decodeTableWord 32 0b0010100_0000101_0000011_111100_10_0_1_1 = some (.ldgi ⟨4, .v 3, .v 5, 2, true⟩) ∧
    decodeTableWord 32 0b0011101_1111100_0000011_111100_00_0_1_1 = some (.qstat ⟨5, .v 3, false, true⟩) ∧
    decodeTableWord 32 0b0100010_0000101_1111100_111100_00_0_1_1 = some (.sendm ⟨2, .v 5, true⟩) := by decide

theorem test_decode_major58 :
    decodeTableWord 32 0b0000001_0000101_0000011_111010_10_0_1_1 = some (.pand ⟨true, 3, 5, 2, true⟩) ∧
    decodeTableWord 32 0b0000011_0000101_0000011_111010_10_0_1_1 = some (.por ⟨true, 3, 5, 2, true⟩) ∧
    decodeTableWord 32 0b0000101_0000101_0000011_111010_10_0_1_1 = some (.pxor ⟨true, 3, 5, 2, true⟩) ∧
    decodeTableWord 32 0b0000110_0000101_0000011_111010_10_0_1_1 = some (.pnot ⟨3, 5, 2, true⟩) ∧
    decodeTableWord 32 0b0000111_0000101_0000011_111010_10_0_1_1 = some (.pmov ⟨3, 5, 2, true⟩) ∧
    decodeTableWord 32 0b0001000_0000101_0000011_111010_10_0_1_1 = some (.pvec ⟨.v 3, 5, 2, false, true⟩) ∧
    decodeTableWord 32 0b0001001_0000101_0000011_111010_00_0_1_1 = some (.gbind ⟨3, 5, true⟩) ∧
    decodeTableWord 32 0b0001010_0000101_0000011_111010_00_0_1_1 = some (.gbindNeg ⟨3, 5, true⟩) := by decide

theorem test_decode_major61 :
    decodeTableWord 32 0b0000010_1111100_1111100_111101_00_0_1_1 = some (.bar ⟨2, true⟩) ∧
    decodeTableWord 32 0b0000110_1111100_1111100_111101_00_0_1_1 = some (.arrive ⟨2, true⟩) ∧
    decodeTableWord 32 0b0001010_1111100_1111100_111101_00_0_1_1 = some (.waitb ⟨2, true⟩) ∧
    decodeTableWord 32 0b0010010_1111100_1111100_111101_00_0_1_1 = some (.fence ⟨2, true⟩) ∧
    decodeTableWord 32 0b0001100_0000101_1111100_111101_00_0_1_1 = some (.waitc ⟨.v 5, true⟩) ∧
    decodeTableWord 32 0b0001101_0000101_1111100_111101_00_0_1_1 = some (.waitcHbm ⟨.v 5, true⟩) ∧
    decodeTableWord 32 0b0001110_0000101_1111100_111101_00_0_1_1 = some (.waitt ⟨.v 5, true⟩) ∧
    decodeTableWord 32 0b0010100_0000101_1111100_111101_00_0_1_1 = some (.qfence ⟨.v 5, true⟩) ∧
    decodeTableWord 32 0b0010101_1111100_1111100_111101_00_0_1_1 = some (.yield ⟨true⟩) ∧
    decodeTableWord 32 0b0011011_1111100_1111100_111101_00_0_1_1 = some (.join ⟨true⟩) ∧
    decodeTableWord 32 0b0011101_1111100_1111100_111101_00_0_1_1 = some (.nopInstr ⟨true⟩) ∧
    decodeTableWord 32 0b0011110_1111100_1111100_111101_00_0_1_1 = some (.ckpt ⟨true⟩) ∧
    decodeTableWord 32 0b0011000_0000101_1111100_111101_10_0_1_1 = some (.brx ⟨.v 5, 2⟩) ∧
    decodeTableWord 32 0b0011001_1111100_1111100_111101_10_0_1_1 = some (.ret ⟨2⟩) ∧
    decodeTableWord 32 0b0011100_1111100_1111100_111101_10_0_1_1 = some (.exit ⟨2⟩) ∧
    decodeTableWord 32 0b0011010_0000101_1111100_111101_10_0_1_1 = some (.split ⟨.v 5, 2, true⟩) := by decide

theorem test_decode_major62 :
    decodeTableWord 32 0b0000000_0000101_1111100_111110_00_0_1_1 = some (.copy ⟨.v 5, true⟩) ∧
    decodeTableWord 32 0b0000001_0000101_1111100_111110_00_0_1_1 = some (.gather ⟨.v 5, true⟩) ∧
    decodeTableWord 32 0b0000010_0000101_1111100_111110_00_0_1_1 = some (.scatter ⟨.v 5, true⟩) ∧
    decodeTableWord 32 0b0000011_0000101_1111100_111110_00_0_1_1 = some (.mgx ⟨.v 5, true⟩) ∧
    decodeTableWord 32 0b0000100_0000101_1111100_111110_00_0_1_1 = some (.mmv ⟨.v 5, true⟩) ∧
    decodeTableWord 32 0b0000101_0000101_1111100_111110_00_0_1_1 = some (.fput ⟨.v 5, true⟩) ∧
    decodeTableWord 32 0b0000110_0000101_1111100_111110_00_0_1_1 = some (.fget ⟨.v 5, true⟩) ∧
    decodeTableWord 32 0b0000111_0000101_1111100_111110_00_0_1_1 = some (.fatom ⟨.v 5, true⟩) ∧
    decodeTableWord 32 0b0001000_0000101_1111100_111110_00_0_1_1 = some (.fmcast ⟨.v 5, true⟩) ∧
    decodeTableWord 32 0b0001001_0000101_1111100_111110_00_0_1_1 = some (.coll ⟨.v 5, true⟩) ∧
    decodeTableWord 32 0b0001010_0000101_1111100_111110_00_0_1_1 = some (.launchInstr ⟨.v 5, true⟩) ∧
    decodeTableWord 32 0b0001011_0000101_1111100_111110_00_0_1_1 = some (.cntadd ⟨.v 5, true⟩) := by decide

theorem test_decode_major63 :
    decodeTableWord 32 0b0001101_1111100_1111100_111111_00_0_1_1 = some (.brk ⟨true⟩) ∧
    decodeTableWord 32 0b0001110_1111100_1111100_111111_00_0_1_1 = some (.trap ⟨true⟩) ∧
    decodeTableWord 32 0b0000000_0001110_0000011_111111_00_0_1_1 = some (.rdsr ⟨14, .v 3, false, true⟩) ∧
    decodeTableWord 32 0b0000001_0000101_0001110_111111_00_0_1_1 = some (.wrsr ⟨14, .v 5, true⟩) ∧
    decodeTableWord 32 0b0000010_0000101_0000011_111111_00_0_1_1 = some (.spill ⟨.v 3, .v 5, true⟩) ∧
    decodeTableWord 32 0b0000011_0000101_0000011_111111_00_0_1_1 = some (.fill ⟨.v 3, .v 5, true⟩) ∧
    decodeTableWord 32 0b0000100_0000101_0000011_111111_00_0_1_1 = some (.ctag ⟨.v 3, .v 5, false, true⟩) ∧
    decodeTableWord 32 0b0000101_1111100_0000011_111111_00_0_1_1 = some (.psave ⟨.v 3, true⟩) ∧
    decodeTableWord 32 0b0000110_1111100_0000011_111111_00_0_1_1 = some (.prest ⟨.v 3, true⟩) ∧
    decodeTableWord 32 0b0000111_1111100_0000011_111111_00_0_1_1 = some (.dsave ⟨.v 3, true⟩) ∧
    decodeTableWord 32 0b0001000_1111100_0000011_111111_00_0_1_1 = some (.drest ⟨.v 3, true⟩) ∧
    decodeTableWord 32 0b0001001_1111100_0000011_111111_00_0_1_1 = some (.bsave ⟨.v 3, true⟩) ∧
    decodeTableWord 32 0b0001010_1111100_0000011_111111_00_0_1_1 = some (.brest ⟨.v 3, true⟩) ∧
    decodeTableWord 32 0b0001011_1111100_0000011_111111_00_0_1_1 = some (.lsave ⟨.v 3, true⟩) ∧
    decodeTableWord 32 0b0001100_1111100_0000011_111111_00_0_1_1 = some (.lrest ⟨.v 3, true⟩) ∧
    decodeTableWord 32 0b0001111_1111100_1111100_111111_00_0_1_1 = some (.trapret) ∧
    decodeTableWord 32 0b0010101_1111100_0000011_111111_00_0_1_1 = some (.asave ⟨5, .v 3, true⟩) ∧
    decodeTableWord 32 0b0011101_1111100_0000011_111111_00_0_1_1 = some (.arest ⟨5, .v 3, true⟩) := by decide

theorem test_decode_sixteenBit :
    decodeTableWord 16 0b01001_00100_0000_1_0 = some (.movH16 ⟨9, 4, true⟩) ∧
    decodeTableWord 16 0b01001_00100_0001_1_0 = some (.iaddH16 ⟨9, 4, true⟩) ∧
    decodeTableWord 16 0b01001_00100_0010_1_0 = some (.isubH16 ⟨9, 4, true⟩) ∧
    decodeTableWord 16 0b01001_00100_0011_1_0 = some (.imulH16 ⟨9, 4, true⟩) ∧
    decodeTableWord 16 0b01001_00100_0100_1_0 = some (.andH16 ⟨9, 4, true⟩) ∧
    decodeTableWord 16 0b01001_00100_0101_1_0 = some (.orH16 ⟨9, 4, true⟩) ∧
    decodeTableWord 16 0b01001_00100_0110_1_0 = some (.xorH16 ⟨9, 4, true⟩) ∧
    decodeTableWord 16 0b01001_00100_0111_1_0 = some (.andnH16 ⟨9, 4, true⟩) ∧
    decodeTableWord 16 0b01001_00100_1000_1_0 = some (.shlH16 ⟨9, 4, true⟩) ∧
    decodeTableWord 16 0b01001_00100_1001_1_0 = some (.shrH16 ⟨9, 4, true⟩) ∧
    decodeTableWord 16 0b01001_00100_1010_1_0 = some (.sarH16 ⟨9, 4, true⟩) ∧
    decodeTableWord 16 0b01001_00100_1011_1_0 = some (.faddH16 ⟨9, 4, true⟩) ∧
    decodeTableWord 16 0b01001_00100_1100_1_0 = some (.fsubH16 ⟨9, 4, true⟩) ∧
    decodeTableWord 16 0b01001_00100_1101_1_0 = some (.fmulH16 ⟨9, 4, true⟩) ∧
    decodeTableWord 16 0b01001_00100_1110_1_0 = some (.fminH16 ⟨9, 4, true⟩) ∧
    decodeTableWord 16 0b01001_00100_1111_1_0 = some (.fmaxH16 ⟨9, 4, true⟩) := by decide

/-! ### Words that are no instruction (R254, R259, R275, R292), and operand fields that are not assigned -/

theorem test_decode_rejects :
    decodeBytes [0] = .error .truncated ∧ decodeBytes [1, 0] = .error .truncated ∧
    -- major 47 is unassigned
    decodeBytes (wordBytes 32 0b0000110_0000101_0000011_101111_00_0_1_1) = .error .unassignedMajor ∧
    -- function 7 of major 56
    decodeBytes (wordBytes 32 0b0000111_0000101_0000011_111000_00_0_1_1) = .error .unassignedFunction ∧
    -- imad with W = 1; exit with E = 0; copy with d = 0
    decodeBytes (wordBytes 32 0b0000110_0000101_0000011_000101_00_1_1_1) = .error .unusedField ∧
    decodeBytes (wordBytes 32 0b0011100_1111100_1111100_111101_00_0_0_1) = .error .unusedField ∧
    decodeBytes (wordBytes 32 0b0000000_0001000_0000000_111110_00_0_0_1) = .error .unusedField := by decide

/-- For each check of Machine/Legal.lean a term that it refuses. -/
theorem test_wf_refuses : ∀ i ∈ ([
    .iadd ⟨.reserved 0, .v 0, .v 0, 0, false, false⟩, .iadd ⟨.v 0, .v 0, .v 0, 0, true, false⟩,
    .iadd ⟨.v 0, .reserved, .v 0, 0, false, false⟩, .iadd ⟨.v 0, .v 0, .reserved, 0, false, false⟩,
    .imad ⟨.discard, .v 0, .v 0, 0, false⟩, .imad ⟨.v 0, .reserved, .v 0, 0, false⟩, .sel ⟨.v 0, .v 0, .v 0, 0, false, false⟩,
    .icmp ⟨false, 48, 0, .v 0, .v 0, false⟩, .fcmp ⟨false, 0, 0, .v 0, .reserved, false⟩, .icmpu ⟨false, 0, 1, .v 0, .v 0, false⟩,
    .icmpu ⟨false, 0, 6, .v 0, .v 0, false⟩, .icmpi ⟨false, 48, 0, .v 0, 0, false⟩, .icmpi ⟨false, 0, 0, .reserved, 0, false⟩,
    .sts ⟨.reserved, .v 0, 0, false⟩, .stsw ⟨.v 0, .zero, 0, false⟩, .stg ⟨.q 0, .v 0, 0, false⟩, .send ⟨.v 0, .reserved, false⟩,
    .ats ⟨.q 6, .v 0, .v 0, 0, false⟩, .ats ⟨.v 0, .zero, .v 0, 7, false⟩, .atg ⟨.v 0, .v 0, .v 0, 0, false⟩, .atg ⟨.q 0, .zero, .v 0, 0, false⟩,
    .iaddi ⟨0, .reserved, .v 0, false, false⟩, .shli ⟨0, .v 0, .v 0, true, false⟩, .movil ⟨0, .reserved 6, false, false⟩,
    .movih ⟨0, .q 0, false⟩, .mmq ⟨0, 0, 0, .b 0, .v 0, 0, false⟩, .mmqs ⟨0, 0, 0, .v 0, .q 0, 0, false⟩,
    .mov ⟨.v 0, .reserved, 0, false, false⟩, .bfx ⟨.q 0, .v 0, 0, false⟩, .sext ⟨0, .v 0, .v 0, 0, false, false⟩,
    .fcvt ⟨6, 0, .v 0, .v 0, 0, false, false⟩, .fcvt ⟨2, 1, .v 0, .v 0, 0, false, false⟩, .i2f ⟨0, .v 0, .v 0, 0, true, false⟩,
    .redl ⟨11, .v 0, .v 0, 0, false, false⟩, .lds ⟨5, .v 0, .v 0, 0, false, false⟩, .ldg ⟨6, .q 0, .v 0, 0, false⟩,
    .ldg ⟨0, .q 6, .v 0, 0, false⟩, .ldgi ⟨0, .q 0, .b 0, 0, false⟩, .fmtw ⟨0, .reserved, false⟩, .accwr ⟨0, .laneid, false⟩,
    .accrd ⟨0, .discard, 0, false⟩, .pand ⟨false, 48, 0, 0, false⟩, .pnot ⟨0, 48, 0, false⟩, .pvec ⟨.v 0, 48, 0, false, false⟩,
    .gbind ⟨0, 0, false⟩, .gbindNeg ⟨4, 0, false⟩, .qstat ⟨0, .v 0, true, false⟩, .sendm ⟨0, .reserved, false⟩, .qfence ⟨.reserved, false⟩,
    .waitc ⟨.zero, false⟩, .copy ⟨.b 0, false⟩, .brx ⟨.reserved, 0⟩, .split ⟨.reserved, 0, false⟩, .rdsr ⟨22, .v 0, false, false⟩,
    .rdsr ⟨48, .v 0, false, false⟩, .wrsr ⟨10, .v 0, false⟩, .wrsr ⟨20, .v 0, false⟩, .spill ⟨.v 0, .zero, false⟩, .fill ⟨.discard, .v 0, false⟩,
    .ctag ⟨.v 0, .zero, false, false⟩, .psave ⟨.q 0, false⟩, .asave ⟨0, .discard, false⟩] : List Instr), i.wf = false := by decide

/-! ### Small states -/

/-- A state whose current stream is `x` of the one warp `w` of the one grid `g`, on tick 100. -/
def demoOf (x : Strm) (w : Warp) (g : Grid) : State :=
  { State.reset with gtc := 100, cur := some (0, x), warps := [(0, w)], grids := [(0, g)], fresh := 1 }

/-- A warp whose execute stream is changed. -/
def demoWarp (f : Stream → Stream) : Warp := { placedWarp 0 with acc := f placedStrm, exe := f placedStrm }

/-- The plain state: both streams at their first instruction, every register 0. -/
def demo (x : Strm) : State := demoOf x (placedWarp 0) (placedGrid 0)

/-- A state whose streams are changed. -/
def demoSt (x : Strm) (f : Stream → Stream) : State := demoOf x (demoWarp f) (placedGrid 0)

/-- What an instruction of use `u` sees in a state of one warp. -/
def Sys2Proof.Machine.State.see (s : State) (u : Use) : Ctx :=
  let w := (s.warp? 0).getD (placedWarp 0)
  let x := ((s.cur.map (·.2)).getD .exe)
  ⟨0, x, w, w.strm x, (s.gridOf w).getD (placedGrid 0), s.gtc, (w.strm x).active u.guard, srcVals w (w.strm x) u.srcs [], u⟩

/-- The checks of `Ctx.Issues` as a test. -/
def Sys2Proof.Machine.State.issuesB (s : State) (u : Use) : Bool :=
  let c := s.see u
  decide (s.cur = some (0, c.x)) && decide (s.warp? 0 = some c.w) && decide (s.gridOf c.w = some c.g) &&
  (decide (c.st.runCount ≠ 23) || u.e) && u.legal && (match c.x with
    | .acc => u.inAcc
    | .exe => u.inExe) &&
  (srcRegs u.srcs ++ u.regs ++ (dstReg u.dst).toList).all (fun n => decide (n < c.w.nregs c.x)) &&
  (decide (u.guard = 0) || (c.st.guards.find? u.guard).isSome) &&
  (srcPops u.srcs).all (fun q => decide (queueConsumer q = c.x)) &&
  (match dstQueue u.dst with
    | some q => decide (queueProducer q = c.x) && decide ((c.w.live q).length < queueDepth q)
    | none => true) &&
  (srcLatches u.srcs).all (fun k => match c.st.latches[k]? with
    | some l => decide (l.kind = .val) && decide (l.ready ≤ s.gtc)
    | none => false) &&
  (srcPops u.srcs).all (fun q =>
    decide ((srcPops u.srcs).count q ≤ ((c.w.live q).filter fun r => decide (r.issued < s.gtc)).length) &&
    (((c.w.live q).filter fun r => decide (r.issued < s.gtc)).take ((srcPops u.srcs).count q)).all (·.landed))

theorem Sys2Proof.Machine.State.issues_of (s : State) (u : Use) (h : s.issuesB u = true) : (s.see u).Issues s := by
  simp only [State.issuesB, Bool.and_eq_true, List.all_eq_true] at h
  obtain ⟨⟨⟨⟨⟨⟨⟨⟨⟨⟨⟨h1, h2⟩, h3⟩, h4⟩, h5⟩, h6⟩, h7⟩, h8⟩, h9⟩, h10⟩, h11⟩, h12⟩ := h
  refine ⟨⟨of_decide_eq_true h1, of_decide_eq_true h2, of_decide_eq_true h3, rfl, rfl, rfl, rfl⟩,
    ((Bool.or_eq_true _ _).mp h4).imp of_decide_eq_true id, h5, ?_, fun n hn => of_decide_eq_true (h7 n hn),
    ((Bool.or_eq_true _ _).mp h8).imp of_decide_eq_true id, fun q hq => of_decide_eq_true (h9 q hq), ?_, ?_, ?_⟩
  · constructor <;> intro hx <;> rw [hx] at h6 <;> exact h6
  · intro q hq
    have h10' := h10
    rw [show dstQueue u.dst = some q from hq] at h10'
    simpa using h10'
  · intro k hk
    have := h11 k hk
    split at this
    · rename_i l hl
      simp only [Bool.and_eq_true, decide_eq_true_eq] at this
      exact ⟨l, hl, this⟩
    · cases this
  · intro q hq
    have := h12 q hq
    simp only [decide_eq_true_eq] at this
    exact this

/-- No lane of a value is marked. -/
theorem Sys2Proof.Machine.RVal.clean_of (r : RVal) (m : Mask) (h : r.marks = []) : r.Clean m := by simp [RVal.Clean, h]

/-- In a state whose registers and queue entries are unmarked, an instruction of use `u` passes the checks before its own, and
what it sees meets `P`: the hypotheses of a completion statement hold together. -/
def Meets (s : State) (u : Use) (P : Ctx → Prop) : Prop :=
  (s.see u).use = u ∧ (s.see u).Issues s ∧ (∀ r ∈ (s.see u).vals, ∀ m, r.Clean m) ∧ (∀ n m, ((s.see u).st.reg n).Clean m) ∧ P (s.see u)

theorem regs_clean (t : Tab RVal) (h : (t.all fun e => e.2.marks.isEmpty) = true) (n : Nat) (m : Mask) : (t.get RVal.zero n).Clean m := by
  apply RVal.clean_of
  induction t with
  | nil => rfl
  | cons e r ih =>
    simp only [List.all_cons, Bool.and_eq_true, List.isEmpty_iff] at h
    by_cases hk : e.1 = n
    · simp [Tab.get, Tab.find?, hk, h.1]
    · have := ih h.2
      simp only [Tab.get, Tab.find?, hk, if_false] at this ⊢
      exact this

theorem meets {s : State} {u : Use} {P : Ctx → Prop} [Decidable (P (s.see u))]
    (h : (s.issuesB u && (s.see u).vals.all (fun r => r.marks.isEmpty) && (s.see u).st.regs.all (fun e => e.2.marks.isEmpty) &&
      decide (P (s.see u))) = true) : Meets s u P := by
  simp only [Bool.and_eq_true, decide_eq_true_eq] at h
  obtain ⟨⟨⟨h1, h2⟩, h3⟩, h4⟩ := h
  refine ⟨rfl, s.issues_of u h1, fun r hr m => r.clean_of m ?_, regs_clean _ h3, h4⟩
  simp only [List.all_eq_true, List.isEmpty_iff] at h2
  exact h2 r hr

/-! ### Witnesses: the hypotheses of the obligations, clause by clause -/

/-- Registers of the execute stream that hold given words in every lane. -/
def demoRegs (x : Strm) (rs : Tab Word) : State := demoSt x fun st => { st with regs := rs.map fun e => (e.1, RVal.ofWord e.2) }

theorem witness_IntegerPairsComplete :
    Meets (demo .acc) (useT3 ⟨.v 31, .v 0, .v 31, 0, false, false⟩ true) (fun _ => True) ∧
    Meets (demo .exe) (useT3 ⟨.discard, .laneid, .wid, 0, true, true⟩ true) (fun _ => True) ∧
    Meets (demo .acc) (useT3 ⟨.q 0, .zero, .v 31, 0, false, false⟩ true) (fun _ => True) ∧
    Meets (demo .exe) (useH16 ⟨27, 31, true⟩ true) (fun _ => True) ∧
    Meets (demo .exe) (useTI ⟨0x1FF, .laneid, .q 6, false, true⟩) (fun _ => True) :=
  ⟨meets (by decide), meets (by decide), meets (by decide), meets (by decide), meets (by decide)⟩

/-- Finite operands, a signalling NaN, infinities of both signs, a value that has a root and a reciprocal, and a block of one product. -/
theorem witness_RoundedOnce :
    (fp32.Finite 0x7F7FFFFF ∧ fp32.Finite 0x80000001 ∧ bf16.Finite 0x3F80) ∧
    ((fp32.decode 0x7F800001).isNan = true ∧ (fp32.decode 0x7F800001).isSig = true ∧ (fp32.decode 0x7FC00000).isNan = true) ∧
    ((fp32.decode 0x7F800000).isInf = true ∧ (fp32.decode 0xFF800000).isInf = true ∧
      (fp32.decode 0x7F800000).isNeg ≠ (fp32.decode 0xFF800000).isNeg ∧ (fp32.decode 0).isZero = true) ∧
    0 < (fp32.decode 0x40000000).rat ∧
    ((∀ p ∈ ([(.fin false 1 0, .fin true 3 (-1))] : List (FVal × FVal)), p.1.isNan = false ∧ p.1.isInf = false ∧ p.2.isNan = false ∧ p.2.isInf = false) ∧
      (e5m3.decode scaleOne).isNan = false ∧ (e5m3.decode scaleOne).isInf = false ∧
      ∃ p ∈ ([(.nan false, .fin true 3 (-1))] : List (FVal × FVal)), p.1.isNan = true ∨ p.2.isNan = true) := by
  unfold Fmt.Finite
  refine ⟨by decide, by decide, by decide, ?_, by decide⟩
  rw [show fp32.decode 0x40000000 = .fin false 8388608 (-22) by decide]
  norm_num [FVal.rat]

theorem witness_IntegerOnesComplete :
    Meets (demo .exe) (useT2 ⟨.v 111, .v 111, 0, false, false⟩ true) (fun _ => True) ∧
    Meets (demo .exe) (useT2n ⟨31, .v 0, .v 1, 0, false, false⟩ true) (fun _ => True) ∧
    Meets (demo .exe) (useT2n ⟨1, .v 0, .v 1, 0, false, false⟩ true) (fun _ => True) ∧
    Meets (demo .acc) (useTI ⟨0x100, .v 0, .v 1, false, false⟩) (fun _ => True) ∧
    Meets (demo .acc) (useTIs ⟨31, .v 0, .v 1, false, false⟩) (fun _ => True) :=
  ⟨meets (by decide), meets (by decide), meets (by decide), meets (by decide), meets (by decide)⟩

theorem witness_DestinationSourcesComplete :
    Meets (demo .exe) (useT3d ⟨.v 5, .v 6, .v 7, 0, false⟩ true) (fun _ => True) ∧
    Meets (demo .exe) (useT2d ⟨.v 5, .v 6, 0, false⟩ true) (fun _ => True) ∧
    Meets (demo .acc) ⟨legalTLd ⟨0xFFFF, .v 5, false⟩, true, true, [], [5], .v 5, 0, false, 4, []⟩ (fun _ => True) :=
  ⟨meets (by decide), meets (by decide), meets (by decide)⟩

/-- A stream whose guard slot 1 is bound to p0, which holds `m`. -/
def guarded (m : Mask) (st : Stream) : Stream := { st with guards := [(1, ⟨0, false⟩)], preds := [(0, m)] }

theorem witness_MovesComplete :
    Meets (demo .exe) (useT2 ⟨.v 5, .laneid, 0, false, false⟩ true) (fun _ => True) ∧
    Meets (demo .exe) (useMovH16 ⟨27, 31, false⟩) (fun _ => True) ∧
    Meets (demo .acc) ⟨legalTL ⟨0xFFFF, .v 0, false, true⟩, true, true, [], [], .v 0, 0, true, 4, []⟩ (fun _ => True) ∧
    Meets (demoSt .exe (guarded 0xFFFF)) { useT3 ⟨.v 5, .v 6, .v 7, 1, false, false⟩ true with legal := legalSel ⟨.v 5, .v 6, .v 7, 1, false, false⟩ }
      (fun c => c.act ≠ Mask.full) :=
  ⟨meets (by decide), meets (by decide), meets (by decide), meets (by decide)⟩

/-- Every lane of equal source words raises `fl`, when lane 0 does. -/
theorem flagsOf_uniform (c : Ctx) (vs : List RVal) (f : List Word → BitVec 6) (ws : List Word) (hv : vs = ws.map RVal.ofWord)
    (ha : c.act.getLsbD 0 = true) : c.FlagsOf vs f (f ws) := by
  have hl : ∀ l, vs.map (·.lane l) = ws := by
    intro l; subst hv; simp [RVal.ofWord, RVal.lane, Vec.lane, Function.comp_def]
  intro k
  simp only [hl]
  exact ⟨fun h => ⟨0, by decide, ha, h⟩, fun ⟨_, _, _, h⟩ => h⟩

/-- One use of each floating-point form: no flag raised with sources of 0 (an addition, a conversion), and a division by zero
that nothing enables (frcp) with latency 12. -/
theorem witness_FloatingPointComplete :
    (∀ e ∈ ([(useT3 ⟨.v 5, .v 6, .v 7, 0, false, false⟩ false, false), (useH16 ⟨6, 5, true⟩ false, false),
        (useT3d ⟨.v 5, .v 6, .v 7, 0, false⟩ false, true), (useCvt ⟨0, 0, .v 5, .v 6, 0, false, false⟩, false),
        (useCvt ⟨5, 3, .q 6, .v 6, 0, false, false⟩, false), (useT2r ⟨3, .v 5, .v 6, 0, false, false⟩, false)] : List (Use × Bool)),
      Meets (demo .exe) e.1 (fun c => c.sources e.2 = (c.sources e.2).map fun _ => RVal.ofWord 0) ∧ ((demo .exe).see e.1).Quiet 0) ∧
    (let c := (demo .exe).see (useT3 ⟨.v 5, .v 6, .v 7, 0, false, false⟩ false);
      FpForm (.fadd ⟨.v 5, .v 6, .v 7, 0, false, false⟩) c.use 4 false (fun ws => (fp32.add (ws.getD 0 0).toNat (ws.getD 1 0).toNat).lane) ∧
      c.FlagsOf (c.sources false) (fun ws => (fp32.add (ws.getD 0 0).toNat (ws.getD 1 0).toNat).lane.2) 0) ∧
    (let c := (demo .exe).see (useT2 ⟨.v 5, .v 6, 0, false, false⟩ false);
      FpForm (.frcp ⟨.v 5, .v 6, 0, false, false⟩) c.use 12 false (fun ws => (frcpRes (ws.getD 0 0).toNat).lane) ∧
      c.Issues (demo .exe) ∧ c.FlagsOf (c.sources false) (fun ws => (frcpRes (ws.getD 0 0).toNat).lane.2) fDZ ∧ c.Quiet fDZ) := by
  refine ⟨?_, ⟨FpForm.pair (.fadd, fun a b => (fp32.add a.toNat b.toNat).lane) (by simp [fpPairs]) _, ?_⟩,
    ⟨FpForm.special (.frcp, fun a => (frcpRes a.toNat).lane) (by simp [specialFns]) _, State.issues_of _ _ (by decide), ?_, by unfold Ctx.Quiet; decide⟩⟩
  · intro e he
    simp only [List.mem_cons, List.mem_nil_iff, or_false] at he
    rcases he with rfl | rfl | rfl | rfl | rfl | rfl <;> exact ⟨meets (by decide), by unfold Ctx.Quiet; decide⟩
  · exact flagsOf_uniform _ _ _ [0, 0] (by decide) (by decide)
  · exact flagsOf_uniform _ _ _ [0] (by decide) (by decide)

/-- frcp of 0 with DIV enabled. -/
theorem witness_ArithmeticTrapTaken :
    let s := demoOf .exe { placedWarp 0 with fflags := 0x3F00 } (placedGrid 0)
    let c := s.see (useT2 ⟨.v 5, .v 6, 0, false, false⟩ false);
    FpForm (.frcp ⟨.v 5, .v 6, 0, false, false⟩) c.use 12 false (fun ws => (frcpRes (ws.getD 0 0).toNat).lane) ∧
    c.Issues s ∧ c.FlagsOf (c.sources false) (fun ws => (frcpRes (ws.getD 0 0).toNat).lane.2) fDZ ∧ ¬ c.Quiet fDZ := by
  refine ⟨FpForm.special (.frcp, fun a => (frcpRes a.toNat).lane) (by simp [specialFns]) _, State.issues_of _ _ (by decide), ?_, by unfold Ctx.Quiet; decide⟩
  exact flagsOf_uniform _ _ _ [0] (by decide) (by decide)

/-- The signalling NaN in v6 (R305). -/
def nanIn6 (fflags : Word) : State :=
  demoOf .exe { demoWarp (fun st => { st with regs := [(6, RVal.ofWord 0x7F800001)] }) with fflags := fflags } (placedGrid 0)

theorem witness_PredicatesComplete :
    Meets (demo .acc) (useTC ⟨true, 47, 7, .v 0, .zero, false⟩ true (legalTC ⟨true, 47, 7, .v 0, .zero, false⟩)) (fun _ => True) ∧
    Meets (demo .exe) (useTC ⟨false, 0, 2, .v 0, .zero, false⟩ true (legalIcmpu ⟨false, 0, 2, .v 0, .zero, false⟩)) (fun _ => True) ∧
    Meets (demo .exe) (useTC ⟨false, 0, 5, .v 0, .zero, false⟩ true (legalIcmpu ⟨false, 0, 5, .v 0, .zero, false⟩)) (fun _ => True) ∧
    Meets (demo .exe) (useTCi ⟨false, 0, 5, .laneid, 0x40, true⟩) (fun _ => True) ∧
    Meets (demo .exe) (useTC ⟨false, 0, 0, .v 6, .v 7, false⟩ false (legalTC ⟨false, 0, 0, .v 6, .v 7, false⟩)) (fun c =>
      ∀ l, l < 32 → c.act.getLsbD l = true → (fcond 0 ((c.val 0).lane l) ((c.val 1).lane l)).2 = 0) ∧
    Meets (nanIn6 0) (useTC ⟨false, 0, 0, .v 6, .v 7, false⟩ false (legalTC ⟨false, 0, 0, .v 6, .v 7, false⟩)) (fun c =>
      (∃ l, l < 32 ∧ c.act.getLsbD l = true ∧ (fcond 0 ((c.val 0).lane l) ((c.val 1).lane l)).2 = fNV) ∧ enabledFlags c.w.fflags fNV = 0) ∧
    Meets (nanIn6 0x100) (useTC ⟨false, 0, 0, .v 6, .v 7, false⟩ false (legalTC ⟨false, 0, 0, .v 6, .v 7, false⟩)) (fun c =>
      (∃ l, l < 32 ∧ c.act.getLsbD l = true ∧ (fcond 0 ((c.val 0).lane l) ((c.val 1).lane l)).2 = fNV) ∧ enabledFlags c.w.fflags fNV ≠ 0) ∧
    Meets (demo .acc) ⟨legalPP ⟨true, 47, 0, 0, false⟩, true, true, [], [], .discard, 0, false, 4, []⟩ (fun _ => True) ∧
    Meets (demo .exe) ⟨legalP2 ⟨0, 47, 0, true⟩, true, true, [], [], .discard, 0, true, 4, []⟩ (fun _ => True) ∧
    Meets (demo .exe) ⟨legalGB ⟨3, 47, false⟩, true, true, [], [], .discard, 0, false, 4, []⟩ (fun _ => True) ∧
    Meets (demoSt .exe (guarded 0x80000000)) ⟨legalPV ⟨.q 7, 0, 1, false, false⟩, true, true, [], [], .q 7, 1, false, 4, []⟩ (fun _ => True) :=
  ⟨meets (by decide), meets (by decide), meets (by decide), meets (by decide), meets (by decide), meets (by decide),
   meets (by decide), meets (by decide), meets (by decide), meets (by decide), meets (by decide)⟩

theorem witness_CrossLaneComplete :
    Meets (demo .exe) (useT2n ⟨31, .v 5, .laneid, 0, false, false⟩ false) (fun c => (c.val 0).marks = []) ∧
    Meets (demo .exe) (useT2d ⟨.v 5, .laneid, 0, false⟩ false) (fun c => (c.val 0).marks = []) ∧
    Meets (demoSt .exe (guarded 0x80000000)) (useT2 ⟨.v 5, .laneid, 1, false, false⟩ false) (fun c =>
      c.act.getLsbD 31 = true ∧ (∀ l, l < 31 → c.act.getLsbD l = false) ∧ ∀ e ∈ (c.val 0).marks, e.1 ≠ 31) ∧
    Meets (demoSt .exe (guarded 0)) (useT2 ⟨.v 5, .laneid, 1, false, false⟩ false) (fun c => c.act = 0) ∧
    Meets (demo .exe) ⟨legalPV ⟨.v 0, 47, 0, false, false⟩, false, true, [], [], .v 0, 0, false, 4, []⟩ (fun _ => True) ∧
    Meets (demo .exe) ⟨legalP2 ⟨47, 0, 0, false⟩, false, true, [], [], .discard, 0, false, 4, []⟩ (fun _ => True) ∧
    -- a marked lane that no active lane reads: lane 31 of a shift up by one, and of an index of 0 in every lane
    (let s := demoSt .exe fun st => { st with regs := [(6, ⟨.g [], [(31, .access)]⟩)] }
     (let c := s.see (useT2n ⟨1, .v 5, .v 6, 0, false, false⟩ false)
      c.Issues s ∧ (∀ l, l < 32 → c.act.getLsbD l = true → (c.val 0).marks.find? (if 1 ≤ l then l - 1 else l) = none) ∧
        ∀ e ∈ (c.val 0).marks, e.1 < 32) ∧
     (let c := s.see (useT2d ⟨.v 5, .v 6, 0, false⟩ false)
      c.Issues s ∧ (∀ l, l < 32 → c.act.getLsbD l = true → (c.val 0).marks.find? (((c.dval (.v 5)).lane l).toNat % 32) = none) ∧
        ∀ e ∈ (c.val 0).marks, e.1 < 32)) :=
  ⟨meets (by decide), meets (by decide), meets (by decide), meets (by decide), meets (by decide), meets (by decide),
   ⟨State.issues_of _ _ (by decide), by decide, by decide⟩, ⟨State.issues_of _ _ (by decide), by decide, by decide⟩⟩

theorem witness_ReductionsComplete :
    Meets (demo .exe) (useT2o ⟨0, .v 5, .laneid, 0, false, false⟩) (fun c => enabledFlags c.w.fflags (reduceLanes 0 c.act (c.val 0)).2 = 0) ∧
    Meets (demo .exe) (useT2o ⟨10, .v 5, .v 6, 0, false, false⟩) (fun c => enabledFlags c.w.fflags (scanLanes 10 c.act (c.val 0)).2 = 0) ∧
    ((∀ l, l < 32 → (0x80000001 : Mask).getLsbD l = true → (RVal.ofWord 7).lane l = (RVal.ofWord 7).lane 0) ∧ (0x80000001 : Mask) ≠ 0) ∧
    -- a sum of signalling NaNs with the invalid-operation trap enabled
    Meets (nanIn6 0x100) (useT2o ⟨8, .v 5, .v 6, 0, false, false⟩) (fun c =>
      enabledFlags c.w.fflags (reduceLanes 8 c.act (c.val 0)).2 ≠ 0 ∧ enabledFlags c.w.fflags (scanLanes 8 c.act (c.val 0)).2 ≠ 0) :=
  ⟨meets (by decide +kernel), meets (by decide +kernel), by decide, meets (by decide +kernel)⟩

/-- Where the one code unit starts. -/
abbrev code0 : Nat := 6160384

theorem witness_TransfersComplete :
    Meets (demoSt .exe (guarded 0)) (useXfer true [] 1) (fun c => c.st.mask &&& c.st.guardMask 1 = 0) ∧
    Meets (demoSt .exe (guarded 0)) (useXfer (legalAG ⟨.v 6, 1⟩) [.v 6] 1) (fun c => c.st.mask &&& c.st.guardMask 1 = 0) ∧
    Meets (demoSt .exe fun st => { guarded 1 st with stack := List.replicate 15 ⟨true, Mask.full, code0⟩ }) (useXfer true [] 1) (fun c =>
      c.st.mask &&& c.st.guardMask 1 ≠ 0 ∧ ((code0 + 2 : Nat) : Int) = c.st.pc + 2 * (1 : BitVec 21).toInt ∧ c.g.inCode (code0 + 2) = true ∧
      c.st.stack.length < 16) ∧
    Meets (demoRegs .exe [(6, BitVec.ofNat 32 (code0 + 2))]) (useXfer (legalAG ⟨.v 6, 0⟩) [.v 6] 0) (fun c =>
      (c.lane0 0).toNat % 2 = 0 ∧ c.g.inCode (c.lane0 0).toNat = true) ∧
    Meets (demoSt .exe fun st => { st with stack := [⟨true, 5, code0⟩] }) (useXfer true [] 0) (fun c =>
      c.st.stack = ⟨true, 5, code0⟩ :: [] ∧ c.g.inCode code0 = true ∧ code0 % 2 = 0) :=
  ⟨meets (by decide), meets (by decide), meets (by decide), meets (by decide), meets (by decide)⟩

theorem witness_DivergenceComplete :
    Meets (demoSt .exe fun st => { guarded 1 st with stack := List.replicate 15 ⟨false, 1, 0⟩ })
      ⟨legalSpl ⟨.v 6, 1, false⟩, true, true, [.v 6], [], .discard, 1, false, 4, []⟩ (fun c => c.st.stack.length < 16) ∧
    Meets (demoSt .exe fun st => { st with stack := [⟨false, 5, code0⟩] }) (useE0 ⟨false⟩) (fun c => c.st.stack = ⟨false, 5, c.st.pc⟩ :: []) ∧
    Meets (demo .acc) (useXfer true [] 0) (fun _ => True) ∧
    Meets (demoSt .exe (guarded 0x80000000)) (useXfer true [] 1) (fun c => c.st.mask &&& c.st.guardMask 1 ≠ 0) ∧
    Meets (demo .exe) (useE0 ⟨true⟩) (fun _ => True) :=
  ⟨meets (by decide), meets (by decide), meets (by decide), meets (by decide), meets (by decide)⟩

/-- All lanes may access `n` bytes at the word of the first source. -/
def ScratchB (s : State) (c : Ctx) (write aligned : Bool) (n : Nat) : Prop :=
  (c.val 0).v = .u ((c.val 0).lane 0) ∧ laneOk c.g (s.logical c.w) write aligned n ((c.val 0).lane 0) = true

theorem scratchOk_of {s : State} {c : Ctx} {w a : Bool} {n : Nat} (h : ScratchB s c w a n) : c.ScratchOk s w a n := by
  intro l _ _
  have : (c.val 0).lane l = (c.val 0).lane 0 := by
    rw [RVal.lane, h.1]; rfl
  rw [this]; exact h.2

theorem meetsScratch {s : State} {u : Use} {w a : Bool} {n : Nat} (h : Meets s u (fun _ => True))
    (h2 : ScratchB s (s.see u) w a n) : Meets s u (fun c => c.ScratchOk s w a n) := ⟨h.1, h.2.1, h.2.2.1, h.2.2.2.1, scratchOk_of h2⟩

/-- The last bytes of the grid's four units, in each size. -/
theorem witness_ScratchLoadsComplete :
    Meets (demoRegs .exe [(6, 262140)]) ⟨legalLds ⟨4, .v 5, .v 6, 0, false, false⟩, true, true, [.v 6], [], .v 5, 0, false, 4, []⟩
      (fun c => c.ScratchOk (demoRegs .exe [(6, 262140)]) false false 4) ∧
    Meets (demoRegs .acc [(6, 262143)]) ⟨legalLds ⟨1, .q 0, .v 6, 0, false, true⟩, true, true, [.v 6], [], .q 0, 0, true, 4, []⟩
      (fun c => c.ScratchOk (demoRegs .acc [(6, 262143)]) false false 1) ∧
    Meets (demoRegs .exe [(6, 262136)]) { useT2d ⟨.v 4, .v 6, 0, false⟩ true with regs := [4 + 1], spare := [4 + 1] }
      (fun c => c.ScratchOk (demoRegs .exe [(6, 262136)]) false false 8) :=
  ⟨meetsScratch (meets (by decide)) (by unfold ScratchB; decide), meetsScratch (meets (by decide)) (by unfold ScratchB; decide),
   meetsScratch (meets (by decide)) (by unfold ScratchB; decide)⟩

/-- No entry of a warp without queues has a number. -/
theorem noEntries {w : Warp} (h : w.queues = []) (n : Nat) : ∀ q, ∀ r ∈ w.queue q, r.rid ≠ n := by
  intro q r hr
  rw [Warp.queue, h] at hr
  cases hr

/-- The same, and states in which no lane is active. -/
theorem witness_ScratchStoresComplete :
    (let s := demoRegs .acc [(6, 262140)]
     Meets s ⟨legalSt ⟨.v 6, .v 7, 0, false⟩, true, true, [.v 6, .v 7], [], .discard, 0, false, 4, []⟩ (fun c => c.ScratchOk s true false 4) ∧
     Meets s ⟨legalStsw ⟨.v 6, .v 8, 0, false⟩, true, true, [.v 0, .v 8], [8, 9], .discard, 0, false, 4, []⟩ (fun c => c.ScratchOk s true false 8) ∧
     Meets s ⟨legalAts ⟨.q 5, .v 6, .v 8, 0, false⟩, true, true, [.v 6, .v 8], [], .q 5, 0, false, 4, []⟩ (fun c => c.ScratchOk s true true 4) ∧
     Meets s ⟨legalAts ⟨.discard, .v 6, .v 8, 7, false⟩, true, true, [.v 6, .v 8], groupRegs (.v 6) 1, .discard, 0, false, 4, []⟩
       (fun c => c.ScratchOk s true true 4)) ∧
    (let s := demoSt .exe (guarded 0)
     Meets s ⟨legalSt ⟨.v 6, .v 7, 1, false⟩, true, true, [.v 6, .v 7], [], .discard, 1, false, 4, []⟩
       (fun c => c.act = 0 ∧ ∀ n, c.ScratchOk s true false n)) ∧
    (∀ d ∈ [Dst.discard, Dst.q 5], let s := demoSt .acc fun st => { st with mask := 0 }
     Meets s ⟨legalAts ⟨d, .v 6, .v 8, 7, false⟩, true, true, [.v 6, .v 8], groupRegs (.v 6) 1, d, 0, false, 4, []⟩
       (fun c => c.act = 0 ∧ c.w.queues = [] ∧ ∀ l ∈ c.w.landings, l.id ≠ s.fresh)) := by
  refine ⟨⟨meetsScratch (meets (by decide)) (by unfold ScratchB; decide), meetsScratch (meets (by decide)) (by unfold ScratchB; decide),
    meetsScratch (meets (by decide)) (by unfold ScratchB; decide), meetsScratch (meets (by decide)) (by unfold ScratchB; decide)⟩, ?_, ?_⟩
  rotate_left
  · intro d hd
    simp only [List.mem_cons, List.mem_nil_iff, or_false] at hd
    rcases hd with rfl | rfl <;> exact meets (by decide)
  have h : Meets (demoSt .exe (guarded 0)) ⟨legalSt ⟨.v 6, .v 7, 1, false⟩, true, true, [.v 6, .v 7], [], .discard, 1, false, 4, []⟩ (fun c => c.act = 0) :=
    meets (by decide)
  exact ⟨h.1, h.2.1, h.2.2.1, h.2.2.2.1, h.2.2.2.2, fun n l _ hl => by rw [h.2.2.2.2] at hl; simp at hl⟩

/-- A state whose grid has one window page of 64 KiB at virtual and physical address 0, the access stream's v6 holding `w`. -/
def demoHbm (w : Word) : State :=
  demoOf .acc (demoWarp fun st => { st with regs := [(6, RVal.ofWord w)] }) { placedGrid 0 with pages := [(0, ⟨0, 65536, 0, true⟩)] }

theorem hbmOk_of {c : Ctx} {s : State} {lo hi n : Nat} {ap wr : Bool} {p : Nat} (h1 : hbmAddrOk n ap (RVal.ofWord (BitVec.ofNat 32 lo)) (RVal.ofWord (BitVec.ofNat 32 hi)) 0 = true)
    (h2 : s.xlate c.w c.g (pairVa (RVal.ofWord (BitVec.ofNat 32 lo)) (RVal.ofWord (BitVec.ofNat 32 hi)) 0) = .pa p true)
    (h3 : (s.hbmOutstanding c.w.core).length < 1024) :
    c.HbmOk s (RVal.ofWord (BitVec.ofNat 32 lo)) (RVal.ofWord (BitVec.ofNat 32 hi)) n ap wr (fun _ => p) :=
  ⟨fun _ _ _ => h1, fun _ _ _ _ => ⟨true, h2, fun _ => rfl⟩, h3⟩

/-- The last bytes of the page. -/
theorem witness_HbmLoadsComplete :
    let s := demoHbm 65532
    let u : Use := ⟨legalLdg ⟨0, .q 5, .v 6, 0, false⟩, true, false, [.v 6], groupRegs (.v 6) 1, .q 5, 0, false, 4, []⟩
    Meets s u (fun c => c.group (.v 6) 1 = [RVal.ofWord 65532, RVal.ofWord 0] ∧ c.act ≠ 0) ∧
    (s.see u).HbmOk s (RVal.ofWord 65532) (RVal.ofWord 0) 4 true false (fun _ => 65532) :=
  ⟨meets (by decide), hbmOk_of (by decide) (by decide) (by decide)⟩

theorem witness_HbmStoresComplete :
    (let s := demoHbm 65532;
     let u : Use := ⟨legalStg ⟨.v 6, .v 8, 0, false⟩, true, false, [.v 6, .v 8], groupRegs (.v 6) 1, .discard, 0, false, 4, []⟩;
     Meets s u (fun c => c.group (.v 6) 1 = [RVal.ofWord 65532, RVal.ofWord 0] ∧ c.act ≠ 0) ∧
     (s.see u).HbmOk s (RVal.ofWord 65532) (RVal.ofWord 0) 4 false true (fun _ => 65532)) ∧
    (∀ d ∈ [Dst.discard, Dst.q 5], let s := demoHbm 65532;
     let u : Use := ⟨legalAtg ⟨d, .v 6, .v 9, 7, false⟩, true, false, [.v 6, .v 9], groupRegs (.v 6) 2, d, 0, false, 4, []⟩;
     Meets s u (fun c => c.group (.v 6) 2 = [RVal.ofWord 65532, RVal.ofWord 0, RVal.ofWord 0] ∧ c.act ≠ 0) ∧
     (s.see u).HbmOk s (RVal.ofWord 65532) (RVal.ofWord 0) 4 false true (fun _ => 65532)) ∧
    Meets (demoSt .acc (guarded 0)) ⟨legalStg ⟨.v 6, .v 8, 1, false⟩, true, false, [.v 6, .v 8], groupRegs (.v 6) 1, .discard, 1, false, 4, []⟩
      (fun c => ((demoSt .acc (guarded 0)).hbmOutstanding c.w.core).length < 1024 ∧ c.act = 0) ∧
    (∀ d ∈ [Dst.discard, Dst.q 5], let s := demoSt .acc fun st => { st with mask := 0 }
     Meets s ⟨legalAtg ⟨d, .v 6, .v 9, 7, false⟩, true, false, [.v 6, .v 9], groupRegs (.v 6) 2, d, 0, false, 4, []⟩
       (fun c => (s.hbmOutstanding c.w.core).length < 1024 ∧ c.act = 0 ∧ c.w.queues = [] ∧ ∀ l ∈ c.w.landings, l.id ≠ s.fresh)) := by
  refine ⟨⟨meets (by decide), hbmOk_of (by decide) (by decide) (by decide)⟩, ?_, meets (by decide), ?_⟩
  rotate_left
  · intro d hd
    simp only [List.mem_cons, List.mem_nil_iff, or_false] at hd
    rcases hd with rfl | rfl <;> exact meets (by decide)
  intro d hd
  simp only [List.mem_cons, List.mem_nil_iff, or_false] at hd
  rcases hd with rfl | rfl <;> exact ⟨meets (by decide), hbmOk_of (by decide) (by decide) (by decide)⟩

/-- A state with set slot 0 naming set 0. -/
def demoSet (x : Strm) (f : Stream → Stream) (g : Grid → Grid) : State :=
  demoOf x { demoWarp f with setslots := [0, 255, 255, 255] } (g (placedGrid 0))

theorem witness_QueueStatusAndMessages :
    Meets (demo .acc) ⟨legalQS ⟨7, .v 5, false, false⟩, true, true, [], [], .v 5, 0, false, 4, []⟩ (fun c => (c.w.startQueue 7 100).length < 16) ∧
    (∀ e ∈ ([(255, true), (256, false)] : List (Word × Bool)),
      Meets (demoRegs .exe [(7, e.1)]) ⟨legalSnd ⟨.v 6, .v 7, false⟩, true, true, [.v 6, .v 7], [], .discard, 0, false, 4, []⟩ (fun c =>
        (c.val 0).marks = [] ∧ (decide ((c.lane0 1).toNat < shapeCores ((demoRegs .exe [(7, e.1)]).tenant c.w.part).shape) = e.2))) ∧
    Meets (demoSet .exe id id) ⟨legalSndm ⟨0, .v 6, false⟩, true, true, [.v 6], [], .discard, 0, false, 4, []⟩ (fun c =>
      (c.val 0).marks = [] ∧ c.w.setOf (0 : BitVec 2).toNat ≠ 255) := by
  refine ⟨meets (by decide), ?_, meets (by decide)⟩
  intro e he
  simp only [List.mem_cons, List.mem_nil_iff, or_false] at he
  rcases he with rfl | rfl <;> exact meets (by decide)

/-- Set 0 with `n` arrivals of the warp's execute stream and its phase `p` released on tick 100. -/
def arrived (n p : Nat) (g : Grid) : Grid :=
  { g with arrivals := [(arrivalKey 0 .exe 0, n)], phases := [(phaseKey 0 .exe p, ⟨1, 76, some 100⟩)] }

theorem witness_BarriersComplete :
    -- the first arrival; the third, the first phase released; one whose grant stands
    Meets (demoSet .exe id id) (useN2 ⟨0, false⟩) (fun c => c.w.setOf 0 = 0 ∧ (0 : Nat) ≠ 255 ∧ c.st.granted = false ∧
      c.g.arrivals.get 0 (arrivalKey ((demoSet .exe id id).wid c.w) c.x 0) = 0) ∧
    Meets (demoSet .exe id (arrived 2 0)) (useN2 ⟨0, false⟩) (fun c => c.st.granted = false ∧
      c.g.arrivals.get 0 (arrivalKey ((demoSet .exe id (arrived 2 0)).wid c.w) c.x 0) = 2 ∧ c.g.releasedBy 0 c.x (2 - 2) c.now = true ∧
      -- waitb on the second phase, which is not released
      c.g.releasedBy 0 c.x (2 - 1) c.now = false) ∧
    Meets (demoSet .exe id (arrived 1 0)) (useN2 ⟨0, true⟩) (fun c =>
      c.g.arrivals.get 0 (arrivalKey ((demoSet .exe id (arrived 1 0)).wid c.w) c.x 0) = 1 ∧ c.g.releasedBy 0 c.x (1 - 1) c.now = true) ∧
    Meets (demoSet .exe (fun st => { st with granted := true }) id) (useN2 ⟨0, false⟩) (fun c => c.st.granted = true) :=
  ⟨meets (by decide), meets (by decide), meets (by decide), meets (by decide)⟩

/-- waitc at the last counter of the grid's units, with target 0 and target 1. -/
theorem witness_WaitsAndFencesComplete_waits :
    (∀ e ∈ ([(0, true), (1, false)] : List (Word × Bool)),
      Meets (demoRegs .exe [(6, 262136), (7, e.1)]) (useA1 ⟨.v 6, false⟩ 2 (legalGroup ⟨.v 6, false⟩)) (fun c =>
        let s := demoRegs .exe [(6, 262136), (7, e.1)]
        let a := (wordCells c.w.core 8 262136).headD 0
        c.word (.v 6) 2 0 = 262136 ∧ 262136 % 8 = 0 ∧ laneOk c.g (s.logical c.w) false false 8 262136 = true ∧
        s.firstMark ((List.range 8).map (a + ·)) = none ∧ c.st.granted = false ∧
        decide (c.word (.v 6) 2 1 + c.word (.v 6) 2 2 * 2 ^ 32 ≤ s.natAt a 8) = e.2)) ∧
    Meets (demoHbm 65528) { useA1 ⟨.v 6, false⟩ 3 (legalGroup ⟨.v 6, false⟩) with inExe := false } (fun c =>
      let s := demoHbm 65528
      c.word (.v 6) 3 1 < 2 ^ 20 ∧ c.word (.v 6) 3 0 = 65528 ∧ 65528 % 8 = 0 ∧ c.g.window c.w.core 65528 = some ⟨0, 65536, 0, true⟩ ∧
      (⟨0, 65536, 0, true⟩ : Page).translate 65528 = some 65528 ∧ s.firstMark ((List.range 8).map (65528 + ·)) = none ∧
      c.word (.v 6) 3 2 + c.word (.v 6) 3 3 * 2 ^ 32 ≤ s.natAt 65528 8) ∧
    Meets (demoOf .acc (demoWarp fun st => { st with regs := [(6, RVal.ofWord 65528), (8, RVal.ofWord 1)] })
        { placedGrid 0 with pages := [(0, ⟨0, 65536, 0, true⟩)] }) { useA1 ⟨.v 6, false⟩ 3 (legalGroup ⟨.v 6, false⟩) with inExe := false } (fun c =>
      (demoHbm 65528).natAt 65528 8 < c.word (.v 6) 3 2 + c.word (.v 6) 3 3 * 2 ^ 32 ∧ c.st.granted = false) ∧
    -- waitt on this tick, 8 and 9 ticks ahead, and too late
    (∀ t ∈ ([100, 108, 109, 99] : List Word),
      Meets (demoRegs .exe [(6, t)]) (useA1 ⟨.v 6, false⟩ 1 (legalGroup ⟨.v 6, false⟩)) (fun c =>
        c.word (.v 6) 1 0 + c.word (.v 6) 1 1 * 2 ^ 32 = t.toNat ∧ c.st.granted = false ∧ c.now = 100 ∧ c.g.hdr.ds = 0 ∧ c.g.hdr.pod = false)) ∧
    -- late in a POD grid
    Meets (demoOf .exe (demoWarp fun st => { st with regs := [(6, RVal.ofWord 99)] }) { placedGrid 0 with hdr := { placedHeader with flags := 1 } })
      (useA1 ⟨.v 6, false⟩ 1 (legalGroup ⟨.v 6, false⟩)) (fun c =>
        c.word (.v 6) 1 0 + c.word (.v 6) 1 1 * 2 ^ 32 = 99 ∧ c.st.granted = false ∧ c.now = 100 ∧ c.g.hdr.ds = 0 ∧ c.g.hdr.pod = true) := by
  refine ⟨?_, meets (by decide), meets (by decide), ?_, meets (by decide)⟩
  · intro e he
    simp only [List.mem_cons, List.mem_nil_iff, or_false] at he
    rcases he with rfl | rfl <;> exact meets (by decide)
  · intro t ht
    simp only [List.mem_cons, List.mem_nil_iff, or_false] at ht
    rcases ht with rfl | rfl | rfl | rfl <;> exact meets (by decide)

/-- A warp whose writes of its own scope complete by tick `h`, with the fabric failures `fs`. -/
def fencing (h : Nat) (fs : List Nat) : State := demoOf .acc { placedWarp 0 with mWarp := h, failed := fs } (placedGrid 0)

theorem witness_WaitsAndFencesComplete_fences :
    (∀ e ∈ ([(100, []), (100, [100]), (108, []), (109, [])] : List (Nat × List Nat)),
      Meets (fencing e.1 e.2) { useN2 ⟨0, false⟩ with inExe := false } (fun c =>
        c.st.granted = false ∧ c.now = 100 ∧ (fencing e.1 e.2).fenceH c.key c.now 0 (c.w.markBefore 0 c.now) = some e.1 ∧ c.w.failed = e.2 ∧ c.w.faulted = [])) ∧
    (∀ m ∈ ([0x10000, 0x8000] : List Word),
      Meets (demoRegs .exe [(6, m)]) (useA1 ⟨.v 6, false⟩ 0 (legalA1 ⟨.v 6, false⟩)) (fun c => (c.lane0 0).toNat % 2 ^ 16 = m.toNat % 2 ^ 16)) := by
  refine ⟨?_, ?_⟩
  · intro e he
    simp only [List.mem_cons, List.mem_nil_iff, or_false] at he
    rcases he with rfl | rfl | rfl | rfl <;> exact meets (by decide)
  · intro t ht
    simp only [List.mem_cons, List.mem_nil_iff, or_false] at ht
    rcases ht with rfl | rfl <;> exact meets (by decide)

/-- Quarter 0 alone is active, and every element of its product is 0 and raises nothing. -/
theorem witness_MatrixMultiplyComplete :
    ∀ e ∈ ([false, true] : List Bool),
      let s := demoSt .exe fun st => { st with mask := 0xFF, regs := [(11, RVal.ofWord 0x688688)] }
      let o : TM := ⟨0, 3, 7, .v 8, .v 12, 0, false⟩
      Meets s (useTM o e) (fun c => (s.fe c.feKey).busyUntil ≤ c.now ∧ c.mmChecks s o e (c.w.fmt 6) (c.w.fmt 7) = none ∧
        (c.mmResults s o e).length = 1 ∧ ∀ r ∈ c.mmResults s o e, ∀ x ∈ r.2, x.fl = 0) := by
  intro e he
  simp only [List.mem_cons, List.mem_nil_iff, or_false] at he
  rcases he with rfl | rfl <;> exact meets (by decide +kernel)

/-- The same with codes of 1 and one element at the largest integer, all flags enabled: the sum leaves INT32. -/
theorem witness_MatrixMultiplyComplete_trap :
    ∀ e ∈ ([false, true] : List Bool),
      let s := { demoOf .exe { (demoWarp fun st => { st with mask := 0xFF, regs := [(11, RVal.ofWord 0x688688)] }) with
        fflags := 0x3F00, accs := [(7 * 256, 0x7FFFFFFF)] } (placedGrid 0) with mem := [(scratchBase 0, 1)] }
      let o : TM := ⟨0, 3, 7, .v 8, .v 12, 0, false⟩
      Meets s (useTM o e) (fun c => (s.fe c.feKey).busyUntil ≤ c.now ∧ c.mmChecks s o e (c.w.fmt 6) (c.w.fmt 7) = none ∧
        (∃ r ∈ c.mmResults s o e, ∃ x ∈ r.2, x.fl = fIOV) ∧ (∀ r ∈ c.mmResults s o e, ∀ x ∈ r.2, x.fl = 0 ∨ x.fl = fIOV) ∧
        enabledFlags c.w.fflags fIOV ≠ 0) := by
  intro e he
  simp only [List.mem_cons, List.mem_nil_iff, or_false] at he
  rcases he with rfl | rfl <;> exact meets (by decide +kernel)

theorem witness_AccumulatorAccessComplete :
    Meets (demo .exe) ⟨true, false, true, [], [], .discard, 0, false, 4, []⟩ (fun c => ((demo .exe).fe c.feKey).busyUntil ≤ c.now) ∧
    Meets (demo .exe) ⟨legalAccwr ⟨7, .v 104, false⟩, false, true, [.v 104], groupRegs (.v 104) 7, .discard, 0, false, 4, []⟩
      (fun c => ((demo .exe).fe c.feKey).busyUntil ≤ c.now) ∧
    Meets (demo .exe) ⟨legalAccrd ⟨7, .v 104, 0, false⟩, false, true, [], dstGroup (.v 104) 8, .v 104, 0, false, 4, dstGroup (.v 104) 8⟩
      (fun c => ((demo .exe).fe c.feKey).busyUntil ≤ c.now) ∧
    Meets (demo .exe) { useT2d ⟨.v 110, .v 6, 0, false⟩ false with regs := [111], spare := [111] } (fun c => (c.val 0).marks = []) ∧
    (∀ e ∈ ([(0x108, true), (0, false)] : List (Word × Bool)),
      Meets (demoRegs .exe [(6, e.1)]) ⟨legalNA ⟨7, .v 6, false⟩, false, true, [.v 6], [], .discard, 0, false, 4, []⟩
        (fun c => Narrow.validWord (c.lane0 0).toNat = e.2)) := by
  refine ⟨meets (by decide), meets (by decide), meets (by decide), meets (by decide), ?_⟩
  intro e he
  simp only [List.mem_cons, List.mem_nil_iff, or_false] at he
  rcases he with rfl | rfl <;> exact meets (by decide)

theorem witness_SpecialRegistersComplete :
    Meets (demo .acc) ⟨legalRdsr ⟨47, .v 5, false, false⟩, true, true, [], [], .v 5, 0, false, 4, []⟩ (fun _ => True) ∧
    (∀ r ∈ ([6, 20] : List (BitVec 7)), Meets (demo .exe) ⟨legalRdsr ⟨r, .v 5, false, false⟩, true, true, [], [], .v 5, 0, false, 4, []⟩ (fun c =>
      ((demo .exe).tenant c.w.part).shape < 5 ∧ c.w.setslots.length = 4)) ∧
    Meets (demo .exe) ⟨legalRdsr ⟨19, .q 7, false, false⟩, true, true, [], [], .q 7, 0, false, 4, []⟩ (fun _ => True) ∧
    Meets (demo .exe) ⟨legalWrsr ⟨11, .v 6, false⟩, true, true, [.v 6], [], .discard, 0, false, 4, []⟩ (fun _ => True) ∧
    Meets (demo .exe) ⟨legalWrsr ⟨19, .v 6, true⟩, true, true, [.v 6], [], .discard, 0, true, 4, []⟩ (fun _ => True) ∧
    Meets (demo .exe) ⟨legalCtag ⟨.v 5, .v 111, false, false⟩, true, true, [], [111], .v 5, 0, false, 4, [111]⟩ (fun _ => True) ∧
    Meets (demo .exe) ⟨legalCtag ⟨.v 5, .q 5, false, false⟩, true, true, [], [], .v 5, 0, false, 4, []⟩ (fun c => c.w.startQueue 5 c.now = []) ∧
    (∀ b ∈ [false, true], ∀ p ∈ [none, some 100],
      let w := { placedWarp 0 with queues := [(5, [⟨0, 90, some 99, some RVal.zero, 3, b, p⟩])] }
      Meets (demoOf .exe w (placedGrid 0)) ⟨legalCtag ⟨.v 5, .q 5, false, false⟩, true, true, [], [], .v 5, 0, false, 4, []⟩
        (fun c => c.w.startQueue 5 c.now = ⟨0, 90, some 99, some RVal.zero, 3, b, p⟩ :: [])) ∧
    (∀ l ∈ [Latch.none, Latch.voidEntry, ⟨.val, 101, RVal.zero, 0⟩, ⟨.val, 100, ⟨.g [], [(31, .ecc)]⟩, 0⟩],
      Meets (demoSt .exe fun st => { st with latches := [Latch.none, Latch.none, Latch.none, l] })
        ⟨legalCtag ⟨.v 5, .b 3, false, false⟩, true, true, [], [], .v 5, 0, false, 4, []⟩ (fun c =>
          c.st.latches[(3 : Fin 4).val]? = some l)) := by
  refine ⟨meets (by decide), ?_, meets (by decide), meets (by decide), meets (by decide), meets (by decide), meets (by decide), ?_, ?_⟩
  · intro e he
    simp only [List.mem_cons, List.mem_nil_iff, or_false] at he
    rcases he with rfl | rfl <;> exact meets (by decide)
  · intro b hb p hp
    simp only [List.mem_cons, List.mem_nil_iff, or_false] at hb hp
    rcases hb with rfl | rfl <;> rcases hp with rfl | rfl <;> exact meets (by decide)
  · intro e he
    simp only [List.mem_cons, List.mem_nil_iff, or_false] at he
    rcases he with rfl | rfl | rfl | rfl <;> exact meets (by decide)

/-- A record of `n` bytes at the word of register 5 may be written or read. -/
def RecordB (s : State) (c : Ctx) (d : Dst) (n : Nat) (write : Bool) : Prop :=
  laneOk c.g (s.logical c.w) write true n ((c.dval d).lane 0) = true

/-- Each record at the end of the grid's units. -/
theorem witness_SavesComplete :
    (∀ e ∈ ([(196, useD1 ⟨.v 5, false⟩), (140, useD1 ⟨.v 5, false⟩), (16, useD1 ⟨.v 5, true⟩), (544, useD1 ⟨.v 5, false⟩),
        (12, ⟨legalSpill ⟨.v 5, .v 6, false⟩, true, true, [.v 6], [5], .v 5, 0, false, 4, [6]⟩),
        (1024, ⟨legalND ⟨7, .v 5, false⟩, false, true, [], [5], .v 5, 0, false, 4, []⟩)] : List (Nat × Use)),
      Meets (demoRegs .exe [(5, BitVec.ofNat 32 (262144 - e.1))]) e.2 (fun c =>
        laneOk c.g ((demoRegs .exe [(5, BitVec.ofNat 32 (262144 - e.1))]).logical c.w) true true e.1 ((c.dval (.v 5)).lane 0) = true ∧
        (∀ l ∈ c.st.shadow, l.kind = .val → l.ready ≤ c.now) ∧ 136 * c.st.shadow.length = 544 ∧
        ((demoRegs .exe []).fe c.feKey).busyUntil ≤ c.now ∧ (c.val 0).v.tag = 0)) := by
  intro e he
  simp only [List.mem_cons, List.mem_nil_iff, or_false] at he
  rcases he with rfl | rfl | rfl | rfl | rfl | rfl <;> exact meets (by decide +kernel)

/-- A state whose scratch holds bytes at the addresses given. -/
def demoMem (x : Strm) (bs : List (Nat × Byte)) : State := { demo x with mem := bs.map fun e => (scratchBase 0 + e.1, e.2) }

/-- Records of zeros; a drest record with both depths 16; brest records of arrivals at one slot and at two. -/
theorem witness_RestoresComplete :
    (∀ e ∈ ([(196, useD1 ⟨.v 5, false⟩), (140, useD1 ⟨.v 5, false⟩), (16, useD1 ⟨.v 5, true⟩), (544, useD1 ⟨.v 5, false⟩),
        (12, ⟨legalFill ⟨.v 5, .v 6, false⟩, true, true, [.v 6], [], .v 5, 0, false, 4, []⟩),
        (1024, ⟨legalND ⟨7, .v 5, false⟩, false, true, [], [5], .v 5, 0, false, 4, []⟩)] : List (Nat × Use)),
      Meets (demo .exe) e.2 (fun c => laneOk c.g ((demo .exe).logical c.w) false true e.1 0 = true ∧ addrWord 0 = some (0, 0) ∧
        (demo .exe).firstMark (wordCells c.w.core e.1 0) = none ∧ ((demo .exe).fe c.feKey).busyUntil ≤ c.now ∧
        ∀ w ∈ ((List.range (e.1 / 4)).map fun k => leNat ((((wordCells c.w.core e.1 0).drop (4 * k)).take 4).map (demo .exe).byteAt)), w = 0)) ∧
    latchForm (List.replicate 34 0) = true ∧
    (let s := demoMem .exe [(4, 16), (5, 16)];
     Meets s (useD1 ⟨.v 5, false⟩) (fun c =>
       let ws := (List.range 35).map fun k => leNat ((((wordCells c.w.core 140 0).drop (4 * k)).take 4).map s.byteAt)
       ws.getD 1 0 = 16 + 2 ^ 8 * 16 ∧ ∀ e, e < 16 → field (ws.getD (4 + 2 * e) 0) 23 8 = 0)) ∧
    (∀ m ∈ ([[(scratchBase 0, 1)], [(scratchBase 0, 1), (scratchBase 0 + 12, 2)]] : List (List (Nat × Byte))),
     let s := { demoOf .exe { placedWarp 0 with setslots := [0, 255, 255, 1] } (placedGrid 0) with mem := m };
     Meets s (useD1 ⟨.v 5, false⟩) (fun c =>
       let ws := (List.range 4).map fun k => leNat ((((wordCells c.w.core 16 0).drop (4 * k)).take 4).map s.byteAt)
       (ws.filter fun n => decide (n ≠ 0)).length = m.length ∧
         ∀ k, k < 4 → ws.getD k 0 ≠ 0 → c.w.setOf k ≠ 255 ∧ c.st.arrived.find? (c.w.setOf k) = none)) := by
  refine ⟨?_, by decide, meets (by decide +kernel), ?_⟩
  · intro e he
    simp only [List.mem_cons, List.mem_nil_iff, or_false] at he
    rcases he with rfl | rfl | rfl | rfl | rfl | rfl <;> exact meets (by decide +kernel)
  · intro e he
    simp only [List.mem_cons, List.mem_nil_iff, or_false] at he
    rcases he with rfl | rfl <;> exact meets (by decide +kernel)

/-- A state whose grid has one template, a window page and a landing region, in HBM region 0 of local mode, with registers v8 on. -/
def demoEng (x : Strm) (tpl : List Byte) (rs : List Word) : State :=
  { demoOf x (demoWarp fun st => { st with regs := rs.zipIdx.map fun e => (8 + e.2, RVal.ofWord e.1) })
      { placedGrid 0 with hdr := { placedHeader with ntpl := 1 }, pages := [(0, ⟨0, 65536, 0, true⟩)], land := [(0, 0, 65536)] } with
    localRegions := [0], tenants := [(0, { Tenant.fresh with regions := [0] })], copies := [⟨0, 0, List.replicate 260 0 ++ tpl, [0], 0, 64, false⟩] }

/-- A template of byte codes in format 0x108 by kind, flags, operation and three extents. -/
def demoTpl (kind flags op e0 e1 e2 : Byte) : List Byte :=
  [kind, 4, 4, flags, 1, op, 0, 0, e0, 0, 0, 0, e1, 0, 0, 0, e2, 0, 0, 0] ++ List.replicate 28 0 ++ [8, 1] ++ List.replicate 14 0

/-- Each engine command; a copy to an operand queue from the access stream, with its control word's queue 15. -/
theorem witness_EngineCommandsComplete :
    ∀ e ∈ ([(0, .exe, demoTpl 0 0 0 1 1 1, [0]), (0, .acc, demoTpl 0 0x2C 0 1 1 1, [0xF0000000]), (1, .exe, demoTpl 1 0 0 1 1 1, [0]),
        (2, .acc, demoTpl 2 0 0 1 1 1, [0x4000]), (3, .exe, demoTpl 3 0 0 1 1 1, [0x8000]), (4, .exe, demoTpl 4 2 0 32 1 1, [0]),
        (5, .exe, demoTpl 5 0 0 16 1 1, [0]), (6, .exe, demoTpl 5 0 0 16 1 1, [0]), (7, .acc, demoTpl 5 0 0 16 1 1, [0]),
        (8, .exe, demoTpl 5 0 0 16 1 1, [0]), (9, .exe, demoTpl 6 0 4 1 1 1, [0]), (10, .exe, [], [0]), (11, .acc, [], [0x10001])] :
        List (Nat × Strm × List Byte × List Word)),
      let s := demoEng e.2.1 e.2.2.1 e.2.2.2
      let o : A1 := ⟨.v 8, false⟩
      Meets s (useEng e.1 o) (fun c =>
        let m := c.engCmd s e.1 o
        controlOk e.1 c.g.hdr.ntpl ((c.engWords e.1 o).getD 0 0).toNat m.tpl.kind = true ∧ m.check s c.g = none ∧
        (e.1 ≤ 3 → m.tpl.toq = true → c.x = .acc) ∧ c.engRoom s m = .go) := by
  intro e he
  simp only [List.mem_cons, List.mem_nil_iff, or_false] at he
  rcases he with rfl | rfl | rfl | rfl | rfl | rfl | rfl | rfl | rfl | rfl | rfl | rfl | rfl <;> exact meets (by decide +kernel)

/-- A stream with the trap status word `c` and its handler's code in place. -/
def trapped (c : Word) (st : Stream) : Stream := { st with trapcause := c, trappc := BitVec.ofNat 32 code0 }

/-- A state whose partition 0 is in the tenant debug state. -/
def debugging (s : State) : State := { s with tenants := [(0, { Tenant.fresh with tdebug := true })] }

theorem witness_TrapInstructionsComplete :
    Meets (demo .acc) (useE0 ⟨false⟩) (fun c => (demo .acc).sec.vendor = false ∧ ((demo .acc).tenant c.w.part).tdebug = false ∧
      c.st.ckptReq = false) ∧
    Meets (debugging (demo .exe)) (useE0 ⟨false⟩) (fun c => ((debugging (demo .exe)).tenant c.w.part).tdebug = true) ∧
    -- a request with a handler at 0
    Meets (demoSt .exe fun st => { trapped 0x80000000 st with ckptReq := true }) (useE0 ⟨true⟩) (fun c => c.st.ckptReq = true ∧
      c.st.trapActive = false ∧ c.st.unhandled c.g.hdr.codelen = false) ∧
    -- a return from class 1 to the first instruction, and from class 14 to beyond the code
    (∀ e ∈ ([(0xC0000100, true), (0xC0000E00, false)] : List (Word × Bool)),
      Meets (demoSt .exe (trapped e.1)) ⟨true, true, true, [], [], .discard, 0, true, 4, []⟩ (fun c => c.st.trapActive = true ∧
        c.st.stack.length = c.st.savedDepth ∧
        let tgt := c.st.trappc.toNat + (if field c.st.trapcause.toNat 8 5 ∈ [12, 13, 14] then 4 else 0)
        tgt % 2 = 0 ∧ c.g.inCode tgt = e.2)) ∧
    -- the fetch: anywhere in a run, and as its 24th instruction
    (∀ n ∈ [0, 23], let s := demoSt .exe fun st => { st with runCount := n }
      s.cur = some (0, .exe) ∧ s.warp? 0 = some (demoWarp fun st => { st with runCount := n }) ∧
      s.gridOf (demoWarp fun st => { st with runCount := n }) = some (placedGrid 0) ∧ (placedGrid 0).inCode code0 = true ∧
      (placedGrid 0).inCode (code0 + 3) = true ∧ (s.byteAt (scratchCell 0 0 code0)).getLsbD 1 = false) := by
  refine ⟨meets (by decide), meets (by decide), meets (by decide), ?_, by decide⟩
  intro e he
  simp only [List.mem_cons, List.mem_nil_iff, or_false] at he
  rcases he with rfl | rfl <;> exact meets (by decide)

/-- A handler at the last halfword of the code; no handler, a trap in hand, an odd handler and one beyond the code. -/
theorem witness_TrapEntry :
    (∀ e ∈ ([(0x80008000, true), (0, false), (0xC0008000, false), (0x80004000, false), (0x80010000, false)] : List (Nat × Bool)),
      let s := demoSt .exe (trapped (BitVec.ofNat 32 e.1))
      let st := trapped (BitVec.ofNat 32 e.1) placedStrm
      s.warp? 0 = some (demoWarp (trapped (BitVec.ofNat 32 e.1))) ∧ s.gridOf (demoWarp (trapped (BitVec.ofNat 32 e.1))) = some (placedGrid 0) ∧ 31 < 32 ∧
      (decide (st.hen = true ∧ st.trapActive = false ∧ st.handler % 2 = 0 ∧ st.handler < 4) = e.2) ∧
      (decide (st.hen = false ∨ st.trapActive = true ∨ st.handler % 2 = 1 ∨ 4 ≤ st.handler) = !e.2)) ∧
    (placedGrid 0).hdr.codelen = 4 := by decide +kernel

/-- The 24th instruction of a run with E clear and with E set; a reserved field; an instruction in the wrong stream. -/
theorem witness_ChecksBeforeOwn :
    (∀ n ∈ [0, 23], ∀ x ∈ [Strm.acc, Strm.exe], let s := demoSt x fun st => { st with runCount := n }
      s.cur = some (0, x) ∧ s.warp? 0 = some (demoWarp fun st => { st with runCount := n }) ∧
      s.gridOf (demoWarp fun st => { st with runCount := n }) = some (placedGrid 0)) ∧
    (∀ e ∈ [false, true], ∃ n, encode (.nopInstr ⟨e⟩) = some (32, n) ∧ n.testBit 1 = e) ∧
    ((encode (.iadd ⟨.reserved 6, .v 0, .v 0, 0, false, true⟩)).isSome = true ∧ (Instr.iadd ⟨.reserved 6, .v 0, .v 0, 0, false, true⟩).wf = false) ∧
    ((encode (.fmtw ⟨0, .v 0, false⟩)).isSome = true ∧ exeOnly (.fmtw ⟨0, .v 0, false⟩) = true) ∧
    ((encode (.fence ⟨3, false⟩)).isSome = true ∧ accOnly (.fence ⟨3, false⟩) = true) := by
  refine ⟨by decide, ?_, by decide, by decide, by decide⟩
  intro e he
  simp only [List.mem_cons, List.mem_nil_iff, or_false] at he
  rcases he with rfl | rfl <;> exact ⟨_, rfl, by decide⟩

/-- A state whose queue 0 holds `l`, and the other stream of which has exited or not. -/
def demoQ (x : Strm) (l : List Resv) (gone : Bool) : State :=
  let st : Stream := if gone then { placedStrm with phase := .exited } else placedStrm
  demoOf x (match x with
    | .acc => { placedWarp 0 with queues := [(0, l)], exe := st }
    | .exe => { placedWarp 0 with queues := [(0, l)], acc := st }) (placedGrid 0)

/-- A reservation, landed or not. -/
def resv (landed : Bool) : Resv := ⟨0, 90, some 99, some RVal.zero, 2, landed, none⟩

theorem witness_QueueAndLatchChecks :
    -- a register outside the 32 of the access stream; an unbound guard
    ((placedWarp 0).nregs .acc ≤ 32 ∧ legalT3 ⟨.v 0, .v 32, .v 0, 0, false, false⟩ = true ∧
      (placedStrm.guards.find? (1 : BitVec 2).toNat).isSome = false ∧ legalT3 ⟨.v 0, .v 0, .v 0, 1, false, false⟩ = true) ∧
    -- queues against their direction
    (queueConsumer (0 : Fin 8).val ≠ .acc ∧ queueProducer (0 : Fin 8).val ≠ .exe ∧ legalT3 ⟨.q 0, .q 0, .v 0, 0, false, false⟩ = true) ∧
    -- a full queue with its consumer live and gone
    (∀ gone ∈ [false, true], let s := demoQ .acc (List.replicate 8 (resv true)) gone
      ∃ w g, s.cur = some (0, .acc) ∧ s.warp? 0 = some w ∧ s.gridOf w = some g ∧ queueProducer 0 = .acc ∧
        (w.live 0).length = queueDepth 0 ∧ (w.strm (queueConsumer 0)).gone = gone) ∧
    -- an empty queue with its producer live and gone
    (∀ gone ∈ [false, true], let s := demoQ .exe [] gone
      ∃ w g, s.cur = some (0, .exe) ∧ s.warp? 0 = some w ∧ s.gridOf w = some g ∧ queueConsumer 0 = .exe ∧
        (∀ r ∈ w.live 0, s.gtc ≤ r.issued) ∧ (w.strm (queueProducer 0)).gone = gone) ∧
    -- a head that has not landed
    (let s := demoQ .exe [resv false] false
     ∃ w g, s.warp? 0 = some w ∧ s.gridOf w = some g ∧ w.live 0 = resv false :: [] ∧ (resv false).issued < s.gtc ∧ (resv false).landed = false) ∧
    -- an empty latch, and one that is ready only on the next tick
    (∀ l ∈ [Latch.none, ⟨.val, 101, RVal.zero, 0⟩], let s := demoSt .exe fun st => { st with latches := [l] }
      ∃ w, s.warp? 0 = some w ∧ (∀ k, (w.strm .exe).latches[(0 : Fin 4).val]? = some k → k.kind ≠ .val ∨ s.gtc < k.ready)) := by
  refine ⟨by decide, by decide, ?_, ?_, ⟨_, _, rfl, rfl, by decide, by decide, rfl⟩, ?_⟩
  · intro e he
    simp only [List.mem_cons, List.mem_nil_iff, or_false] at he
    rcases he with rfl | rfl <;> exact ⟨_, _, rfl, rfl, rfl, rfl, by decide, by decide⟩
  · intro e he
    simp only [List.mem_cons, List.mem_nil_iff, or_false] at he
    rcases he with rfl | rfl <;> exact ⟨_, _, rfl, rfl, rfl, rfl, by decide, by decide⟩
  · intro e he
    simp only [List.mem_cons, List.mem_nil_iff, or_false] at he
    rcases he with rfl | rfl
    · exact ⟨_, rfl, fun k hk => .inl (by cases hk; decide)⟩
    · exact ⟨_, rfl, fun k hk => .inr (by cases hk; decide)⟩

theorem witness_MarkedSourcesTrap :
    ∀ m ∈ [MCls.access, .format, .ecc, .fabric],
      let s := demoSt .exe fun st => { st with regs := [(6, ⟨.g [], [(31, m)]⟩)] }
      let c := s.see (useT3 ⟨.v 5, .v 6, .v 7, 0, false, false⟩ true)
      c.Issues s ∧ s.regErr = [] ∧ c.act.getLsbD 31 = true ∧ (∃ r ∈ c.vals, r.marks = [(31, m)]) ∧
      ∀ r ∈ c.vals, r.marks = [(31, m)] ∨ ∀ p ∈ r.marks, c.act.getLsbD p.1 = true → 31 < p.1 := by
  intro m hm
  simp only [List.mem_cons, List.mem_nil_iff, or_false] at hm
  rcases hm with rfl | rfl | rfl | rfl <;> exact ⟨State.issues_of _ _ (by decide), rfl, by decide, by decide, by decide⟩

theorem witness_IssueLeavesOthers :
    (encode (.nopInstr ⟨false⟩)).isSome = true ∧ (demo .acc).cur = some (0, .acc) ∧ goesOn (exec (.nopInstr ⟨false⟩) (demo .acc)) = true ∧
    goesOn (exec .illegalInstruction (demo .acc)) = true := by decide

/-- Two writes of a byte, the later last; two due writes of one tick to one byte, the later in issue order, and one that is not due. -/
theorem witness_WritesTakeEffect :
    (State.reset.MemOk ∧ (∀ c ∈ ([(6, 2, none)] : List (Nat × Byte × Option MCls)), c.1 ≠ 5) ∧
      ([(5, 1, none), (6, 2, none)] : List (Nat × Byte × Option MCls)) = [] ++ (5, 1, none) :: [(6, 2, none)]) ∧
    (let a : PWrite := ⟨50, 0, 0, 0, 1, [(5, 1, none)], [], .none, none, none, 0, []⟩
     let b : PWrite := ⟨50, 0, 0, 0, 2, [(5, 2, none)], [], .none, none, none, 0, []⟩
     let d : PWrite := ⟨51, 0, 0, 0, 3, [(5, 3, none)], [], .none, none, none, 0, []⟩
     let s : State := { State.reset with writes := [a, b, d] }
     s.MemOk ∧ (∀ w ∈ s.writes, w.wct ≤ 50 → w.atoms = [] ∧ w.add = none ∧ w.ret = .none ∧ w.bits = []) ∧
     b.cells = [] ++ (5, 2, none) :: [] ∧ (∀ v ∈ s.writes, v.wct ≤ 50 → v ≠ b → (∃ c ∈ v.cells, c.1 = 5) →
       [v.wct, v.cls, v.wid, v.src, v.seq] < [b.wct, b.cls, b.wid, b.src, b.seq]) ∧
     (∀ w ∈ s.writes, w.wct ≤ 50 → ∀ c ∈ w.cells, c.1 ≠ 6)) := by decide

/-- The longest queue and the deepest stack that the limits allow, and a revoked device, each in a step that goes on. -/
theorem witness_StepKeepsLimits :
    (let s : State := { demoOf .exe { (demoWarp fun st => { st with stack := List.replicate 16 ⟨true, 0, 0⟩ }) with
        queues := [(0, List.replicate 8 (resv true)), (6, List.replicate 4 (resv true))] } (placedGrid 0) with pending := [.ppsOut] }
     Fits s ∧ goesOn (step s) = true) ∧
    (∀ i ∈ ([.ppsOut, .pwrokFall, .vddAuxLost] : List Instr),
      let s : State := { State.reset with sec := { Security.reset with revoked := true }, pending := [i] }
      s.sec.revoked = true ∧ goesOn (step s) = true) := by
  refine ⟨⟨⟨by decide, ?_⟩, by decide⟩, by decide⟩
  intro e he
  simp only [demoOf, List.mem_cons, List.mem_nil_iff, or_false] at he
  subst he
  refine ⟨fun q => ?_, fun x => by cases x <;> decide⟩
  by_cases h0 : q = 0
  · subst h0; decide
  by_cases h6 : q = 6
  · subst h6; decide
  have : Warp.live { (demoWarp fun st => { st with stack := List.replicate 16 ⟨true, 0, 0⟩ }) with
      queues := [(0, List.replicate 8 (resv true)), (6, List.replicate 4 (resv true))] } q = [] := by
    simp [Warp.live, Warp.queue, Tab.get, Tab.find?, Ne.symm h0, Ne.symm h6]
  rw [this]
  simp

/-- A register with one result due on this tick, and one with none. -/
theorem witness_ResultsLand :
    let w : Warp := { placedWarp 0 with landings := [⟨1, 100, .exe, .vec (.reg 5) (some (RVal.ofWord 7)) 0xFF⟩] }
    let s := demoOf .exe w (placedGrid 0)
    s.warp? 0 = some w ∧ (w.strm .exe).gone = false ∧
    (w.landings.filter fun l => decide (l.tick ≤ s.gtc ∧ l.strm = .exe) && match l.eff with
      | .vec (.reg m) (some _) _ => decide (m = 5)
      | _ => false) = [⟨1, 100, .exe, .vec (.reg 5) (some (RVal.ofWord 7)) 0xFF⟩] := by decide

/-- A placed word: it is fetched, decoded and run by the next step. -/
def fetching (w : Nat) (park : Option Park) (q : Tab (List Resv)) : State :=
  let s := State.reset.withFetchWord 32 w
  { s with feTodo := [.fe 0 0 .exe park], warps := s.warps.modify 0 fun v => { v with queues := q } }

/-- A nop, which goes on; and `mov v5, q0` whose entry is in flight, which slips, with and without a park of before its partition acted. -/
theorem witness_StepRunsDecoded :
    (∀ e ∈ ([(0b0011101_1111100_1111100_111101_00_0_1_1, .nopInstr ⟨true⟩, none, [], true),
        (0b0000000_1110100_0000101_111000_00_0_0_1, .mov ⟨.v 5, .q 0, 0, false, false⟩, none, [(0, [⟨0, 0, some 9, some RVal.zero, 2, false, none⟩])], false),
        (0b0000000_1110100_0000101_111000_00_0_0_1, .mov ⟨.v 5, .q 0, 0, false, false⟩, some (.popEmpty 0), [(0, [⟨0, 0, some 9, some RVal.zero, 2, false, none⟩])], false)] :
        List (Nat × Instr × Option Park × Tab (List Resv) × Bool)),
      let s := { fetching e.1 e.2.2.1 e.2.2.2.1 with gtc := 8 }
      s.pending = [] ∧ s.feTodo = .fe 0 0 .exe e.2.2.1 :: [] ∧ ({ s with feTodo := [] } : State).presents 0 0 .exe = .run 0 true ∧
      (let t := (({ s with feTodo := [] } : State).presenting 0 0 .exe 0 true).1
       t.warp? (slotKey 0 0 0) = t.warps.find? 0 ∧ ∃ w ∈ (t.warps.find? 0).toList, ∃ g ∈ (t.gridOf w).toList,
        decodeBytes (t.codeBytes w.core g (w.strm .exe).pc) = .ok (e.2.1, []) ∧
        (match exec e.2.1 t with
          | .next u => decide (u.cur = none) = !e.2.2.2.2 && (u.warps.all fun v => !(v.2.exe.stepOne))
          | _ => false) = true)) ∧
    ({ State.reset with pending := [.coreGate, .ppsOut] } : State).pending = .coreGate :: [.ppsOut] := by
  refine ⟨?_, rfl⟩
  intro e he
  simp only [List.mem_cons, List.mem_nil_iff, or_false] at he
  rcases he with rfl | rfl | rfl <;> decide +kernel

theorem witness_StepKeepsMemoryCanonical : State.reset.MemOk ∧ goesOn (step State.reset) = true := by decide

theorem witness_EncodingRoundTrip :
    (Instr.bra ⟨0x100000, 3⟩).wf = true ∧ (encode (.bra ⟨0x100000, 3⟩)).isSome = true ∧
    (Instr.movH16 ⟨31, 31, true⟩).wf = true ∧ (encode (.movH16 ⟨31, 31, true⟩)).isSome = true := by decide

theorem witness_WordsHaveOneMeaning :
    (0xFFFFFE7B < 2 ^ 32 ∧ (0xFFFFFE7B).testBit 0 = true ∧ (decodeTableWord 32 0xFFFFFE7B).isSome = true) ∧
    (0xFFFE < 2 ^ 16 ∧ (0xFFFE).testBit 0 = false ∧ (decodeTableWord 16 0xFFFE).isSome = true) := by decide

/-! Events. -/

/-- A device that bring-up has finished, with its GTC counting, at the start of leaf 2. -/
def up : State :=
  { State.reset with
    gtc := 8192, time := { TimeUnit.reset with counting := true }, fw := { Firmware.reset with ready := true, phase := 6, tuned := true },
    link := { Link.reset with up := true, busMaster := true } }

/-- A device in reset. -/
def down : State := { State.reset with pkg := { Package.reset with pwrok := false } }

/-- A device in a phase of bring-up, with a boot strap. -/
def inBoot (p : Nat) (strap : BitVec 4) : State :=
  { State.reset with fw := { Firmware.reset with phase := p }, pkg := { Package.reset with strap := strap } }

theorem witness_SuppliesAndLink :
    (down.MemOk ∧ down.pkg.pwrok = false ∧ State.reset.pkg.pwrok = true ∧ State.reset.MemOk) ∧ (0x3FE : BitVec 10) ≠ 0x3FF ∧
    -- the lowest and the highest rail that is watched beside rail 0, in reset and with the GTC counting or not
    (∀ b ∈ ([2, 0x200] : List (BitVec 10)), b &&& ~~~ 0 &&& 0x3FE ≠ 0) ∧ (1 &&& ~~~ 0 &&& 0x3FE : BitVec 10) = 0 ∧
    (2 &&& ~~~ 2 &&& 0x3FE : BitVec 10) = 0 ∧
    (up.pkg.pwrok = true ∧ up.fw.phase ≠ 0 ∧ up.pkg.inReset = false ∧ up.time.counting = true) ∧
    ((inBoot 1 0).pkg.pwrok = true ∧ (inBoot 1 0).fw.phase ≠ 0 ∧ (inBoot 1 0).time.counting = false ∧ (inBoot 0 0).fw.phase = 0) ∧
    (let s : State := { up with pkg := { Package.reset with stopAtLeaf := true } }; s.pkg.stopAtLeaf = true ∧ s.gtc % 4096 = 0) ∧
    (∀ t ∈ ([109, 110] : List Nat), let s : State := { up with pkg := { Package.reset with temp := t } }; decide (s.pkg.temp < 110) = decide (t = 109)) ∧
    (∀ p ∈ ([{ Package.reset with stopped := true }, { Package.reset with lasers := false }, { Package.reset with inReset := true }] : List Package),
      let s : State := { up with pkg := p }; s.pkg.stopped = true ∨ s.pkg.lasers = false ∨ s.pkg.inReset = true) ∧
    (∀ b ∈ [false, true], let s : State := { up with link := { Link.reset with d3 := b, busMaster := b } }
      s.live = true ∧ s.link.d3 = b ∧ s.link.busMaster = b) ∧ down.live = false := by
  decide

/-- Registers at the ends of their ranges; a live device and one in reset; the last word of the BARs and of the journal, beyond it, and a
journal beside a sealed partition. -/
theorem witness_RegisterReads :
    (let s : State := { up with
        fw := { up.fw with phase := 15, failCode := 31, stage := 2 ^ 39 - 1, state := 15, result := 15, failedQueues := 255, svn := 65535 },
        time := { up.time with kerfPorts := 255 },
        sched := { Sched.reset with cause := 31, loadErr := 15, image := 15, rounds := 65535, first := 2 ^ 47 - 1, resume := 2 ^ 47 - 1 },
        sec := { Security.reset with cap := 4095 }, regEccLatent := 65535, regEccConsumed := 65535 }
     s.fw.phase < 16 ∧ s.fw.failCode < 32 ∧ s.fw.stage < 2 ^ 39 ∧ s.fw.state < 16 ∧ s.fw.result < 16 ∧ s.fw.failedQueues < 2 ^ 8 ∧ s.fw.svn < 2 ^ 16 ∧
       s.time.kerfPorts < 2 ^ 8 ∧ s.sched.cause < 32 ∧ s.sched.loadErr < 16 ∧ s.sched.image < 16 ∧ s.sched.rounds < 2 ^ 16 ∧
       s.sched.first < 2 ^ 47 ∧ s.sched.resume < 2 ^ 47 ∧ s.sec.cap < 2 ^ 12 ∧ s.regEccLatent < 2 ^ 16 ∧ s.regEccConsumed < 2 ^ 16) ∧
    (let s : State := { up with
        hbm := [(7, { Stack.fresh with band := 3, retryPeak := 31, swapPeak := 7, ceCount := 65535, debt := 64 })],
        ports := [(15, { Port.fresh with unrec := 255, replays := 65535 })], tenants := [(3, { Tenant.fresh with ptRoot := 2 ^ 39 - 2 ^ 15 })],
        queues := [(63, { LQueue.fresh with prio := 7, watchdog := 2 ^ 24 - 1, err := 255, errRing := 1023 })],
        journal := { Journal.reset with log2 := 31, heads := [8192] },
        rings := [(1023, { Ring.fresh with lq := 63, log2 := 15, part := 3, vector := 2047 })] }
     ((s.stack 7).band < 4 ∧ (s.stack 7).retryPeak < 32 ∧ (s.stack 7).swapPeak < 8 ∧ (s.stack 7).ceCount < 2 ^ 16 ∧ (s.stack 7).debt ≤ 64) ∧
       ((s.port 15).unrec < 2 ^ 8 ∧ (s.port 15).replays < 2 ^ 16) ∧ ((s.tenant 3).ptRoot < 2 ^ 39 ∧ (s.tenant 3).ptRoot % 2 ^ 15 = 0) ∧
       ((s.lqueue 63).prio < 8 ∧ (s.lqueue 63).watchdog < 2 ^ 24 ∧ (s.lqueue 63).err < 2 ^ 8 ∧ (s.lqueue 63).errRing < 2 ^ 10) ∧
       (s.journal.log2 < 32 ∧ (∀ t ∈ s.journal.heads, t ≤ s.gtc) ∧ s.poolq = []) ∧
       ((s.ring 1023).lq < 64 ∧ (s.ring 1023).log2 < 16 ∧ (s.ring 1023).part < 4 ∧ (s.ring 1023).vector < 2 ^ 11)) ∧
    (down.live = false ∧ up.live = true ∧ up.readReg 0x40 < 2 ^ 64) ∧
    ((2 : Nat) ≠ 4 ∧ (4 : Nat) % 8 ≠ 0 ∧ 2 ^ 20 - 8 < 2 ^ 20 ∧ (2 ^ 20 - 8) % 8 = 0 ∧ 2 ^ 22 - 4 < 2 ^ 22 ∧ (2 ^ 22 - 4) % 4096 ≠ 0) ∧
    (let s : State := { up with tenants := [(0, { Tenant.fresh with sealed := true, regions := [511] })] }
     s.journal.base % 8 = 0 ∧ 32764 + 4 ≤ 32 * 2 ^ s.journal.log2 ∧ 32 * 2 ^ s.journal.log2 < 32768 + 4 ∧
       ∀ p, p < 4 → (s.tenant p).sealed = true → (s.journal.base + 32764) / 2 ^ 30 ∉ (s.tenant p).regions) := by
  refine ⟨?_, ?_, ?_, ?_, ?_⟩ <;> decide +kernel

theorem witness_BringUp :
    (∀ p ∈ ([0, 1] : List Nat), InPhase (inBoot p 3) p ∧ (inBoot p 3).pkg.strap.toNat % 4 = 3 ∧ InPhase (inBoot p 2) p ∧
      (inBoot p 2).pkg.strap.toNat % 4 = 2 ∧ InPhase (inBoot p 1) p ∧ (inBoot p 1).pkg.strap.toNat % 4 < 2) ∧
    InPhase (inBoot 2 0) 2 ∧ InPhase (inBoot 3 0) 3 ∧
    (let j : PodJoin := ⟨511, 512, [(15, 31, 128), (15, 30, 129)]⟩
     (∀ d ∈ j.delays, d.1 = 15 → d.2.1 ≠ 29) ∧ (15, 31, 128) ∈ j.delays ∧ ∀ d ∈ j.delays, d.1 = 15 → d.2.1 = 31 → d.2.2 = 128) ∧
    (0xFE : BitVec 8) ≠ 0xFF ∧
    (∀ b ∈ [false, true], let s : State := { inBoot 4 0 with time := { TimeUnit.reset with counting := b } }; InPhase s 4 ∧ s.time.counting = b) ∧
    -- the last tick before the memory is done and the first after; the last within the bound and the first beyond it
    (∀ k ∈ ([0, 1] : List Nat), let s : State := { inBoot 5 0 with gtc := (inBoot 5 0).initEnd - 1 + k }
      InPhase s 5 ∧ s.MemOk ∧ (if k = 0 then s.gtc < s.initEnd else s.initEnd ≤ s.gtc)) ∧
    (∀ t ∈ ([37978112, 37978113] : List Nat), let s : State := { inBoot 5 0 with gtc := t }
      InPhase s 5 ∧ (s.fw.phaseAt + 37978112 < s.gtc ∨ s.gtc ≤ s.fw.phaseAt + 37978112)) ∧
    (∀ e ∈ ([(1, 2), (2, 3), (3, 4)] : List (Nat × Nat)), InPhase (inBoot e.1 0) e.1 ∧ (inBoot e.1 0).fw.recBoot = false ∧ e.1 ≠ 5) ∧
    (∀ k ∈ ([0, 1] : List Nat), let s : State := { inBoot 5 0 with gtc := (inBoot 5 0).initEnd - 1 + k, time := { TimeUnit.reset with counting := true } }
      InPhase s 5 ∧ s.time.counting = true ∧ s.initDue = decide (k = 1)) := by
  unfold InPhase; refine ⟨?_, ?_, ?_, ?_, ?_, ?_, ?_, ?_, ?_, ?_⟩ <;> decide +kernel

/-- A recovery boot in a state of its own, at the highest address that STRAP selects. -/
def inRecovery (st : Nat) : State := { inBoot 1 14 with fw := { Firmware.reset with phase := 1, recBoot := true, recState := st } }

theorem witness_Recovery :
    ((0x53 : BitVec 7).toNat = 0x50 + (inRecovery 0).pkg.strap.toNat / 4 ∧ (0x50 : BitVec 7).toNat ≠ 0x50 + (inRecovery 0).pkg.strap.toNat / 4) ∧
    ((inRecovery 4).live = true ∧ (inRecovery 4).fw.recBoot = true ∧ (inBoot 1 14).fw.recBoot = false ∧ down.live = false ∧
      (0xB1 : BitVec 8) ≠ 0x40 ∧ (0xB1 : BitVec 8) ≠ 0xB0) ∧
    (InPhase (inRecovery 0) 1 ∧ (inRecovery 0).fw.recState ≠ 2 ∧ (inRecovery 0).fw.recState ≠ 4 ∧ (inRecovery 0).MemOk) ∧
    -- the last block of 4 bytes, and one beyond the store
    ((2 ^ 25 - 4) % 4 = 0 ∧ [(1 : Byte), 2, 3, 4].length % 4 = 0 ∧ 4 ≤ [(1 : Byte), 2, 3, 4].length ∧ (2 ^ 25 - 4) + 4 ≤ 2 ^ 25 ∧ 2 ^ 25 < 2 ^ 25 + 4) ∧
    ((236 : Nat) ≤ 236 ∧ (236 : Nat) % 4 = 0 ∧ (236 : Nat) < 240) ∧
    (∀ k ∈ ([2, 4] : List Nat), (inRecovery k).fw.recState = k) ∧ (inBoot 2 14).fw.phase ≠ 1 ∧
    (InPhase (inRecovery 2) 1 ∧ (inRecovery 2).fw.recBoot = true ∧ (inRecovery 2).fw.recState = 2) := by
  unfold InPhase; decide

/-- Firmware update in a state of its own, with one stored image of layout 1. -/
def inUpdate (st : Nat) (force : Bool) : State :=
  { up with fw := { up.fw with state := st, force := force, images := [⟨0, 1, 0, 0, none, false, 0, 0⟩] } }

/-- A device whose firmware cores run events of queue 5, with events waiting. -/
def eventful (busy : List Nat) : State :=
  { up with fw := { up.fw with events := [⟨some 5, 1⟩, ⟨some 6, 1⟩, ⟨none, 4⟩], cores := busy.map fun k => (k, (⟨some 5, 1⟩, 8193)) } }

theorem witness_FirmwareUpdate :
    -- the queue of the oldest event is locked by core 0: core 1 takes the next one
    (let s := eventful [0]
     s.fw.held = false ∧ (∀ r ∈ s.runningEvents, r.1 ≠ (1 : Fin 12).val) ∧ (∀ c : Fin 12, c < 1 → ∃ r ∈ s.runningEvents, r.1 = c.val) ∧
       s.fw.events[1]? = some ⟨some 6, 1⟩ ∧ (∀ r ∈ s.runningEvents, r.2.1.lock ≠ some 6) ∧ (∃ r ∈ s.runningEvents, r.2.1.lock = some 5)) ∧
    ({ up with fw := { up.fw with held := true } } : State).fw.held = true ∧
    (let s := eventful (List.range 12); ∀ c : Fin 12, ∃ r ∈ s.runningEvents, r.1 = c.val) ∧
    (let s : State := { eventful [0] with fw := { (eventful [0]).fw with events := [⟨some 5, 1⟩] } }
     s.fw.events = [⟨some 5, 1⟩] ∧ ∃ r ∈ s.runningEvents, r.2.1.lock = some 5) ∧
    down.live = false ∧ up.live = true ∧
    ((inUpdate 0 false).fw.state ≠ 1 ∧ (inUpdate 0 false).fw.state ≠ 3 ∧ (inUpdate 0 false).fw.state = 0 ∧ (inUpdate 1 false).fw.state = 1 ∧
      (inUpdate 3 false).fw.state = 3) ∧
    -- a check that is not yet asked for, one whose bytes are still to come, and one whose last byte is read
    (∀ v ∈ ([0, 8193, 8192] : List Nat), let s : State := { inUpdate 1 false with fw := { (inUpdate 1 false).fw with verifyAt := v } }
      s.live = true ∧ s.fw.state = 1 ∧ decide (s.fw.verifyAt ≠ 0 ∧ s.fw.verifyAt ≤ s.gtc) = decide (v = 8192)) ∧
    up.natAt (up.fw.stage + 8) 4 ≤ 2 ^ 25 - 4096 ∧
    ((inUpdate 2 false).fw.state = 2 ∧ (inUpdate 2 false).sched.state = .idle) ∧
    ({ inUpdate 2 false with sched := { Sched.reset with state := .realign } } : State).sched.state = .realign ∧
    (let s : State := { eventful [0] with fw := { (eventful [0]).fw with state := 3 } }; s.fw.state = 3 ∧ s.runningEvents ≠ []) ∧
    -- no image, and one that the staged layout 0 does not read
    (let s : State := { inUpdate 3 false with fw := { (inUpdate 3 false).fw with images := [] } }
     s.live = true ∧ s.fw.state = 3 ∧ s.runningEvents = [] ∧ ∀ i ∈ s.fw.images, i.layout ≤ 0) ∧
    (∀ force ∈ [false, true], let g := { placedGrid 100 with d := none, checked := true, image := 0, part := 0 }
      let s : State := { inUpdate 3 force with grids := [(0, g)] }
      s.fw.state = 3 ∧ s.fw.force = force ∧ s.runningEvents = [] ∧ s.grids.find? 0 = some g ∧ g.d = none ∧ g.checked = true ∧
      ∃ i ∈ s.fw.images, ¬ (i.layout ≤ s.natAt (slotBase (!s.fw.activeSlot) + 6) 2 ∧ s.natAt (slotBase (!s.fw.activeSlot) + 6) 2 ≤ i.layout + 2) ∧
        i.pending = false ∧ i.addr = g.image ∧ i.part = g.part) := by
  refine ⟨?_, ?_, ?_, ?_, ?_, ?_, ?_, ?_, ?_, ?_, ?_, ?_, ?_, ?_⟩ <;> decide +kernel

theorem witness_RegisterWrites :
    down.live = false ∧ up.live = true ∧
    -- a size, an alignment, a window and an offset that no register access has
    (∀ e ∈ ([(0, 2, 0, true), (0, 8, 4, true), (2, 8, 0, true), (0, 4, 2 ^ 20, true), (1, 4, 2 ^ 22, true), (0, 4, 2 ^ 20 - 4, false),
        (1, 4, 2 ^ 22 - 4, false)] : List (Fin 3 × Nat × Nat × Bool)),
      decide ((e.2.1 ≠ 4 ∧ e.2.1 ≠ 8) ∨ e.2.2.1 % e.2.1 ≠ 0 ∨ e.1 = 2 ∨ (e.1 = 0 ∧ 2 ^ 20 ≤ e.2.2.1) ∨ (e.1 = 1 ∧ 2 ^ 22 ≤ e.2.2.1)) = e.2.2.2) ∧
    ((7 : Fin 8).val ≠ (0 : Nat) ∧ (15 : Fin 16).val ≠ (0 : Nat) ∧ (1023 : Fin 1024).val ≠ (0 : Nat)) ∧ (up.ring (1023 : Fin 1024).val).base < 2 ^ 64 ∧
    ((0x320 : BitVec 32).toNat % 2 ^ 12 = 800 ∧ (0x7D0 : BitVec 32).toNat % 2 ^ 12 = 2000 ∧ (0x31F : BitVec 32).toNat % 2 ^ 12 < 800 ∧
      2000 < (0x7D1 : BitVec 32).toNat % 2 ^ 12) ∧
    ((0x8000000A : BitVec 32).getLsbD 31 = true ∧ 10 ≤ (0x8000000A : BitVec 32).toNat % 2 ^ 5 ∧ (0x80000014 : BitVec 32).toNat % 2 ^ 5 ≤ 20 ∧
      up.journal.enable = false ∧ 20 < (0x80000015 : BitVec 32).toNat % 2 ^ 5 ∧ (0x80000009 : BitVec 32).toNat % 2 ^ 5 < 10 ∧
      ({ up with journal := { Journal.reset with enable := true } } : State).journal.enable = true) ∧
    ((up.tenant (3 : Fin 4).val).sealed = false ∧ up.hasContext (3 : Fin 4).val = false ∧
      ({ up with grids := [(0, { placedGrid 100 with part := 3 })] } : State).hasContext 3 = true) ∧
    (({ up with tenants := [(3, { Tenant.fresh with sealed := true })] } : State).tenant 3).sealed = true := by
  refine ⟨?_, ?_, ?_, ?_, ?_, ?_, ?_, ?_, ?_⟩ <;> decide

/-- A message of the profile from port 9, about the TAI instant `tai`. -/
def heardAt (k : PtpKind) (tai : Nat) : PtpMsg := ⟨k, true, 0, 0, 9, [1], tai, 0⟩

/-- A device that has heard master 9 in domain 0, and a worse one and one of another domain. -/
def mastered (s : State) (t : TimeUnit) : State :=
  { s with time := { t with masters := [⟨0, 8, [2], 2 ^ 60⟩, ⟨0, 9, [1], 2 ^ 60⟩, ⟨3, 7, [0], 2 ^ 60⟩] } }

theorem witness_TimeEvents_clock :
    (State.reset.timing = false ∧ up.meetsProfile (heardAt .other 0) = false ∧ (PtpKind.followUp ≠ .announce ∧ up.fromMaster (heardAt .followUp 0) = false)) ∧
    (∀ m ∈ ([⟨.announce, false, 0, 0, 9, [], 0, 0⟩, ⟨.announce, true, 1, 0, 9, [], 0, 0⟩, ⟨.syncOneStep, true, 0, -8, 9, [], 0, 0⟩,
      ⟨.syncTwoStep, true, 0, 1, 9, [], 0, 0⟩] : List PtpMsg), m.transportOk = false ∨ m.domain ≠ up.time.domain ∨
        ((m.kind = .syncOneStep ∨ m.kind = .syncTwoStep) ∧ (m.logSync < -7 ∨ 0 < m.logSync))) ∧
    (up.timing = true ∧ up.meetsProfile (heardAt .announce 0) = true ∧ (heardAt .announce 0).kind = .announce) ∧
    ((mastered up up.time).fromMaster (heardAt .syncOneStep 0) = true ∧ up.time.epoch.toNat * 10 ^ 9 ≤ 0) ∧
    (∀ k ∈ ([.syncOneStep, .followUp] : List PtpKind), let s := mastered (inBoot 4 0) TimeUnit.reset
      Heeds s (heardAt k 77) ∧ s.time.counting = false ∧ s.inPhase 4 = true ∧ (heardAt k 77).kind = k) ∧
    (∀ k ∈ ([.syncOneStep, .syncTwoStep, .followUp, .delayResp] : List PtpKind), ∀ h ∈ [false, true],
      let s := mastered up { up.time with holdover := h }
      Heeds s (heardAt k 77) ∧ s.time.counting = true ∧ s.sec.power ≠ 2 ∧ s.time.holdover = h ∧ (heardAt k 77).kind = k) ∧
    (({ up with sched := { Sched.reset with state := .run } } : State).sched.state = .run ∧ (inBoot 4 0).inPhase 4 = true) ∧
    -- a PPS edge that gives a phase, and one that does not
    (let s : State := { up with time := { up.time with refOk := true } }
     s.time.refOk = true ∧ s.time.holdover = false ∧ s.timing = true ∧ s.time.counting = true ∧ up.time.refOk = false) ∧
    (up.live = true ∧ ({ up with gtc := 1300000000 } : State).gtc % 1300000000 = 0 ∧ up.gtc % 1300000000 ≠ 0) ∧
    (up.time.holdover = false ∧ up.time.lastSync + 8 * 1300000000 ≤ ({ up with gtc := 10400000000 } : State).gtc ∧
      ({ up with gtc := 10399999999 } : State).gtc < up.time.lastSync + 8 * 1300000000) ∧
    (let s : State := { up with gtc := 1300000000, sched := { Sched.reset with state := .run } }
     s.sched.state = .run ∧ s.time.lastSync + 1300000000 ≤ s.gtc ∧ s.time.lastLock + 1300000000 ≤ s.gtc) ∧
    -- a port lock within its leaf's slot and after it; a path as long as it may be, and one tick longer
    (∀ k ∈ ([128, 129] : List Nat), ∀ t ∈ ([160, 161] : List Nat),
      let s : State := { up with gtc := 8192 + t, ports := [(15, { Port.fresh with delays := [(2, k)] })] }
      s.live = true ∧ s.time.counting = true ∧ (s.port (15 : Fin 16).val).dead = false ∧
        (s.port (15 : Fin 16).val).far (leafOf s.gtc) = decide (k = 129) ∧ decide (s.gtc % 4096 ≤ 160) = decide (t = 160)) ∧
    (({ up with ports := [(15, { Port.fresh with dead := true })] } : State).port 15).dead = true := by
  unfold Heeds
  refine ⟨?_, ?_, ?_, ?_, ?_, ?_, ?_, ?_, ?_, ?_, ?_, ?_, ?_⟩ <;> decide +kernel

/-- A device in a state of the pod schedule, with an empty image active at pod frame 2. -/
def emptyImage : PodImage := ⟨512, 1, [], 0, []⟩
def scheduled (st : SchedState) (t : Nat) : State :=
  { up with gtc := t, sched := { Sched.reset with state := st, active := true, image := 15, base := 2, images := [(15, emptyImage)], podSize := some 512 } }

/-- A schedule with a fault of tick u known in frame f. -/
def faulted (st : SchedState) (t u f : Nat) : State :=
  { scheduled st t with sched := { (scheduled st t).sched with faultAt := some u, knownFirst := some f, first := f, resume := f + 4 } }

theorem witness_TimeEvents_realignment :
    -- the largest offset that is realigned, in both directions, one beyond it and none, by PTP and by the kerf edges
    (∀ h ∈ [false, true], ∀ o ∈ ([520, -520, 521, 0] : List Int),
      let s : State := { faulted .realign (5 * 131072 + 65536) 266239 2 with
        time := { up.time with holdover := h, ptp := if h then 9 else o, kerf := if h then o else 9 },
        -- results of the tick before, of this tick, of an HBM slot that moves and of one that is none
        slots := [(2, [720896 + 72])],
        warps := [(0, { placedWarp 0 with landings := [720895, 720896, 720896 + 200, 720896 + 201].map fun u => ⟨u, u, .exe, .flags 0⟩ })] }
      s.sched.state = .realign ∧ s.sched.hold = none ∧ s.gtc = (s.sched.first + 3) * 131072 + 16 * 4096 ∧
        (let d := roundSixteenths (if s.time.holdover = true then s.time.kerf else s.time.ptp)
         if o = 521 then 32 < d.natAbs else d.natAbs ≤ 32) ∧ ((s.warp? 0).map fun w => w.landings.length) = some 4) ∧
    up.gtcRealignDue = false ∧
    (∀ t ∈ ([720959, 720960] : List Nat), let s : State := { faulted .realign t 266239 2 with
        sched := { (faulted .realign t 266239 2).sched with hold := some (720896, 64), held := 64 } }
      s.sched.hold = some (720896, 64) ∧ s.sched.held ≠ 0 ∧ (720896 + 64 ≤ s.gtc ∨ s.gtc < 720896 + 64)) ∧
    up.sched.hold = none := by decide +kernel

/-- A packet of an opcode and sequence number 0. -/
def pkt (op w1 w2 : BitVec 64) : Packet := ⟨op, w1, w2, 0, 0, 0, 0, 0⟩

/-- A device whose ring 1023 is enabled for queue 63 and has fetched packets, with a tail. -/
def ringedTo (tail : Nat) (ps : List Packet) : State :=
  { up with
    rings := [(1023, { Ring.fresh with enable := true, lq := 63, tail := tail, fetched := ps.map fun p => (0, p) })],
    queues := [(63, { LQueue.fresh with enable := true })], journal := { Journal.reset with enable := true } }

def ringed (ps : List Packet) : State := ringedTo 1 ps

theorem witness_RingsAndQueues :
    (down.live = false ∧ up.live = true) ∧
    (((ringed []).ring (1023 : Fin 1024).val).enable = true ∧ field (0xBFFFFFFF : BitVec 32).toNat 24 6 = ((ringed []).ring 1023).lq ∧
      field (0xBFFFFFFF : BitVec 32).toNat 20 4 ≠ ((ringed []).ring 1023).log2 ∧ field (0xBF0007FF : BitVec 32).toNat 20 4 = ((ringed []).ring 1023).log2 ∧
      field (0xBF0007FF : BitVec 32).toNat 18 2 = ((ringed []).ring 1023).part ∧ (up.ring 1023).enable = false) ∧
    -- a size of 10 and one of 11
    ((0x80A00000 : BitVec 32).getLsbD 31 = true ∧ field (0x80A00000 : BitVec 32).toNat 20 4 ≤ 10 ∧ ¬ field (0x80B00000 : BitVec 32).toNat 20 4 ≤ 10) ∧
    (up.sec.power ≠ 2 ∧ ((64 : BitVec 32) - BitVec.ofNat 32 (up.ring 0).head).toNat ≤ 2 ^ ((up.ring 0).log2 + 6) ∧
      2 ^ ((up.ring 0).log2 + 6) < ((65 : BitVec 32) - BitVec.ofNat 32 (up.ring 0).head).toNat) ∧
    (let s : State := { up with sec := { Security.reset with power := 2 } }; s.live = true ∧ s.sec.power = 2 ∧ s.sec.wakeAt = none) ∧
    -- one packet below the tail, and none
    (∀ ps ∈ ([[], [pkt 0 0 0]] : List (List Packet)), let s := ringed ps
      s.live = true ∧ s.fw.ready = true ∧ s.link.busMaster = true ∧ s.link.d3 = false ∧ (s.ring 1023).enable = true ∧
      decide ((s.ring 1023).fetched.length < (BitVec.ofNat 32 (s.ring 1023).tail - BitVec.ofNat 32 (s.ring 1023).head).toNat) = ps.isEmpty) ∧
    ((up.lqueue (63 : Fin 64).val).enable = false ∧ ((ringed []).lqueue 63).enable = true ∧ (0 : BitVec 32).getLsbD 31 = false ∧
      (0x80000000 : BitVec 32).getLsbD 31 = true) ∧
    -- a queue that is disabled with a taken packet
    (let c : Cmd := ⟨63, 1023, 0, 0, pkt 0 0 0, 0, none, .accepted, 0, none, 0, none, [], [], none, [], none, 0, 0, none, [], []⟩
     let s : State := { ringed [] with cmds := [(7, c)], queues := [(63, { LQueue.fresh with enable := true, chain := [7] })] }
     s.live = true ∧ (s.lqueue 63).enable = true ∧ (s.lqueue 63).chain.Nodup ∧
       ∀ id ∈ (s.lqueue 63).chain, ∃ c ∈ (s.cmds.find? id).toList, c.fin = none ∧ c.node = none) := by
  refine ⟨?_, ?_, ?_, ?_, ?_, ?_, ?_, ?_⟩ <;> decide

/-- The plain state of a command: dispatched on this tick. -/
def command (p : Packet) : Cmd := ⟨63, 1023, 0, 0, p, 0, some 8192, .dispatched, 0, none, 0, none, [], [], none, [], none, 0, 0, none, [], []⟩

/-- A device with page tables that map 2 MiB at virtual and physical address 0, and one command. -/
def serving (c : Cmd) : State :=
  { ringed [] with
    mem := [(0x10001, 0x10), (0x10002, 0x01), (0x10007, 0x80), (0x11001, 0x20), (0x11002, 0x01), (0x11007, 0x80), (0x12007, 0xE0)],
    tenants := [(0, { Tenant.fresh with regions := [0], ptRoot := 0x10000, ptValid := true })],
    cmds := [(7, c)], queues := [(63, { LQueue.fresh with enable := true, cur := some 7 })] }

/-- A state whose queue 63 has commands in order, with the latest dispatched one. -/
def queued (chain : List Nat) (cur : Option Nat) (cs : Tab Cmd) : State :=
  { ringed [] with cmds := cs, queues := [(63, { LQueue.fresh with enable := true, chain := chain, cur := cur })] }

/-- A graph in progress whose latest node 8 has ended and whose next node is an END. -/
def graphing : State :=
  queued [] (some 7)
    [(7, { command (pkt 2 0 1) with d := some 8000, nodes := [pkt 0x12 0 0], child := some 8 }),
     (8, { command (pkt 0 0 0) with d := some 8100, fin := some 8100, node := some (7, 0) })]

theorem witness_TakeAndDispatch :
    up.mayTake (63 : Fin 64).val = false ∧
    -- a slot whose status stands in memory, and one whose status is on its way
    (∀ s ∈ ([{ ringed [pkt 0 0 0] with mem := [(31, 3)] }, { ringed [pkt 0 0 0] with poolq := [⟨1, 0, 0, 0, 32, .cells [(31, 2)]⟩] }] : List State),
      s.mayTake 63 = true ∧ s.slotBusy = true) ∧
    ({ ringed [pkt 0 0 0] with mem := [(31, 4)] } : State).slotBusy = false ∧
    -- two members that hold packets: after none was visited, after the lower, and after the higher
    (∀ e ∈ ([(none, 3), (some 2, 3), (some 3, 1023), (some 1023, 3)] : List (Option Nat × Nat)),
      let s : State := { ringed [pkt 0 0 0] with
        rings := [(3, { Ring.fresh with enable := true, lq := 63, tail := 1, fetched := [(0, pkt 0 0 0)] }),
          (1023, { Ring.fresh with enable := true, lq := 63, tail := 1, fetched := [(0, pkt 0 0 0)] })],
        queues := [(63, { LQueue.fresh with enable := true, visited := e.1 })] }
      (s.rings.map (·.1)).Pairwise (· < ·) ∧ s.nextRing 63 = some e.2) ∧
    (ringed []).nextRing 63 = none ∧
    -- a packet that is taken and the three kinds that are rejected
    (∀ p ∈ [pkt 1 0 0, pkt 0 0 0, pkt 0 1 0, pkt 0x10 0 0, pkt 0x100000000 0 0, pkt 0xFF 0 0], let s := ringed [p]
      s.mayTake 63 = true ∧ s.slotBusy = false ∧ s.nextRing 63 = some 1023 ∧ (s.ring 1023).fetched.find? (s.ring 1023).head = some p) ∧
    rejectCode (pkt 1 0 0) 0 = 0 ∧ rejectCode (pkt 0 1 0) 0 ≠ 0 ∧
    ((∀ e ∈ (queued [] none []).readyGraphs, e.2.lq ≠ (63 : Fin 64).val) ∧ (queued [] none []).mayDispatch 63 = none) ∧
    (let c := { command (pkt 0 0 0) with d := none }
     let s := queued [7] none [(7, c)]
     (∀ e ∈ s.readyGraphs, e.2.lq ≠ 63) ∧ s.mayDispatch 63 = some 7 ∧ s.cmds.find? 7 = some c ∧ (s.lqueue 63).cur ≠ some 7 ∧ c.node = none) ∧
    (∃ g, graphing.readyGraphs.find? (fun e => decide (e.2.lq = (63 : Fin 64).val)) = some (7, g) ∧ g.nodes[g.nextNode]? = some (pkt 0x12 0 0)) := by
  refine ⟨by decide, by decide, by decide, by decide, by decide, by decide, by decide, by decide, by decide, by decide, ?_⟩
  exact ⟨{ command (pkt 2 0 1) with d := some 8000, nodes := [pkt 0x12 0 0], child := some 8 }, by decide, by decide⟩

/-- `serving` on a later tick, with the mapping read-only or not. -/
def servingAt (t : Nat) (ro : Bool) (c : Cmd) : State :=
  { serving c with gtc := t, mem := [(0x10001, 0x10), (0x10002, 0x01), (0x10007, 0x80), (0x11001, 0x20), (0x11002, 0x01), (0x11007, 0x80),
      (0x12007, if ro then 0xC0 else 0xE0)] }

/-- A test node of graph 6, in place 1, and its state. -/
def nodal (p : Packet) (loops : Tab Nat) : State :=
  { serving { command p with node := some (6, 1) } with
    cmds := [(7, { command p with node := some (6, 1) }), (6, { command (pkt 2 0 2) with nodes := [p, pkt 0x12 0 0], loops := loops, child := some 7 })] }

theorem witness_HostCommands :
    (let c := command (pkt 0x200 0 0); (serving c).cmds.find? 7 = some c ∧ c.fin = none ∧ c.node = none) ∧
    Dispatched (serving (command (pkt 0 0 0))) 7 (command (pkt 0 0 0)) ∧
    -- WAIT: an address that is not aligned or not mapped, and the last doubleword of the page at and below its value
    (∀ va ∈ ([4, 0x200000] : List Nat), let c := command (pkt 3 (BitVec.ofNat 64 va) 0)
      Dispatched (serving c) 7 c ∧ (serving c).hostAddr c.part (field c.pkt.w1.toNat 0 52) 8 false = none) ∧
    (∀ v ∈ ([0, 1] : List Nat), let c := command (pkt 3 0x1FFFF8 (BitVec.ofNat 64 v))
      Dispatched (serving c) 7 c ∧ (serving c).hostAddr c.part (field c.pkt.w1.toNat 0 52) 8 false = some 0x1FFFF8 ∧ (serving c).natAt 0x1FFFF8 8 = 0) ∧
    -- the last tick within the bound and the first beyond it
    (∀ t ∈ ([13008192, 13008193] : List Nat), ∀ v ∈ ([0, 1] : List Nat), let c := { command (pkt 3 0 (BitVec.ofNat 64 v)) with status := .running, addr := 0 }
      let s := servingAt t false c
      (s.cmds.map (·.1)).Nodup ∧ s.cmds.find? 7 = some c ∧ c.pkt.opcode = 3 ∧ c.fin = none ∧ c.d = some 8192 ∧ (s.lqueue c.lq).watchdog = 10000 ∧
        s.natAt c.addr 8 = 0 ∧ ∀ e ∈ s.cmds, e.2.node = none) ∧
    (let c := command (pkt 4 0 1); Dispatched (servingAt 8192 true c) 7 c ∧ (servingAt 8192 true c).hostAddr c.part 0 8 true = none) ∧
    (let c := command (pkt 4 0 1); Dispatched (serving c) 7 c ∧ (serving c).hostAddr c.part 0 8 true = some 0) ∧
    (∀ t ∈ ([8831, 8832] : List Nat), let c := { command (pkt 4 0 1) with due := some 8832 }
      let s := servingAt t false c
      (s.cmds.map (·.1)).Nodup ∧ s.cmds.find? 7 = some c ∧ c.pkt.opcode = 4 ∧ c.fin = none ∧ c.d.isSome = true ∧ c.due = some 8832) ∧
    -- GRAPH: no node, too many, and 256
    (∀ n ∈ ([0, 257, 1, 256] : List Nat), let c := command (pkt 2 0 (BitVec.ofNat 64 n)); Dispatched (serving c) 7 c ∧ c.node = none ∧ field c.pkt.w2.toNat 0 16 = n) ∧
    none ∈ ((List.range 1).map fun i => (serving (command (pkt 2 0x200000 1))).hostAddr 0 (0x200000 + 64 * i) 64 false) ∧
    (let s := serving (command (pkt 2 0 1))
     let pas := (List.range 1).map fun i => s.hostAddr 0 (0 + 64 * i) 64 false
     none ∉ pas ∧ ∃ e ∈ ((pas.filterMap fun a => a).map s.packetAt).zipIdx, nodeOk 1 e.2 e.1 = false) ∧
    (let c := command (pkt 2 0 1)
     let s : State := { serving c with mem := (0, 0x12) :: (serving c).mem }
     let pas := (List.range 1).map fun i => s.hostAddr 0 (0 + 64 * i) 64 false
     Dispatched s 7 c ∧ c.nextNode = 0 ∧ none ∉ pas ∧ ∀ e ∈ ((pas.filterMap fun a => a).map s.packetAt).zipIdx, nodeOk 1 e.2 e.1 = true) ∧
    -- a node whose word may not be read, and one whose word is 0, with the predicate false and true, below and at the bound of a loop
    (∀ k ∈ ([0, 1] : List Nat), let p : Packet := { pkt 0x11 0x1FFFFC 0 with w3 := 1 }
      let s := nodal p [(1, k)]
      let c := { command p with node := some (6, 1) }
      let G := { command (pkt 2 0 2) with nodes := [p, pkt 0x12 0 0], loops := [(1, k)], child := some 7 }
      Dispatched s 7 c ∧ c.node = some (6, 1) ∧ (6 : Nat) ≠ 7 ∧ s.cmds.find? 6 = some G ∧ G.fin = none ∧ G.loops.get 0 1 = k ∧
        field p.w3.toNat 0 32 = 1) ∧
    (nodal (pkt 0x10 2 0) []).hostAddr 0 2 4 false = none ∧ (nodal (pkt 0x10 0x1FFFFC 0) []).hostAddr 0 0x1FFFFC 4 false = some 0x1FFFFC ∧
    predicateHolds 0 ((nodal (pkt 0x10 0x1FFFFC 0) []).natAt 0x1FFFFC 4) 0 = true ∧
    predicateHolds 0 ((nodal (pkt 0x10 0x1FFFFC 0) []).natAt 0x1FFFFC 4) 1 = false ∧
    ((0xFFFFFFFF : Nat) < 2 ^ 32 ∧ (0 : Nat) < 2 ^ 32) := by
  unfold Dispatched
  refine ⟨?_, ?_, ?_, ?_, ?_, ?_, ?_, ?_, ?_, ?_, ?_, ?_, ?_, ?_, ?_, ?_, ?_, ?_⟩ <;> decide +kernel

/-- A device with one grid, mapped memory and the host command that launched it. -/
def gridded (t : Nat) (g : Grid) : State :=
  { servingAt t false { command (pkt 1 0 0) with grid := some 0 } with grids := [(0, { g with cmd := some 7 })], fresh := 8 }

/-- A taken grid that is not yet staged. -/
def takenGrid : Grid := { Grid.fresh 0 63 0 0 100 none 0 with cmd := some 7 }

/-- A grid that has been placed and whose one position has ended. -/
def endedGrid : Grid :=
  { placedGrid 100 with cmd := some 7, lq := 63, poss := [(0, { placedPos with phase := .released, bank := 2 })], lastExit := 8000, maxWct := 8191 }

/-- A freeze of a tick. -/
def frozenAt (z : Nat) (ckpt acted image : Bool) : Freeze := ⟨z, z, ckpt, acted, if acted then some 8192 else none, image, false⟩

theorem witness_GridLife_staging :
    -- a data tick with more than 1,024 B to move, with exactly 1,024 B, and with less
    (∀ n ∈ ([1025, 1024, 256] : List Nat), let g := { takenGrid with s0 := some 8576, total := n }
      (gridded 8577 g).stagingDue = some (0, g) ∧ (gridded 8577 g).grids.find? 0 = some g ∧ g.s0.isSome = true) ∧
    up.stagingDue = none ∧
    (let s : State := { gridded 8576 takenGrid with copies := [⟨0, 0x1000, [], [9], 0, 2 ^ 23, false⟩] }
     s.stagingDue = some (0, takenGrid) ∧ takenGrid.s0 = none ∧ s.openStaging 0 takenGrid = none) ∧
    ((gridded 8576 takenGrid).stagingDue = some (0, takenGrid) ∧ ((gridded 8576 takenGrid).openStaging 0 takenGrid).isSome = true ∧
      (gridded 8576 takenGrid).grids.find? 0 = some takenGrid) ∧
    (let g := { takenGrid with unmapped := true, total := 256 }; g.unmapped = true ∧ g.total ≤ 256) ∧
    (let g := { takenGrid with unmapped := true, total := 257, hdr := placedHeader }
     256 < g.total ∧ layoutReadable 0 g.hdr.layout = false ∧ layoutReadable 1 g.hdr.layout = true ∧ g.hdr.rangeOk = true ∧
       ({ placedHeader with codelen := 3 } : Header).rangeOk = false) ∧
    (let g := { takenGrid with s0 := some 8000, staged := some 8192 }
     let s := gridded 8192 g
     s.grids.find? 0 = some g ∧ s.stagedNow = [(0, g)] ∧ g.d = none ∧ ∀ e ∈ s.grids, e.2.stager ≠ some 0) := by
  refine ⟨?_, ?_, ?_, ?_, ?_, ?_, ?_⟩ <;> decide +kernel

theorem witness_GridLife_launch :
    (let s := gridded 8192 takenGrid
     let c := { command (pkt 1 0 0) with grid := some 0 }
     Dispatched s 7 c ∧ c.grid = some 0 ∧ s.grids.find? 0 = some takenGrid ∧ takenGrid.indirect = none ∧ takenGrid.staged = none ∧
       takenGrid.checked = false ∧ (∀ e ∈ s.stagedNow, e.1 ≠ takenGrid.stager.getD 0) ∧ (s.grids.map (·.1)).Nodup) ∧
    -- a staged image that is whole, and one with more groups than it may have
    (∀ n ∈ ([1, 2] : List Nat), let g := { takenGrid with staged := some 8000, checked := true, hdr := { placedHeader with gcount := n } }
      let s := gridded 8192 g
      let c := { command (pkt 1 0 0) with grid := some 0 }
      Dispatched s 7 c ∧ c.grid = some 0 ∧ s.grids.find? 0 = some g ∧ g.indirect = none ∧ g.checked = true ∧ g.status = none ∧ g.poss = [] ∧
        c.node = none ∧ c.pkt.opcode = 1 ∧ g.cmd = some 7 ∧ g.eng = none ∧ (∀ e ∈ s.stagedNow, e.1 ≠ g.stager.getD 0) ∧
        (s.cmds.map (·.1)).Nodup ∧ (s.grids.map (·.1)).Nodup ∧
        ((g.imageFault <|> countFault g (g.count.getD g.hdr.gcount) (cursorsOf g.hdr (s.imageBytes 0))) = if n = 1 then none else some 17)) := by
  unfold Dispatched; refine ⟨?_, ?_⟩ <;> decide +kernel

theorem witness_GridLife_freeze :
    -- PREEMPT of a queue without a grid and with one, not yet frozen and frozen
    (let c := command (pkt 7 62 0); let s : State := { serving c with grids := [(0, { endedGrid with lq := 63 })] }
     Dispatched s 7 c ∧ ∀ e ∈ s.grids, ¬ (e.2.lq = field c.pkt.w1.toNat 0 6 ∧ e.2.d.isSome = true ∧ e.2.status = none)) ∧
    (∀ f ∈ [none, some (frozenAt 8000 true true false), some (frozenAt 8193 true false false)], ∀ w1 ∈ ([63, 0x13F] : List Nat),
     let c := command (pkt 7 (BitVec.ofNat 64 w1) 0)
     let s : State := { serving c with grids := [(0, { endedGrid with freeze := f })], warps := [(0, placedWarp 100)] }
     Dispatched s 7 c ∧ s.grids.find? 0 = some { endedGrid with freeze := f } ∧ endedGrid.lq = field c.pkt.w1.toNat 0 6 ∧ endedGrid.d.isSome = true ∧
       endedGrid.status = none ∧ s.sched.active = false ∧ (f.all fun x => x.acted || decide (s.gtc < x.z)) = true ∧ s.warp? 0 = some (placedWarp 100) ∧
       (placedWarp 100).grid = 0) ∧
    (∀ ckpt ∈ [false, true], let f := frozenAt 8192 ckpt false false
     let g := { placedGrid 100 with freeze := some f }
     let s : State := { up with grids := [(0, g)], warps := [(0, placedWarp 100)] }
     s.grids.find? 0 = some g ∧ g.freeze = some f ∧ f.acted = false ∧ f.z ≤ s.gtc ∧ g.status = none ∧ s.warp? 0 = some (placedWarp 100)) ∧
    (let f := frozenAt 8000 true true false
     let g := { endedGrid with poss := [(0, { placedPos with phase := .released, next := 0, bank := 2 })], freeze := some f }
     let s : State := { gridded 8192 g with grids := [(0, g)] }
     s.grids.find? 0 = some g ∧ g.freeze = some f ∧ g.imageDue s.gtc = true ∧
       (s.cellsAt g.part g.hdr.resume (g.contextImage g.hdr.resume PosState.cursor)).isSome = true) ∧
    (let g := { placedGrid 100 with freeze := some (frozenAt 8000 false true false) }
     let s : State := { up with grids := [(0, g)] }; s.grids.find? 0 = some g ∧ s.drainDue g = true) ∧
    (∀ e ∈ up.grids, up.drainDue e.2 = false) ∧
    (∀ g ∈ ([endedGrid, { endedGrid with killed := true }, { endedGrid with stopped := true, failCode := 32 },
        { endedGrid with poss := [(0, { placedPos with phase := .released, next := 0, bank := 2 })], freeze := some (frozenAt 8000 true true true) }] : List Grid),
      let s := gridded 8192 g
      let c := { command (pkt 1 0 0) with grid := some 0 }
      s.grids.find? 0 = some g ∧ s.retireDue 0 g = true ∧ g.cmd = some 7 ∧ g.eng = none ∧ s.cmds.find? 7 = some c ∧ c.fin = none ∧ c.node = none ∧
        c.pkt.opcode = 1 ∧ (s.cmds.map (·.1)).Nodup) := by
  unfold Dispatched
  refine ⟨?_, ?_, ?_, ?_, ?_, ?_, ?_⟩ <;> decide +kernel

/-- A device whose one grid has one task position of the given state, the code unit and the first scratch unit as given. -/
def positioned (cunit sbase : Nat) (p : PosState) : State :=
  { up with grids := [(0, { placedGrid 100 with hdr := { placedHeader with cunit := cunit, sbase := sbase }, poss := [(0, p)], lq := 63 })] }

theorem witness_Placement :
    -- the code unit just above, just below, and the last scratch unit
    (∀ e ∈ ([(4, 0), (0, 1), (94, 0), (90, 91)] : List (Nat × Nat)), let p : PosState := ⟨.waiting, 0, false, false, 2, []⟩
      let s := positioned e.1 e.2 p
      let g := { placedGrid 100 with hdr := { placedHeader with cunit := e.1, sbase := e.2 }, poss := [(0, p)], lq := 63 }
      (s.nextPlace.map (·.1)) = some ⟨0, g, [0]⟩ ∧ s.grids.find? 0 = some g ∧ g.poss.find? 0 = some p ∧ s.MemOk ∧ g.hdr.codelen ≤ 65536 ∧
        (g.hdr.cunit < g.unit0 0 ∨ g.unit0 0 + g.hdr.scru ≤ g.hdr.cunit) ∧ g.hdr.cunit < 95 ∧ g.unit0 0 + g.hdr.scru ≤ 95) ∧
    up.nextPlace.isNone = true ∧
    (∀ f ∈ ([.loading 8192, .between 8168] : List PosPhase), let p : PosState := ⟨f, 0, false, false, 0, [(0, 0, 0)]⟩
      let s := positioned 94 0 p
      let g := { placedGrid 100 with hdr := { placedHeader with cunit := 94, sbase := 0 }, poss := [(0, p)], lq := 63 }
      s.grids.find? 0 = some g ∧ g.poss.find? 0 = some p ∧ g.starts 0 p s.gtc = true ∧
        (posEntry g.groups g.hdr.iters g.npos 0 p.next).isSome = true) ∧
    (∀ e ∈ ([(8192, true), (8193, false)] : List (Nat × Bool)), let p : PosState := ⟨.between e.1, 1, false, false, 0, [(0, 0, 0)]⟩
      let s := positioned 94 0 p
      let g := { placedGrid 100 with hdr := { placedHeader with cunit := 94, sbase := 0 }, poss := [(0, p)], lq := 63 }
      s.grids.find? 0 = some g ∧ g.poss.find? 0 = some p ∧ g.releases 0 p s.gtc = e.2) := by
  refine ⟨?_, ?_, ?_, ?_⟩ <;> decide +kernel

/-- An engine command of warp 0, in place 5 of issue order. -/
def engCmdOf (fn : Nat) (ws : List Word) (t : Template) : EngCmd :=
  { ((demo .acc).see (useA1 ⟨.v 6, false⟩ 3 true)).engCmd (demo .acc) fn ⟨.v 6, false⟩ with fn := fn, words := ws, ord := 5, tpl := t }

/-- A device with that command, its warp and its grid. -/
def engaged (c : EngCmd) : State :=
  { up with cmdsE := [(5, c)], warps := [(0, { placedWarp 100 with start := c.inst })], grids := [(0, placedGrid 100)], fresh := 6 }

/-- A device with a walk of core 3 for page 5 whose entry is `v`. -/
def walking (level v : Nat) : State :=
  { up with
    walks := [(3, ⟨5, level, 0x10000, v, 8192⟩)], fills := [(3, [⟨5, 0, none, false, []⟩])], tenants := [(0, { Tenant.fresh with regions := [0] })] }

/-- A device with one warp whose access stream is in a phase. -/
def phased (p : SPhase) : State := { up with warps := [(0, { placedWarp 0 with acc := { placedStrm with phase := p } })], grids := [(0, placedGrid 0)] }

theorem witness_StreamEvents_engines :
    (let s : State := { up with warps := [(0, placedWarp 0)] }; s.warp? (slotKey 0 0 0) = some (placedWarp 0)) ∧
    -- a start that is to come, one whose tick is this one, and one that waits for a command that has not ended
    (∀ fn ∈ ([9, 10, 11] : List Nat), ∀ u ∈ ([8192, 8193] : List Nat), let c := { engCmdOf fn [0x10000, 0, 0, 0, 0, 0, 0, 0] Template.blank with issue := u }
      (engaged c).cmdsE.find? 5 = some c ∧ c.ord = 5 ∧ c.s = none ∧ ((engaged c).cmdGrid c).isSome = true ∧ (engaged c).startOf c = some u ∧ c.inc = 0) ∧
    (let c := { engCmdOf 11 [0x10001, 0, 0, 0, 0, 0, 0, 0] Template.blank with issue := 8192 }; c.csp = 1 ∧ c.fn = 11) ∧
    (let c := { engCmdOf 9 [0] Template.blank with deps := [4] }
     let s : State := { engaged c with cmdsE := [(4, { engCmdOf 9 [0] Template.blank with ord := 4 }), (5, c)] }
     s.startOf c = none) ∧
    (∀ d ∈ ([8192, 8193] : List Nat), let c := { engCmdOf 9 [0] Template.blank with s := some 8000, done := some d, fault := some (.access, 7) }
      let s := engaged c
      s.cmdsE.find? 5 = some c ∧ c.ord = 5 ∧ c.done = some d ∧ c.finished = false ∧ c.fault = some (.access, 7) ∧
        ∃ w ∈ (s.warp? c.warp).toList, w.grid = c.grid ∧ w.start = c.inst) := by
  refine ⟨?_, ?_, ?_, ?_, ?_⟩ <;> decide +kernel

theorem witness_StreamEvents_streams :
    (let m : MailMsg := ⟨0, 8192, 0, 0, 9, 0, [], []⟩; let s : State := { up with mails := [m] }
     s.mails = [m] ∧ m.wct ≤ s.gtc ∧ s.MemOk ∧ s.grids.find? m.grid = none) ∧
    (let m : MailMsg := ⟨0, 8192, 0, 0, 0, 0, [], []⟩; let s : State := { up with mails := [m], grids := [(0, placedGrid 100)] }
     s.mails = [m] ∧ s.grids.find? m.grid = some (placedGrid 100) ∧ (placedGrid 100).bankOn (m.core - (s.tenant 0).slotBase) = some 0) ∧
    -- parked, with the condition met and not met
    (∀ u ∈ ([8192, 8193] : List Nat), let s := phased (.parked (.until u))
      (s.warps.map (·.1)).Nodup ∧ ∃ w ∈ (s.warp? 0).toList, (w.strm .acc).phase = .parked (.until u) ∧
        s.clears 0 w .acc (.until u) = decide (u ≤ 8192)) ∧
    (let s := phased (.parked (.barrier 0 0))
     (Park.barrier 0 0).onBarrier = true ∧ (Park.until 0).onBarrier = false ∧ ∃ w ∈ (s.warp? 0).toList, s.clears 0 w .acc (.barrier 0 0) = false) ∧
    (let s : State := { phased (.parked (.barrier 0 0)) with grids := [(0, { placedGrid 0 with phases := [(0, ⟨1, 8000, some 8100⟩)] })] }
     ∃ w ∈ (s.warp? 0).toList, s.clears 0 w .acc (.barrier 0 0) = true) ∧
    -- page walks
    (∀ e ∈ ([(0, 2 ^ 63 + 0x11000), (3, 2 ^ 63 + 2 ^ 62 + 0x3FFF0000), (3, 2 ^ 63 + 0x10000), (2, 2 ^ 63 + 2 ^ 62), (0, 0)] : List (Nat × Nat)),
      let s := walking e.1 e.2
      s.walks = [(3, ⟨5, e.1, 0x10000, e.2, 8192⟩)] ∧ s.fills = [(3, [⟨5, 0, none, false, []⟩])] ∧ (8192 : Nat) ≤ s.gtc ∧ s.parked = []) ∧
    (walking 0 0).ptJudge 0 0 (5 * 0x10000) (2 ^ 63 + 0x11000) = .table 0x11000 ∧
    (∃ p, (walking 0 0).ptJudge 0 3 (5 * 0x10000) (2 ^ 63 + 2 ^ 62 + 0x3FFF0000) = .page p) ∧
    (walking 0 0).ptJudge 0 3 (5 * 0x10000) (2 ^ 63 + 0x10000) = .fault ∧
    -- a register of each form
    (∀ v ∈ ([.u 0, .a 0 4, .g []] : List Vec), let w := { placedWarp 0 with acc := { placedStrm with regs := [(111, ⟨v, []⟩)] } }
      let s : State := { up with warps := [(0, w)] }
      s.warp? 0 = some w ∧ ((w.strm .acc).reg (111 : Fin 112).val).v = v) := by
  refine ⟨?_, ?_, ?_, ?_, ?_, ?_, ?_, ⟨_, by rfl⟩, ?_, ?_⟩ <;> decide +kernel

/-- A device on tick `o` of leaf 2, with a stack of address 0 and the windows of a number of leaf parts behind it. -/
def stacked (o done : Nat) (k : Stack) : State := { up with gtc := 8192 + o, hbmLeaf := done, hbm := [(up.hbmStack 0, k)] }

theorem witness_SlackWindow :
    -- the drain, at its first and its last tick
    (∀ o ∈ ([0, 63] : List Nat), let s := stacked o 16 Stack.fresh
     s.live = true ∧ s.fw.tuned = true ∧ s.time.counting = true ∧ s.gtc % 4096 < 64 ∧ s.hbmLeaf < s.gtc / 4096 * 8 + 1) ∧
    -- the refreshes, with a beat to read again and with none, a debt that stays within its bound and one that does not
    (∀ l ∈ ([[], [5]] : List (List Nat)), ∀ n ∈ ([56, 57] : List Nat), let s := stacked 64 17 { Stack.fresh with rereads := l, band := 2, debt := n }
     s.live = true ∧ s.gtc % 4096 = 64 ∧ s.hbmLeaf < s.gtc / 4096 * 8 + 2 ∧ (s.stack (s.hbmStack 0)).rereads = l ∧
       (l = [] → ∀ k, k < 8 → (s.stack k).rereads = []) ∧ (let d := (s.stack (s.hbmStack 0)).debt; decide (64 < d + 32 - min 24 (32 + d)) = decide (n = 57))) ∧
    (∀ n ∈ ([8, 9] : List Nat), let s := stacked 244 18 { Stack.fresh with issued := n, cands := [(3, 7)] }
     s.gtc % 4096 = 244 ∧ s.hbmLeaf < s.gtc / 4096 * 8 + 3 ∧ (s.stack (s.hbmStack 0)).cands = [(3, 7)] ∧
       decide ((s.stack (s.hbmStack 0)).issued ≤ 8) = decide (n = 8)) ∧
    (∀ i ∈ List.range 4, let s := stacked (340 + 11 * i) (19 + i) { Stack.fresh with retry := [(0, [9, 8])] }
     s.gtc % 4096 = 340 + 11 * i ∧ s.hbmLeaf < s.gtc / 4096 * 8 + 4 + i) ∧
    -- a refresh ends alone in its pseudo-channel, beside another, and on no such tick
    (∀ e ∈ ([(202, [], true), (202, [(8394, 64)], false), (203, [], false)] : List (Nat × List (Nat × Nat) × Bool)),
     let s := stacked e.1 18 { Stack.fresh with issued := 1, refreshes := e.2.1 }
     let k := s.stack (s.hbmStack 0)
     s.windowDue = none ∧ s.hbmBank 0 = 0 ∧ decide ((∃ i, i < k.issued ∧ s.gtc % 4096 = 64 + 6 * i + 138) ∧
       ∀ x ∈ k.refreshes, x.1 = s.gtc → x.2 = 0 ∨ x.2 % 64 ≠ 0) = e.2.2) ∧
    State.reset.fw.tuned = false ∧ down.live = false ∧
    -- a retry buffer with one place and none
    (∀ n ∈ ([15, 16] : List Nat), let s := stacked 0 17 { Stack.fresh with retry := [(up.hbmChannel 0, List.replicate n 9)] }
     s.live = true ∧ s.fw.tuned = true ∧ s.windowDue = none ∧ (0 : Nat) < 2 ^ 39 ∧ s.MemOk ∧
       ((s.stack (s.hbmStack 0)).retry.get [] (s.hbmChannel 0)).length = n) ∧
    -- a read of a bad beat, with UE clear and set
    (∀ u ∈ [false, true], let s : State := { stacked 0 17 { Stack.fresh with ue := u, bad := [0] } with poison := [(63, .ecc)] }
     63 < 2 ^ 39 ∧ s.markAt 63 = some .ecc ∧ 63 / 64 ∈ (s.stack (s.hbmStack (63 / 64 * 64))).bad ∧ (s.stack (s.hbmStack (63 / 64 * 64))).ue = u) ∧
    -- a row that is closed, one whose bank work ends on this tick, and an open one
    (∀ e ∈ ([([], false), ([⟨3, 7, 1, 8192⟩], false), ([⟨3, 7, 1, 8193⟩], true)] : List (List OpenRow × Bool)),
     let s := stacked 0 17 { Stack.fresh with opens := e.1 }
     let k := s.stack (s.hbmStack 0)
     decide (∀ o ∈ k.opens, o.bank = 3 → o.row = k.physRow 3 7 → o.till ≤ s.gtc) = !e.2 ∧
       decide (∃ o ∈ k.opens, k.opens = [o] ∧ o.bank = 3 ∧ o.row = k.physRow 3 7 ∧ s.gtc < o.till) = e.2) ∧
    -- the activation that makes a candidate and the one before it; three candidates of the bank and four
    (∀ n ∈ ([4094, 4095] : List Nat), ∀ m ∈ ([3, 4] : List Nat),
     let s := stacked 0 17 { Stack.fresh with acts := [(rowKey 3 7, n)], cands := List.replicate m (3, 1) }
     let k := s.stack (s.hbmStack 0)
     k.acts.get 0 (rowKey 3 (k.physRow 3 7)) = n ∧ (k.cands.filter fun c => decide (c.1 = 3)).length = m) := by
  refine ⟨?_, ?_, ?_, ?_, ?_, ?_, ?_, ?_, ?_⟩ <;> decide +kernel

/-- The smallest image for 512 devices: one schedule frame without a run, no link to avoid. -/
def emptySchedule : List Byte :=
  leBytes 4 1 ++ leBytes 2 1 ++ leBytes 2 512 ++ leBytes 2 1 ++ leBytes 2 0 ++ leBytes 4 256 ++ List.replicate 4336 0

theorem emptySchedule_length : emptySchedule.length = 4352 := by
  rw [emptySchedule, List.length_append, List.length_replicate]
  rfl

theorem emptySchedule_ok (s : State) (h : s.sched = Sched.reset) : (s.judgeSchedule emptySchedule 15).1 = [] := by
  simp only [State.judgeSchedule, emptySchedule_length, h]
  decide +kernel

theorem witness_ScheduleImages_commands :
    (let c := command (pkt 5 0x200000 1); Dispatched (serving c) 7 c ∧ (serving c).spanAt c.part (field c.pkt.w1.toNat 0 52) (field c.pkt.w2.toNat 0 32) = none) ∧
    (let c := command (pkt 5 0x1FFFFF 1); Dispatched (serving c) 7 c ∧ (serving c).spanAt c.part (field c.pkt.w1.toNat 0 52) (field c.pkt.w2.toNat 0 32) = some [0]) ∧
    (let c := { command (pkt 5 0 0xF00001100) with data := emptySchedule, due := some 8192 }
     let s := serving c
     s.cmds.find? 7 = some c ∧ c.pkt.opcode = 5 ∧ c.fin = none ∧ c.due = some 8192 ∧ 8192 ≤ s.gtc ∧ field c.pkt.w2.toNat 32 4 = 15 ∧
       c.data = emptySchedule ∧ s.sched = Sched.reset) ∧
    (∀ s : State, s.sched = Sched.reset → (s.judgeSchedule emptySchedule 15).1 = []) ∧
    (let c := { command (pkt 5 0 0) with data := emptySchedule.take 255, due := some 8192 }; ((serving c).judgeSchedule c.data 0).1 ≠ []) ∧
    -- the second frame from now, and the one before it
    (let c := command (pkt 6 15 2)
     let s : State := { serving c with sched := { Sched.reset with images := [(15, emptyImage)] } }
     Dispatched s 7 c ∧ (s.sched.state = .idle ∧ s.gtc / 131072 + 2 ≤ 2 ∧ (s.sched.images.find? 15).isSome = true)) ∧
    (let c := command (pkt 6 15 1)
     let s : State := { serving c with sched := { Sched.reset with images := [(15, emptyImage)] } }
     Dispatched s 7 c ∧ ¬ (s.gtc / 131072 + 2 ≤ 1)) ∧
    (let c := { command (pkt 6 15 2) with addr := 15, due := some (2 * 131072) }
     let s := servingAt (2 * 131072) false c
     (s.cmds.map (·.1)).Nodup ∧ s.cmds.find? 7 = some c ∧ c.pkt.opcode = 6 ∧ c.d.isSome = true ∧ c.fin = none ∧ c.due = some (2 * 131072) ∧
       2 * 131072 ≤ s.gtc ∧ s.activations = [(7, c)]) ∧
    (up.sched.state ≠ .run ∧ (scheduled .run 262145).gtc % 131072 ≠ 0 ∧ (scheduled .run 131072).isBoundary (131072 / 131072) = false) ∧
    (let g := { placedGrid 100 with hdr := { placedHeader with flags := 1 } }
     let s : State := { scheduled .run 262144 with
      grids := [(0, g)], mem := (serving (command (pkt 0 0 0))).mem, tenants := (serving (command (pkt 0 0 0))).tenants }
     s.sched.state = .run ∧ s.gtc % 131072 = 0 ∧ s.isBoundary (s.gtc / 131072) = true ∧ s.podGrids = [(0, g)] ∧ s.grids.find? 0 = some g ∧
       g.stopped = false ∧ (∃ q ∈ g.poss, q.2.blocks ≠ []) ∧
       (s.cellsAt g.part (g.hdr.boundary + g.bcount % 2 * boundarySize g.npos)
         (g.contextImage (g.hdr.boundary + g.bcount % 2 * boundarySize g.npos) PosState.exited)).isSome = true) := by
  unfold Dispatched
  refine ⟨?_, ?_, ⟨by rfl, by decide, by decide, by decide, by decide, by decide, by rfl, by rfl⟩, emptySchedule_ok, ?_, ?_, ?_, ?_, ?_, ?_⟩ <;> decide +kernel

/-- A control record of frame `f` with what it says of a round. -/
def record (f : Nat) (first resume : Option Nat) (zero : Bool) : CtrlRecord := ⟨1, 1, 0, f, first, resume, 0, 0, [7], [(0, 14)], zero⟩

theorem witness_ScheduleImages_records :
    -- in and out of the data slot of a control leaf, with a port that sends and one that is dead
    (∀ st ∈ ([.run, .fault, .agree] : List SchedState), let s := { scheduled st (262144 + 160) with ports := [(1, { Port.fresh with dead := true })] }
     s.live = true ∧ s.fw.tuned = true ∧ s.gtc % 4096 + (s.port 15).delays.get 0 0 = 160 ∧ s.gtc / 4096 % 32 = 0 ∧ s.sends 1 s.gtc = false ∧ s.sends 15 s.gtc = true) ∧
    (let s := { scheduled .run (262144 + 32) with ports := [(15, { Port.fresh with delays := [(0, 128)] })] }
     s.gtc % 4096 + (s.port 15).delays.get 0 0 = 160 ∧ s.sends 15 s.gtc = true ∧ s.gtc % 4096 + (s.port 14).delays.get 0 0 ≠ 160) ∧
    (down.live = false ∧ State.reset.fw.tuned = false ∧ up.gtc % 4096 ≠ 160 ∧ up.gtc / 4096 % 32 ≠ 0) ∧
    ((dedup (up.ownDead ++ up.sched.deadLinks)).length ≤ 1952 ∧ (2 ^ 64 - 1 : Nat) < 2 ^ 64) ∧
    ((record 5 none none false).zeroTail = false ∧ (scheduled .run 0).sched.state = .run ∧ (faulted .fault 524288 0 2).sched.state = .fault) ∧
    ((record 5 none none true).fFirst = none ∧ (record 5 (some 1) none true).fFirst = some 1 ∧ 7 ∈ (record 5 none none true).faulted ∧
      (faulted .fault 524288 0 2).sched.knownFirst = some 2) ∧
    -- a record of frame F_first + 3 that agrees and one that does not, and one of the frame before
    (∀ st ∈ ([.agree, .realign] : List SchedState), let s := faulted st 655360 0 2
     s.sched.state = st ∧ s.sched.first + 3 ≤ (record 5 none none true).frame ∧ (record 4 none none true).frame < s.sched.first + 3 ∧
       (record 5 (some 2) (some 6) true).fFirst = some s.sched.first ∧ (record 5 (some 2) (some 6) true).fResume = some s.sched.resume ∧
       (record 5 (some 2) (some 6) true).imageId.toNat = s.imageId ∧ (record 5 none none true).fFirst ≠ some s.sched.first ∧ s.live = true) := by
  refine ⟨?_, ?_, ?_, ?_, ?_, ?_, ?_⟩ <;> decide +kernel

theorem witness_Resynchronisation :
    (up.sched.state = .idle ∧ (scheduled .run 266240).sched.state ≠ .idle ∧ (scheduled .run 266240).sched.state ≠ .halted ∧
      (scheduled .run 266240).sched.knownFirst = none ∧
      ¬ (266240 / 4096 % 32 = 0 ∧ (scheduled .run 266240).isBoundary (266240 / 131072) = true) ∧
      ((scheduled .run 262144).gtc / 4096 % 32 = 0 ∧ (scheduled .run 262144).isBoundary ((scheduled .run 262144).gtc / 131072) = true)) ∧
    (let s : State := { faulted .run 266240 266239 2 with grids := [(0, { placedGrid 100 with hdr := { placedHeader with flags := 1 } })] }
     s.sched.state = .run ∧ s.gtc % 4096 = 0 ∧ s.sched.faultAt = some 266239 ∧ 266239 < s.gtc ∧ s.sched.held = 0 ∧ s.sched.knownFirst = some 2 ∧
       s.faultDue = true ∧ (s.podGrids.find? fun e => decide (e.1 = 0)).isSome = true) ∧
    -- requests in flight, with and without a fixed end, and no POD grid
    (∀ d ∈ ([none, some 266241] : List (Option Nat)), ∀ fn ∈ ([5, 8] : List Nat), let c := { engCmdOf fn [0] Template.blank with s := some 8000, done := d }
     let s : State := { faulted .run 266240 266239 2 with cmdsE := [(5, c)], warps := [(0, { placedWarp 100 with start := c.inst })] }
     s.podGrids = [] ∧ s.cmdsE.find? 5 = some c ∧ c.ord = 5 ∧ 5 ≤ c.fn ∧ c.fn ≤ 8 ∧ c.s.isSome = true ∧ (c.done.all fun d => decide (s.gtc < d)) = true ∧
       ∃ w ∈ (s.warp? c.warp).toList, w.grid = c.grid ∧ w.start = c.inst) ∧
    (faulted .run 266240 266240 2).faultDue = false ∧
    -- AGREE with an image that qualifies and without
    (let s := faulted .fault (4 * 131072) 266239 2
     s.sched.state = .fault ∧ s.gtc % 4096 = 0 ∧ s.sched.knownFirst = some 2 ∧ (2 + 2) * 131072 ≤ s.gtc) ∧
    ((faulted .fault 524288 0 2).chooseImage [] = some 15 ∧ (faulted .fault 524288 0 2).chooseImage [(0, 14)] = none ∧
    ({ faulted .fault 524288 0 2 with sched := { Sched.reset with images := [(15, { emptyImage with avoid := [(0, 14)] })] } } : State).chooseImage [(0, 14)] = some 15) ∧
    (∀ ok ∈ [false, true], let s : State := { faulted .agree (5 * 131072) 266239 2 with sched := { (faulted .agree (5 * 131072) 266239 2).sched with agreeOk := ok } }
      s.sched.state = .agree ∧ s.gtc % 4096 = 0 ∧ (s.sched.first + 3) * 131072 ≤ s.gtc ∧ s.sched.agreeOk = ok) ∧
    (up.agreeDue = false ∧ up.realignDue = false ∧ up.resumeDue = false) ∧
    (let s := faulted .realign (6 * 131072) 266239 2
     s.sched.state = .realign ∧ s.sched.resume * 131072 ≤ s.gtc ∧ s.relaunches = []) ∧
    (let i : StoredImage := ⟨3, 1, 0, 0x10000, some 2, false, 0, 0⟩
     let s : State := { faulted .realign (6 * 131072) 266239 2 with fw := { up.fw with images := [i] } }
     s.sched.state = .realign ∧ s.sched.resume * 131072 ≤ s.gtc ∧ s.relaunches = [i] ∧ i.start = 0 ∧ i ∈ s.fw.images ∧ i.frame.isSome = true) := by
  refine ⟨?_, ?_, ?_, ?_, ?_, ?_, ?_, ?_, ?_, ?_⟩ <;> decide +kernel

/-- A device of a pod of 512 whose port 15 is as given, on tick t. -/
def ported (t : Nat) (p : Port) : State := { up with gtc := t, sched := { Sched.reset with podSize := some 512 }, ports := [(15, p)] }

/-- A run of port 15 in leaf 2, at position 0. -/
def oneRun (tx : Bool) (use : Nat) (staged : Bool) : Run := ⟨0, 2, 15, tx, use, staged, 0, 1, 0, 0, 0x10000, 1, 15, 8, 0⟩

/-- That device with a schedule of that run active, and a POD grid on its core. -/
def running (t : Nat) (p : Port) (r : Run) : State :=
  { ported t p with
    sched := { (ported t p).sched with state := .run, active := true, images := [(0, { emptyImage with runs := [r] })] }
    grids := [(0, { placedGrid 100 with hdr := { placedHeader with flags := 1, sbase := 1 } })] }

theorem witness_FabricBundles_transmission :
    -- a position without a run, a run that reads scratch, one of records, and one that sends what was staged
    (let s := ported 8160 Port.fresh
     s.readPos = some 0 ∧ s.sends 15 (8160 + 192) = true ∧ s.startPos 15 ≠ some 0 ∧ ¬ Poisons s ∧ s.runAt (s.gtc + 192) 15 true 0 = none ∧
       (s.gtc + 192) / 4096 % 32 ≠ 0) ∧
    (∀ use ∈ ([1, 3] : List Nat), let s := running 8160 Port.fresh (oneRun true use false)
     s.readPos = some 0 ∧ s.sends 15 (s.gtc + 192) = true ∧ s.startPos 15 ≠ some 0 ∧ s.runAt (s.gtc + 192) 15 true 0 = some (oneRun true use false) ∧ ¬ Poisons s) ∧
    (∀ l ∈ ([[], [⟨0, 0, 8160, [], false⟩], [⟨0, 0, 8161, [], false⟩]] : List (List Staged)),
     let s : State := { running 8160 Port.fresh (oneRun true 1 true) with stage := [(0, l)] }
     s.runAt (s.gtc + 192) 15 true 0 = some (oneRun true 1 true) ∧ ∃ h ∈ (s.podHolders 0).head?.toList,
       ((s.stage.get [] (((s.tenant h.g.part).slotBase + 0) * 16 + 0)).find? fun b => decide (b.grid = h.gid ∧ b.num = h.g.sent.get 0 0 ∧ b.ready ≤ s.gtc)) =
         if l = [⟨0, 0, 8160, [], false⟩] then some ⟨0, 0, 8160, [], false⟩ else none) ∧
    -- a start: of a bundle read before, in and out of FAULT, of the last control position, and of one that the longest link launches early
    (∀ st ∈ ([.run, .fault, .agree] : List SchedState), let d : Draft := ⟨0, 2, [1], false, true⟩
     let s := { ported 8352 { Port.fresh with drafts := [d] } with sched := { (ported 8352 Port.fresh).sched with state := st } }
     s.startPos 15 = some 0 ∧ s.sends 15 s.gtc = true ∧ s.controlPos 15 0 = false ∧ s.readPos ≠ some 0 ∧
       (s.port 15).drafts.find? (fun d => decide (d.pos = 0 ∧ d.leaf = s.gtc / 4096)) = some d ∧ s.gtc / 4096 % 32 ≠ 0) ∧
    (let s := ported (262144 + posStart 6) Port.fresh
     s.startPos 15 = some 6 ∧ s.sends 15 s.gtc = true ∧ s.controlPos 15 6 = false ∧ s.readPos ≠ some 6 ∧ s.gtc / 4096 % 32 = 0) ∧
    (let s := ported (8192 + posStart 0 - 128) { Port.fresh with delays := [(2, 128)] }
     s.startPos 15 = some 0 ∧ s.sends 15 s.gtc = true ∧ s.controlPos 15 0 = false ∧ s.readPos ≠ some 0) ∧
    ((ported 8160 Port.fresh).readPos ≠ some 8 ∧ (ported 8160 Port.fresh).startPos 15 ≠ some 8 ∧
      (ported 8160 { Port.fresh with dead := true }).sends 15 (8160 + 192) = false ∧ (ported 262304 Port.fresh).controlPos 15 0 = true) ∧
    -- the largest path delay, and one tick more
    ((ported 8352 { Port.fresh with delays := [(2, 128)] }).sends 15 8352 = true ∧ (ported 8352 { Port.fresh with delays := [(2, 129)] }).sends 15 8352 = false) ∧
    (let s := ported (8192 + posStart 607) { Port.fresh with resend := [561] }
     s.replayDue 15 = some 561 ∧ s.launching 15 = some 607 ∧ s.sends 15 s.gtc = true) ∧
    ((ported 8352 Port.fresh).replayDue 15 = none ∧ (ported 8352 Port.fresh).relayDue 15 = none) ∧
    -- a relayed bundle whose position starts, in and out of FAULT
    (∀ st ∈ ([.idle, .fault] : List SchedState), let r : RelayBuf := ⟨15, 8, 8192, [1], false, false⟩
     let s : State := { ported (8192 + posStart 8) Port.fresh with relays := [r], sched := { Sched.reset with podSize := some 512, state := st } }
     s.relayDue 15 = some r ∧ s.gtc / 4096 % 32 ≠ 0 ∧ decide (s.sched.state = .fault ∨ s.sched.state = .agree) = decide (st = .fault)) := by
  unfold Poisons
  refine ⟨?_, ?_, ?_, ?_, ?_, ?_, ?_, ?_, ?_, ?_, ?_⟩ <;> decide +kernel

/-- A received bundle without verdicts. -/
def rxOf (crcOk replayed : Bool) : RxBundle := ⟨crcOk, 0, [], 0, false, false, replayed, 0, []⟩

theorem witness_FabricBundles_reception :
    (let s := ported 8352 { Port.fresh with locked := some 2 }; s.darkCheck 15 = true ∧ (s.port 15).locked = some (s.gtc / 4096)) ∧
    (∀ d ∈ [false, true], let s := ported 8352 { Port.fresh with dead := d }
      s.darkCheck 15 = true ∧ (s.port 15).locked ≠ some (s.gtc / 4096) ∧ (s.port 15).dead = d) ∧
    (∀ n ∈ ([2, 3] : List Nat), let s := ported 8352 { Port.fresh with darkLeaves := n }
      s.darkCheck 15 = true ∧ (s.port 15).dead = false ∧ decide (3 ≤ (s.port 15).darkLeaves) = decide (n = 3)) ∧
    ((ported 8353 Port.fresh).darkCheck 15 = false ∧ (rxOf true false).crcOk = true ∧ (rxOf false false).crcOk = false) ∧
    -- the first and the last position, before 564 and from 564 on, and the replay of the first; a control leaf
    (∀ e ∈ ([(0, 0, false), (614, 614, false), (564, 564, false), (562, 562, false), (0, replayPos 0, true)] : List (Nat × Nat × Bool)),
     let s := ported (8192 + posEnd e.2.1) { Port.fresh with locked := some 2 }
     s.live = true ∧ (s.port 15).locked = some (s.gtc / 4096) ∧ s.paired 15 (s.gtc / 4096 % 32) = true ∧ s.arrives e.1 e.2.2 = true ∧
       s.linkDead 15 (s.gtc / 4096 % 32) = false) ∧
    (∀ k ∈ ([0, 6] : List Nat), let s := ported (262144 + posEnd k) { Port.fresh with locked := some 64 }
     (s.port 15).locked = some (s.gtc / 4096) ∧ s.paired 15 (s.gtc / 4096 % 32) = true ∧ s.arrives k false = true ∧ s.gtc / 4096 % 32 = 0) ∧
    ((ported 8192 Port.fresh).arrives 0 false = false ∧ (ported 8192 Port.fresh).paired 0 0 = false) ∧
    -- what lands, of each use, whole and not, its loss raised or not
    (∀ use ∈ ([1, 2, 3] : List Nat), ∀ ok ∈ [false, true], ∀ raised ∈ [false, true],
      let b : LandBuf := ⟨0, 2, 8192 + landTick 0, ok, raised, false, false, 0, [1]⟩
      let s := running (8192 + landTick 0) { Port.fresh with lands := [b] } (oneRun false use false)
      s.gtc = s.gtc / 4096 * 4096 + landTick 0 ∧ 0 ∈ s.landsNow 15 ∧ s.MemOk ∧ s.applied = [] ∧
        (s.port 15).lands.find? (fun x => decide (x.pos = 0 ∧ x.leaf = s.gtc / 4096)) = some b ∧
        s.runAt (s.gtc / 4096 * 4096) 15 false 0 = some (oneRun false use false) ∧
        ((s.runCells 0 0x10000)[4095]?.bind id).isSome = true) ∧
    (let s := ported (8192 + landTick 0) Port.fresh
     0 ∈ s.landsNow 15 ∧ (s.port 15).lands.find? (fun x => decide (x.pos = 0 ∧ x.leaf = s.gtc / 4096)) = none ∧ s.linkDead 15 (s.gtc / 4096 % 32) = false) := by
  refine ⟨?_, ?_, ?_, ?_, ?_, ?_, ?_, ?_, ?_⟩ <;> decide +kernel

/-- A request record of a kind for `len` bytes at `addr` of core 0 of this device, from queue 15 of core 0 of device `dev`. -/
def recordOf (kind len addr dev : Nat) (data : List Byte) : FabRecord :=
  ⟨BitVec.ofNat 128 (kind * 2 ^ 124 + (len / 16 - 1) * 2 ^ 114 + dev * 2 ^ 105 + 15 * 2 ^ 93 + 3 * 2 ^ 77 + addr), data, 8, false⟩

/-- A device whose grid has a landing region of 2,048 B at address 0 of core 0. -/
def landing : State := { up with grids := [(0, { placedGrid 100 with land := [(0, 0, 2048)] })] }

/-- A fabric command of queue 15 with tag 3, for 16 bytes, in flight. -/
def inFlight (fn : Nat) (done : Option Nat) : EngCmd :=
  { engCmdOf fn [0x3C0000, 0, 0, 0, 0, 0, 0x10, 0x20] { Template.blank with ext := [16, 2] } with
    queue := 15, tag := 3, s := some 8000, done := done, idx := [1, 0x202] }

theorem witness_FabricRequests :
    (recordOf 7 16 0 1 []).bad = true ∧
    -- the last 16 bytes of the region, and all of it
    (∀ k ∈ ([1, 2, 4] : List Nat), (recordOf k 16 2032 1 []).bad = false ∧ (recordOf k 16 2032 1 []).kind = k ∧
      (landing.landGrid (recordOf k 16 2032 1 []).dcore (recordOf k 16 2032 1 []).daddr (if k = 4 then 4 else (recordOf k 16 2032 1 []).len)).isSome = true) ∧
    ((landing.landGrid 0 (recordOf 1 2048 0 1 []).daddr (recordOf 1 2048 0 1 []).len).isSome = true ∧ landing.MemOk ∧ landing.applied = [] ∧
      (recordOf 4 16 2032 1 []).daddr % 4 = 0 ∧ (recordOf 4 16 2032 1 []).afn = 0 ∧ landing.live = true ∧ landing.recs = []) ∧
    -- each function of an atomic
    (∀ f ∈ List.range 8, let r := { recordOf 4 16 2032 1 [] with desc := (recordOf 4 16 2032 1 []).desc ||| BitVec.ofNat 128 (f * 2 ^ 121) }
      r.bad = false ∧ r.kind = 4 ∧ r.afn = f) ∧
    -- an answer that has read its bytes, and one that reads them at the end of the tick
    (let s : State := { landing with recs := [⟨8392, 1, 0, [1], false, none, 0, []⟩, ⟨8392, 1, 0, [], false, none, 0, [0, 1]⟩] }
     (s.recs[0]?.map fun r => r.fetch) = some [] ∧ (s.recs[1]?.map fun r => r.fetch) = some [0, 1]) ∧
    (landing.landGrid 0 (recordOf 1 2048 1 1 []).daddr (recordOf 1 2048 1 1 []).len = none ∧ (recordOf 4 16 2 1 []).daddr % 4 ≠ 0) ∧
    (∀ e ∈ ([(3, 6), (5, 7)] : List (Nat × Nat)), let c := inFlight e.2 none
      let r := recordOf e.1 16 0 0 (List.replicate 16 9)
      r.bad = false ∧ r.kind = e.1 ∧ r.odev = (engaged c).sched.podNumber ∧ (engaged c).fabricCmd e.2 r.ocore r.oq r.tag = some c ∧
        (engaged c).cmdsE.find? c.ord = some c ∧ c.killed = false ∧ c.done = none ∧ (engaged c).MemOk ∧ c.inc = 0 ∧ (engaged c).applied = [] ∧
        (∀ f ∈ List.range e.2, (engaged c).fabricCmd f r.ocore r.oq r.tag = none) ∧
        ∃ w ∈ ((engaged c).warp? c.warp).toList, w.grid = c.grid ∧ w.start = c.inst) ∧
    ((recordOf 3 16 0 1 []).odev ≠ up.sched.podNumber ∧ up.fabricCmd 6 0 15 3 = none) ∧
    (∀ fn ∈ ([5, 6, 7, 8] : List Nat), up.fabricCmd fn 0 15 3 = none) ∧
    (let c := inFlight 5 (some 8100)
     (engaged c).fabricCmd 5 0 15 3 = some c ∧ ∃ w ∈ ((engaged c).warp? c.warp).toList, w.grid = c.grid ∧ w.start = c.inst) ∧
    (let c := inFlight 8 none
     (engaged c).fabricCmd 8 0 15 3 = some c ∧ (engaged c).cmdsE.find? c.ord = some c ∧ ∀ f ∈ ([5, 6, 7] : List Nat), (engaged c).fabricCmd f 0 15 3 = none) ∧
    -- a multicast whose second member failed, and one where none did
    (∀ m ∈ ([2, 0] : List Nat), let c := { inFlight 8 (some 8192) with failMask := m }
      (engaged c).resolving = [c] ∧ (engaged c).cmdsE.find? c.ord = some c ∧ c.killed = false ∧ (engaged c).MemOk ∧
        c.failMask % 2 ^ c.tpl.e 1 = m ∧ m < 2 ^ 64 ∧ (c.spanBytes (c.word 6) 8).Nodup ∧ (engaged c).applied = [] ∧
        ∃ w ∈ ((engaged c).warp? c.warp).toList, w.grid = c.grid ∧ w.start = c.inst) := by
  refine ⟨?_, ?_, ?_, ?_, ?_, ?_, ?_, ?_, ?_, ?_, ?_, ?_⟩ <;> decide +kernel

theorem witness_SpdmMessages :
    (down.live = false ∧ up.live = true ∧ (0x12 : BitVec 8) ≠ 0x13 ∧ (1 : Nat) ≠ 0) ∧
    (up.sec.power ≠ 2 ∧ ({ up with sec := { Security.reset with power := 2 } } : State).sec.wakeAt = none) ∧
    (up.sec.revoked = false ∧ ({ up with sec := { Security.reset with revoked := true } } : State).sec.revoked = true) ∧
    (1 ≤ 6 ∧ (6 : Nat) ≤ 6) ∧
    (let s : State := { up with link := { Link.reset with opening := [1], sessions := [(2, 40)] } }
     1 ∈ s.link.opening ∧ 2 ∉ s.link.opening ∧ s.hasSession 2 = true ∧ s.hasSession 1 = false) := by decide

/-- A device with session 1 of tenant 40 open, and partition 3 as given. -/
def secured (t : Tenant) : State := { up with link := { Link.reset with sessions := [(1, 40)] }, tenants := [(3, t)] }

/-- A partition that tenant 40 owns. -/
def owned : Tenant := { Tenant.fresh with sealed := true, owner := 40, regions := [511], shape := 4, debugKey := some [1], ideBound := true }

/-- A SEAL message for a partition. -/
def sealing (p : Nat) : SealMsg := ⟨p, 0, 0, [0]⟩

theorem witness_PartitionsDebugPower_partitions :
    down.live = false ∧
    -- a whole table, one whose last entry reaches beyond the device, and modes that change and do not
    (up.tableOk [⟨3, 0, 0, [511], []⟩] = true ∧ up.tableOk [⟨0, 4, 240, [511], [511]⟩] = true ∧ up.tableOk [⟨0, 0, 256, [], []⟩] = false ∧
      up.tableOk [⟨0, 0, 0, [512], []⟩] = false ∧ up.MemOk ∧ up.regionMapped 511 = false ∧ up.localRegions.contains 511 = false) ∧
    (let s := secured { Tenant.fresh with present := true }
     s.hasSession 1 = true ∧ (s.tenant (sealing 3).part).present = true ∧ ((secured Tenant.fresh).tenant 3).present = false ∧ (sealing 3).part < 4 ∧ s.hasContext 3 = false ∧ s.partBusy 3 = false ∧ (s.tenant 3).sealed = false ∧ s.zeroingOf 3 = false ∧
       s.sec.revoked = false ∧ s.link.sessions.find? 1 = some 40 ∧ s.hasSession 2 = false ∧ 4 ≤ (sealing 4).part ∧ s.isOwner 1 3 = false) ∧
    ((secured owned).isOwner 1 3 = true ∧ (secured owned).zeroingOf 3 = false ∧ ((secured owned).tenant 3).sealed = true) ∧
    -- a dispatched context of the partition, and keys of zeros and of others
    (let s : State := { secured owned with grids := [(0, { placedGrid 100 with part := 3 })], warps := [(0, { placedWarp 100 with part := 3 })] }
     s.isOwner 1 3 = true ∧ s.zeroingOf 3 = false ∧ ∃ g ∈ (s.grids.find? 0).toList, g.part = 3 ∧ g.d.isSome = true ∧ g.status = none) ∧
    ((∀ b ∈ (sealing 3).debugKey, b = 0) ∧ ¬ ∀ b ∈ ({ sealing 3 with debugKey := [0, 1] } : SealMsg).debugKey, b = 0) ∧
    (∀ z ∈ ([.seal, .release, .vendor] : List ZeroFor), let s : State := { secured owned with sec := { Security.reset with zeroing := [(z, 3, 8000)] } }
      s.live = true ∧ s.MemOk ∧ s.zeroingFor z 3 = true ∧ s.zeroingOf 3 = true ∧ up.zeroingFor z 3 = false ∧ s.vendorTakes 3 = true ∧ s.vendorTakes 2 = false) := by
  refine ⟨?_, ?_, ?_, ?_, ?_, ?_, ?_⟩ <;> decide +kernel

/-- A sealed partition whose page tables map 2 MiB at virtual and physical address 0. -/
def sealedMap : State :=
  { secured { owned with regions := [0], ptRoot := 0x10000, ptValid := true } with mem := (serving (command (pkt 0 0 0))).mem }

theorem sealedMap_translate (va : Nat) (h : va < 2 ^ 21) : sealedMap.translate 3 va = some (va, true) := by
  have h0 : field va 39 12 = 0 := by unfold field; omega
  have h1 : field va 30 9 = 0 := by unfold field; omega
  have h2 : field va 21 9 = 0 := by unfold field; omega
  have w : sealedMap.walkNow 3 va 4 0 0x10000 = some ⟨0, 0x200000, 0, true⟩ := by
    have e0 : sealedMap.natAt 0x10000 8 = 9223372036854845440 := by decide +kernel
    have e1 : sealedMap.natAt 0x11000 8 = 9223372036854849536 := by decide +kernel
    have e2 : sealedMap.natAt 0x12000 8 = 16140901064495857664 := by decide +kernel
    have j0 : sealedMap.ptJudge 3 0 va (9223372036854845440) = .table 0x11000 := by rfl
    have j1 : sealedMap.ptJudge 3 1 va (9223372036854849536) = .table 0x12000 := by rfl
    have j2 : sealedMap.ptJudge 3 2 va (16140901064495857664) = .page ⟨va / 0x200000 * 0x200000, 0x200000, 0, true⟩ := by
      rfl
    have hv : va / 0x200000 * 0x200000 = 0 := by omega
    simp [State.walkNow, ptEntryAddr, h0, h1, h2, e0, e1, e2, j0, j1, j2, hv]
  have t : (sealedMap.tenant 3).ptValid = true ∧ (sealedMap.tenant 3).ptRoot = 0x10000 := by decide +kernel
  have hlt : ¬ (0x8000000000000 ≤ va) := by omega
  simp only [State.translate, t.1, t.2, w, Page.translate]
  simp [hlt]
  omega

/-- The same with the first byte of the record poisoned. -/
def sealedMarked : State := { sealedMap with poison := [(0x1FF000, .ecc)] }

theorem witness_PartitionsDebugPower_tenants :
    ((secured Tenant.fresh).isOwner 1 3 = false ∧ (secured owned).isOwner 1 3 = true) ∧
    ((secured owned).hasContext 3 = false ∧ ({ secured owned with grids := [(0, { placedGrid 0 with part := 3 })] } : State).hasContext 3 = true ∧
      (1 : BitVec 64).getLsbD 0 = true) ∧
    (((secured Tenant.fresh).tenant 3).sealed = false ∧ ((secured { owned with ideBound := false }).tenant 3).ideBound = false ∧
      (some 2 : Option (Fin 4)) ≠ some 3 ∧ (List.replicate 2 (0 : Byte)).length ≠ 4096) ∧
    (sealedMap.live = true ∧ (sealedMap.tenant 3).sealed = true ∧ (sealedMap.tenant 3).ideBound = true) ∧
    -- 4 KiB that are mapped to the last byte, and 4 KiB of which one byte is not
    (List.range 4096).map (fun k => sealedMap.translate 3 (0x1FF000 + k)) = ((List.range 4096).map fun k => (0x1FF000 + k, true)).map some ∧
    -- the same with a poisoned byte among them
    ((∀ va, sealedMarked.translate 3 va = sealedMap.translate 3 va) ∧ sealedMarked.markAt 0x1FF000 ≠ none ∧ sealedMap.poison = []) ∧
    (sealedMap.translate 3 (0x1FF001 + 4095) = none ∧ (sealedMap.cellsAt 3 0x1FF000 (List.replicate 4096 0)).isSome = true) := by
  refine ⟨by decide +kernel, by decide +kernel, by decide +kernel, by decide +kernel, ?_, ⟨fun _ => rfl, by decide +kernel, rfl⟩, by decide +kernel, by decide +kernel⟩
  rw [List.map_map]
  refine List.map_congr_left fun k hk => ?_
  rw [List.mem_range] at hk
  exact sealedMap_translate _ (by omega)

/-- A device with one warp in partition 3 and tenant debug or not. -/
def debugged (on : Bool) (ph : SPhase) (halt : Bool) : State :=
  { secured { owned with tdebug := on } with
    warps := [(0, { placedWarp 0 with part := 3, exe := { placedStrm with phase := ph, halted := halt } })], grids := [(0, placedGrid 0)] }

theorem witness_PartitionsDebugPower_unlocking :
    (let s : State := { secured owned with sec := { Security.reset with nonce := some 5 } }
     (s.tenant 3).debugKey = some [1] ∧ s.sec.nonce = some 5 ∧ s.isOwner 1 3 = true ∧ s.zeroingOf 3 = false ∧ s.sec.revoked = false ∧
       s.zeroingFor .vendor 0 = false) ∧
    ((secured owned).sec.nonce = none ∧ (secured { owned with tdebug := true }).isOwner 1 3 = true ∧
      ((secured { owned with tdebug := true }).tenant 3).tdebug = true ∧ ((secured owned).tenant 3).tdebug = false) ∧
    (∃ w ∈ ((debugged false .idle false).warp? 0).toList, (debugged false .idle false).mayDebug 1 w.part = false) ∧
    (let s : State := { debugged true .idle false with link := { (secured owned).link with d3 := true } }
     s.mayDebug 1 3 = true ∧ s.link.d3 = true ∧ s.sec.vendor = false ∧ ∃ w ∈ (s.warp? 0).toList, w.part = 3) := by
  refine ⟨?_, ?_, ?_, ?_⟩ <;> decide +kernel

theorem witness_PartitionsDebugPower_streams :
    -- each phase, halted and not
    (∀ ph ∈ ([.idle, .inRun, .exited, .parked .debug] : List SPhase), ∀ h ∈ [false, true], let s := debugged true ph h
      s.live = true ∧ s.link.d3 = false ∧ s.mayDebug 1 3 = true ∧ ∃ w ∈ (s.warp? 0).toList, w.part = 3 ∧ (w.strm .exe).phase = ph ∧ (w.strm .exe).halted = h) ∧
    -- a stream that is parked on a brk, and one that is not
    (let s : State := ({ debugged true (.parked .debug) false with
        warps := [(0, { placedWarp 0 with part := 3, exe := { placedStrm with phase := .parked .debug, trapcause := 0x80008000 } })] } : State).putCells
       (plainCells (scratchBase 0 + 94 * 65536) (wordBytes 32 0b0001101_1111100_1111100_111111_00_0_1_1))
     s.fetch 0 .exe = .brk ⟨true⟩ ∧ s.mayDebug 1 3 = true ∧ ∃ w ∈ (s.warp? 0).toList, w.part = 3 ∧ s.gridOf w = some (placedGrid 0) ∧
       (w.strm .exe).phase = .parked .debug ∧ (w.strm .exe).unhandled (placedGrid 0).hdr.codelen = false) ∧
    (let s := debugged true (.parked .debug) false; (match s.fetch 0 .exe with
      | .brk _ => false
      | _ => true) = true) ∧
    -- the last byte of the partition's region, and the one beyond it
    (let s := debugged true .idle false
     s.debugReach 3 (2 ^ 39 - 1) = true ∧ s.debugReach 3 (2 ^ 39) = false ∧ s.MemOk ∧ (debugged false .idle false).mayDebug 1 3 = false) ∧
    -- a device that is idle, which the request wakes; the vendor debug state and without
    (let s : State := { debugged true .idle false with sec := { Security.reset with power := 2 } }
     s.live = true ∧ s.mayDebug 1 3 = true ∧ s.sec.vendor = false ∧ s.sec.power = 2 ∧ s.sec.wakeAt = none) ∧
    (let s : State := { debugged false .idle false with sec := { Security.reset with vendor := true } }
     s.live = true ∧ s.mayDebug 1 3 = true ∧ s.sec.vendor = true ∧ (debugged true .idle false).sec.vendor = false) ∧
    -- a bound guard slot and an unbound one, a divergence entry, and latches
    (let st := guarded 1 { placedStrm with stack := [⟨true, 5, code0⟩] }
     (st.guards.find? 1).isSome = true ∧ st.guards.find? 2 = none ∧ (st.stack[0]?).isSome = true ∧ (st.latches[3]?).isSome = true ∧
       (st.shadow[3]?).isSome = true) := by
  refine ⟨?_, ?_, ?_, ?_, ?_, ?_, ?_⟩ <;> decide +kernel

theorem witness_PartitionsDebugPower_power :
    -- 64 t and 63 t without a warp, on a core without and with one
    (∀ u ∈ ([8128, 8129] : List Nat), let s : State := { up with sec := { Security.reset with outs := [(255, u), (0, u)] }, warps := [(0, placedWarp 0)] }
      (255, u) ∈ s.sec.outs ∧ (0, u) ∈ s.sec.outs ∧ decide (u + 64 ≤ s.gtc) = decide (u = 8128) ∧ (∀ e ∈ s.warps, e.2.core ≠ 255) ∧ ∃ e ∈ s.warps, e.2.core = 0) ∧
    (let s : State := { up with gtc := 1300000 }
     s.live = true ∧ s.fw.ready = true ∧ s.sec.power = 0 ∧ s.link.d3 = false ∧ s.quietNow = true ∧ s.sec.lastBusy + 1300000 ≤ s.gtc) ∧
    (let s : State := { up with gtc := 1299999 }; s.gtc < s.sec.lastBusy + 1300000) ∧
    (let s : State := { up with sec := { Security.reset with power := 2, wakeAt := some 8192 } }; s.sec.wakeAt = some 8192 ∧ 8192 ≤ s.gtc) ∧
    ({ up with sec := { Security.reset with power := 2, wakeAt := some 8193 } } : State).gtc < 8193 := by
  refine ⟨?_, ?_, ?_, ?_, ?_⟩ <;> decide +kernel

/-! ### One step: values worked out by hand from the spec -/

/-- What the instruction run on tick 100 leaves for register 5: the tick on which it lands and the words of lanes 0 and 31. -/
def result (i : Instr) (rs : Tab Word) : Option (Nat × Word × Word) :=
  match exec i (demoRegs .exe rs) with
  | .next t => (t.warp? 0).bind fun w => w.landings.findSome? fun l => match l.eff with
      | .vec (.reg 5) (some r) _ => some (l.tick, r.lane 0, r.lane 31)
      | _ => none
  | _ => none

/-- `d, a, b` of v5, v6, v7. -/
def abc : T3 := ⟨.v 5, .v 6, .v 7, 0, false, false⟩
def abd : T3d := ⟨.v 5, .v 6, .v 7, 0, false⟩
def two (a b : Word) : Tab Word := [(6, a), (7, b)]

/-- R296: order of the operands, wrapping, and the exact upper half. -/
theorem test_arithmetic :
    result (.isub abc) (two 3 5) = some (101, 0xFFFFFFFE, 0xFFFFFFFE) ∧ result (.iadd abc) (two 0xFFFFFFFF 2) = some (101, 1, 1) ∧
    result (.imulh abc) (two 0xFFFFFFFF 2) = some (103, 0xFFFFFFFF, 0xFFFFFFFF) ∧ result (.imulhu abc) (two 0xFFFFFFFF 2) = some (103, 1, 1) ∧
    result (.iabsd abc) (two 0x7FFFFFFF 0x80000000) = some (101, 0xFFFFFFFF, 0xFFFFFFFF) ∧
    result (.imin abc) (two 0x80000000 1) = some (101, 0x80000000, 0x80000000) ∧ result (.iminu abc) (two 0x80000000 1) = some (101, 1, 1) := by decide

/-- R297: a count is the whole word. -/
theorem test_shifts :
    result (.shl abc) (two 1 32) = some (101, 0, 0) ∧ result (.shl abc) (two 3 31) = some (101, 0x80000000, 0x80000000) ∧
    result (.shr abc) (two 0x80000000 33) = some (101, 0, 0) ∧ result (.sar abc) (two 0x80000000 32) = some (101, 0xFFFFFFFF, 0xFFFFFFFF) ∧
    result (.andn abc) (two 0xFF 0x0F) = some (101, 0xF0, 0xF0) := by decide

/-- R298: length 0, a length beyond bit 31, a signed field; R299: the spec's example. -/
theorem test_fields :
    result (.bfx ⟨.v 5, .v 6, 0, false⟩) [(6, 0xFFFFFFFF), (5, 0)] = some (101, 0, 0) ∧
    result (.bfx ⟨.v 5, .v 6, 0, false⟩) [(6, 0x80000000), (5, 0x60FE)] = some (101, 0xFFFFFFFE, 0xFFFFFFFE) ∧
    result (.bfi abd) [(6, 0xA), (7, 0xFFFFFFFF), (5, 0x404)] = some (101, 0xFFFFFFAF, 0xFFFFFFAF) ∧
    result (.bperm abd) [(6, 0x88776655), (7, 0x44332211), (5, 0x00041263)] = some (101, 0x0011FF88, 0x0011FF88) := by decide

/-- R302: the low half stays. -/
theorem test_movih : result (.movih ⟨0x1234, .v 5, false⟩) [(5, 0x5678)] = some (101, 0x12345678, 0x12345678) := by decide

/-- IEEE 754 by hand: 1 + 2^-24 rounds to even, 1.5 × 1.5 + 1, 1 / 0. -/
theorem test_float :
    result (.fadd abc) (two 0x3F800000 0x33800000) = some (104, 0x3F800000, 0x3F800000) ∧
    result (.fadd abc) (two 0x3F800001 0x33800000) = some (104, 0x3F800002, 0x3F800002) ∧
    result (.ffma abd) [(6, 0x3FC00000), (7, 0x3FC00000), (5, 0x3F800000)] = some (104, 0x40500000, 0x40500000) := by decide +kernel

/-- R329: a trap that a handler takes: the cause, the program counter, and the trap mask. -/
theorem test_trap :
    (match exec (.trap ⟨false⟩) (demoSt .exe fun st => { st with trapcause := 0x80008000 }) with
      | .next t => (t.warp? 0).map fun w => (w.exe.trapActive, w.exe.trappc.toNat, w.exe.pc)
      | _ => none) = some (true, 94 * 65536, 94 * 65536 + 2) := by decide

/-- `exit` ends the stream. -/
theorem test_exit :
    (match exec (.exit ⟨0⟩) (demo .exe) with
      | .next t => (t.warp? 0).map fun w => decide (w.exe.phase = .exited)
      | _ => none) = some true := by decide

end
end

section
/-! SUPPORT. Memory: what a byte and its mark read after cells and bits are written (R3, R334), and what the writes that are due
leave, in write order (R188, R190). -/

namespace Sys2Proof.Machine

/-! ### One byte -/

theorem State.byteAt_putByte_self {s : State} (a : Nat) (b : Byte) (m : Option MCls) (h : s.MemOk) : (s.putByte a b m).byteAt a = b :=
  Mem.read_write_self a b h

theorem State.byteAt_putByte_ne {s : State} {a x : Nat} (b : Byte) (m : Option MCls) (hx : x ≠ a) (h : s.MemOk) :
    (s.putByte a b m).byteAt x = s.byteAt x := Mem.read_write_ne b hx h

@[simp] theorem State.markAt_putByte_self (s : State) (a : Nat) (b : Byte) (m : Option MCls) : (s.putByte a b m).markAt a = m := by
  cases m with
  | none => exact Tab.find?_del_self s.poison a
  | some c => exact Tab.find?_put_self s.poison a c

theorem State.markAt_putByte_ne (s : State) {a x : Nat} (b : Byte) (m : Option MCls) (hx : x ≠ a) :
    (s.putByte a b m).markAt x = s.markAt x := by
  cases m with
  | none => exact Tab.find?_del_ne s.poison hx
  | some c => exact Tab.find?_put_ne s.poison c hx

/-! ### Cells in order -/

theorem State.putCells_append (s : State) (l r : List (Nat × Byte × Option MCls)) : s.putCells (l ++ r) = (s.putCells l).putCells r :=
  List.foldl_append ..

/-- Cells written leave every mark whose address is not among theirs. -/
theorem State.markAt_putCells_of_notMem {s : State} (cs : List (Nat × Byte × Option MCls)) {a : Nat} (ha : ∀ c ∈ cs, c.1 ≠ a) :
    (s.putCells cs).markAt a = s.markAt a := by
  induction cs generalizing s with
  | nil => rfl
  | cons c r ih =>
    obtain ⟨hc, hr⟩ := List.forall_mem_cons.mp ha
    exact (ih hr).trans (State.markAt_putByte_ne s c.2.1 c.2.2 (Ne.symm hc))

/-- The last cell of an address gives its byte and its mark. -/
theorem State.putCells_last (s : State) (pre post : List (Nat × Byte × Option MCls)) (a : Nat) (b : Byte) (m : Option MCls)
    (h : s.MemOk) (hpost : ∀ c ∈ post, c.1 ≠ a) :
    (s.putCells (pre ++ (a, b, m) :: post)).byteAt a = b ∧ (s.putCells (pre ++ (a, b, m) :: post)).markAt a = m := by
  have hpre : (s.putCells pre).MemOk := State.putCells_wf pre h
  have hput : ((s.putCells pre).putByte a b m).MemOk := State.putByte_wf a b m hpre
  rw [State.putCells_append]
  exact ⟨(State.byteAt_putCells_of_notMem post hput hpost).trans (State.byteAt_putByte_self a b m hpre),
    (State.markAt_putCells_of_notMem post hpost).trans (State.markAt_putByte_self _ a b m)⟩

/-! ### Bits of a byte -/

theorem State.putBits_bit {s : State} (a : Nat) (b mask : Byte) (m : Option MCls) (h : s.MemOk) {i : Nat} (hi : i < 8) :
    ((s.putBits (a, b, mask, m)).byteAt a).getLsbD i = if mask.getLsbD i then b.getLsbD i else (s.byteAt a).getLsbD i := by
  unfold State.putBits
  rw [State.byteAt_putByte_self _ _ _ h, BitVec.getLsbD_or, BitVec.getLsbD_and, BitVec.getLsbD_and, BitVec.getLsbD_not]
  cases mask.getLsbD i <;> simp only [hi] <;> simp

theorem readsLastWrite : ReadsLastWrite := by
  intro s cs h
  refine ⟨State.putCells_wf cs h, fun a ha => ⟨State.byteAt_putCells_of_notMem cs h ha, State.markAt_putCells_of_notMem cs ha⟩, ?_, ?_⟩
  · rintro pre a b m post rfl hpost
    exact s.putCells_last pre post a b m h hpost
  · exact fun a b mask m => ⟨State.putBits_wf _ h, fun i hi => State.putBits_bit a b mask m h hi,
      fun x hx => ⟨State.byteAt_putByte_ne _ _ hx h, State.markAt_putByte_ne s _ _ hx⟩⟩

/-! ### Write order -/

theorem PWrite.before_iff (a b : PWrite) :
    a.before b = true ↔ [a.wct, a.cls, a.wid, a.src, a.seq] < [b.wct, b.cls, b.wid, b.src, b.seq] := decide_eq_true_iff

/-- Write order is total: where y is not before x and z not before y, z is not before x. -/
theorem PWrite.not_before_trans {x y z : PWrite} (hxy : y.before x = false) (hyz : z.before y = false) : z.before x = false := by
  simp only [← Bool.not_eq_true, PWrite.before_iff, not_lt] at *
  exact hxy.trans hyz

theorem PWrite.before_asymm {x y : PWrite} (h : x.before y = true) : y.before x = false := by
  simp only [← Bool.not_eq_true, PWrite.before_iff, not_lt] at *
  exact h.le

/-- A list of writes in write order: none is before one that stands ahead of it. -/
def InWriteOrder (l : List PWrite) : Prop := l.Pairwise fun x y => y.before x = false

theorem InWriteOrder.insertBy {l : List PWrite} (x : PWrite) (h : InWriteOrder l) : InWriteOrder (insertBy PWrite.before x l) := by
  induction l with
  | nil => exact List.pairwise_singleton ..
  | cons y ys ih =>
    obtain ⟨hy, hys⟩ := List.pairwise_cons.mp h
    unfold Sys2Proof.insertBy
    split
    case isTrue hlt =>
      refine List.pairwise_cons.mpr ⟨fun z hz => ?_, ih hys⟩
      rcases mem_insertBy.mp hz with rfl | hz
      · exact PWrite.before_asymm hlt
      · exact hy z hz
    case isFalse hlt =>
      have hyx : y.before x = false := Bool.eq_false_iff.mpr hlt
      refine List.pairwise_cons.mpr ⟨List.forall_mem_cons.mpr ⟨hyx, fun z hz => PWrite.not_before_trans hyx (hy z hz)⟩, h⟩

theorem inWriteOrder_sortBy (l : List PWrite) : InWriteOrder (sortBy PWrite.before l) := by
  induction l with
  | nil => exact List.Pairwise.nil
  | cons x r ih => exact ih.insertBy x

/-! ### The writes that are due -/

/-- A write of bytes alone: no atomic operation, counter add, bits or answer. -/
def PWrite.BytesOnly (w : PWrite) : Prop := w.atoms = [] ∧ w.add = none ∧ w.ret = .none ∧ w.bits = []

/-- The states agree in memory, its marks and the writes in flight; what a tick's writes keep beside them (the history, the bytes that the
tick found) may differ. -/
def State.SameMemory (s t : State) : Prop := t.mem = s.mem ∧ t.poison = s.poison ∧ t.writes = s.writes

theorem State.remember_same (s : State) (as : List Nat) : s.SameMemory (s.remember as) := by
  unfold State.remember; dsimp only; split <;> exact ⟨rfl, rfl, rfl⟩

@[simp] theorem State.putCells_writes (s : State) (cs : List (Nat × Byte × Option MCls)) : (s.putCells cs).writes = s.writes := by
  induction cs generalizing s with
  | nil => rfl
  | cons c r ih => exact ih _

theorem State.SameMemory.putCells {s t : State} (h : s.SameMemory t) (cs : List (Nat × Byte × Option MCls)) :
    (s.putCells cs).SameMemory (t.putCells cs) := by
  induction cs generalizing s t with
  | nil => exact h
  | cons c r ih =>
    obtain ⟨hm, hp, hw⟩ := h
    refine ih (s := s.putByte c.1 c.2.1 c.2.2) (t := t.putByte c.1 c.2.1 c.2.2) ⟨?_, ?_, hw⟩
    · simp only [State.putByte, hm]
    · simp only [State.putByte, hp]

/-- A write of bytes alone writes its cells. -/
theorem State.applyWrite_bytesOnly (s : State) {w : PWrite} (hw : w.BytesOnly) : (s.putCells w.cells).SameMemory (s.applyWrite w) := by
  obtain ⟨hatoms, hadd, hret, hbits⟩ := hw
  have hsame : s.SameMemory ((s.keepBase w.addrs).remember (w.cells.map (·.1) ++ w.bits.map (·.1))) :=
    State.remember_same (s.keepBase w.addrs) _
  have heq : s.applyWrite w =
      ((s.keepBase w.addrs).remember (w.cells.map (·.1) ++ w.bits.map (·.1))).putCells w.cells := by
    unfold State.applyWrite; simp only [hatoms, hadd, hret, hbits]; rfl
  exact heq ▸ hsame.putCells w.cells

theorem State.SameMemory.byteAt {s t : State} (h : s.SameMemory t) (a : Nat) : t.byteAt a = s.byteAt a := congrArg (Mem.read · a) h.1

theorem State.SameMemory.markAt {s t : State} (h : s.SameMemory t) (a : Nat) : t.markAt a = s.markAt a := congrArg (Tab.find? · a) h.2.1

/-- Writes of bytes alone leave the writes in flight, and the byte and the mark of every address that none of them names. -/
theorem State.applyWrites_of_notMem {s : State} {l : List PWrite} {a : Nat} (h : s.MemOk) (hl : ∀ w ∈ l, w.BytesOnly)
    (ha : ∀ w ∈ l, ∀ c ∈ w.cells, c.1 ≠ a) :
    (l.foldl State.applyWrite s).byteAt a = s.byteAt a ∧ (l.foldl State.applyWrite s).markAt a = s.markAt a := by
  induction l generalizing s with
  | nil => exact ⟨rfl, rfl⟩
  | cons w r ih =>
    obtain ⟨hw, hr⟩ := List.forall_mem_cons.mp hl
    obtain ⟨haw, har⟩ := List.forall_mem_cons.mp ha
    have hsame := s.applyWrite_bytesOnly hw
    obtain ⟨hbyte, hmark⟩ := ih (State.applyWrite_wf w h) hr har
    exact ⟨hbyte.trans ((hsame.byteAt a).trans (State.byteAt_putCells_of_notMem w.cells h haw)),
      hmark.trans ((hsame.markAt a).trans (State.markAt_putCells_of_notMem w.cells haw))⟩

theorem State.applyWrites_writes {s : State} {l : List PWrite} (hl : ∀ w ∈ l, w.BytesOnly) :
    (l.foldl State.applyWrite s).writes = s.writes := by
  induction l generalizing s with
  | nil => rfl
  | cons w r ih =>
    obtain ⟨hw, hr⟩ := List.forall_mem_cons.mp hl
    obtain ⟨-, -, hwrites⟩ := s.applyWrite_bytesOnly hw
    exact (ih hr).trans (hwrites.trans (State.putCells_writes s w.cells))

/-- Of writes in write order, the one that every other write of an address is before gives the address its byte and its mark: behind
its last place in the list no write of the address stands. -/
theorem State.applyWrites_last {s : State} {l : List PWrite} {w : PWrite} {a : Nat} {b : Byte} {m : Option MCls}
    {pre post : List (Nat × Byte × Option MCls)} (h : s.MemOk) (hl : ∀ w ∈ l, w.BytesOnly) (horder : InWriteOrder l) (hmem : w ∈ l)
    (hcells : w.cells = pre ++ (a, b, m) :: post) (hpost : ∀ c ∈ post, c.1 ≠ a)
    (hlast : ∀ v ∈ l, v ≠ w → (∃ c ∈ v.cells, c.1 = a) → v.before w = true) :
    (l.foldl State.applyWrite s).byteAt a = b ∧ (l.foldl State.applyWrite s).markAt a = m := by
  induction l generalizing s with
  | nil => exact absurd hmem List.not_mem_nil
  | cons x r ih =>
    obtain ⟨hx, hr⟩ := List.forall_mem_cons.mp hl
    obtain ⟨hxr, hrr⟩ := List.pairwise_cons.mp horder
    have hwf := State.applyWrite_wf x h
    by_cases hwr : w ∈ r
    · exact ih hwf hr hrr hwr fun v hv => hlast v (List.mem_cons_of_mem x hv)
    · obtain rfl : w = x := (List.mem_cons.mp hmem).resolve_right hwr
      have hnone : ∀ v ∈ r, ∀ c ∈ v.cells, c.1 ≠ a := fun v hv c hc hca =>
        Bool.false_ne_true ((hxr v hv).symm.trans
          (hlast v (List.mem_cons_of_mem w hv) (fun e => hwr (e ▸ hv)) ⟨c, hc, hca⟩))
      obtain ⟨hbyte, hmark⟩ := State.applyWrites_of_notMem hwf hr hnone
      have hsame := s.applyWrite_bytesOnly hx
      have hlastCell := s.putCells_last pre post a b m h hpost
      rw [← hcells] at hlastCell
      exact ⟨hbyte.trans ((hsame.byteAt a).trans hlastCell.1), hmark.trans ((hsame.markAt a).trans hlastCell.2)⟩

theorem State.mem_due {s : State} {t : Nat} {w : PWrite} :
    w ∈ sortBy PWrite.before (s.writes.filter fun w => decide (w.wct ≤ t)) ↔ w ∈ s.writes ∧ w.wct ≤ t := by
  simp [mem_sortBy]

theorem dueWrites : DueWrites := by
  intro s t h hbytes
  have hdue : ∀ w ∈ sortBy PWrite.before (s.writes.filter fun w => decide (w.wct ≤ t)), w.BytesOnly := fun w hw =>
    hbytes w (State.mem_due.mp hw).1 (State.mem_due.mp hw).2
  refine ⟨State.applyDue_wf t h, State.applyWrites_writes hdue, fun a ha => ?_, ?_⟩
  · exact (State.applyWrites_of_notMem (s := { s with writes := _, applied := _, base := [] }) h hdue
      fun w hw => ha w (State.mem_due.mp hw).1 (State.mem_due.mp hw).2).1
  · intro w hw hwt pre a b m post hcells hpost hlast
    exact State.applyWrites_last (s := { s with writes := _, applied := _, base := [] }) h hdue (inWriteOrder_sortBy _)
      (State.mem_due.mpr ⟨hw, hwt⟩) hcells hpost fun v hv hne hc =>
        (PWrite.before_iff v w).mpr (hlast v (State.mem_due.mp hv).1 (State.mem_due.mp hv).2 hne hc)

/-- Settles O33: a byte reads as the last cell written to it, and due writes are applied in write order. -/
theorem writesTakeEffect : Obligations.WritesTakeEffect := ⟨readsLastWrite, dueWrites⟩

end Sys2Proof.Machine
end

section
/-! SUPPORT. Writes of the management registers (R4, R5, R80): what an access does before a register sees it, and what each register
does with it. -/

namespace Sys2Proof.Machine

/-! ### A part of the state after a change of one entry of its table -/

@[simp] theorem State.stack_updStack_self (s : State) (k : Nat) (f : Stack → Stack) : (s.updStack k f).stack k = f (s.stack k) :=
  Tab.get_update_self s.hbm Stack.fresh k f

theorem State.stack_updStack_ne (s : State) {k j : Nat} (f : Stack → Stack) (h : j ≠ k) : (s.updStack k f).stack j = s.stack j :=
  Tab.get_update_ne s.hbm Stack.fresh f h

@[simp] theorem State.port_updPort_self (s : State) (p : Nat) (f : Port → Port) : (s.updPort p f).port p = f (s.port p) :=
  Tab.get_update_self s.ports Port.fresh p f

theorem State.port_updPort_ne (s : State) {p j : Nat} (f : Port → Port) (h : j ≠ p) : (s.updPort p f).port j = s.port j :=
  Tab.get_update_ne s.ports Port.fresh f h

@[simp] theorem State.ring_updRing_self (s : State) (r : Nat) (f : Ring → Ring) : (s.updRing r f).ring r = f (s.ring r) :=
  Tab.get_update_self s.rings Ring.fresh r f

theorem State.ring_updRing_ne (s : State) {r j : Nat} (f : Ring → Ring) (h : j ≠ r) : (s.updRing r f).ring j = s.ring j :=
  Tab.get_update_ne s.rings Ring.fresh f h

@[simp] theorem State.tenant_updTenant_self (s : State) (p : Nat) (f : Tenant → Tenant) : (s.updTenant p f).tenant p = f (s.tenant p) :=
  Tab.get_update_self s.tenants Tenant.fresh p f

theorem State.tenant_updTenant_ne (s : State) {p j : Nat} (f : Tenant → Tenant) (h : j ≠ p) : (s.updTenant p f).tenant j = s.tenant j :=
  Tab.get_update_ne s.tenants Tenant.fresh f h

theorem State.onLive_of_live {s : State} (f : State → Out) (h : s.live = true) : s.onLive f = f s := if_pos h

theorem State.onLive_of_reset {s : State} (f : State → Out) (h : s.live = false) : s.onLive f = .next s :=
  if_neg (Bool.eq_false_iff.mp h)

theorem field_zero (n w : Nat) : field n 0 w = n % 2 ^ w := by simp [field]

/-! ### Accesses -/

/-- The accesses that no register answers (R80). -/
theorem accessOk_eq_false {bar : Fin 3} {size o : Nat} :
    accessOk bar size o = false ↔ (size ≠ 4 ∧ size ≠ 8) ∨ o % size ≠ 0 ∨ barSize bar ≤ o := by
  simp only [accessOk, decide_eq_false_iff_not, not_and_or, not_or, not_lt, ne_eq]

theorem accessOk_eq_true (bar : Fin 3) {size o : Nat} (hsize : size = 4 ∨ size = 8) (hal : o % size = 0) (ho : o < barSize bar) :
    accessOk bar size o = true := decide_eq_true ⟨hsize, hal, ho⟩

/-- R80: a write that no register answers has Unsupported Request status. -/
theorem registerWrite_unsupported {s : State} {bar : Fin 3} {size : Nat} {o : BitVec 26} (v : BitVec 64) (hl : s.live = true)
    (h : accessOk bar size o.toNat = false ∨ bar = 2) :
    exec (.registerWrite bar size o v) s = .next { s with link := { s.link with replies := s.link.replies ++ [.unsupportedAccess] } } := by
  have hbad : (!accessOk bar size o.toNat || decide (bar = 2)) = true := by simpa using h
  rw [exec_registerWrite, execRegisterWrite, State.onLive_of_live _ hl]
  simp only [hbad, if_true]; rfl

/-- A write of BAR0/1 that a register answers. -/
theorem registerWrite_bar0 {s : State} {size : Nat} {o : BitVec 26} (v : BitVec 64) (hl : s.live = true)
    (hsize : size = 4 ∨ size = 8) (hal : o.toNat % size = 0) (ho : o.toNat < 2 ^ 20) :
    exec (.registerWrite 0 size o v) s = .next (s.writeReg size o.toNat (v.toNat % 2 ^ (8 * size))) := by
  rw [exec_registerWrite, execRegisterWrite, State.onLive_of_live _ hl]
  simp [accessOk_eq_true 0 hsize hal ho]

/-- What a write of a whole register does, by its Access codes and by the steps that it starts; PT_ROOT is apart. -/
theorem registerWrite_word {s : State} {o : BitVec 26} (n : Nat) (v : BitVec 64) (hl : s.live = true) (hn : o.toNat = n) (hal : n % 8 = 0)
    (ho : n < 2 ^ 20) (hpt : n < 0x500 ∨ 0x540 ≤ n) :
    exec (.registerWrite 0 8 o v) s = .next { s.plainWrite n v.toNat v.toNat with
      pending := registerSteps n v.toNat ++ (s.plainWrite n v.toNat v.toNat).pending } := by
  subst hn
  have hr : o.toNat / 8 * 8 = o.toNat := by omega
  rw [registerWrite_bar0 v hl (.inr rfl) hal ho, Nat.mod_eq_of_lt v.isLt, State.writeReg]
  simp only [hr, hal, if_true]
  rw [if_neg (by omega)]
  rfl

/-- A whole register that starts no step is written by its Access codes alone. -/
theorem registerWrite_plain {s : State} {o : BitVec 26} (n : Nat) (v : BitVec 64) (hl : s.live = true) (hn : o.toNat = n) (hal : n % 8 = 0)
    (ho : n < 2 ^ 20) (hpt : n < 0x500 ∨ 0x540 ≤ n) (hsteps : registerSteps n v.toNat = []) :
    exec (.registerWrite 0 8 o v) s = .next (s.plainWrite n v.toNat v.toNat) := by
  rw [registerWrite_word n v hl hn hal ho hpt, hsteps]; rfl

/-! ### The registers of a row of stacks, ports or rings -/

theorem State.plainWrite_stack (s : State) {k : Nat} (hk : k < 8) (v ones : Nat) :
    s.plainWrite (0x100 + 8 * k) v ones = s.updStack k fun x => { x with
      ue := x.ue && !ones.testBit 31, debtFault := x.debtFault && !ones.testBit 30
      retryPeak := field v 23 5, swapPeak := field v 16 3, ceCount := field v 0 16 } := by
  have hidx : (0x100 + 8 * k - 0x100) / 8 = k := by omega
  simp (disch := omega) only [State.plainWrite, if_neg, if_pos, hidx]

theorem State.plainWrite_port (s : State) {p : Nat} (hp : p < 16) (v ones : Nat) :
    s.plainWrite (0x200 + 8 * p) v ones = s.updPort p fun x => { x with
      dead := v.testBit 30, authFail := x.authFail && !ones.testBit 29, protoErr := x.protoErr && !ones.testBit 28
      unrec := field v 16 8, replays := field v 0 16 } := by
  have hidx : (0x200 + 8 * p - 0x200) / 8 = p := by omega
  simp (disch := omega) only [State.plainWrite, if_neg, if_pos, hidx]

theorem State.plainWrite_ringBase (s : State) {r : Nat} (hr : r < 1024) (v ones : Nat) :
    s.plainWrite (0x10000 + 32 * r) v ones = s.updRing r fun x => { x with base := v % 2 ^ 64 } := by
  have hidx : (0x10000 + 32 * r - 0x10000) / 32 = r := by omega
  simp (disch := omega) only [State.plainWrite, if_neg, if_pos, hidx]

theorem State.plainWrite_ringSeq (s : State) {r : Nat} (hr : r < 1024) (v ones : Nat) :
    s.plainWrite (0x10000 + 32 * r + 24) v ones = s.updRing r fun x => { x with seq := v % 2 ^ 32 } := by
  have hidx : (0x10000 + 32 * r + 24 - 0x10000) / 32 = r := by omega
  simp (disch := omega) only [State.plainWrite, if_neg, if_pos, hidx]

theorem State.readReg_ringBase (s : State) {r : Nat} (hr : r < 1024) : s.readReg (0x10000 + 32 * r) = (s.ring r).base := by
  have hidx : (0x10000 + 32 * r - 0x10000) / 32 = r := by omega
  simp (disch := omega) only [State.readReg, if_neg, if_pos, hidx]

/-- HBM_STACK_STATUS, FAB_PORT_STATUS and the base and sequence words of a ring start no step. -/
theorem registerSteps_eq_nil {n : Nat} (v : Nat) (h : (0x100 ≤ n ∧ n < 0x280) ∨ (0x10000 ≤ n ∧ n % 32 ≠ 8)) : registerSteps n v = [] := by
  simp (disch := omega) only [registerSteps, if_neg]

/-! ### Writes of the registers of a row -/

/-- HBM_STACK_STATUS (R38). -/
theorem registerWrite_stack {s : State} (k : Fin 8) (v : BitVec 64) (hl : s.live = true) :
    exec (.registerWrite 0 8 (BitVec.ofNat 26 (0x100 + 8 * k.val)) v) s = .next (s.updStack k.val fun x => { x with
      ue := x.ue && !v.getLsbD 31, debtFault := x.debtFault && !v.getLsbD 30
      retryPeak := field v.toNat 23 5, swapPeak := field v.toNat 16 3, ceCount := v.toNat % 2 ^ 16 }) := by
  have hk := k.isLt
  have hn : (BitVec.ofNat 26 (0x100 + 8 * k.val)).toNat = 0x100 + 8 * k.val := Nat.mod_eq_of_lt (by omega)
  rw [registerWrite_plain _ v hl hn (by omega) (by omega) (by omega) (registerSteps_eq_nil _ (by omega)),
    State.plainWrite_stack s hk]
  simp only [field_zero]; rfl

/-- FAB_PORT_STATUS (R57). -/
theorem registerWrite_port {s : State} (p : Fin 16) (v : BitVec 64) (hl : s.live = true) :
    exec (.registerWrite 0 8 (BitVec.ofNat 26 (0x200 + 8 * p.val)) v) s = .next (s.updPort p.val fun x => { x with
      dead := v.getLsbD 30, authFail := x.authFail && !v.getLsbD 29, protoErr := x.protoErr && !v.getLsbD 28
      unrec := field v.toNat 16 8, replays := v.toNat % 2 ^ 16 }) := by
  have hp := p.isLt
  have hn : (BitVec.ofNat 26 (0x200 + 8 * p.val)).toNat = 0x200 + 8 * p.val := Nat.mod_eq_of_lt (by omega)
  rw [registerWrite_plain _ v hl hn (by omega) (by omega) (by omega) (registerSteps_eq_nil _ (by omega)), State.plainWrite_port s hp]
  simp only [field_zero]; rfl

/-- A write of 4 bytes of RING_BASE keeps its other half (R5, R82). -/
theorem registerWrite_ringBase_half {s : State} (r : Fin 1024) (v : BitVec 64) {k : Nat} (hk : k = 0 ∨ k = 4) (hl : s.live = true) :
    exec (.registerWrite 0 4 (BitVec.ofNat 26 (0x10000 + 32 * r.val + k)) v) s =
      .next (s.updRing r.val fun x => { x with base := mergeWrite (s.ring r.val).base 4 k (v.toNat % 2 ^ 32) % 2 ^ 64 }) := by
  have hr := r.isLt
  have hn : (BitVec.ofNat 26 (0x10000 + 32 * r.val + k)).toNat = 0x10000 + 32 * r.val + k := Nat.mod_eq_of_lt (by omega)
  have hreg : (0x10000 + 32 * r.val + k) / 8 * 8 = 0x10000 + 32 * r.val := by omega
  have hmod : (0x10000 + 32 * r.val + k) % 8 = k % 8 := by omega
  rw [registerWrite_bar0 v hl (.inl rfl) (by omega) (by omega), hn, State.writeReg]
  simp only [hreg, hmod, State.readReg_ringBase s hr, State.plainWrite_ringBase s hr]
  rw [if_neg (by omega), registerSteps_eq_nil _ (by omega)]
  simp only [mergeWrite, hmod, List.nil_append, ite_self]

/-- A whole write of RING_BASE (R82). -/
theorem registerWrite_ringBase {s : State} (r : Fin 1024) (v : BitVec 64) (hl : s.live = true) :
    exec (.registerWrite 0 8 (BitVec.ofNat 26 (0x10000 + 32 * r.val + 0)) v) s =
      .next (s.updRing r.val fun x => { x with base := v.toNat }) := by
  have hr := r.isLt
  have hn : (BitVec.ofNat 26 (0x10000 + 32 * r.val + 0)).toNat = 0x10000 + 32 * r.val := Nat.mod_eq_of_lt (by omega)
  rw [registerWrite_plain _ v hl hn (by omega) (by omega) (by omega) (registerSteps_eq_nil _ (by omega)), State.plainWrite_ringBase s hr]
  simp only [Nat.mod_eq_of_lt v.isLt]

/-- A whole write of a ring's sequence register (R82). -/
theorem registerWrite_ringSeq {s : State} (r : Fin 1024) (v : BitVec 64) (hl : s.live = true) :
    exec (.registerWrite 0 8 (BitVec.ofNat 26 (0x10000 + 32 * r.val + 24)) v) s =
      .next (s.updRing r.val fun x => { x with seq := v.toNat % 2 ^ 32 }) := by
  have hr := r.isLt
  have hn : (BitVec.ofNat 26 (0x10000 + 32 * r.val + 24)).toNat = 0x10000 + 32 * r.val + 24 := Nat.mod_eq_of_lt (by omega)
  rw [registerWrite_plain _ v hl hn (by omega) (by omega) (by omega) (registerSteps_eq_nil _ (by omega)), State.plainWrite_ringSeq s hr]

/-- A doorbell write starts the ring's doorbell step (R80, R82). -/
theorem registerWrite_doorbell {s : State} (r : Fin 1024) (v : BitVec 64) (hl : s.live = true) :
    exec (.registerWrite 1 4 (BitVec.ofNat 26 (4096 * r.val)) v) s =
      .next { s with pending := .doorbell r (v.setWidth 32) :: s.pending } := by
  have hr := r.isLt
  have hn : (BitVec.ofNat 26 (4096 * r.val)).toNat = 4096 * r.val := Nat.mod_eq_of_lt (by omega)
  have hok : accessOk 1 4 (4096 * r.val) = true := accessOk_eq_true 1 (.inl rfl) (by omega) (by simp [barSize]; omega)
  have hal : 4096 * r.val % 4096 = 0 := Nat.mul_mod_right ..
  have hring : Fin.ofNat 1024 (4096 * r.val / 4096) = r := Fin.ext (by simp)
  have hword : BitVec.ofNat 32 (v.toNat % 2 ^ (8 * 4)) = v.setWidth 32 := BitVec.eq_of_toNat_eq (by simp)
  rw [exec_registerWrite, execRegisterWrite, State.onLive_of_live _ hl]
  simp only [hn, hok, hal, hring, hword]; rfl

/-! ### The steps of registers with a behaviour of their own -/

theorem timeCfgWrite_live (s : State) (v : BitVec 32) (hl : s.live = true) :
    exec (.timeCfgWrite v) s = .next { s with time := { s.time with domain := v.toNat % 2 ^ 7 } } := by
  rw [exec_timeCfgWrite, execTimeCfgWrite, State.onLive_of_live _ hl, field_zero]; rfl

theorem pwrCfgWrite_live (s : State) (v : BitVec 32) (hl : s.live = true) :
    exec (.pwrCfgWrite v) s = .next (if 800 ≤ v.toNat % 2 ^ 12 ∧ v.toNat % 2 ^ 12 ≤ 2000 then
      { s with sec := { s.sec with cap := v.toNat % 2 ^ 12 } } else s) := by
  rw [exec_pwrCfgWrite, execPwrCfgWrite, State.onLive_of_live _ hl, field_zero]; rfl

/-- JOURNAL_CFG (R93): a write that enables a disabled journal starts it afresh; any other changes its size and its enable bit. -/
theorem journalCfgWrite_live (s : State) (v : BitVec 32) (hl : s.live = true) :
    exec (.journalCfgWrite v) s = .next { s with journal :=
      (if v.getLsbD 31 = true ∧ 10 ≤ v.toNat % 2 ^ 5 ∧ v.toNat % 2 ^ 5 ≤ 20 then
        if s.journal.enable = true then { s.journal with log2 := v.toNat % 2 ^ 5 } else ⟨s.journal.base, true, false, v.toNat % 2 ^ 5, 0, []⟩
      else { s.journal with enable := false, log2 := v.toNat % 2 ^ 5 }) } := by
  have hbit : v.toNat.testBit 31 = v.getLsbD 31 := rfl
  rw [exec_journalCfgWrite, execJournalCfgWrite, State.onLive_of_live _ hl]
  simp only [field_zero, hbit]
  by_cases hv : v.getLsbD 31 = true ∧ 10 ≤ v.toNat % 2 ^ 5 ∧ v.toNat % 2 ^ 5 ≤ 20
  · rw [if_pos hv]
    obtain ⟨h31, hrange⟩ := hv
    cases s.journal.enable <;> simp only [h31, hrange] <;> rfl
  · have hen : (v.getLsbD 31 && decide (10 ≤ v.toNat % 2 ^ 5 ∧ v.toNat % 2 ^ 5 ≤ 20)) = false :=
      Bool.eq_false_iff.mpr fun h => hv (by simpa using h)
    rw [if_neg hv]
    simp only [hen]; rfl

theorem ptRootWrite_live (s : State) (p : Fin 4) (v : BitVec 64) (hl : s.live = true) :
    exec (.ptRootWrite p v) s = .next (if (s.tenant p.val).sealed = true ∨ s.hasContext p.val = true then s else
      s.updTenant p.val fun t => { t with ptRoot := field v.toNat 15 24 * 2 ^ 15, ptValid := v.getLsbD 0 }) := by
  rw [exec_ptRootWrite, execPtRootWrite, State.onLive_of_live _ hl, State.setPtRoot]
  cases (s.tenant p.val).sealed <;> cases s.hasContext p.val <;> rfl

theorem flush_live (s : State) (p : Fin 4) (hl : s.live = true) :
    exec (.flush p) s = .next (if (s.tenant p.val).sealed = true then s else s.flushFills p.val) := by
  rw [exec_flush, execFlush, State.onLive_of_live _ hl]

/-- A stream that goes on is apart from memory and from the fills. -/
theorem State.releaseStream_frame (s : State) (k : Nat) (x : Strm) :
    (s.releaseStream k x).mem = s.mem ∧ (s.releaseStream k x).fills = s.fills := by
  unfold State.releaseStream
  split
  · exact ⟨rfl, rfl⟩
  · split
    · split <;> exact ⟨rfl, rfl⟩
    · exact ⟨rfl, rfl⟩

theorem State.wakeFills_frame (s : State) (p : Nat) : (s.wakeFills p).mem = s.mem ∧ (s.wakeFills p).fills = s.fills := by
  unfold State.wakeFills
  refine List.foldlRecOn (motive := fun t : State => t.mem = s.mem ∧ t.fills = s.fills) _ _ ⟨rfl, rfl⟩ ?_
  rintro t ⟨hmem, hfills⟩ w -
  obtain ⟨hm, hf⟩ := t.releaseStream_frame w.1 w.2
  exact ⟨hm.trans hmem, hf.trans hfills⟩

/-- A flush drops the completed fills of its partition at every core. -/
theorem State.flushFills_get (s : State) (p core : Nat) : (s.flushFills p).fills.get [] core =
    (s.fills.get [] core).filter fun f => decide (f.part ≠ p) || (f.page.isNone && !f.fault) := by
  obtain ⟨-, hfills⟩ := s.wakeFills_frame p
  simp only [State.flushFills, Tab.get, hfills,
    Tab.find?_map s.fills (fun l : List Fill => l.filter fun f => decide (f.part ≠ p) || (f.page.isNone && !f.fault))]
  cases s.fills.find? core <;> rfl

/-! ### The clauses -/

/-- In reset a write does nothing; one that no register answers is an Unsupported Request. -/
theorem registerWrite_discarded (s : State) (bar : Fin 3) (size : Nat) (o : BitVec 26) (v : BitVec 64) :
    (s.live = false → exec (.registerWrite bar size o v) s = .next s) ∧
    (s.live = true → (size ≠ 4 ∧ size ≠ 8) ∨ o.toNat % size ≠ 0 ∨ bar = 2 ∨ (bar = 0 ∧ 2 ^ 20 ≤ o.toNat) ∨ (bar = 1 ∧ 2 ^ 22 ≤ o.toNat) →
      exec (.registerWrite bar size o v) s = .next { s with link := { s.link with replies := s.link.replies ++ [.unsupportedAccess] } }) := by
  refine ⟨fun h => (exec_registerWrite s ..).trans (State.onLive_of_reset _ h), fun hl h => registerWrite_unsupported v hl ?_⟩
  rw [accessOk_eq_false]
  rcases h with h | h | h | ⟨rfl, h⟩ | ⟨rfl, h⟩
  · exact .inl (.inl h)
  · exact .inl (.inr (.inl h))
  · exact .inr h
  · exact .inl (.inr (.inr h))
  · exact .inl (.inr (.inr h))

/-- SUPPLY_STATUS (R20): the three RW1C fields. -/
theorem State.plainWrite_supply (s : State) (v : BitVec 64) : s.plainWrite 0x40 v.toNat v.toNat = { s with pkg := { s.pkg with
    seqErr := s.pkg.seqErr && !v.getLsbD 31, droop := s.pkg.droop && !v.getLsbD 30,
    railDroop := s.pkg.railDroop &&& ~~~ (v.extractLsb' 10 10) } } := by
  have hones : BitVec.ofNat 10 (v.toNat / 2 ^ 10) = v.extractLsb' 10 10 := by
    rw [← Nat.shiftRight_eq_div_pow]; rfl
  simp only [State.plainWrite, State.updPkg, hones]; rfl

/-- The read-only registers and an offset without a register ignore a write. -/
theorem registerWrite_readOnly {s : State} {o : BitVec 26} (v : BitVec 64) (hl : s.live = true)
    (ho : o ∈ ([0x0, 0x18, 0x140, 0x178, 0x318, 0x328, 0x400, 0x1410, 0xFFFF8] : List (BitVec 26))) :
    exec (.registerWrite 0 8 o v) s = .next s := by
  simp only [List.mem_cons, List.not_mem_nil, or_false] at ho
  rcases ho with rfl | rfl | rfl | rfl | rfl | rfl | rfl | rfl | rfl <;>
    exact registerWrite_plain _ v hl rfl (by decide) (by decide) (by decide) rfl

/-- Settles O46: what an access does before a register sees it, then register by register what its Access codes and its steps do. -/
theorem registerWrites : Obligations.RegisterWrites := by
  unfold Obligations.RegisterWrites
  refine ⟨registerWrite_discarded, ?_, ?_, ?_, ?_, ?_, ?_, ?_⟩
  · intro s v hl
    have plain : ∀ {o : BitVec 26}, o.toNat % 8 = 0 → o.toNat < 2 ^ 20 → (o.toNat < 0x500 ∨ 0x540 ≤ o.toNat) →
        registerSteps o.toNat v.toNat = [] → exec (.registerWrite 0 8 o v) s = .next (s.plainWrite o.toNat v.toNat v.toNat) :=
      registerWrite_plain _ v hl rfl
    refine ⟨plain rfl (by decide) (by decide) rfl, ?_, plain rfl (by decide) (by decide) rfl, ?_, ?_, ?_,
      plain rfl (by decide) (by decide) rfl, fun o ho => registerWrite_readOnly v hl ho⟩
    · exact (plain rfl (by decide) (by decide) rfl).trans (congrArg Host.Outcome.next (s.plainWrite_supply v))
    · rw [plain rfl (by decide) (by decide) rfl, ← field_zero]; rfl
    · refine (plain rfl (by decide) (by decide) rfl).trans (congrArg Host.Outcome.next ?_)
      show ({ s with time := { s.time with epoch := BitVec.ofNat 64 v.toNat } } : State) = _
      rw [BitVec.ofNat_toNat, BitVec.setWidth_eq]
    · rw [plain rfl (by decide) (by decide) rfl, ← field_zero]; rfl
  · exact fun s v k hl => ⟨_, registerWrite_stack k v hl, rfl, fun j hj => State.stack_updStack_ne s _ hj, State.stack_updStack_self s _ _⟩
  · exact fun s v p hl => ⟨_, registerWrite_port p v hl, rfl, fun j hj => State.port_updPort_ne s _ hj, State.port_updPort_self s _ _⟩
  · intro s v r hl at_ sets base
    have ofUpd : ∀ {i : Instr} {f : Ring → Ring}, exec i s = .next (s.updRing r.val f) → sets i (f (s.ring r.val)) :=
      fun h => ⟨_, h, rfl, fun j hj => State.ring_updRing_ne s _ hj, State.ring_updRing_self s _ _⟩
    refine ⟨ofUpd (registerWrite_ringBase r v hl), fun hb => ⟨?_, ?_⟩, ofUpd (registerWrite_ringSeq r v hl)⟩
    · have h := ofUpd (registerWrite_ringBase_half r v (.inl rfl) hl)
      have hval : mergeWrite base 4 0 (v.toNat % 2 ^ 32) % 2 ^ 64 = base / 2 ^ 32 * 2 ^ 32 + v.toNat % 2 ^ 32 := by
        simp [mergeWrite]; omega
      rwa [hval] at h
    · have h := ofUpd (registerWrite_ringBase_half r v (.inr rfl) hl)
      have hval : mergeWrite base 4 4 (v.toNat % 2 ^ 32) % 2 ^ 64 = base % 2 ^ 32 + v.toNat % 2 ^ 32 * 2 ^ 32 := by
        simp [mergeWrite]; omega
      rwa [hval] at h
  · refine fun s v hl => ⟨?_, fun r => registerWrite_doorbell r v hl⟩
    intro e he
    simp only [List.mem_cons, List.not_mem_nil, or_false] at he
    rcases he with rfl | rfl | rfl <;>
      exact registerWrite_word _ v hl rfl (by decide) (by decide) (by decide)
  · intro s v hl
    refine ⟨timeCfgWrite_live s v hl, fun h1 h2 => ?_, fun h => ?_, fun h31 h1 h2 he => ?_, fun h31 h1 h2 he => ?_, fun h => ?_⟩
    · rw [pwrCfgWrite_live s v hl, if_pos ⟨h1, h2⟩]
    · rw [pwrCfgWrite_live s v hl, if_neg (by omega)]
    · rw [journalCfgWrite_live s v hl, if_pos ⟨h31, h1, h2⟩, if_neg (by simp [he])]
    · rw [journalCfgWrite_live s v hl, if_pos ⟨h31, h1, h2⟩, if_pos he]
    · rw [journalCfgWrite_live s v hl, if_neg]
      rintro ⟨h31, hlo, hhi⟩
      rcases h with h | h | h
      · exact Bool.false_ne_true (h.symm.trans h31)
      · exact absurd hlo (by omega)
      · exact absurd hhi (by omega)
  · intro s p v hl
    have hroot := ptRootWrite_live s p v hl
    have hflush := flush_live s p hl
    refine ⟨fun h => by rw [hroot, if_pos h], fun hseal hctx => ?_, fun h => by rw [hflush, if_pos h], fun h => ?_⟩
    · rw [if_neg (by simp [hseal, hctx])] at hroot
      exact ⟨_, hroot, rfl, fun j hj => State.tenant_updTenant_ne s _ hj, State.tenant_updTenant_self s _ _⟩
    · rw [if_neg (by simp [h])] at hflush
      exact ⟨_, hflush, (s.wakeFills_frame p.val).1, s.flushFills_get p.val⟩

end Sys2Proof.Machine
end

section
/-! SUPPORT. Reads of the management registers: a register is packed from fields (R4, R5), and what each register and each BAR yields. -/

namespace Sys2Proof.Machine

/-! ### Fields packed into a number -/

/-- The number that fields make, each with its lowest bit, its width and its value. -/
def packed : List (Nat × Nat × Nat) → Nat
  | [] => 0
  | f :: r => f.2.2 * 2 ^ f.1 + packed r

/-- The fields stand from the highest down, none reaches into the one above it, and every value fits its width. -/
def Fitting (top : Nat) : List (Nat × Nat × Nat) → Prop
  | [] => True
  | f :: r => f.1 + f.2.1 ≤ top ∧ f.2.2 < 2 ^ f.2.1 ∧ Fitting f.1 r

theorem packed_lt {top : Nat} {l : List (Nat × Nat × Nat)} (h : Fitting top l) : packed l < 2 ^ top := by
  induction l generalizing top with
  | nil => exact Nat.two_pow_pos top
  | cons f r ih =>
    obtain ⟨htop, hval, hr⟩ := h
    calc f.2.2 * 2 ^ f.1 + packed r < (f.2.2 + 1) * 2 ^ f.1 := by rw [Nat.add_mul, Nat.one_mul]; exact Nat.add_lt_add_left (ih hr) _
      _ ≤ 2 ^ f.2.1 * 2 ^ f.1 := Nat.mul_le_mul_right _ hval
      _ = 2 ^ (f.1 + f.2.1) := by rw [Nat.mul_comm, Nat.pow_add]
      _ ≤ 2 ^ top := Nat.pow_le_pow_right Nat.two_pos htop

/-- A bit of a packed number, by the highest field. -/
theorem testBit_packed_cons {f : Nat × Nat × Nat} {r : List (Nat × Nat × Nat)} (h : Fitting f.1 r) (b : Nat) :
    (packed (f :: r)).testBit b = if b < f.1 then (packed r).testBit b else f.2.2.testBit (b - f.1) := by
  rw [packed, Nat.mul_comm, Nat.testBit_two_pow_mul_add f.2.2 (packed_lt h)]

theorem Fitting.reach_le {top : Nat} {l : List (Nat × Nat × Nat)} (h : Fitting top l) : ∀ g ∈ l, g.1 + g.2.1 ≤ top := by
  induction l generalizing top with
  | nil => exact fun g hg => absurd hg List.not_mem_nil
  | cons f r ih =>
    obtain ⟨htop, -, hr⟩ := h
    exact List.forall_mem_cons.mpr ⟨htop, fun g hg => by have := ih hr g hg; omega⟩

/-- Bit by bit, a packed number has each field's value at its place. -/
theorem testBit_packed_of_mem {top : Nat} {l : List (Nat × Nat × Nat)} (h : Fitting top l) {g : Nat × Nat × Nat} (hg : g ∈ l) {i : Nat}
    (hi : i < g.2.1) : (packed l).testBit (g.1 + i) = g.2.2.testBit i := by
  induction l generalizing top with
  | nil => exact absurd hg List.not_mem_nil
  | cons f r ih =>
    obtain ⟨-, -, hr⟩ := h
    rw [testBit_packed_cons hr]
    rcases List.mem_cons.mp hg with rfl | hg
    · rw [if_neg (by omega), Nat.add_sub_cancel_left]
    · have hreach := hr.reach_le g hg
      rw [if_pos (by omega), ih hr hg]

theorem testBit_packed_of_notMem {top : Nat} {l : List (Nat × Nat × Nat)} (h : Fitting top l) {b : Nat}
    (hb : ∀ f ∈ l, b < f.1 ∨ f.1 + f.2.1 ≤ b) : (packed l).testBit b = false := by
  induction l generalizing top with
  | nil => exact Nat.zero_testBit b
  | cons f r ih =>
    obtain ⟨-, hval, hr⟩ := h
    obtain ⟨hf, hbr⟩ := List.forall_mem_cons.mp hb
    rw [testBit_packed_cons hr]
    split
    · exact ih hr hbr
    · exact Nat.testBit_lt_two_pow (hval.trans_le (Nat.pow_le_pow_right Nat.two_pos (by omega)))

theorem Fitting.value_lt {top : Nat} {l : List (Nat × Nat × Nat)} (h : Fitting top l) : ∀ g ∈ l, g.2.2 < 2 ^ g.2.1 := by
  induction l generalizing top with
  | nil => exact fun g hg => absurd hg List.not_mem_nil
  | cons f r ih => exact List.forall_mem_cons.mpr ⟨h.2.1, ih h.2.2⟩

theorem testBit_field (n lo w i : Nat) : (field n lo w).testBit i = (decide (i < w) && n.testBit (lo + i)) := by
  rw [field, Nat.testBit_mod_two_pow, Nat.testBit_div_two_pow, Nat.add_comm]

theorem field_packed {top : Nat} {l : List (Nat × Nat × Nat)} (h : Fitting top l) {g : Nat × Nat × Nat} (hg : g ∈ l) :
    field (packed l) g.1 g.2.1 = g.2.2 := by
  refine Nat.eq_of_testBit_eq fun i => ?_
  rw [testBit_field]
  by_cases hi : i < g.2.1
  · rw [testBit_packed_of_mem h hg hi]; simp [hi]
  · have hbig : g.2.2 < 2 ^ i := (h.value_lt g hg).trans_le (Nat.pow_le_pow_right Nat.two_pos (by omega))
    simp [hi, Nat.testBit_lt_two_pow hbig]

/-- A register that reads the number packed from its fields holds them. -/
theorem regHolds_of_packed {s : State} {o : Nat} {l : List (Nat × Nat × Nat)} (hval : s.readReg o = packed l) (h : Fitting 64 l) :
    RegHolds s o l := by
  unfold RegHolds
  rw [hval]
  exact ⟨fun g hg => field_packed h hg, fun b hb => testBit_packed_of_notMem h hb⟩

theorem regHolds_congr {s : State} {o : Nat} {l m : List (Nat × Nat × Nat)} (h : RegHolds s o l) (hm : ∀ f, f ∈ m ↔ f ∈ l) : RegHolds s o m :=
  ⟨fun f hf => h.1 f ((hm f).mp hf), fun b hb => h.2 b fun f hf => hb f ((hm f).mpr hf)⟩

theorem bit_eq (b : Bool) (i : Nat) : bit b i = flagBit b * 2 ^ i := by cases b <;> simp [bit, flagBit]

theorem flagBit_lt (b : Bool) : flagBit b < 2 ^ 1 := by cases b <;> decide

/-! ### Registers that stand alone -/

theorem regHolds_hubStatus {s : State} (hphase : s.fw.phase < 16) (hcode : s.fw.failCode < 32) :
    RegHolds s 0x0 [(31, 1, flagBit s.fw.ready), (30, 1, flagBit s.fw.fail), (26, 4, s.fw.phase), (21, 5, s.fw.failCode),
      (20, 1, flagBit s.fw.timeFree), (19, 1, flagBit s.fw.slot), (0, 16, s.fw.darkPorts.toNat)] := by
  refine regHolds_of_packed (show s.hubStatus = _ from ?_) ?_
  · simp only [State.hubStatus, bit_eq, packed]; omega
  · have := s.fw.darkPorts.isLt
    simp only [Fitting, flagBit_lt, true_and, and_true]; omega

theorem regHolds_supplyStatus (s : State) : RegHolds s 0x40 [(31, 1, flagBit s.pkg.seqErr), (30, 1, flagBit s.pkg.droop),
    (10, 10, s.pkg.railDroop.toNat), (0, 10, s.pkg.railOk.toNat)] := by
  refine regHolds_of_packed (show s.supplyStatus = _ from ?_) ?_
  · simp only [State.supplyStatus, bit_eq, packed]; omega
  · have := s.pkg.railDroop.isLt
    have := s.pkg.railOk.isLt
    simp only [Fitting, flagBit_lt, true_and, and_true]; omega

theorem regHolds_fwStage {s : State} (h : s.fw.stage < 2 ^ 39) : RegHolds s 0x8 [(0, 39, s.fw.stage)] := by
  refine regHolds_of_packed (show s.fw.stage = _ from ?_) ?_
  · simp only [packed]; omega
  · simpa [Fitting] using h

theorem regHolds_fwStatus {s : State} (hstate : s.fw.state < 16) (hresult : s.fw.result < 16) (hfailed : s.fw.failedQueues < 2 ^ 8)
    (hsvn : s.fw.svn < 2 ^ 16) :
    RegHolds s 0x18 [(28, 4, s.fw.state), (24, 4, s.fw.result), (16, 8, s.fw.failedQueues), (0, 16, s.fw.svn)] := by
  refine regHolds_of_packed (show s.fwStatus = _ from ?_) ?_
  · simp only [State.fwStatus, packed, Nat.mod_eq_of_lt hfailed, Nat.mod_eq_of_lt hsvn]; omega
  · simp only [Fitting, and_true]; omega

theorem regHolds_timeStatus {s : State} (h : s.time.kerfPorts < 2 ^ 8) : RegHolds s 0x300 [(31, 1, flagBit s.time.locked),
    (30, 1, flagBit s.time.holdover), (29, 1, flagBit s.time.ppsOk), (28, 1, flagBit s.time.refOk), (27, 1, flagBit s.time.timeFault),
    (16, 8, s.time.kerfPorts), (0, 16, (BitVec.ofInt 16 s.time.offset).toNat)] := by
  have hoff : (s.time.offset % 2 ^ 16).toNat = (BitVec.ofInt 16 s.time.offset).toNat := (BitVec.toNat_ofInt _).symm
  have hlt := (BitVec.ofInt 16 s.time.offset).isLt
  refine regHolds_of_packed (show s.timeStatus = _ from ?_) ?_
  · simp only [State.timeStatus, bit_eq, packed, Nat.mod_eq_of_lt h, hoff]; omega
  · simp only [Fitting, flagBit_lt, true_and, and_true]; omega

theorem SchedState.code_lt (c : SchedState) : c.code < 8 := by cases c <;> decide

theorem regHolds_schedStatus {s : State} (hcause : s.sched.cause < 32) (herr : s.sched.loadErr < 16) (himage : s.sched.image < 16)
    (hrounds : s.sched.rounds < 2 ^ 16) : RegHolds s 0x310 [(29, 3, s.sched.state.code), (24, 5, s.sched.cause), (20, 4, s.sched.loadErr),
      (16, 4, s.sched.image), (0, 16, s.sched.rounds)] := by
  refine regHolds_of_packed (show s.schedStatus = _ from ?_) ?_
  · simp only [State.schedStatus, packed, Nat.mod_eq_of_lt hrounds, Nat.mod_eq_of_lt (show s.sched.image < 2 ^ 4 from himage)]; omega
  · have := s.sched.state.code_lt
    simp only [Fitting, and_true]; omega

theorem State.partBits_eq (s : State) (f : Tenant → Bool) :
    s.partBits f = flagBit (f (s.tenant 3)) * 2 ^ 3 + flagBit (f (s.tenant 2)) * 2 ^ 2 + flagBit (f (s.tenant 1)) * 2 + flagBit (f (s.tenant 0)) := by
  simp only [State.partBits, bit_eq]; omega

theorem State.partBits_eq_zero (s : State) (f : Tenant → Bool) :
    s.partBits f = 0 ↔ ((List.range 4).any fun p => f (s.tenant p)) = false := by
  rw [State.partBits_eq]
  simp only [List.range, List.range.loop, List.any_cons, List.any_nil]
  cases f (s.tenant 0) <;> cases f (s.tenant 1) <;> cases f (s.tenant 2) <;> cases f (s.tenant 3) <;> decide

/-- A two-bit level that one flag raises to 2, and another to 1. -/
theorem level_lt (a b : Bool) : (if a = true then 2 else if b = true then 1 else 0) < 2 ^ 2 := by cases a <;> cases b <;> decide

theorem regHolds_secStatus (s : State) :
    let sealed := (List.range 4).any fun p => (s.tenant p).sealed
    let debugged := (List.range 4).any fun p => (s.tenant p).tdebug
    RegHolds s 0x400 ([(30, 2, if s.sec.revoked = true then 2 else if sealed = true then 1 else 0),
      (28, 2, if s.sec.vendor = true then 2 else if debugged = true then 1 else 0)] ++
      (List.range 4).map (fun p => (24 + p, 1, flagBit (s.tenant p).sealed)) ++
      (List.range 4).map fun p => (20 + p, 1, flagBit (s.tenant p).tdebug)) := by
  intro sealed debugged
  have hsealed : (if s.partBits (·.sealed) ≠ 0 then 1 else 0) = if sealed = true then 1 else 0 := by
    simp only [ne_eq, State.partBits_eq_zero]; simp [sealed]
  have hdebugged : (if s.partBits (·.tdebug) ≠ 0 then 1 else 0) = if debugged = true then 1 else 0 := by
    simp only [ne_eq, State.partBits_eq_zero]; simp [debugged]
  generalize sealed = a at *
  generalize debugged = d at *
  have hholds : RegHolds s 0x400 ([(30, 2, if s.sec.revoked = true then 2 else if a = true then 1 else 0),
      (28, 2, if s.sec.vendor = true then 2 else if d = true then 1 else 0)] ++
      (List.range 4).reverse.map (fun p => (24 + p, 1, flagBit (s.tenant p).sealed)) ++
      (List.range 4).reverse.map fun p => (20 + p, 1, flagBit (s.tenant p).tdebug)) := by
    refine regHolds_of_packed (show s.secStatus = _ from ?_) ?_
    · unfold State.secStatus
      dsimp only
      rw [hsealed, hdebugged]
      simp only [State.partBits_eq, List.range, List.range.loop, List.reverse, List.reverseAux, List.map_cons, List.map_nil,
        List.cons_append, List.nil_append, packed]
      omega
    · simp only [List.range, List.range.loop, List.reverse, List.reverseAux, List.map_cons, List.map_nil,
        List.cons_append, List.nil_append, Fitting, flagBit_lt, level_lt, true_and, and_true]
      omega
  exact regHolds_congr hholds fun f => by simp only [List.mem_append, List.mem_map, List.mem_reverse]

theorem regHolds_pwrCfg {s : State} (h : s.sec.cap < 2 ^ 12) : RegHolds s 0x408 [(30, 2, s.powerState), (0, 12, s.sec.cap)] := by
  refine regHolds_of_packed (show s.pwrCfg = _ from ?_) ?_
  · simp only [State.pwrCfg, packed, Nat.mod_eq_of_lt h]; omega
  · have hpower : s.powerState < 4 := by unfold State.powerState; (repeat' split) <;> decide
    simp only [Fitting, and_true]; omega

theorem regHolds_regEcc {s : State} (hlatent : s.regEccLatent < 2 ^ 16) (hconsumed : s.regEccConsumed < 2 ^ 16) :
    RegHolds s 0x600 [(16, 16, s.regEccLatent), (0, 16, s.regEccConsumed)] := by
  refine regHolds_of_packed (show s.regEccLatent * 2 ^ 16 + s.regEccConsumed = _ from ?_) ?_
  · simp only [packed]; omega
  · simp only [Fitting, and_true]; omega

theorem regHolds_journalCfg {s : State} (h : s.journal.log2 < 32) :
    RegHolds s 0x1408 [(31, 1, flagBit s.journal.enable), (30, 1, flagBit s.journal.full), (0, 5, s.journal.log2)] := by
  refine regHolds_of_packed (show s.journalCfg = _ from ?_) ?_
  · simp only [State.journalCfg, bit_eq, packed, Nat.mod_eq_of_lt (show s.journal.log2 < 2 ^ 5 from h)]; omega
  · simp only [Fitting, flagBit_lt, true_and, and_true]; omega

/-- JOURNAL_HEAD (R93) is the number of entries taken once the first write of each has completed. -/
theorem readReg_journalHead {s : State} (hheads : ∀ t ∈ s.journal.heads, t ≤ s.gtc) (hpool : ∀ r ∈ s.poolq, ∀ i, r.what ≠ .entry i) :
    s.readReg 0x1410 = s.journal.taken := by
  show s.journalHead = _
  rw [State.journalHead, List.filter_eq_nil_iff (l := s.journal.heads).mpr ?heads, List.filter_eq_nil_iff (l := s.poolq).mpr ?pool]
  · rfl
  case heads => exact fun t ht => by simpa using hheads t ht
  case pool =>
    intro r hr
    have hne := hpool r hr
    cases hw : r.what <;> simp_all

/-! ### The registers of a row -/

theorem State.readReg_stackStatus (s : State) {k : Nat} (hk : k < 8) : s.readReg (0x100 + 8 * k) = (s.stack k).status := by
  have hidx : (0x100 + 8 * k - 0x100) / 8 = k := by omega
  simp (disch := omega) only [State.readReg, if_neg, if_pos, hidx]

theorem State.readReg_ueAddr (s : State) {k : Nat} (hk : k < 8) : s.readReg (0x140 + 8 * k) = (s.stack k).ueAddr := by
  have hidx : (0x140 + 8 * k - 0x140) / 8 = k := by omega
  simp (disch := omega) only [State.readReg, if_neg, if_pos, hidx]

theorem State.readReg_port (s : State) {p : Nat} (hp : p < 16) : s.readReg (0x200 + 8 * p) = (s.port p).status := by
  have hidx : (0x200 + 8 * p - 0x200) / 8 = p := by omega
  simp (disch := omega) only [State.readReg, if_neg, if_pos, hidx]

theorem State.readReg_ptRoot (s : State) {p : Nat} (hp : p < 4) : s.readReg (0x500 + 16 * p) = (s.tenant p).ptRootReg := by
  have hidx : (0x500 + 16 * p - 0x500) / 16 = p := by omega
  simp (disch := omega) only [State.readReg, if_neg, if_pos, hidx]

theorem State.readReg_ptFlush (s : State) {p : Nat} (hp : p < 4) : s.readReg (0x508 + 16 * p) = 0 := by
  simp (disch := omega) only [State.readReg, if_neg]

theorem State.readReg_mergeCfg (s : State) {q : Nat} (hq : q < 64) : s.readReg (0x1000 + 16 * q) = (s.lqueue q).cfg := by
  have hidx : (0x1000 + 16 * q - 0x1000) / 16 = q := by omega
  simp (disch := omega) only [State.readReg, if_neg, if_pos, hidx]

theorem State.readReg_queueStatus (s : State) {q : Nat} (hq : q < 64) : s.readReg (0x1008 + 16 * q) = s.queueStatus q := by
  have hidx : (0x1008 + 16 * q - 0x1000) / 16 = q := by omega
  simp (disch := omega) only [State.readReg, if_neg, if_pos, hidx]

/-- The ring that a word of the ring block belongs to (R82). -/
theorem ring_index {o i : Nat} (c : Nat) (ho : o = 0x10000 + 32 * i + c) (hc : c < 32) : (o - 0x10000) / 32 = i := by omega

/-- The words of a ring behind its base (R82). -/
theorem State.readReg_ring (s : State) {i : Nat} (hi : i < 1024) :
    s.readReg (0x10008 + 32 * i) = (s.ring i).cfg ∧ s.readReg (0x10010 + 32 * i) = (s.ring i).head ∧
    s.readReg (0x10018 + 32 * i) = (s.ring i).seq := by
  have h8 : (0x10008 + 32 * i - 0x10000) / 32 = i := ring_index 8 (by ring) (by decide)
  have h16 : (0x10010 + 32 * i - 0x10000) / 32 = i := ring_index 16 (by ring) (by decide)
  have h24 : (0x10018 + 32 * i - 0x10000) / 32 = i := ring_index 24 (by ring) (by decide)
  refine ⟨?_, ?_, ?_⟩ <;> simp (disch := omega) only [State.readReg, if_neg, if_pos, h8, h16, h24]

theorem regHolds_stackStatus {s : State} {k : Nat} (hk : k < 8) {x : Stack} (hx : s.stack k = x) (hband : x.band < 4) (hretry : x.retryPeak < 32)
    (hswap : x.swapPeak < 8) (hce : x.ceCount < 2 ^ 16) (hdebt : x.debt ≤ 64) :
    RegHolds s (0x100 + 8 * k) [(31, 1, flagBit x.ue), (30, 1, flagBit x.debtFault), (28, 2, x.band), (23, 5, x.retryPeak),
      (19, 4, (x.debt + 7) / 8), (16, 3, x.swapPeak), (0, 16, x.ceCount)] := by
  have hdiv : min 8 (ceilDiv x.debt 8) = (x.debt + 7) / 8 := by unfold ceilDiv; omega
  refine regHolds_of_packed ((s.readReg_stackStatus hk).trans ?_) ?_
  · simp only [hx, Stack.status, bit_eq, packed, hdiv, Nat.mod_eq_of_lt (show x.retryPeak < 2 ^ 5 from hretry),
      Nat.mod_eq_of_lt (show x.swapPeak < 2 ^ 3 from hswap), Nat.mod_eq_of_lt hce]
    omega
  · simp only [Fitting, flagBit_lt, true_and, and_true]; omega

theorem regHolds_port {s : State} {p : Nat} (hp : p < 16) {x : Port} (hx : s.port p = x) (hunrec : x.unrec < 2 ^ 8) (hreplays : x.replays < 2 ^ 16) :
    RegHolds s (0x200 + 8 * p) [(31, 1, flagBit x.dark), (30, 1, flagBit x.dead), (29, 1, flagBit x.authFail), (28, 1, flagBit x.protoErr),
      (16, 8, x.unrec), (0, 16, x.replays)] := by
  refine regHolds_of_packed ((s.readReg_port hp).trans ?_) ?_
  · simp only [hx, Port.status, bit_eq, packed, Nat.mod_eq_of_lt hunrec, Nat.mod_eq_of_lt hreplays]; omega
  · simp only [Fitting, flagBit_lt, true_and, and_true]; omega

theorem regHolds_ptRoot {s : State} {p : Nat} (hp : p < 4) {x : Tenant} (hx : s.tenant p = x) (hroot : x.ptRoot < 2 ^ 39) :
    RegHolds s (0x500 + 16 * p) [(15, 24, x.ptRoot / 2 ^ 15), (0, 1, flagBit x.ptValid)] := by
  refine regHolds_of_packed ((s.readReg_ptRoot hp).trans ?_) ?_
  · simp only [hx, Tenant.ptRootReg, bit_eq, packed]; omega
  · simp only [Fitting, flagBit_lt, and_true]; omega

theorem regHolds_mergeCfg {s : State} {q : Nat} (hq : q < 64) {x : LQueue} (hx : s.lqueue q = x) (hprio : x.prio < 8)
    (hdog : x.watchdog < 2 ^ 24) :
    RegHolds s (0x1000 + 16 * q) [(31, 1, flagBit x.enable), (28, 3, x.prio), (0, 24, x.watchdog)] := by
  refine regHolds_of_packed ((s.readReg_mergeCfg hq).trans ?_) ?_
  · simp only [hx, LQueue.cfg, bit_eq, packed, Nat.mod_eq_of_lt hdog]; omega
  · simp only [Fitting, flagBit_lt, true_and, and_true]; omega

theorem regHolds_queueStatus {s : State} {q : Nat} (hq : q < 64) {x : LQueue} (hx : s.lqueue q = x) (herr : x.err < 2 ^ 8)
    (hring : x.errRing < 2 ^ 10) :
    RegHolds s (0x1008 + 16 * q) [(31, 1, flagBit x.halted), (29, 1, flagBit (s.queueBusy q)), (16, 8, x.err), (0, 10, x.errRing)] := by
  refine regHolds_of_packed ((s.readReg_queueStatus hq).trans ?_) ?_
  · simp only [State.queueStatus, hx, bit_eq, packed, Nat.mod_eq_of_lt herr, Nat.mod_eq_of_lt hring]; omega
  · simp only [Fitting, flagBit_lt, true_and, and_true]; omega

theorem regHolds_ringCfg {s : State} {i : Nat} (hi : i < 1024) {x : Ring} (hx : s.ring i = x) (hlq : x.lq < 64) (hlog : x.log2 < 16)
    (hpart : x.part < 4) (hvec : x.vector < 2 ^ 11) :
    RegHolds s (0x10008 + 32 * i) [(31, 1, flagBit x.enable), (24, 6, x.lq), (20, 4, x.log2), (18, 2, x.part), (0, 11, x.vector)] := by
  refine regHolds_of_packed ((s.readReg_ring hi).1.trans ?_) ?_
  · simp only [hx, Ring.cfg, bit_eq, packed, Nat.mod_eq_of_lt hvec]; omega
  · simp only [Fitting, flagBit_lt, true_and, and_true]; omega

theorem registerLayouts : RegisterLayouts := by
  refine ⟨fun s => regHolds_hubStatus, regHolds_supplyStatus, fun s => regHolds_fwStage, fun s => regHolds_fwStatus, ?_, ?_,
    fun s => regHolds_timeStatus, fun s => regHolds_schedStatus, ?_, regHolds_secStatus, fun s => regHolds_pwrCfg, ?_,
    fun s => regHolds_regEcc, ?_, ?_, ?_⟩
  · exact fun s k hk hband hretry hswap hce hdebt => ⟨regHolds_stackStatus hk rfl hband hretry hswap hce hdebt, s.readReg_ueAddr hk⟩
  · exact fun s p hp => regHolds_port hp rfl
  · exact fun s hfirst hresume => ⟨Nat.mod_eq_of_lt hfirst, Nat.mod_eq_of_lt hresume⟩
  · exact fun s p hp hroot _ => ⟨regHolds_ptRoot hp rfl hroot, s.readReg_ptFlush hp⟩
  · exact fun s q hq hprio hdog herr hring => ⟨regHolds_mergeCfg hq rfl hprio hdog, regHolds_queueStatus hq rfl herr hring⟩
  · exact fun s hlog => ⟨rfl, regHolds_journalCfg hlog, readReg_journalHead⟩
  · intro s i hi x hlq hlog hpart hvec
    obtain ⟨-, hhead, hseq⟩ := s.readReg_ring hi
    exact ⟨regHolds_ringCfg hi rfl hlq hlog hpart hvec, s.readReg_ringBase hi, hhead, hseq⟩

/-! ### What a read of a BAR yields -/

/-- A read that the BAR takes while the dies are out of reset. -/
theorem hostRead_of_ok {s : State} {bar : Fin 3} {size o : Nat} (hl : s.live = true) (hok : accessOk bar size o = true) :
    s.hostRead bar size o =
      if bar = 0 then .value (s.readReg (o / 8 * 8) / 2 ^ (o % 8 * 8) % 2 ^ (8 * size))
      else if bar = 1 then .value (if o % 4096 = 0 then Config.doorbellRead (s.ring (o / 4096)).tail % 2 ^ 32 else 0)
      else .value (if o + size ≤ 32 * 2 ^ s.journal.log2 then s.journalRead (s.journal.base + o) size else 0) := by
  simp only [State.hostRead, hl, hok, Bool.not_true, Bool.false_eq_true, if_false]

theorem hostRead_unsupported {s : State} {bar : Fin 3} {size o : Nat} (hl : s.live = true) (hbad : accessOk bar size o = false) :
    s.hostRead bar size o = .unsupported := by
  simp only [State.hostRead, hl, hbad, Bool.not_true, Bool.not_false, Bool.false_eq_true, if_false, if_true]

theorem hostRead_silent {s : State} (bar : Fin 3) (size o : Nat) (hl : s.live = false) : s.hostRead bar size o = .silent := by
  simp only [State.hostRead, hl, Bool.not_false, if_true]

/-- A register reads whole, and its halves at its offset and 4 above it (R5, R80). -/
theorem hostRead_register {s : State} {o : Nat} (hl : s.live = true) (ho : o < 2 ^ 20) (hal : o % 8 = 0) (hval : s.readReg o < 2 ^ 64) :
    s.hostRead 0 8 o = .value (s.readReg o) ∧ s.hostRead 0 4 o = .value (s.readReg o % 2 ^ 32) ∧
    s.hostRead 0 4 (o + 4) = .value (s.readReg o / 2 ^ 32) := by
  have hreg : o / 8 * 8 = o := by omega
  have hreg4 : (o + 4) / 8 * 8 = o := by omega
  have hal4 : (o + 4) % 8 = 4 := by omega
  rw [hostRead_of_ok hl (accessOk_eq_true 0 (.inr rfl) hal ho),
    hostRead_of_ok hl (accessOk_eq_true 0 (.inl rfl) (by omega) ho),
    hostRead_of_ok hl (accessOk_eq_true 0 (.inl rfl) (by omega) (show o + 4 < 2 ^ 20 by omega))]
  simp only [if_true, hreg, hal, hreg4, hal4, Nat.zero_mul, Nat.pow_zero, Nat.div_one, Nat.reduceMul, HostRead.value.injEq, true_and]
  exact ⟨Nat.mod_eq_of_lt hval, Nat.mod_eq_of_lt (by omega)⟩

theorem State.bytesAt_drop_take (s : State) {a m k n : Nat} (h : k + n ≤ m) : ((s.bytesAt a m).drop k).take n = s.bytesAt (a + k) n := by
  refine List.ext_getElem (by simp [State.bytesAt]; omega) fun i h1 h2 => ?_
  simp [State.bytesAt, Nat.add_assoc]

/-- What the stack holds of a beat in no sealed partition's regions is its bytes (R114). -/
theorem State.storedBeat_unsealed {s : State} {beat : Nat}
    (h : ∀ p, p < 4 → (s.tenant p).sealed = true → beat * 64 / 2 ^ 30 ∉ (s.tenant p).regions) :
    s.storedBeat beat = s.bytesAt (beat * 64) 64 := by
  have hnone : ((List.range 4).find? fun p => (s.tenant p).sealed && (s.tenant p).regions.contains (beat * 64 / 2 ^ 30)) = none :=
    List.find?_eq_none.mpr fun p hp => by simpa using h p (List.mem_range.mp hp)
  rw [State.storedBeat, hnone]

/-- The journal window over memory that no partition has sealed reads the bytes of a word that lies in one beat (R93). -/
theorem State.journalRead_unsealed {s : State} {a size : Nat} (hbeat : a % 64 + size ≤ 64)
    (h : ∀ p, p < 4 → (s.tenant p).sealed = true → a / 2 ^ 30 ∉ (s.tenant p).regions) : s.journalRead a size = s.natAt a size := by
  have hregion : a / 64 * 64 / 2 ^ 30 = a / 2 ^ 30 := by omega
  have haddr : a / 64 * 64 + a % 64 = a := Nat.div_add_mod' a 64
  rw [State.journalRead, State.storedBeat_unsealed (by rw [hregion]; exact h), State.bytesAt_drop_take s hbeat, haddr, State.natAt]

/-- An aligned word of 4 or 8 bytes lies in one beat. -/
theorem aligned_in_beat {base size o : Nat} (hsize : size = 4 ∨ size = 8) (hal : o % size = 0) (hbase : base % 8 = 0) :
    (base + o) % 64 + size ≤ 64 := by
  rcases hsize with rfl | rfl <;> omega

/-- Settles O9: every register is packed from its fields, and a BAR yields a register or its half, or the bytes of the journal. -/
theorem registerReads : Obligations.RegisterReads := by
  unfold Obligations.RegisterReads
  refine ⟨registerLayouts, fun s bar size o => ⟨hostRead_silent bar size o, fun hl hbad => ?_⟩, fun s o hl => hostRead_register hl, ?_, ?_⟩
  · exact hostRead_unsupported hl (accessOk_eq_false.mpr hbad)
  · intro s o hl ho hal hword
    rw [hostRead_of_ok hl (accessOk_eq_true 1 (.inl rfl) hal ho), if_neg (by decide), if_pos rfl, if_neg hword]
  · intro s size o hl hsize ho hal hbase
    rw [hostRead_of_ok hl (accessOk_eq_true 2 hsize hal ho), if_neg (by decide), if_neg (by decide)]
    refine ⟨fun hbeyond => by rw [if_neg (by omega)], fun hin hopen => ?_⟩
    rw [if_pos hin, State.journalRead_unsealed (aligned_in_beat hsize hal hbase) hopen]

end Sys2Proof.Machine
end

section
/-! SUPPORT. Supplies, heat, resets and the link (R17 to R21, R24, R62, R81, R100, R118): what is left of memory after a reset, and what each
event of the package does. -/

namespace Sys2Proof.Machine

/-! ### Memory of which addresses are dropped -/

/-- Cells kept by their addresses: an address that is dropped reads as nothing that was written. -/
theorem Mem.read_filter {m : List Cell} (q : Nat → Bool) (h : Mem.wf m = true) (a : Nat) :
    Mem.read (m.filter fun c => q c.1) a = if q a then Mem.read m a else Mem.unlisted := by
  induction m with
  | nil => exact (ite_self _).symm
  | cons c r ih =>
    obtain ⟨k, b⟩ := c
    have hab : Mem.above k r = true := by simp [Mem.wf] at h; exact h.1.2
    have ih := ih (Mem.wf_tail h)
    by_cases hk : q k = true
    · rw [List.filter_cons_of_pos (p := fun c => q c.1) (a := (k, b)) hk]
      simp only [Mem.read, ih]
      by_cases hka : k = a
      · subst hka; simp [hk]
      · simp only [hka, if_false]; split <;> simp
    · rw [List.filter_cons_of_neg (p := fun c => q c.1) (a := (k, b)) hk, ih]
      split
      next hqa =>
        have hka : k ≠ a := fun e => hk (e ▸ hqa)
        simp only [Mem.read, hka, if_false]
        split
        next hlt => exact Mem.read_above hab (Nat.le_of_lt hlt)
        next => rfl
      next => rfl

/-- A cleared span reads as nothing that was written; every other byte stays. -/
theorem Mem.read_clear {m : List Cell} (lo n : Nat) (h : Mem.wf m = true) (a : Nat) :
    Mem.read (Mem.clear m lo n) a = if lo ≤ a ∧ a < lo + n then Mem.unlisted else Mem.read m a := by
  rw [Mem.clear, Mem.read_filter (fun k => k < lo || lo + n ≤ k) h]
  by_cases hin : lo ≤ a ∧ a < lo + n
  · rw [if_pos hin, if_neg (by simp; omega)]
  · rw [if_neg hin, if_pos (by simp; omega)]

/-- After a cold reset the boot store is as it was, and every other byte reads 0 (R100). -/
theorem State.byteAt_coldReset {s : State} (h : s.MemOk) (a : Nat) :
    s.coldReset.byteAt a = if bootBase ≤ a ∧ a < bootBase + 2 ^ 26 then s.byteAt a else 0 := by
  refine (Mem.read_filter (fun k => decide (bootBase ≤ k ∧ k < bootEnd)) h a).trans ?_
  simp only [decide_eq_true_eq]; rfl

/-! ### Supplies and heat -/

theorem pwrokRise_up {s : State} (rails : BitVec 10) (ord lands : Bool) (strap : BitVec 4) (h : s.pkg.pwrok = true) :
    exec (.pwrokRise rails ord lands strap) s = .next s := if_pos h

theorem pwrokRise_checked {s : State} (strap : BitVec 4) (h : s.pkg.pwrok = false) :
    exec (.pwrokRise 0x3FF true true strap) s = .next ((s.coldReset.updPkg fun p => { p with pwrok := true, railOk := 0x3FF, strap := strap }).updFw
      fun f => { f with phase := 1 }) := if_neg (Bool.eq_false_iff.mp h)

theorem pwrokRise_unchecked {s : State} {rails : BitVec 10} {ord lands : Bool} (strap : BitVec 4) (h : s.pkg.pwrok = false)
    (hbad : rails ≠ 0x3FF ∨ ord = false ∨ lands = false) :
    exec (.pwrokRise rails ord lands strap) s = .next (s.coldReset.updPkg fun p => { p with
      pwrok := true, railOk := rails, strap := strap, seqErr := true, alert := true, inReset := true, lasers := false }) := by
  have hok : (decide (rails = 0x3FF) && ord && lands) = false := by
    rcases hbad with hb | rfl | rfl
    · rw [decide_eq_false hb, Bool.false_and, Bool.false_and]
    · rw [Bool.and_false, Bool.false_and]
    · rw [Bool.and_false]
  rw [exec_pwrokRise, execPwrokRise, if_neg (Bool.eq_false_iff.mp h)]
  simp only [hok]; rfl

/-- RAIL_DROOP (R19, R20): the rails out of tolerance for too long, other than VDD_AUX. -/
def droopBits (monitor past : BitVec 10) : BitVec 10 := past &&& ~~~ monitor &&& 0x3FE

theorem railDroop_eq (s : State) (monitor past : BitVec 10) : exec (.railDroop monitor past) s = .next (
    if droopBits monitor past = 0 ∨ s.pkg.pwrok = false ∨ s.fw.phase = 0 then { s with pkg := { s.pkg with railOk := monitor } }
    else
      let p := { s.pkg with railOk := monitor, droop := true, alert := true, railDroop := s.pkg.railDroop ||| droopBits monitor past }
      if s.pkg.inReset = false ∧ s.time.counting = true then { s with pkg := { p with stopAtLeaf := true } }
      else { s with pkg := { p with stopAtLeaf := false, stopped := true, inReset := true } }) := by
  rw [exec_railDroop, execRailDroop]
  by_cases h0 : droopBits monitor past = 0 ∨ s.pkg.pwrok = false ∨ s.fw.phase = 0
  · rw [if_pos h0]
    refine (if_pos ?_).trans rfl
    simpa [droopBits, State.updPkg] using h0
  · rw [if_neg h0]
    have hup : s.pkg.pwrok = true := by simpa using fun h => h0 (.inr (.inl h))
    refine (if_neg ?_).trans ?_
    · simpa [droopBits, State.updPkg] using h0
    · refine congrArg Host.Outcome.next ?_
      by_cases hc : s.pkg.inReset = false ∧ s.time.counting = true
      · rw [if_pos hc]
        exact (if_pos (by simp [State.live, State.updPkg, hup, hc])).trans rfl
      · rw [if_neg hc]
        refine (if_neg ?_).trans rfl
        simpa [State.live, State.updPkg, hup] using hc

theorem thermtrip_eq (s : State) : exec .thermtrip s = .next { s with pkg := { s.pkg with
    temp := max s.pkg.temp 110, alert := true, thermtrip := true, lasers := false, stopped := true } } := by
  have h100 : 100 ≤ max s.pkg.temp 110 := by omega
  have h110 : 110 ≤ max s.pkg.temp 110 := by omega
  simp only [exec_thermtrip, execThermtrip, State.setTemp, State.updPkg, h100, h110, if_true, decide_true, Bool.or_true]

theorem overtempAlert_below {s : State} (h : s.pkg.temp < 110) :
    exec .overtempAlert s = .next { s with pkg := { s.pkg with temp := max s.pkg.temp 100, alert := true } } := by
  have h100 : 100 ≤ max s.pkg.temp 100 := by omega
  have h110 : ¬ 110 ≤ max s.pkg.temp 100 := by omega
  simp only [exec_overtempAlert, execOvertempAlert, State.setTemp, State.updPkg, h100, h110, if_false, decide_true, Bool.or_true]

theorem overtempAlert_above {s : State} (h : 110 ≤ s.pkg.temp) : exec .overtempAlert s = exec .thermtrip s := by
  have h100 : max s.pkg.temp 100 = max s.pkg.temp 110 := by omega
  rw [exec_overtempAlert, exec_thermtrip, execOvertempAlert, execThermtrip, h100]

theorem State.droopStop_boundary {s : State} (hstop : s.pkg.stopAtLeaf = true) (hleaf : s.gtc % 4096 = 0) :
    s.droopStop = { s with pkg := { s.pkg with stopAtLeaf := false, stopped := true, inReset := true } } :=
  if_pos (by simp [hstop, leafTick, hleaf])

theorem State.mayTransmit_eq_false {s : State} (h : s.pkg.stopped = true ∨ s.pkg.lasers = false ∨ s.pkg.inReset = true) :
    s.mayTransmit = false := by
  rcases h with h | h | h <;> simp [State.mayTransmit, State.live, h]

theorem State.readReg_supply_cleared {s : State} (hseq : s.pkg.seqErr = false) (hdroop : s.pkg.droop = false) (hrail : s.pkg.railDroop = 0)
    (hok : s.pkg.railOk = 0) : s.readReg 0x40 = 0 := by
  rw [show s.readReg 0x40 = s.supplyStatus from rfl, State.supplyStatus, hseq, hdroop, hrail, hok]; rfl

theorem suppliesAndHeat : SuppliesAndHeat := by
  refine ⟨?_, fun s rails ord lands strap => pwrokRise_up rails ord lands strap, ?_, ?_, ?_, ?_, ?_, thermtrip_eq,
    fun s => State.mayTransmit_eq_false, fun s b => rfl⟩
  · intro s rails ord lands strap hok hlow
    have hwf : s.coldReset.MemOk := State.coldReset_wf hok
    by_cases hgood : rails = 0x3FF ∧ ord = true ∧ lands = true
    · obtain ⟨rfl, rfl, rfl⟩ := hgood
      exact ⟨_, pwrokRise_checked strap hlow, rfl, rfl, rfl, rfl, rfl, rfl, rfl, rfl, rfl, rfl, rfl, rfl, hwf, State.byteAt_coldReset hok,
        fun _ _ _ => ⟨rfl, rfl, rfl⟩, fun hbad => absurd hbad (by decide)⟩
    · have hbad : rails ≠ 0x3FF ∨ ord = false ∨ lands = false := by
        simpa only [not_and_or, Bool.not_eq_true] using hgood
      exact ⟨_, pwrokRise_unchecked strap hlow hbad, rfl, rfl, rfl, rfl, rfl, rfl, rfl, rfl, rfl, rfl, rfl, rfl, hwf, State.byteAt_coldReset hok,
        fun hr ho hl => absurd ⟨hr, ho, hl⟩ hgood, fun _ => ⟨rfl, rfl, rfl, rfl⟩⟩
  · exact fun s hok => ⟨_, exec_pwrokFall s, rfl, rfl, rfl, rfl, rfl, fun a hlo hhi => (State.byteAt_coldReset hok a).trans (if_pos ⟨hlo, hhi⟩)⟩
  · exact fun s => ⟨_, exec_vddAuxLost s, State.readReg_supply_cleared rfl rfl rfl rfl, rfl⟩
  · intro s monitor past
    have heq := railDroop_eq s monitor past
    refine ⟨fun h => heq.trans (congrArg _ (if_pos h)), fun h0 hup hph => ?_⟩
    have hgo : ¬ (droopBits monitor past = 0 ∨ s.pkg.pwrok = false ∨ s.fw.phase = 0) := fun h => h.elim h0 (by simp [hup, hph])
    rw [if_neg hgo] at heq
    refine ⟨fun hr hc => heq.trans (congrArg _ (if_pos ⟨hr, hc⟩)), fun h => heq.trans (congrArg _ (if_neg ?_))⟩
    rintro ⟨hr, hc⟩
    simp [hr, hc] at h
  · exact fun s => State.droopStop_boundary
  · exact fun s => ⟨overtempAlert_below, overtempAlert_above⟩

/-! ### The link -/

theorem State.endIde_tenant (s : State) (p : Nat) : s.endIde.tenant p = { s.tenant p with ideBound := false } := by
  simp only [State.endIde, State.tenant, Tab.get, Tab.find?_map s.tenants fun t : Tenant => { t with ideBound := false }]
  cases s.tenants.find? p <;> rfl

theorem State.refetch_ring (s : State) (r : Nat) : s.refetch.ring r = { s.ring r with fetched := [] } := by
  simp only [State.refetch, State.ring, Tab.get, Tab.find?_map s.rings fun r : Ring => { r with fetched := [] }]
  cases s.rings.find? r <;> rfl

theorem linkEvents : LinkEvents := by
  refine ⟨fun s => ⟨_, rfl, rfl, s.endIde_tenant⟩, ?_, ?_, ?_, ?_, ?_⟩
  · intro s hl i hi
    simp only [List.mem_cons, List.not_mem_nil, or_false] at hi
    rcases hi with rfl | rfl | rfl | rfl
    · exact (exec_perstDeassert s).trans (State.onLive_of_reset _ hl)
    · exact (exec_busMasterEnable s).trans (State.onLive_of_reset _ hl)
    · exact (exec_d3hotEntry s).trans (State.onLive_of_reset _ hl)
    · exact (exec_d0Entry s).trans (State.onLive_of_reset _ hl)
  · exact fun s hl => ⟨_, (exec_perstDeassert s).trans (State.onLive_of_live _ hl), rfl, s.endIde_tenant⟩
  · intro s hl
    refine ⟨_, (exec_busMasterEnable s).trans (State.onLive_of_live _ hl), ?_, ?_⟩
    · cases h : s.link.busMaster <;> rfl
    · cases h : s.link.busMaster
      · exact s.refetch_ring
      · exact fun r => rfl
  · exact fun s hl => (exec_d3hotEntry s).trans (State.onLive_of_live _ hl)
  · intro s hl
    have heq := (exec_d0Entry s).trans (State.onLive_of_live _ hl)
    exact ⟨fun hd => ⟨_, heq.trans (if_pos hd), rfl, s.refetch_ring⟩, fun hd => heq.trans (if_neg (Bool.eq_false_iff.mp hd))⟩

/-- Settles O42: each event of the supplies, of heat and of the link, case by case of its condition. -/
theorem suppliesAndLink : Obligations.SuppliesAndLink := ⟨suppliesAndHeat, linkEvents⟩

end Sys2Proof.Machine
end

section
/-! SUPPORT. Recovery over SMBus (R20, R101, R102): whom the device answers, when it answers with NACK, and what each transaction stores. -/

namespace Sys2Proof.Machine

/-! ### Cells written leave everything but memory and its marks -/

theorem State.putCells_frame (s : State) (cs : List (Nat × Byte × Option MCls)) :
    s.putCells cs = { s with mem := (s.putCells cs).mem, poison := (s.putCells cs).poison } := by
  induction cs generalizing s with
  | nil => rfl
  | cons c r ih => exact (ih (s.putByte c.1 c.2.1 c.2.2)).trans rfl

@[simp] theorem State.putCells_fw (s : State) (cs : List (Nat × Byte × Option MCls)) : (s.putCells cs).fw = s.fw :=
  (congrArg State.fw (s.putCells_frame cs)).trans rfl

@[simp] theorem State.putCells_link (s : State) (cs : List (Nat × Byte × Option MCls)) : (s.putCells cs).link = s.link :=
  (congrArg State.link (s.putCells_frame cs)).trans rfl

/-! ### Phases of bring-up -/

theorem State.live_of_inPhase {s : State} {p : Nat} (h : InPhase s p) : s.live = true := by
  obtain ⟨hpwr, hreset, -, -⟩ := h
  rw [State.live, hpwr, hreset]; rfl

theorem State.inPhase_of_inPhase {s : State} {p : Nat} (h : InPhase s p) : s.inPhase p = true := by
  have hl := State.live_of_inPhase h
  obtain ⟨-, -, hphase, hfail⟩ := h
  rw [State.inPhase, hl, hphase, hfail, decide_eq_true rfl]; rfl

/-! ### The address and NACK -/

theorem State.onSmb_other {s : State} {a : BitVec 7} (f : State → State) (h : a.toNat ≠ 0x50 + s.pkg.strap.toNat / 4) :
    s.onSmb a f = .next s := congrArg Host.Outcome.next (if_neg h)

theorem State.onSmb_own {s : State} {a : BitVec 7} (f : State → State) (h : a.toNat = 0x50 + s.pkg.strap.toNat / 4) :
    s.onSmb a f = .next (f s) := congrArg Host.Outcome.next (if_pos h)

/-- The ROM receives: phase 1 of a recovery boot, outside the states that verify and start an image (R102). -/
theorem State.recoveryNack_eq_false {s : State} (hp : InPhase s 1) (hrec : s.fw.recBoot = true) (h2 : s.fw.recState ≠ 2)
    (h4 : s.fw.recState ≠ 4) : s.recoveryNack true = false := by
  simp [State.recoveryNack, State.inRecovery, State.live_of_inPhase hp, State.inPhase_of_inPhase hp, hrec, h2, h4]

theorem State.recoveryNack_eq_true {s : State} {b : Bool}
    (h : b = false ∨ s.fw.recBoot = false ∨ s.fw.phase ≠ 1 ∨ s.fw.recState = 2 ∨ s.fw.recState = 4) : s.recoveryNack b = true := by
  rcases h with h | h | h | h | h <;> simp [State.recoveryNack, State.inRecovery, State.inPhase, h]

/-! ### The transactions -/

/-- R101: another address is not the device's. -/
theorem smb_silent (s : State) (a : BitVec 7) (code : BitVec 8) (b : Bool) (off : Nat) (data : List Byte)
    (h : a.toNat ≠ 0x50 + s.pkg.strap.toNat / 4) :
    exec (.recoveryStatus a code) s = .next s ∧ exec (.recoveryBlockWrite a b off data) s = .next s ∧
    exec (.imageDone a b) s = .next s ∧ exec (.abort a b) s = .next s :=
  ⟨(exec_recoveryStatus s a code).trans (State.onSmb_other _ h), (exec_recoveryBlockWrite s a b off data).trans (State.onSmb_other _ h),
    (exec_imageDone s a b).trans (State.onSmb_other _ h), (exec_abort s a b).trans (State.onSmb_other _ h)⟩

theorem recoveryStatus_own {s : State} {a : BitVec 7} (code : BitVec 8) (h : a.toNat = 0x50 + s.pkg.strap.toNat / 4) :
    exec (.recoveryStatus a code) s = .next (if code = 0x40 then s.reply (.supply s.supplyStatus)
      else if code = 0xB0 ∧ s.inRecovery = true then s.reply (.recovery (s.fw.recBlocks % 256 * 256 + s.fw.recState)) else s.reply .nack) :=
  (exec_recoveryStatus s a code).trans (State.onSmb_own _ h)

theorem recoveryBlockWrite_own {s : State} {a : BitVec 7} (b : Bool) (off : Nat) (data : List Byte)
    (h : a.toNat = 0x50 + s.pkg.strap.toNat / 4) :
    exec (.recoveryBlockWrite a b off data) s = .next (if (s.recoveryNack b || decide (off % 4 ≠ 0 ∨ data.length % 4 ≠ 0 ∨
        data.length < 4 ∨ 236 < data.length ∨ 2 ^ 25 < off + data.length)) = true then s.reply .nack
      else { s.putCells (plainCells (hubBase + off) data) with
        fw := { s.fw with
          recState := 1, recBlocks := s.fw.recBlocks + 1
          recTop := if s.fw.recTop.1 ≤ off then (off, off + data.length) else s.fw.recTop }
        link := { s.link with replies := s.link.replies ++ [.ack] } }) := by
  refine (exec_recoveryBlockWrite s a b off data).trans ((State.onSmb_own _ h).trans (congrArg _ (ite_congr rfl (fun _ => rfl) fun _ => ?_)))
  simp only [State.reply, State.updLink, State.updFw, State.putCells_fw, State.putCells_link]

theorem imageDone_own {s : State} {a : BitVec 7} (b : Bool) (h : a.toNat = 0x50 + s.pkg.strap.toNat / 4) :
    exec (.imageDone a b) s =
      .next (if s.recoveryNack b = true then s.reply .nack else (s.updFw fun f => { f with recState := 2 }).reply .ack) :=
  (exec_imageDone s a b).trans (State.onSmb_own _ h)

theorem abort_own {s : State} {a : BitVec 7} (b : Bool) (h : a.toNat = 0x50 + s.pkg.strap.toNat / 4) :
    exec (.abort a b) s = .next (if s.recoveryNack b = true then s.reply .nack else (s.dropRecovery 0).reply .ack) :=
  (exec_abort s a b).trans (State.onSmb_own _ h)

theorem recoveryVerifyDone_verifying {s : State} (hp : InPhase s 1) (hrec : s.fw.recBoot = true) (h2 : s.fw.recState = 2) :
    exec .recoveryVerifyDone s = .next (
      if (s.imageValid hubBase && decide (4096 + s.natAt (hubBase + 8) 4 ≤ s.fw.recTop.2)) = true then
        (s.startFw hubBase false).updFw fun f => { f with recState := 4 }
      else s.dropRecovery 3) := by
  have hgo : (!s.inRecovery || !s.inPhase 1 || decide (s.fw.recState ≠ 2)) = false := by
    simp [State.inRecovery, State.live_of_inPhase hp, State.inPhase_of_inPhase hp, hrec, h2]
  rw [exec_recoveryVerifyDone, execRecoveryVerifyDone, if_neg (Bool.eq_false_iff.mp hgo)]
  split <;> rfl

/-- Settles O44: SMBus transactions case by case of the address, of the ROM's state and of the block. -/
theorem recovery : Obligations.Recovery := by
  unfold Obligations.Recovery
  refine ⟨smb_silent, ?_, ?_, ?_, ?_⟩
  · intro s a ha
    have hread := fun code => recoveryStatus_own code ha
    refine ⟨hread 0x40, fun hl hrec => (hread 0xB0).trans ?_, fun h => (hread 0xB0).trans ?_, fun code h40 hB0 => (hread code).trans ?_⟩
    · rw [if_neg (by decide), if_pos ⟨rfl, by rw [State.inRecovery, hl, hrec]; rfl⟩]; rfl
    · rw [if_neg (by decide), if_neg]
      · rfl
      · rintro ⟨-, hin⟩
        rw [State.inRecovery, Bool.and_eq_true] at hin
        rcases h with h | h
        · exact Bool.false_ne_true (h.symm.trans hin.1)
        · exact Bool.false_ne_true (h.symm.trans hin.2)
    · rw [if_neg h40, if_neg fun h => hB0 h.1]; rfl
  · intro s a off data ha hp hrec h2 h4
    have hack : ¬ s.recoveryNack true = true := Bool.eq_false_iff.mp (State.recoveryNack_eq_false hp hrec h2 h4)
    refine ⟨fun hoff hlen hmin hmax htop => ?_, fun hbad => ?_, ?_, fun hok => ?_⟩
    · exact (recoveryBlockWrite_own true off data ha).trans (congrArg _ (if_neg (by simp [hack]; omega)))
    · exact (recoveryBlockWrite_own true off data ha).trans (congrArg _ (if_pos (by simpa [hack] using hbad)))
    · exact (imageDone_own true ha).trans (congrArg _ (if_neg hack))
    · exact ⟨_, (abort_own true ha).trans (congrArg _ (if_neg hack)), rfl, rfl, Mem.read_clear hubBase (2 ^ 25) hok⟩
  · intro s a b off data ha h
    have hnack := State.recoveryNack_eq_true h
    exact ⟨(recoveryBlockWrite_own b off data ha).trans (congrArg _ (if_pos (by rw [hnack, Bool.true_or]))),
      (imageDone_own b ha).trans (congrArg _ (if_pos hnack)), (abort_own b ha).trans (congrArg _ (if_pos hnack))⟩
  · intro s hp hrec h2
    refine ⟨_, recoveryVerifyDone_verifying hp hrec h2, ?_⟩
    obtain ⟨-, -, hphase, hfail⟩ := hp
    by_cases hv : s.imageValid hubBase = true ∧ 4096 + s.natAt (hubBase + 8) 4 ≤ s.fw.recTop.2
    · rw [if_pos hv, if_pos (by simp [hv])]; rfl
    · rw [if_neg hv, if_neg (by simpa using hv)]
      exact ⟨rfl, hfail, hphase⟩

end Sys2Proof.Machine
end

section
/-! SUPPORT. Rings and queues (R82 to R85, R94): a ring's configuration, its doorbell and its fetches; what ends a command, and the queue that
is disabled. -/

namespace Sys2Proof.Machine

/-! ### A queue after a change of one entry -/

@[simp] theorem State.lqueue_updQueue_self (s : State) (q : Nat) (f : LQueue → LQueue) : (s.updQueue q f).lqueue q = f (s.lqueue q) :=
  Tab.get_update_self s.queues LQueue.fresh q f

theorem State.lqueue_updQueue_ne (s : State) {q k : Nat} (f : LQueue → LQueue) (h : k ≠ q) : (s.updQueue q f).lqueue k = s.lqueue k :=
  Tab.get_update_ne s.queues LQueue.fresh f h

/-- A table of which some keys are dropped lists none of them. -/
theorem find?_filter_notMem {α : Type} (t : Tab α) (l : List Nat) {k : Nat} (h : k ∈ l) :
    Tab.find? (t.filter fun e => !l.contains e.1) k = none := by
  induction t with
  | nil => rfl
  | cons e r ih =>
    obtain ⟨j, b⟩ := e
    by_cases hj : j ∈ l
    · rw [List.filter_cons_of_neg (by simpa using hj), ih]
    · have hjk : j ≠ k := fun e => hj (e ▸ h)
      rw [List.filter_cons_of_pos (by simpa using hj), Tab.find?, if_neg hjk, ih]

/-! ### The ring's configuration and its fetches -/

/-- RING_CFG (R82): queue, size and partition change only while the ring is disabled, and an enable starts it afresh but for its tail. -/
def Ring.configure (r : Ring) (v : Nat) : Ring :=
  let en := v.testBit 31 && decide (field v 20 4 ≤ 10)
  let x : Ring := { r with enable := en, lq := field v 24 6, log2 := field v 20 4, part := field v 18 2, vector := field v 0 11 }
  if en && !r.enable then { x with head := 0, fetched := [] } else x

theorem Ring.configure_enabled {r : Ring} {v : BitVec 32} (h : (v.getLsbD 31 && decide (field v.toNat 20 4 ≤ 10)) = true)
    (hr : r.enable = false) : r.configure v.toNat =
      ⟨r.base, true, field v.toNat 24 6, field v.toNat 20 4, field v.toNat 18 2, v.toNat % 2 ^ 11, 0, r.tail, r.seq, []⟩ := by
  have hv : (v.toNat.testBit 31 && decide (field v.toNat 20 4 ≤ 10)) = true := h
  simp only [Ring.configure, hv, hr, field_zero]; rfl

theorem Ring.configure_kept {r : Ring} {v : BitVec 32}
    (h : (v.getLsbD 31 && decide (field v.toNat 20 4 ≤ 10)) = false ∨ r.enable = true) : r.configure v.toNat =
      { r with
        enable := v.getLsbD 31 && decide (field v.toNat 20 4 ≤ 10), lq := field v.toNat 24 6, log2 := field v.toNat 20 4
        part := field v.toNat 18 2, vector := v.toNat % 2 ^ 11 } := by
  have hno : ((v.getLsbD 31 && decide (field v.toNat 20 4 ≤ 10)) && !r.enable) = false := by
    rcases h with h | h
    · rw [h, Bool.false_and]
    · rw [h, Bool.not_true, Bool.and_false]
  simp only [Ring.configure, field_zero]
  exact if_neg (Bool.eq_false_iff.mp hno)

theorem ringCfgWrite_locked {s : State} {i : Fin 1024} {v : BitVec 32} (hl : s.live = true) (hen : (s.ring i.val).enable = true)
    (hdiff : field v.toNat 24 6 ≠ (s.ring i.val).lq ∨ field v.toNat 20 4 ≠ (s.ring i.val).log2 ∨ field v.toNat 18 2 ≠ (s.ring i.val).part) :
    exec (.ringCfgWrite i v) s = .next s :=
  (exec_ringCfgWrite s i v).trans ((State.onLive_of_live _ hl).trans (if_pos ⟨hen, hdiff⟩))

theorem ringCfgWrite_open {s : State} {i : Fin 1024} {v : BitVec 32} (hl : s.live = true)
    (h : (s.ring i.val).enable = false ∨
      (field v.toNat 24 6 = (s.ring i.val).lq ∧ field v.toNat 20 4 = (s.ring i.val).log2 ∧ field v.toNat 18 2 = (s.ring i.val).part)) :
    exec (.ringCfgWrite i v) s = .next { s with rings := s.rings.put i.val ((s.ring i.val).configure v.toNat) } := by
  refine (exec_ringCfgWrite s i v).trans ((State.onLive_of_live _ hl).trans ((if_neg ?_).trans rfl))
  rintro ⟨hen, hdiff⟩
  rcases h with h | ⟨h1, h2, h3⟩
  · exact Bool.false_ne_true (h.symm.trans hen)
  · rcases hdiff with hd | hd | hd
    · exact hd h1
    · exact hd h2
    · exact hd h3

theorem State.wake_eq_self {s : State} (h : s.sec.power ≠ 2) : s.wake = s := if_neg fun hw => h hw.1

theorem doorbell_inside {s : State} {i : Fin 1024} {tail : BitVec 32} (hl : s.live = true)
    (h : (s.ring i.val).ahead tail.toNat ≤ (s.ring i.val).size) :
    exec (.doorbell i tail) s = .next (s.wake.updRing i.val fun r => r.setTail tail.toNat) :=
  (exec_doorbell s i tail).trans ((State.onLive_of_live _ hl).trans (if_pos h))

theorem doorbell_beyond {s : State} {i : Fin 1024} {tail : BitVec 32} (hl : s.live = true)
    (h : (s.ring i.val).size < (s.ring i.val).ahead tail.toNat) :
    exec (.doorbell i tail) s = .next (s.wake.rejectQueue (s.ring i.val).lq i.val 4) :=
  (exec_doorbell s i tail).trans ((State.onLive_of_live _ hl).trans (if_neg (Nat.not_le.mpr h)))

@[simp] theorem State.lqueue_rejectQueue_self (s : State) (q ring code : Nat) :
    (s.rejectQueue q ring code).lqueue q = { s.lqueue q with halted := true, err := code, errRing := ring } :=
  State.lqueue_updQueue_self s q fun x => { x with halted := true, err := code, errRing := ring }

theorem State.lqueue_rejectQueue_ne (s : State) {q k : Nat} (ring code : Nat) (h : k ≠ q) :
    (s.rejectQueue q ring code).lqueue k = s.lqueue k :=
  State.lqueue_updQueue_ne s (fun x => { x with halted := true, err := code, errRing := ring }) h

/-- A doorbell in DEVICE_IDLE starts the wake (R118, R119). -/
theorem doorbell_wakes {s : State} (i : Fin 1024) (tail : BitVec 32) (hl : s.live = true) (hp : s.sec.power = 2) (hw : s.sec.wakeAt = none) :
    ∃ t, exec (.doorbell i tail) s = .next t ∧ t.sec = { s.sec with wakeAt := some (s.gtc + 13000) } := by
  have hwake : s.wake.sec = { s.sec with wakeAt := some (s.gtc + 13000) } := by
    rw [State.wake, if_pos ⟨hp, by rw [hw]; rfl⟩]; rfl
  rcases Nat.lt_or_ge (s.ring i.val).size ((s.ring i.val).ahead tail.toNat) with h | h
  · exact ⟨_, doorbell_beyond hl h, hwake⟩
  · exact ⟨_, doorbell_inside hl h, hwake⟩

theorem packetFetch_more {s : State} {i : Fin 1024} (p : Packet) (hl : s.live = true) (hready : s.fw.ready = true)
    (hbus : s.link.busMaster = true) (hd3 : s.link.d3 = false) (hen : (s.ring i.val).enable = true)
    (hroom : (s.ring i.val).fetched.length < (s.ring i.val).ahead (s.ring i.val).tail) :
    exec (.packetFetch i p) s = .next (s.updRing i.val fun r => { r with fetched := r.fetched.put r.nextFetch p }) :=
  (exec_packetFetch s i p).trans (if_pos (by simp [State.mayFetch, hl, hready, hbus, hd3, hen, hroom]))

theorem packetFetch_none {s : State} {i : Fin 1024} (p : Packet) (h : s.live = false ∨ s.fw.ready = false ∨ s.link.busMaster = false ∨
    s.link.d3 = true ∨ (s.ring i.val).enable = false ∨ (s.ring i.val).ahead (s.ring i.val).tail ≤ (s.ring i.val).fetched.length) :
    exec (.packetFetch i p) s = .next s := by
  refine (exec_packetFetch s i p).trans (if_neg ?_)
  rcases h with h | h | h | h | h | h <;> simp [State.mayFetch, h]

/-! ### The end of a command -/

theorem State.notify_frame (s : State) (c : Cmd) : s.notify c = { s with link := (s.notify c).link } := by
  unfold State.notify; split <;> rfl

theorem State.writeStatus_frame (s : State) (c : Cmd) (st : Status) (code : Nat) :
    s.writeStatus c st code = { s with poolq := (s.writeStatus c st code).poolq, journal := (s.writeStatus c st code).journal } := by
  unfold State.writeStatus
  split
  · rfl
  · split <;> rfl

/-- The end of a command touches the commands, the journal and its requests, the interrupts and the events of firmware. -/
theorem State.endCmd_frame (s : State) (id : Nat) (st : Status) (code : Nat) : s.endCmd id st code = { s with
    cmds := (s.endCmd id st code).cmds, poolq := (s.endCmd id st code).poolq, journal := (s.endCmd id st code).journal
    link := (s.endCmd id st code).link, fw := (s.endCmd id st code).fw } := by
  unfold State.endCmd
  split
  · rfl
  · split
    · rfl
    next c _ _ =>
      dsimp only
      rw [State.notify_frame, State.writeStatus_frame]
      split <;> rfl

theorem State.endCmd_cmds_ne (s : State) {id k : Nat} (st : Status) (code : Nat) (h : k ≠ id) :
    (s.endCmd id st code).cmds.find? k = s.cmds.find? k := by
  unfold State.endCmd
  split
  · rfl
  · split
    · rfl
    next c _ _ =>
      dsimp only
      rw [State.notify_frame, State.writeStatus_frame]
      split <;> exact Tab.find?_modify_ne s.cmds (fun c => { c with status := st, code := code, fin := some s.gtc }) h

/-- The request that writes an aborted command's status into its journal entry (R93). -/
def Cmd.abortRequest (c : Cmd) (tick : Nat) : PoolReq :=
  ⟨1, c.part, c.lq, c.entry + 24, 8, .cells ((leBytes 8 (9 * 2 ^ 56 + tick % 2 ^ 48)).zipIdx.map fun e => (c.entry + 24 + e.2, e.1))⟩

/-- Bytes from an address up, numbered. -/
theorem cells_eq_zipIdx (a : Nat) (bs : List Byte) :
    ((List.range bs.length).map fun k => (a + k, bs.getD k 0)) = bs.zipIdx.map fun e => (a + e.2, e.1) := by
  refine List.ext_getElem (by simp) fun i h1 h2 => ?_
  have hi : i < bs.length := by simpa using h1
  simp [hi]

theorem State.journalWrite_aborted (s : State) (c : Cmd) :
    s.journalWrite c 24 (statusBytes .aborted 0 s.gtc) false = s.askPool (c.abortRequest s.gtc) := by
  have hbytes : statusBytes .aborted 0 s.gtc = leBytes 8 (9 * 2 ^ 56 + s.gtc % 2 ^ 48) := by simp [statusBytes, Status.code]
  have hlen : ∀ v, (leBytes 8 v).length = 8 := fun v => by simp [leBytes]
  rw [State.journalWrite, hbytes, cells_eq_zipIdx, hlen]; rfl

/-- The interrupts of a command that ends (R86). -/
def State.vectorsOf (s : State) (id : Nat) : List Nat :=
  match s.cmds.find? id with
  | some c => if c.pkt.notify = true then [(s.ring c.ring).vector] else []
  | none => []

theorem State.endCmd_aborted {s : State} {id : Nat} {c : Cmd} (hc : s.cmds.find? id = some c) (hfin : c.fin = none) (hnode : c.node = none) :
    (s.endCmd id .aborted 0).poolq = s.poolq ++ [c.abortRequest s.gtc] ∧
    (s.endCmd id .aborted 0).link.msix = s.link.msix ++ s.vectorsOf id := by
  have hv : s.vectorsOf id = if c.pkt.notify = true then [(s.ring c.ring).vector] else [] := by rw [State.vectorsOf, hc]
  have hw : (s.updCommand id fun c => { c with status := .aborted, code := 0, fin := some s.gtc }).writeStatus c .aborted 0 =
      ((s.updCommand id fun c => { c with status := .aborted, code := 0, fin := some s.gtc }).askPool (c.abortRequest s.gtc)).slotFinal := by
    simp only [State.writeStatus, hnode, Option.isSome_none, Bool.false_eq_true, if_false]
    exact (if_pos rfl).trans (congrArg State.slotFinal (State.journalWrite_aborted _ c))
  simp only [State.endCmd, hc, hfin, hnode, hw, hv, State.notify]
  cases c.pkt.notify <;> exact ⟨rfl, by simp [State.post, State.slotFinal, State.askPool, State.updCommand, State.updLink, State.ring]⟩

/-! ### The queue that is disabled -/

/-- A taken command that is not dispatched ends as ABORTED, and so does its grid (R85). -/
def State.abortCmd (s : State) (id : Nat) : State :=
  (match (s.cmds.find? id).bind (·.grid) with
    | some g => s.dropGrid g .aborted
    | none => s).endCmd id .aborted 0

/-- What a queue's taken commands that end leave as it was. -/
def State.SameQueues (s t : State) : Prop := t.mem = s.mem ∧ t.queues = s.queues ∧ t.rings = s.rings ∧ t.gtc = s.gtc

theorem State.abortCmd_same (s : State) (id : Nat) : s.SameQueues (s.abortCmd id) := by
  unfold State.abortCmd
  rw [State.endCmd_frame]
  split <;> exact ⟨rfl, rfl, rfl, rfl⟩

theorem State.abortCmd_cmds_ne (s : State) {id k : Nat} (h : k ≠ id) : (s.abortCmd id).cmds.find? k = s.cmds.find? k := by
  unfold State.abortCmd
  split <;> exact State.endCmd_cmds_ne _ _ _ h

theorem State.abortCmd_running {s : State} {id : Nat} {c : Cmd} (hc : s.cmds.find? id = some c) (hfin : c.fin = none)
    (hnode : c.node = none) :
    (s.abortCmd id).poolq = s.poolq ++ [c.abortRequest s.gtc] ∧ (s.abortCmd id).link.msix = s.link.msix ++ s.vectorsOf id := by
  unfold State.abortCmd
  split
  next g _ => exact State.endCmd_aborted (s := s.dropGrid g .aborted) hc hfin hnode
  next => exact State.endCmd_aborted hc hfin hnode

theorem State.abortCmds_same (s : State) (l : List Nat) : s.SameQueues (l.foldl State.abortCmd s) := by
  induction l generalizing s with
  | nil => exact ⟨rfl, rfl, rfl, rfl⟩
  | cons id r ih =>
    obtain ⟨hm, hq, hr, hg⟩ := ih (s.abortCmd id)
    obtain ⟨hm', hq', hr', hg'⟩ := s.abortCmd_same id
    exact ⟨hm.trans hm', hq.trans hq', hr.trans hr', hg.trans hg'⟩

/-- Commands that run, each once: every one of them gets its journal write and its interrupt, in their order. -/
theorem State.abortCmds_running {s : State} {l : List Nat} (hl : l.Nodup)
    (h : ∀ id ∈ l, ∃ c, s.cmds.find? id = some c ∧ c.fin = none ∧ c.node = none) :
    (∀ r ∈ s.poolq, r ∈ (l.foldl State.abortCmd s).poolq) ∧
    (∀ id ∈ l, ∀ c, s.cmds.find? id = some c → c.abortRequest s.gtc ∈ (l.foldl State.abortCmd s).poolq) ∧
    (l.foldl State.abortCmd s).link.msix = s.link.msix ++ l.flatMap s.vectorsOf := by
  induction l generalizing s with
  | nil => exact ⟨fun r hr => hr, fun id hid => absurd hid List.not_mem_nil, (List.append_nil _).symm⟩
  | cons k r ih =>
    obtain ⟨hk, hnd⟩ := List.nodup_cons.mp hl
    obtain ⟨⟨c, hc, hfin, hnode⟩, hr⟩ := List.forall_mem_cons.mp h
    have hne : ∀ id ∈ r, id ≠ k := fun id hid e => hk (e ▸ hid)
    have hcmds : ∀ id ∈ r, (s.abortCmd k).cmds.find? id = s.cmds.find? id := fun id hid => s.abortCmd_cmds_ne (hne id hid)
    obtain ⟨-, -, hrings, hgtc⟩ := s.abortCmd_same k
    have hvec : ∀ id ∈ r, (s.abortCmd k).vectorsOf id = s.vectorsOf id := fun id hid => by
      simp only [State.vectorsOf, hcmds id hid, State.ring, hrings]
    obtain ⟨hpool, hmsix⟩ := State.abortCmd_running hc hfin hnode
    obtain ⟨hkeep, hreq, hall⟩ := ih (s := s.abortCmd k) hnd fun id hid => by rw [hcmds id hid]; exact hr id hid
    refine ⟨fun x hx => hkeep x (by rw [hpool]; exact List.mem_append_left _ hx), ?_, ?_⟩
    · rintro id hid d hd
      rcases List.mem_cons.mp hid with rfl | hid
      · obtain rfl : c = d := Option.some.inj (hc.symm.trans hd)
        exact hkeep _ (by rw [hpool]; exact List.mem_append_right _ (List.mem_singleton_self _))
      · have := hreq id hid d ((hcmds id hid).trans hd)
        rwa [hgtc] at this
    · rw [List.foldl_cons, hall, hmsix, List.flatMap_cons, List.append_assoc, List.flatMap_congr hvec]

/-- MERGE_CFG's fields (R85). -/
def LQueue.configure (x : LQueue) (v : BitVec 32) : LQueue :=
  { x with enable := v.getLsbD 31, prio := field v.toNat 28 3, watchdog := field v.toNat 0 24 }

theorem mergeCfgWrite_keeps {s : State} {q : Fin 64} {v : BitVec 32} (hl : s.live = true)
    (h : (s.lqueue q.val).enable = false ∨ v.getLsbD 31 = true) :
    exec (.mergeCfgWrite q v) s = .next (s.updQueue q.val fun x => x.configure v) := by
  have hno : ¬ ((s.lqueue q.val).enable && !v.toNat.testBit 31) = true := by
    rcases h with h | h
    · simp [h]
    · simp [show v.toNat.testBit 31 = true from h]
  refine (exec_mergeCfgWrite s q v).trans ((State.onLive_of_live _ hl).trans ?_)
  dsimp only
  rw [if_neg hno]; rfl

theorem mergeCfgWrite_disables {s : State} {q : Fin 64} {v : BitVec 32} (hl : s.live = true)
    (hen : (s.lqueue q.val).enable = true) (hv : v.getLsbD 31 = false) :
    let u := (s.lqueue q.val).chain.foldl State.abortCmd s
    exec (.mergeCfgWrite q v) s = .next ((({ u with cmds := u.cmds.filter fun e => !(u.lqueue q.val).chain.contains e.1 }).updQueue q.val
      fun x => { x with chain := [] }).updQueue q.val fun x => x.configure v) := by
  have hyes : ((s.lqueue q.val).enable && !v.toNat.testBit 31) = true := by simp [hen, show v.toNat.testBit 31 = false from hv]
  refine (exec_mergeCfgWrite s q v).trans ((State.onLive_of_live _ hl).trans ?_)
  dsimp only
  rw [if_pos hyes]; rfl

theorem mergeCfgWrite_live (s : State) (q : Fin 64) (v : BitVec 32) (hl : s.live = true) :
    let x := s.lqueue q.val
    ∃ t, exec (.mergeCfgWrite q v) s = .next t ∧ t.mem = s.mem ∧ (∀ k, k ≠ q.val → t.lqueue k = s.lqueue k) ∧
      (x.enable = false ∨ v.getLsbD 31 = true → t = { s with queues := t.queues } ∧ t.lqueue q.val = x.configure v) ∧
      (x.enable = true → v.getLsbD 31 = false → (∀ id ∈ x.chain, t.cmds.find? id = none) ∧
        t.lqueue q.val = { x.configure v with enable := false, chain := [] } ∧
        (x.chain.Nodup → (∀ id ∈ x.chain, ∃ c, s.cmds.find? id = some c ∧ c.fin = none ∧ c.node = none) →
          (∀ id ∈ x.chain, ∀ c, s.cmds.find? id = some c → c.abortRequest s.gtc ∈ t.poolq) ∧
          t.link.msix = s.link.msix ++ x.chain.flatMap s.vectorsOf)) := by
  intro x
  by_cases h : x.enable = false ∨ v.getLsbD 31 = true
  · refine ⟨_, mergeCfgWrite_keeps hl h, rfl, fun k hk => State.lqueue_updQueue_ne s _ hk,
      fun _ => ⟨rfl, State.lqueue_updQueue_self s _ _⟩, fun hen hv => ?_⟩
    rcases h with h | h
    · exact absurd (h.symm.trans hen) Bool.false_ne_true
    · exact absurd (hv.symm.trans h) Bool.false_ne_true
  · obtain ⟨hen, hv⟩ : x.enable = true ∧ v.getLsbD 31 = false := by simpa using h
    obtain ⟨hmem, hqueues, -, -⟩ := s.abortCmds_same x.chain
    have hq : ∀ k, (x.chain.foldl State.abortCmd s).lqueue k = s.lqueue k := fun k => by simp only [State.lqueue, hqueues]
    refine ⟨_, mergeCfgWrite_disables hl hen hv, hmem, fun k hk => ?_, fun hc => absurd hc h, fun _ _ => ⟨fun id hid => ?_, ?_, ?_⟩⟩
    · rw [State.lqueue_updQueue_ne _ _ hk, State.lqueue_updQueue_ne _ _ hk]; exact hq k
    · refine find?_filter_notMem _ _ ?_
      rw [hq]; exact hid
    · rw [State.lqueue_updQueue_self, State.lqueue_updQueue_self, LQueue.configure, hv]
      exact congrArg (fun y : LQueue => { (LQueue.configure y v) with enable := false, chain := [] }) (hq q.val)
    · intro hnd hrun
      obtain ⟨-, hreq, hmsix⟩ := State.abortCmds_running hnd hrun
      exact ⟨hreq, hmsix⟩

/-- Settles O48: the writes of ring and queue registers, doorbells and fetches, case by case of their conditions. -/
theorem ringsAndQueues : Obligations.RingsAndQueues := by
  unfold Obligations.RingsAndQueues
  refine ⟨fun s i q v p hl => ?_, ?_, ?_, fun s i tail => doorbell_wakes i tail, ?_, ?_, ?_⟩
  · exact ⟨(exec_ringCfgWrite s i v).trans (State.onLive_of_reset _ hl), (exec_doorbell s i v).trans (State.onLive_of_reset _ hl),
      packetFetch_none p (.inl hl), (exec_clear s q).trans (State.onLive_of_reset _ hl), (exec_mergeCfgWrite s q v).trans (State.onLive_of_reset _ hl)⟩
  · intro s i v hl
    exact ⟨ringCfgWrite_locked hl, fun h => ⟨_, ringCfgWrite_open hl h, rfl, fun j hj => Tab.get_put_ne _ _ _ hj,
      fun hen hr => (Tab.get_put_self ..).trans (Ring.configure_enabled hen hr),
      fun hno => (Tab.get_put_self ..).trans (Ring.configure_kept hno)⟩⟩
  · intro s i tail hl hp
    have hw := State.wake_eq_self hp
    refine ⟨fun h => ⟨_, doorbell_inside hl h, ?_, ?_, ?_⟩, fun h => ⟨_, doorbell_beyond hl h, ?_, ?_, ?_, ?_⟩⟩
    all_goals rw [hw]
    · rfl
    · exact fun j hj => State.ring_updRing_ne s _ hj
    · exact State.ring_updRing_self s _ _
    · rfl
    · rfl
    · exact fun q hq => State.lqueue_rejectQueue_ne s _ _ hq
    · exact State.lqueue_rejectQueue_self s _ _ _
  · intro s i p
    refine ⟨fun hl hready hbus hd3 hen hroom => ⟨_, packetFetch_more p hl hready hbus hd3 hen hroom, rfl,
      fun j hj => State.ring_updRing_ne s _ hj, ?_, ?_⟩, fun h => packetFetch_none p (.inr h)⟩
    · rw [State.ring_updRing_self]; exact Tab.find?_put_self ..
    · rw [State.ring_updRing_self]
  · exact fun s q hl => ⟨_, (exec_clear s q).trans (State.onLive_of_live _ hl), rfl, fun k hk => State.lqueue_updQueue_ne s _ hk,
      State.lqueue_updQueue_self s _ _⟩
  · intro s q v hl
    obtain ⟨t, ht, hmem, hne, hkeep, hdis⟩ := mergeCfgWrite_live s q v hl
    have hdog : field v.toNat 0 24 = v.toNat % 2 ^ 24 := field_zero _ _
    refine ⟨t, ht, hmem, hne, fun h => ?_, fun hen hv => ?_⟩
    · rw [← hdog]; exact hkeep h
    · obtain ⟨hnone, hq, hrun⟩ := hdis hen hv
      refine ⟨hnone, by rw [← hdog]; exact hq, fun hnd hall => ?_⟩
      obtain ⟨hreq, hmsix⟩ := hrun hnd hall
      exact ⟨fun id hid c hc => ⟨_, hreq id hid c hc, rfl, rfl, rfl, rfl⟩, hmsix⟩

end Sys2Proof.Machine
end

section
/-! SUPPORT. SPDM over the DOE mailbox (R97, R110 to R112): what an answer leaves, and each request with its answer. -/

namespace Sys2Proof.Machine

/-! ### Answers -/

theorem State.wake_frame (s : State) : s.wake = { s with sec := s.wake.sec } := by
  unfold State.wake; split <;> rfl

theorem State.wake_sec (s : State) : (s.sec.power ≠ 2 → s.wake.sec = s.sec) ∧
    (s.sec.power = 2 → s.sec.wakeAt = none → s.wake.sec = { s.sec with wakeAt := some (s.gtc + 13000) }) := by
  refine ⟨fun h => by rw [State.wake_eq_self h], fun hp hw => ?_⟩
  rw [State.wake, if_pos ⟨hp, by rw [hw]; rfl⟩]; rfl

/-- A waking device keeps its other state of security and power. -/
theorem State.wake_sec_frame (s : State) : s.wake.sec = { s.sec with wakeAt := s.wake.sec.wakeAt } := by
  unfold State.wake; split <;> rfl

/-- An answered DOE message: the answer, the event for firmware, and a wake (R97, R118). -/
theorem State.doe_frame (s : State) (r : Reply) : s.doe r = { s with
    sec := s.wake.sec, fw := { s.fw with events := s.fw.events ++ [⟨none, 4⟩] }
    link := { s.link with replies := s.link.replies ++ [r] } } := by
  rw [State.doe, s.wake_frame]; rfl

/-- An answer after changes that touch neither the answers nor the events, the memory, the time or the power. -/
theorem State.doe_answered {s u : State} (r : Reply) (hrep : u.link.replies = s.link.replies := by rfl)
    (hev : u.fw.events = s.fw.events := by rfl) (hmem : u.mem = s.mem := by rfl) (hgtc : u.gtc = s.gtc := by rfl)
    (hsec : u.sec = s.sec := by rfl) : Answered s (u.doe r) [r] := by
  obtain ⟨hother, hidle⟩ := u.wake_sec
  rw [hsec, hgtc] at hidle
  rw [hsec] at hother
  rw [u.doe_frame]
  exact ⟨congrArg (· ++ [r]) hrep, congrArg (· ++ [_]) hev, hmem, hgtc, hother, hidle⟩

theorem State.reply_answered {s t : State} {rs : List Reply} (r : Reply) (h : Answered s t rs) : Answered s (t.reply r) (rs ++ [r]) := by
  obtain ⟨hrep, hrest⟩ := h
  refine ⟨?_, hrest⟩
  rw [← List.append_assoc, ← hrep]; rfl

theorem State.onDoe_reset {s : State} (f : State → State) (hl : s.live = false) : s.onDoe f = .next s :=
  State.onLive_of_reset (fun s => .next (f s)) hl

theorem State.onDoe_live {s : State} (f : State → State) (hl : s.live = true) : s.onDoe f = .next (f s) :=
  State.onLive_of_live (fun s => .next (f s)) hl

theorem State.onSpdm_reset {s : State} (v : BitVec 8) (f : State → State) (hl : s.live = false) : s.onSpdm v f = .next s :=
  State.onDoe_reset _ hl

theorem State.onSpdm_other {s : State} {v : BitVec 8} (f : State → State) (hl : s.live = true) (hv : v ≠ 0x13) :
    s.onSpdm v f = .next (s.doe .versionMismatch) := by rw [State.onSpdm, State.onDoe_live _ hl, if_neg hv]

theorem State.onSpdm_own {s : State} (f : State → State) (hl : s.live = true) : s.onSpdm 0x13 f = .next (f s) := by
  rw [State.onSpdm, State.onDoe_live _ hl, if_pos rfl]

theorem State.onSlot_other {s : State} {slot : Nat} (f : State → State) (hl : s.live = true) (h : slot ≠ 0) :
    s.onSlot 0x13 slot f = .next (s.doe .invalid) := (State.onSpdm_own _ hl).trans (congrArg _ (if_neg h))

theorem State.onSlot_own {s : State} (f : State → State) (hl : s.live = true) : s.onSlot 0x13 0 f = .next (f s) :=
  (State.onSpdm_own _ hl).trans (congrArg _ (if_pos rfl))

/-! ### Versions and slots -/

theorem slottedRequest_onSlot {v : BitVec 8} {slot : Nat} {i : Instr} (h : SlottedRequest v slot i) :
    ∃ f, ∀ s, exec i s = s.onSlot v slot f := by
  rcases h with rfl | ⟨nonce, rfl⟩ | ⟨index, signed, nonce, rfl⟩ | ⟨share, rfl⟩ <;> exact ⟨_, fun _ => rfl⟩

/-- Every request with a version checks it before anything else (R111). -/
theorem versionedRequest_onSpdm {v : BitVec 8} {i : Instr} (h : VersionedRequest v i) : ∃ f, ∀ s, exec i s = s.onSpdm v f := by
  rcases h with h | ⟨slot, h⟩ | ⟨k, tenant, rfl⟩ | ⟨k, rfl⟩ | ⟨k, m, rfl⟩ | ⟨k, p, h⟩ | ⟨k, p, flush, val, rfl⟩ | ⟨k, p, sig, rfl⟩ | ⟨token, rfl⟩
  case inr.inl =>
    obtain ⟨f, hf⟩ := slottedRequest_onSlot h
    exact ⟨_, hf⟩
  case inl =>
    simp only [List.mem_cons, List.not_mem_nil, or_false] at h
    rcases h with rfl | rfl | rfl | rfl | rfl <;> exact ⟨_, fun _ => rfl⟩
  case inr.inr.inr.inr.inr.inl =>
    simp only [List.mem_cons, List.not_mem_nil, or_false] at h
    rcases h with rfl | rfl | rfl <;> exact ⟨_, fun _ => rfl⟩
  all_goals exact ⟨_, fun _ => rfl⟩

theorem getVersion_live {s : State} (hl : s.live = true) : exec .getVersion s = .next (s.doe (.version 0x13)) :=
  (exec_getVersion s).trans (State.onDoe_live _ hl)

theorem debugNonce_live {s : State} (hl : s.live = true) : exec (.debugNonce 0x13) s =
    .next ((({ s with draw := s.draw + 1 } : State).updSec fun c => { c with nonce := some (Config.draw s.draw % 2 ^ 256) }).doe
      (.nonce (Config.draw s.draw % 2 ^ 256))) := (exec_debugNonce s 0x13).trans (State.onSpdm_own _ hl)

/-! ### Signed requests -/

theorem State.signed_answered (s : State) (content : List Byte) :
    (s.sec.revoked = true → Answered s (s.signed content) [.unspecified]) ∧
    (s.sec.revoked = false → Answered s (s.signed content) [s.signedBy content]) := by
  refine ⟨fun h => ?_, fun h => ?_⟩
  · rw [State.signed, if_pos h]; exact State.doe_answered _
  · rw [State.signed, if_neg (Bool.eq_false_iff.mp h)]; exact State.doe_answered _

theorem challenge_live {s : State} (n : BitVec 256) (hl : s.live = true) :
    exec (.challenge 0x13 0 n) s = .next (s.signed (leBytes 32 n.toNat)) := (exec_challenge s 0x13 0 n).trans (State.onSlot_own _ hl)

theorem keyExchange_revoked {s : State} (share : BitVec 768) (hl : s.live = true) (hr : s.sec.revoked = true) :
    exec (.keyExchange 0x13 0 share) s = .next (s.doe .unspecified) :=
  (exec_keyExchange s 0x13 0 share).trans ((State.onSlot_own _ hl).trans (congrArg _ (if_pos hr)))

theorem keyExchange_opens {s : State} (share : BitVec 768) (hl : s.live = true) (hr : s.sec.revoked = false) :
    exec (.keyExchange 0x13 0 share) s = .next (((s.updLink fun l => { l with
      nextSession := s.link.nextSession + 1, opening := l.opening ++ [s.link.nextSession] }).doe (.keyExchange s.link.nextSession)).reply
      (s.signedBy (leBytes 96 share.toNat ++ leBytes 2 s.link.nextSession))) :=
  (exec_keyExchange s 0x13 0 share).trans ((State.onSlot_own _ hl).trans (congrArg _ (if_neg (Bool.eq_false_iff.mp hr))))

/-- The blocks that GET_MEASUREMENTS names (R112). -/
def measuredBlocks (index : Nat) : List Nat := if index = 0xFF then [1, 2, 3, 4, 5, 6] else if 1 ≤ index ∧ index ≤ 6 then [index] else []

theorem measuredBlocks_one {i : Nat} (h1 : 1 ≤ i) (h6 : i ≤ 6) : measuredBlocks i = [i] := by
  rw [measuredBlocks, if_neg (by omega), if_pos ⟨h1, h6⟩]

theorem getMeasurements_revoked {s : State} (i : Nat) (n : BitVec 256) (hl : s.live = true) (hr : s.sec.revoked = true) :
    exec (.getMeasurements 0x13 0 i true n) s = .next (s.doe .unspecified) :=
  (exec_getMeasurements s 0x13 0 i true n).trans ((State.onSlot_own _ hl).trans (congrArg _ (if_pos ⟨rfl, hr⟩)))

theorem getMeasurements_signed {s : State} (i : Nat) (n : BitVec 256) (hl : s.live = true) (hr : s.sec.revoked = false) :
    exec (.getMeasurements 0x13 0 i true n) s = .next ((s.doe (.measurements ((measuredBlocks i).map s.block))).reply
      (s.signedBy (((measuredBlocks i).map s.block).flatMap (fun b => leBytes 1 b.1 ++ leBytes 32 b.2) ++ leBytes 32 n.toNat))) := by
  have hbody : ∀ content, (s.doe (.measurements ((measuredBlocks i).map s.block))).signedBy content = s.signedBy content := fun content => by
    rw [State.doe_frame]; rfl
  refine (exec_getMeasurements s 0x13 0 i true n).trans ((State.onSlot_own _ hl).trans (congrArg _ ?_))
  refine (if_neg fun h => Bool.false_ne_true (hr.symm.trans h.2)).trans ?_
  rw [← hbody]; rfl

theorem getMeasurements_unsigned {s : State} (i : Nat) (n : BitVec 256) (hl : s.live = true) :
    exec (.getMeasurements 0x13 0 i false n) s = .next (s.doe (.measurements ((measuredBlocks i).map s.block))) :=
  (exec_getMeasurements s 0x13 0 i false n).trans ((State.onSlot_own _ hl).trans
    (congrArg _ (if_neg fun h => Bool.false_ne_true h.1)))

/-! ### Sessions -/

theorem finish_opening {s : State} {k : Nat} (tenant : Nat) (hl : s.live = true) (h : k ∈ s.link.opening) :
    exec (.finish 0x13 k tenant) s = .next ((s.updLink fun l =>
      { l with opening := l.opening.erase k, sessions := l.sessions.put k tenant }).doe (.finished k)) :=
  (exec_finish s 0x13 k tenant).trans ((State.onSpdm_own _ hl).trans (congrArg _ (if_pos (List.contains_iff_mem.mpr h))))

theorem finish_other {s : State} {k : Nat} (tenant : Nat) (hl : s.live = true) (h : k ∉ s.link.opening) :
    exec (.finish 0x13 k tenant) s = .next (s.doe .unspecified) :=
  (exec_finish s 0x13 k tenant).trans ((State.onSpdm_own _ hl).trans (congrArg _ (if_neg fun hc => h (List.contains_iff_mem.mp hc))))

theorem endSession_open {s : State} {k : Nat} (hl : s.live = true) (h : s.hasSession k = true) :
    exec (.endSession 0x13 k) s = .next ((s.updLink fun l => { l with sessions := l.sessions.del k }).doe (.ended k)) :=
  (exec_endSession s 0x13 k).trans ((State.onSpdm_own _ hl).trans (congrArg _ (if_pos h)))

theorem endSession_other {s : State} {k : Nat} (hl : s.live = true) (h : s.hasSession k = false) :
    exec (.endSession 0x13 k) s = .next (s.doe .unspecified) :=
  (exec_endSession s 0x13 k).trans ((State.onSpdm_own _ hl).trans (congrArg _ (if_neg (Bool.eq_false_iff.mp h))))

/-- What an answer leaves of the link, but for the answers. -/
theorem State.doe_link (s : State) (r : Reply) : (s.doe r).link = { s.link with replies := s.link.replies ++ [r] } := by
  rw [State.doe_frame]

/-- Settles O59: the version and the slot before anything else, then request by request its answer. -/
theorem spdmMessages : Obligations.SpdmMessages := by
  unfold Obligations.SpdmMessages
  refine ⟨?_, ?_, ?_, ?_, ?_⟩
  · intro s v i h
    obtain ⟨f, hf⟩ := versionedRequest_onSpdm h
    refine ⟨fun hl => ⟨(hf s).trans (State.onSpdm_reset v f hl), (exec_getVersion s).trans (State.onDoe_reset _ hl)⟩, fun hl hv => ?_⟩
    exact ⟨_, (hf s).trans (State.onSpdm_other f hl hv), State.doe_answered _, by rw [State.doe_frame], by rw [State.doe_link]⟩
  · intro s slot i h hl hslot
    obtain ⟨f, hf⟩ := slottedRequest_onSlot h
    exact ⟨_, (hf s).trans (State.onSlot_other f hl hslot), State.doe_answered _, by rw [State.doe_link]⟩
  · intro s hl
    refine ⟨⟨_, getVersion_live hl, State.doe_answered _⟩, ⟨_, (exec_getCapabilities s 0x13).trans (State.onSpdm_own _ hl), State.doe_answered _⟩,
      ⟨_, (exec_negotiateAlgorithms s 0x13).trans (State.onSpdm_own _ hl), State.doe_answered _, by rw [State.doe_link]; rfl⟩,
      ⟨_, (exec_getDigests s 0x13).trans (State.onSpdm_own _ hl), State.doe_answered _⟩,
      ⟨_, (exec_getCertificate s 0x13 0).trans (State.onSlot_own _ hl), State.doe_answered _⟩,
      ⟨_, (exec_unsupportedRequest s 0x13).trans (State.onSpdm_own _ hl), State.doe_answered _⟩,
      ⟨_, debugNonce_live hl, ?_⟩⟩
    rw [State.doe_frame, State.wake_sec_frame]
    exact ⟨rfl, rfl, rfl, rfl⟩
  · intro s n share hl
    have hchallenge := challenge_live n hl
    obtain ⟨hrevoked, hsigned⟩ := s.signed_answered (leBytes 32 n.toNat)
    refine ⟨fun hr => ⟨⟨_, hchallenge, hrevoked hr⟩, ⟨_, keyExchange_revoked share hl hr, State.doe_answered _, by rw [State.doe_link]⟩,
      fun i => ⟨_, getMeasurements_revoked i n hl hr, State.doe_answered _⟩⟩, fun hr => ⟨⟨_, hchallenge, hsigned hr⟩, ?_, fun i h1 h6 => ?_⟩, ?_, ?_⟩
    · refine ⟨_, keyExchange_opens share hl hr, State.reply_answered _ (State.doe_answered _), ?_, ?_⟩
      · rw [State.reply, State.doe_frame]; rfl
      · rw [State.reply, State.doe_frame]; rfl
    · have heq := getMeasurements_signed i n hl hr
      rw [measuredBlocks_one h1 h6] at heq
      simp only [List.map_cons, List.map_nil, List.flatMap_cons, List.flatMap_nil, List.append_nil] at heq
      exact ⟨_, heq, State.reply_answered _ (State.doe_answered _)⟩
    · intro i h1 h6
      have heq := getMeasurements_unsigned i n hl
      rw [measuredBlocks_one h1 h6] at heq
      exact ⟨_, heq, State.doe_answered _⟩
    · exact ⟨_, getMeasurements_unsigned 0xFF n hl, State.doe_answered _⟩
  · intro s k tenant hl
    refine ⟨fun h => ⟨_, finish_opening tenant hl h, State.doe_answered _, ?_⟩, fun h => ⟨_, finish_other tenant hl h, State.doe_answered _, ?_⟩,
      fun h => ⟨_, endSession_open hl h, State.doe_answered _, ?_⟩, fun h => ⟨_, endSession_other hl h, State.doe_answered _, ?_⟩⟩
    · rw [State.doe_link]
      exact ⟨rfl, Tab.find?_put_self .., fun j hj => Tab.find?_put_ne _ _ hj⟩
    · rw [State.doe_link]
    · rw [State.hasSession, State.doe_link]
      refine ⟨?_, fun j hj => Tab.find?_del_ne _ hj⟩
      rw [Option.isSome_eq_false_iff, Option.isNone_iff_eq_none]
      exact Tab.find?_del_self ..
    · rw [State.doe_link]

end Sys2Proof.Machine
end

section
/-! SUPPORT. The firmware event queue and firmware update (R31, R97, R108, R109): which core takes which event, and what VERIFY and ACTIVATE
do in each state of the update. -/

namespace Sys2Proof.Machine

/-! ### The event queue -/

theorem State.coreIdle_iff {s : State} {core : Fin 12} : s.coreIdle core = true ↔ ∀ r ∈ s.runningEvents, r.1 ≠ core.val := by
  simp [State.coreIdle]

theorem State.coreIdle_eq_false {s : State} {core : Fin 12} : s.coreIdle core = false ↔ ∃ r ∈ s.runningEvents, r.1 = core.val := by
  simp [State.coreIdle]

theorem fwCores_length : fwCores.length = 12 := by rw [fwCores, List.length_map, List.length_range]

theorem fwCores_getElem (j : Nat) (h : j < fwCores.length) : fwCores[j] = Fin.ofNat 12 j := by
  simp only [fwCores, List.getElem_map, List.getElem_range]

/-- The lowest idle core takes an event (R97). -/
theorem State.takerNow_eq_some {s : State} {core : Fin 12} (hheld : s.fw.held = false) (hidle : ∀ r ∈ s.runningEvents, r.1 ≠ core.val)
    (hlow : ∀ c : Fin 12, c < core → ∃ r ∈ s.runningEvents, r.1 = c.val) : s.takerNow = some core := by
  rw [State.takerNow, if_neg (Bool.eq_false_iff.mp hheld), List.find?_eq_some_iff_getElem]
  refine ⟨State.coreIdle_iff.mpr hidle, core.val, core.isLt.trans_eq fwCores_length.symm, ?_, fun j hj => ?_⟩
  · rw [fwCores_getElem]; exact Fin.ext (Nat.mod_eq_of_lt core.isLt)
  · have hlt : Fin.ofNat 12 j < core := Fin.lt_def.mpr ((Nat.mod_eq_of_lt (hj.trans core.isLt)).trans_lt hj)
    rw [fwCores_getElem, Bool.not_eq_true', State.coreIdle_eq_false]
    exact hlow _ hlt

theorem State.takerNow_eq_none {s : State} (h : s.fw.held = true ∨ ∀ c : Fin 12, ∃ r ∈ s.runningEvents, r.1 = c.val) : s.takerNow = none := by
  rw [State.takerNow]
  rcases h with h | h
  · rw [if_pos h]
  · split
    · rfl
    · exact List.find?_eq_none.mpr fun c _ => Bool.eq_false_iff.mp (State.coreIdle_eq_false.mpr (h c))

/-- The test by which an event is chosen (R97). -/
def State.lockOpen (s : State) (e : FwEvent) : Bool := match e.lock with
  | none => true
  | some q => !s.runningEvents.any fun r => decide (r.2.1.lock = some q)

theorem State.lockOpen_iff {s : State} {e : FwEvent} : s.lockOpen e = true ↔ LockFree s e := by
  unfold State.lockOpen LockFree
  cases e.lock with
  | none => simp
  | some q => simp [Option.some.injEq]

theorem State.nextEvent_eq (s : State) : s.nextEvent = (s.fw.events.take eventEntries).zipIdx.find? fun e => s.lockOpen e.1 := rfl

theorem State.nextEvent_eq_some {s : State} {k : Nat} {e : FwEvent} (hk : k < 4096) (he : s.fw.events[k]? = some e) (hfree : LockFree s e)
    (hold : ∀ j f, j < k → s.fw.events[j]? = some f → ¬ LockFree s f) : s.nextEvent = some (e, k) := by
  obtain ⟨hlen, rfl⟩ := List.getElem?_eq_some_iff.mp he
  rw [State.nextEvent_eq, List.find?_eq_some_iff_getElem]
  refine ⟨State.lockOpen_iff.mpr hfree, k, by simp [eventEntries]; omega, by simp, fun j hj => ?_⟩
  rw [Bool.not_eq_true', ← Bool.not_eq_true, State.lockOpen_iff]
  exact hold j _ hj (by simp)

theorem State.nextEvent_eq_none {s : State} (h : ∀ j f, j < 4096 → s.fw.events[j]? = some f → ¬ LockFree s f) : s.nextEvent = none := by
  rw [State.nextEvent_eq, List.find?_eq_none]
  rintro ⟨e, j⟩ hmem
  obtain ⟨hlen, hget⟩ := List.getElem?_eq_some_iff.mp (List.mk_mem_zipIdx_iff_getElem?.mp hmem)
  have hj : j < 4096 := (List.length_take_le ..).trans_lt' hlen
  rw [List.getElem_take] at hget
  rw [State.lockOpen_iff]
  exact h j e hj (List.getElem?_eq_some_iff.mpr ⟨_, hget⟩)

theorem fwEventTake_none {s : State} (h : s.takerNow = none ∨ s.nextEvent = none) : exec .fwEventTake s = .next s := by
  rw [exec_fwEventTake, execFwEventTake]
  rcases h with h | h
  · rw [h]
  · rw [h]; cases s.takerNow <;> rfl

theorem fwEventTake_takes {s : State} {core : Fin 12} {e : FwEvent} {k : Nat} (hcore : s.takerNow = some core) (he : s.nextEvent = some (e, k)) :
    exec .fwEventTake s = .next { s with
      draw := s.draw + 2
      fw := { s.fw with
        events := s.fw.events.eraseIdx k
        cores := s.fw.cores.put core.val (e, s.gtc + Config.draw s.draw % activationBound)
        timers := if Config.draw (s.draw + 1) % 2 = 1 then s.fw.timers ++ [s.gtc + Config.draw (s.draw + 1) / 2] else s.fw.timers } } := by
  rw [exec_fwEventTake, execFwEventTake, hcore, he]; rfl

/-! ### Firmware update -/

theorem verify_starts {s : State} (hl : s.live = true) (h1 : s.fw.state ≠ 1) (h3 : s.fw.state ≠ 3) : exec .verify s = .next { s with
    fw := { s.fw with state := 1, verifyAt := 0 }, poolq := s.poolq ++ [⟨4, 0, 0, s.fw.stage, s.stagedBytes, .image⟩] } :=
  (exec_verify s).trans ((State.onLive_of_live _ hl).trans (congrArg _ (if_neg (not_or.mpr ⟨h1, h3⟩))))

theorem verify_busy {s : State} (hl : s.live = true) (h : s.fw.state = 1 ∨ s.fw.state = 3) : exec .verify s = .next s :=
  (exec_verify s).trans ((State.onLive_of_live _ hl).trans (congrArg _ (if_pos h)))

theorem activate_busy {s : State} (f : Bool) (hl : s.live = true) (h : s.fw.state = 1 ∨ s.fw.state = 3) : exec (.activate f) s = .next s :=
  (exec_activate s f).trans ((State.onLive_of_live _ hl).trans (if_pos h))

theorem activate_live {s : State} (f : Bool) (hl : s.live = true) (h1 : s.fw.state ≠ 1) (h3 : s.fw.state ≠ 3) : exec (.activate f) s = .next (
    if s.fw.state ≠ 2 then { s with fw := { s.fw with result := 7 } }
    else if s.sched.state.busy = true then { s with fw := { s.fw with result := 5 } }
    else { s with fw := { s.fw with
      state := 3, force := f, held := true, actAt := s.gtc, images := s.fw.images ++ s.pendingImages } }) := by
  refine (exec_activate s f).trans ((State.onLive_of_live _ hl).trans ((if_neg (not_or.mpr ⟨h1, h3⟩)).trans ?_))
  split
  · rfl
  · split <;> rfl

theorem fwVerifyDone_waits {s : State} (hl : s.live = true) (h : s.fw.state ≠ 1 ∨ s.fw.verifyAt = 0 ∨ s.gtc < s.fw.verifyAt) :
    exec .fwVerifyDone s = .next s := (exec_fwVerifyDone s).trans ((State.onLive_of_live _ hl).trans (if_pos h))

theorem fwVerifyDone_ends {s : State} (hl : s.live = true) (h1 : s.fw.state = 1) (h0 : s.fw.verifyAt ≠ 0) (hat : s.fw.verifyAt ≤ s.gtc) :
    exec .fwVerifyDone s = .next (if s.imageValid s.fw.stage = true then
        { s.putCells (plainCells (slotBase !s.fw.activeSlot) (s.bytesAt s.fw.stage (4096 + s.natAt (s.fw.stage + 8) 4))) with
          fw := { s.fw with state := 2, result := 1 } }
      else { s with fw := { s.fw with state := 0, result := 3 } }) := by
  refine (exec_fwVerifyDone s).trans ((State.onLive_of_live _ hl).trans ((if_neg (by omega)).trans ?_))
  split
  · simp only [State.updFw, State.putCells_fw]
  · rfl

/-! ### The activation -/

/-- Mapping the entries of a table by their keys. -/
theorem find?_mapWithKey {α β : Type} (t : Tab α) (f : Nat → α → β) (k : Nat) :
    Tab.find? (t.map fun e => (e.1, f e.1 e.2)) k = (t.find? k).map (f k) := by
  induction t with
  | nil => rfl
  | cons e r ih =>
    obtain ⟨j, b⟩ := e
    simp only [List.map_cons, Tab.find?, ih]
    split
    next hj => rw [hj, Option.map_some]
    next => rfl

theorem Grid.dropImages_nil (gid : Nat) (g : Grid) : g.dropImages [] gid = g := by
  obtain ⟨⟩ := g
  simp [Grid.dropImages]

/-- A resumption that waits of a deleted image fails with code 24 (R109). -/
theorem Grid.dropImages_lost {bad : List StoredImage} {g : Grid} (gid : Nat) (hd : g.d = none) (hc : g.checked = true)
    (h : ∃ i ∈ bad, i.pending = false ∧ i.addr = g.image ∧ i.part = g.part) : (g.dropImages bad gid).imageFault = some 24 := by
  have hlost : (bad.any fun i => !i.pending && decide (i.addr = g.image ∧ i.part = g.part)) = true := by
    obtain ⟨i, hi, hp, ha, hpart⟩ := h
    exact List.any_eq_true.mpr ⟨i, hi, by simp [hp, ha, hpart]⟩
  simp only [Grid.dropImages, hd, hc, hlost]; rfl

/-- The stored images that a firmware layout does not read. -/
def State.unread (s : State) (layout : Nat) : List StoredImage := s.fw.images.filter fun i => !layoutReadable layout i.layout

theorem State.mem_unread {s : State} {layout : Nat} {i : StoredImage} :
    i ∈ s.unread layout ↔ i ∈ s.fw.images ∧ ¬ (i.layout ≤ layout ∧ layout ≤ i.layout + 2) := by
  simp only [State.unread, List.mem_filter, layoutReadable, Bool.not_eq_true', decide_eq_false_iff_not]

theorem nonempty_and_not_iff {α : Type} (l : List α) (b : Bool) : (!l.isEmpty && !b) = true ↔ l ≠ [] ∧ b = false := by
  cases l <;> cases b <;> simp

theorem fwActivateDone_waits {s : State} (hl : s.live = true) (h : s.runningEvents ≠ []) : exec .fwActivateDone s = .next s :=
  (exec_fwActivateDone s).trans ((State.onLive_of_live _ hl).trans (if_pos (.inr (by simpa using h))))

theorem fwActivateDone_ends {s : State} (hl : s.live = true) (h3 : s.fw.state = 3) (hrun : s.runningEvents = []) :
    let a := slotBase !s.fw.activeSlot
    let l := s.natAt (a + 6) 2
    let bad := s.unread l
    exec .fwActivateDone s = .next (if bad ≠ [] ∧ s.fw.force = false then
        { s with fw := { s.fw with state := 2, result := 4, held := false, images := s.fw.images.filter fun i => !i.pending } }
      else { s with
        grids := s.grids.map fun e => (e.1, e.2.dropImages bad e.1)
        fw := { s.fw with
          slot := !s.fw.activeSlot, svn := s.natAt (a + 4) 2, layout := l, hdr := s.bytesAt a 64
          state := 0, result := if bad.isEmpty = true then 2 else 6
          failedQueues := if bad.isEmpty = true then 0 else (dedup (bad.map (·.lq))).length
          images := s.fw.images.filter fun i => layoutReadable l i.layout
          held := false, cores := [], activeSlot := !s.fw.activeSlot } }) := by
  intro a l bad
  refine (exec_fwActivateDone s).trans ((State.onLive_of_live _ hl).trans ((if_neg (by simp [h3, hrun])).trans ?_))
  by_cases h : bad ≠ [] ∧ s.fw.force = false
  · rw [if_pos h]
    exact if_pos ((nonempty_and_not_iff _ _).mpr h)
  · rw [if_neg h]
    exact if_neg fun hc => h ((nonempty_and_not_iff _ _).mp hc)

theorem fwActivateDone_clauses {s : State} (hl : s.live = true) (h3 : s.fw.state = 3) (hrun : s.runningEvents = []) :
    let a := slotBase !s.fw.activeSlot
    let reads := fun i : StoredImage => i.layout ≤ s.natAt (a + 6) 2 ∧ s.natAt (a + 6) 2 ≤ i.layout + 2
    ((∀ i ∈ s.fw.images, reads i) → ∃ t, exec .fwActivateDone s = .next t ∧ t = { s with fw := t.fw, grids := t.grids } ∧
      (∀ k, t.grids.find? k = s.grids.find? k) ∧
      t.fw.state = 0 ∧ t.fw.result = 2 ∧ t.fw.activeSlot = !s.fw.activeSlot ∧ t.fw.held = false ∧ t.fw.images = s.fw.images ∧
      t.fw.svn = s.natAt (a + 4) 2 ∧ t.fw.layout = s.natAt (a + 6) 2 ∧ t.fw.hdr = s.bytesAt a 64 ∧ t.fw.failedQueues = 0) ∧
    ((∃ i ∈ s.fw.images, ¬ reads i) → s.fw.force = false → ∃ t, exec .fwActivateDone s = .next t ∧ t = { s with fw := t.fw } ∧
      t.fw.state = 2 ∧ t.fw.result = 4 ∧ t.fw.activeSlot = s.fw.activeSlot ∧ t.fw.held = false ∧ t.fw.layout = s.fw.layout ∧
      ∀ i ∈ s.fw.images, i.pending = false → i ∈ t.fw.images) ∧
    ((∃ i ∈ s.fw.images, ¬ reads i) → s.fw.force = true → ∃ t, exec .fwActivateDone s = .next t ∧ t = { s with fw := t.fw, grids := t.grids } ∧
      t.fw.state = 0 ∧ t.fw.result = 6 ∧ t.fw.activeSlot = !s.fw.activeSlot ∧ t.fw.held = false ∧
      (∀ i, i ∈ t.fw.images ↔ i ∈ s.fw.images ∧ reads i) ∧
      ∀ k g, s.grids.find? k = some g → g.d = none → g.checked = true → (∃ i ∈ s.fw.images, ¬ reads i ∧ i.pending = false ∧
        i.addr = g.image ∧ i.part = g.part) → ∃ h, t.grids.find? k = some h ∧ h.imageFault = some 24) := by
  intro a reads
  have heq := fwActivateDone_ends hl h3 hrun
  have hbad : (∃ i ∈ s.fw.images, ¬ reads i) → s.unread (s.natAt (a + 6) 2) ≠ [] := fun ⟨i, hi, hr⟩ =>
    List.ne_nil_of_mem (State.mem_unread.mpr ⟨hi, hr⟩)
  refine ⟨fun hall => ?_, fun hsome hf => ?_, fun hsome hf => ?_⟩
  · have hnil : s.unread (s.natAt (a + 6) 2) = [] := List.eq_nil_iff_forall_not_mem.mpr fun i hi =>
      (State.mem_unread.mp hi).2 (hall i (State.mem_unread.mp hi).1)
    dsimp only at heq
    rw [hnil, if_neg (by simp)] at heq
    refine ⟨_, heq, rfl, fun k => ?_, rfl, rfl, rfl, rfl, ?_, rfl, rfl, rfl, rfl⟩
    · simp [Grid.dropImages_nil]
    · exact List.filter_eq_self.mpr fun i hi => decide_eq_true (hall i hi)
  · refine ⟨_, heq.trans (congrArg _ (if_pos ⟨hbad hsome, hf⟩)), rfl, rfl, rfl, rfl, rfl, rfl, fun i hi hp => ?_⟩
    exact List.mem_filter.mpr ⟨hi, by simp [hp]⟩
  · have hne : (s.unread (s.natAt (a + 6) 2)).isEmpty = false := by simpa using hbad hsome
    refine ⟨_, heq.trans (congrArg _ (if_neg (by simp [hf]))), rfl, rfl, if_neg (Bool.eq_false_iff.mp hne), rfl, rfl, fun i => ?_, ?_⟩
    · simp [layoutReadable, reads, a]
    · rintro k g hg hd hc ⟨i, hi, hr, hp, haddr, hpart⟩
      refine ⟨g.dropImages (s.unread (s.natAt (a + 6) 2)) k, ?_,
        Grid.dropImages_lost k hd hc ⟨i, State.mem_unread.mpr ⟨hi, hr⟩, hp, haddr, hpart⟩⟩
      exact (find?_mapWithKey s.grids (fun k g => g.dropImages (s.unread (s.natAt (a + 6) 2)) k) k).trans (by rw [hg]; rfl)

/-- Settles O45: the event queue by its taker and its next event, and the update state by state. -/
theorem firmwareUpdate : Obligations.FirmwareUpdate := by
  unfold Obligations.FirmwareUpdate
  refine ⟨?_, fun s h => ?_, fun s hl => ?_, ?_, fun s hl => fwVerifyDone_waits hl, fun s hl h1 h0 hat => fwVerifyDone_ends hl h1 h0 hat, ?_,
    fun s hl _ hrun => fwActivateDone_waits hl hrun, fun s hl h3 hrun => fwActivateDone_clauses hl h3 hrun⟩
  · intro s core k e hheld hidle hlow hk he hfree hold
    have hmod : Config.draw s.draw % activationBound < 6500000 := Nat.mod_lt _ (by decide)
    exact ⟨_, _, fwEventTake_takes (State.takerNow_eq_some hheld hidle hlow) (State.nextEvent_eq_some hk he hfree hold), rfl, rfl, rfl,
      Nat.le_add_right .., Nat.add_lt_add_left hmod _⟩
  · refine fwEventTake_none ?_
    rcases h with h | h | h
    · exact .inl (State.takerNow_eq_none (.inl h))
    · exact .inl (State.takerNow_eq_none (.inr h))
    · exact .inr (State.nextEvent_eq_none h)
  · exact ⟨(exec_verify s).trans (State.onLive_of_reset _ hl), (exec_fwVerifyDone s).trans (State.onLive_of_reset _ hl),
      (exec_fwActivateDone s).trans (State.onLive_of_reset _ hl), fun f => (exec_activate s f).trans (State.onLive_of_reset _ hl)⟩
  · refine fun s hl => ⟨verify_starts hl, fun h => ?_, fun h => ⟨verify_busy hl h, fun f => activate_busy f hl h⟩⟩
    simp only [State.stagedBytes]
    rw [if_pos h]
  · intro s f hl
    refine ⟨fun h0 => ?_, fun h2 hb => ?_, fun h2 hb => ?_⟩
    · rw [activate_live f hl (by omega) (by omega), if_pos (by omega)]
    · have hbusy : s.sched.state.busy = true := by rcases hb with h | h | h | h <;> rw [h] <;> rfl
      rw [activate_live f hl (by omega) (by omega), if_neg (by omega), if_pos hbusy]
    · have hbusy : s.sched.state.busy = false := by rcases hb with h | h <;> rw [h] <;> rfl
      rw [activate_live f hl (by omega) (by omega), if_neg (by omega), if_neg (Bool.eq_false_iff.mp hbusy)]

end Sys2Proof.Machine
end

section
/-! SUPPORT. Events of the time unit (R21, R58 to R62, R104): what a schedule fault and the servo leave, the best master, each message and each edge. -/

namespace Sys2Proof.Machine

/-! ### A stable sort gives the least first -/

theorem pairwise_insertBy {α : Type} {lt : α → α → Bool} (htrans : ∀ x y z, lt y x = false → lt z y = false → lt z x = false)
    (hasymm : ∀ x y, lt x y = true → lt y x = false) {l : List α} (x : α) (h : l.Pairwise fun a b => lt b a = false) :
    (insertBy lt x l).Pairwise fun a b => lt b a = false := by
  induction l with
  | nil => exact List.pairwise_singleton ..
  | cons y ys ih =>
    obtain ⟨hy, hys⟩ := List.pairwise_cons.mp h
    unfold insertBy
    split
    case isTrue hlt =>
      refine List.pairwise_cons.mpr ⟨fun z hz => ?_, ih hys⟩
      rcases mem_insertBy.mp hz with rfl | hz
      · exact hasymm _ _ hlt
      · exact hy z hz
    case isFalse hlt =>
      have hyx : lt y x = false := Bool.eq_false_iff.mpr hlt
      exact List.pairwise_cons.mpr ⟨List.forall_mem_cons.mpr ⟨hyx, fun z hz => htrans _ _ _ hyx (hy z hz)⟩, h⟩

theorem pairwise_sortBy {α : Type} {lt : α → α → Bool} (htrans : ∀ x y z, lt y x = false → lt z y = false → lt z x = false)
    (hasymm : ∀ x y, lt x y = true → lt y x = false) (l : List α) : (sortBy lt l).Pairwise fun a b => lt b a = false := by
  induction l with
  | nil => exact List.Pairwise.nil
  | cons x r ih => exact pairwise_insertBy htrans hasymm x ih

theorem length_insertBy {α : Type} (lt : α → α → Bool) (x : α) (l : List α) : (insertBy lt x l).length = l.length + 1 := by
  induction l with
  | nil => rfl
  | cons y ys ih => unfold insertBy; split <;> simp [ih]

theorem length_sortBy {α : Type} (lt : α → α → Bool) (l : List α) : (sortBy lt l).length = l.length := by
  induction l with
  | nil => rfl
  | cons x r ih => rw [sortBy, length_insertBy, ih, List.length_cons]

/-! ### Faults and the servo -/

theorem State.schedFault_frame (s : State) (cause : Nat) : s.schedFault cause = { s with
    fw := { s.fw with events := s.fw.events ++ [⟨none, 3⟩] }, sched := (s.schedFault cause).sched } := by
  unfold State.schedFault; dsimp only; split <;> rfl

/-- A schedule fault names its cause and keeps the state of the schedule; a state at work remembers when (R73, R75). -/
theorem State.schedFault_sched (s : State) (cause : Nat) : (s.schedFault cause).sched.cause = cause ∧
    (s.schedFault cause).sched.state = s.sched.state ∧
    (s.sched.state = .run → (s.schedFault cause).sched.faultAt.isSome = true) := by
  unfold State.schedFault; dsimp only
  split
  next h => exact ⟨rfl, rfl, fun hr => absurd h (by rw [show (s.post none 3).sched.state = .run from hr]; decide)⟩
  next => exact ⟨rfl, rfl, fun _ => rfl⟩

/-- A TIME fault (R60). -/
theorem State.timeFaulted_frame (s : State) : s.timeFaulted = { s with
    time := { s.time with timeFault := true }, fw := { s.fw with events := s.fw.events ++ [⟨none, 3⟩] }, sched := s.timeFaulted.sched } :=
  State.schedFault_frame _ 7

theorem State.timeFaulted_sched (s : State) : s.timeFaulted.sched.cause = 7 ∧ s.timeFaulted.sched.state = s.sched.state ∧
    (s.sched.state = .run → s.timeFaulted.sched.faultAt.isSome = true) := (s.updTime fun t => { t with timeFault := true }).schedFault_sched 7

theorem inLock_iff {o : Int} : inLock o = true ↔ o.natAbs ≤ 48 := decide_eq_true_iff

theorem inLock_eq_false {o : Int} : inLock o = false ↔ 48 < o.natAbs := by
  rw [inLock, decide_eq_false_iff_not, Nat.not_le]

/-- The servo's two outcomes in RUN (R60): an estimate out of lock is a TIME fault. -/
def State.weighed (s : State) (o : Int) : State :=
  let e := Config.servo s.time.servo o
  let s := s.updTime fun t => { t with servo := t.servo + 1, offset := e, locked := inLock e }
  if s.sched.state = .run ∧ !inLock e then s.timeFaulted else s

theorem State.weighed_frame (s : State) (o : Int) : s.weighed o = { s with
    time := { s.time with
      servo := s.time.servo + 1, offset := Config.servo s.time.servo o, locked := inLock (Config.servo s.time.servo o)
      timeFault := (s.weighed o).time.timeFault }
    fw := { s.fw with events := (s.weighed o).fw.events }, sched := (s.weighed o).sched } := by
  unfold State.weighed; dsimp only
  split
  · rw [State.timeFaulted_frame]; rfl
  · rfl

theorem State.weighed_faults {s : State} {o : Int} (hr : s.sched.state = .run) (h : 48 < (Config.servo s.time.servo o).natAbs) :
    (s.weighed o).time.timeFault = true ∧ (s.weighed o).sched.cause = 7 := by
  have hout : (!inLock (Config.servo s.time.servo o)) = true := by rw [inLock_eq_false.mpr h]; rfl
  unfold State.weighed; dsimp only
  rw [if_pos ⟨hr, hout⟩]
  refine ⟨by rw [State.timeFaulted_frame], (State.timeFaulted_sched _).1⟩

theorem State.servo_eq (s : State) (o : Int) : s.servo o =
    if ((s.weighed o).inPhase 4 && (s.weighed o).time.counting && inLock (Config.servo s.time.servo o)) = true then
      (s.weighed o).enterPhase5 else s.weighed o := rfl

/-- Beside the schedule and firmware, the servo touches the servo's own values and the fault. -/
theorem State.servo_frame (s : State) (o : Int) : s.servo o = { s with
    time := { s.time with
      servo := s.time.servo + 1, offset := Config.servo s.time.servo o, locked := inLock (Config.servo s.time.servo o)
      timeFault := (s.servo o).time.timeFault }
    fw := (s.servo o).fw, sched := (s.servo o).sched } := by
  rw [State.servo_eq, State.weighed_frame]; split <;> rfl

/-- What a new offset estimate leaves of the time. -/
theorem State.servo_keeps (s : State) (o : Int) (gtc sync : Nat) (h : s.gtc = gtc ∧ s.time.counting = true ∧ s.time.lastSync = sync) :
    let t := (s.updTime fun t => { t with ptp := o }).servo o
    t.gtc = gtc ∧ t.time.counting = true ∧ t.time.lastSync = sync := by
  rw [State.servo_frame]; exact h

theorem State.servo_faults {s : State} {o : Int} (hr : s.sched.state = .run) (h : 48 < (Config.servo s.time.servo o).natAbs) :
    (s.servo o).time.timeFault = true ∧ (s.servo o).sched.cause = 7 := by
  rw [State.servo_eq]; split <;> exact State.weighed_faults hr h

/-- Phase 4 ends when the servo locks (R104). -/
theorem State.servo_phase {s : State} {o : Int} (h4 : s.inPhase 4 = true) (hc : s.time.counting = true)
    (h : (Config.servo s.time.servo o).natAbs ≤ 48) : (s.servo o).fw.phase = 5 := by
  rw [State.servo_eq, if_pos]
  · rfl
  · have hin : (s.weighed o).inPhase 4 = true := by rw [State.weighed_frame]; exact h4
    have hcount : (s.weighed o).time.counting = true := by rw [State.weighed_frame]; exact hc
    rw [hin, hcount, inLock_iff.mpr h]; rfl

/-! ### Messages -/

theorem ptpMessage_ignored {s : State} {m : PtpMsg} (h : s.timing = false ∨ s.meetsProfile m = false ∨ (m.kind ≠ .announce ∧ s.fromMaster m = false)) :
    exec (.ptpMessage m) s = .next s := by
  refine (exec_ptpMessage s m).trans (congrArg Host.Outcome.next ?_)
  rcases h with h | h | ⟨hk, h⟩
  · exact if_pos (by rw [h]; rfl)
  · exact if_pos (by rw [h, Bool.not_false, Bool.or_true])
  · by_cases hp : (!s.timing || !s.meetsProfile m) = true
    · exact if_pos hp
    · exact (if_neg hp).trans ((if_neg hk).trans (if_pos (by rw [h]; rfl)))

theorem State.meetsProfile_eq_false {s : State} {m : PtpMsg} (h : m.transportOk = false ∨ m.domain ≠ s.time.domain ∨
    ((m.kind = .syncOneStep ∨ m.kind = .syncTwoStep) ∧ (m.logSync < -7 ∨ 0 < m.logSync))) : s.meetsProfile m = false := by
  rcases h with h | h | ⟨hk, h⟩
  · simp [State.meetsProfile, h]
  · simp [State.meetsProfile, h]
  · have hrate : m.rateOk = false := decide_eq_false (by omega)
    rcases hk with hk | hk <;> simp [State.meetsProfile, hk, hrate]

theorem ptpMessage_announce {s : State} {m : PtpMsg} (ht : s.timing = true) (hp : s.meetsProfile m = true) (hk : m.kind = .announce) :
    exec (.ptpMessage m) s = .next (s.heard m) :=
  (exec_ptpMessage s m).trans (congrArg Host.Outcome.next ((if_neg (by rw [ht, hp]; decide)).trans (if_pos hk)))

/-- The best master is the least of those heard in the domain that still count (R59). -/
theorem State.fromMaster_least {s : State} {m : PtpMsg} (h : s.fromMaster m = true) :
    ∃ x ∈ s.time.masters, x.domain = s.time.domain ∧ x.source = m.source ∧ s.gtc ≤ x.till ∧
      ∀ y ∈ s.time.masters, y.domain = s.time.domain → s.gtc ≤ y.till → ¬ y.rank < x.rank := by
  obtain ⟨x, hx, hsrc⟩ := (Option.any_eq_true ..).mp h
  have hsorted := pairwise_sortBy (lt := fun (a b : Master) => decide (a.rank < b.rank))
    (fun x y z hxy hyz => by simp only [decide_eq_false_iff_not, not_lt] at *; exact hxy.trans hyz)
    (fun x y hxy => by simp only [decide_eq_true_eq, decide_eq_false_iff_not, not_lt] at *; exact hxy.le)
    (s.time.masters.filter fun (x : Master) => decide (x.domain = s.time.domain ∧ s.gtc ≤ x.till))
  rw [State.bestMaster] at hx
  obtain ⟨r, hr⟩ := List.head?_eq_some_iff.mp hx
  have hmem : ∀ y, y ∈ x :: r ↔ y ∈ s.time.masters ∧ y.domain = s.time.domain ∧ s.gtc ≤ y.till := fun y => by
    rw [← hr, mem_sortBy, List.mem_filter, decide_eq_true_eq]
  rw [hr] at hsorted
  obtain ⟨hleast, -⟩ := List.pairwise_cons.mp hsorted
  obtain ⟨hin, hdom, htill⟩ := (hmem x).mp (List.mem_cons_self ..)
  refine ⟨x, hin, hdom, of_decide_eq_true hsrc, htill, fun y hy hyd hyt => ?_⟩
  rcases List.mem_cons.mp ((hmem y).mpr ⟨hy, hyd, hyt⟩) with rfl | hyr
  · exact lt_irrefl _
  · exact of_decide_eq_false (hleast y hyr)

/-- Pod time counts 13 ticks in 10 ns from the epoch (R58). -/
theorem State.podTime_eq {s : State} {tai : Nat} (h : s.time.epoch.toNat * 10 ^ 9 ≤ tai) :
    s.podTime tai = (tai - s.time.epoch.toNat * 10 ^ 9) * 13 / 10 := by
  have hcast : (s.time.epoch.toNat : Int) * 10 ^ 9 = ((s.time.epoch.toNat * 10 ^ 9 : Nat) : Int) := by push_cast; rfl
  rw [State.podTime, State.podTime16, hcast]
  generalize s.time.epoch.toNat * 10 ^ 9 = e at h ⊢
  omega

/-- A message of the selected master, read now: a first estimate starts the GTC, a Sync ends HOLDOVER. -/
def State.synced (s : State) (m : PtpMsg) : State :=
  let s := if s.inPhase 4 && !s.time.counting && m.estimates && m.kind ≠ .delayResp then s.startTime (s.podTime m.tai) else s
  if m.sync then s.wake.updTime fun t => { t with lastSync := s.gtc, holdover := false } else s

theorem ptpMessage_heeded {s : State} {m : PtpMsg} (h : Heeds s m) : exec (.ptpMessage m) s = .next (
    if (s.synced m).gives m = true then ((s.synced m).updTime fun t => { t with ptp := (s.synced m).offset16 m }).servo ((s.synced m).offset16 m)
    else s.synced m) := by
  obtain ⟨ht, hp, hk, hm⟩ := h
  refine (exec_ptpMessage s m).trans (congrArg Host.Outcome.next ?_)
  exact (if_neg (by rw [ht, hp]; decide)).trans ((if_neg hk).trans ((if_neg (by rw [hm]; decide)).trans rfl))

/-- The first offset estimate of phase 4 loads the GTC (R104). -/
theorem ptpMessage_starts {s : State} {m : PtpMsg} (h : Heeds s m) (hc : s.time.counting = false) (h4 : s.inPhase 4 = true)
    (hk : m.kind = .syncOneStep ∨ m.kind = .followUp) :
    ∃ t, exec (.ptpMessage m) s = .next t ∧ t.gtc = s.podTime m.tai ∧ t.time.counting = true ∧ t.time.lastSync = s.podTime m.tai := by
  have hest : m.estimates = true ∧ m.kind ≠ .delayResp := by
    rcases hk with hk | hk <;> rw [PtpMsg.estimates, hk] <;> decide
  have hstart : (s.inPhase 4 && !s.time.counting && m.estimates && m.kind ≠ .delayResp) = true := by
    simp [h4, hc, hest]
  have hsync : (s.synced m).gtc = s.podTime m.tai ∧ (s.synced m).time.counting = true ∧ (s.synced m).time.lastSync = s.podTime m.tai := by
    unfold State.synced; dsimp only
    rw [if_pos hstart]
    generalize s.podTime m.tai = now
    split
    · rw [State.wake_frame]; exact ⟨rfl, rfl, rfl⟩
    · exact ⟨rfl, rfl, rfl⟩
  refine ⟨_, ptpMessage_heeded h, ?_⟩
  split
  · exact State.servo_keeps _ _ _ _ hsync
  · exact hsync

theorem State.synced_counting {s : State} {m : PtpMsg} (hc : s.time.counting = true) (hp : s.sec.power ≠ 2) :
    s.synced m = if m.sync = true then { s with time := { s.time with lastSync := s.gtc, holdover := false } } else s := by
  have hno : ¬ (s.inPhase 4 && !s.time.counting && m.estimates && m.kind ≠ .delayResp) = true := by simp [hc]
  unfold State.synced; dsimp only
  rw [if_neg hno, State.wake_eq_self hp]; rfl

/-- A message that gives an offset estimate (R60): the servo weighs it. -/
theorem ptpMessage_estimates {s : State} {m : PtpMsg} (h : Heeds s m) (hc : s.time.counting = true) (hp : s.sec.power ≠ 2)
    (hest : m.estimates = true) (hhold : m.sync = true ∨ s.time.holdover = false) :
    exec (.ptpMessage m) s = .next (((s.synced m).updTime fun t => { t with ptp := s.offset16 m }).servo (s.offset16 m)) := by
  have heq := State.synced_counting (m := m) hc hp
  have hgives : (s.synced m).gives m = true := by
    rw [State.gives, hest, heq]
    rcases hhold with hs | hh
    · rw [if_pos hs, hc]; rfl
    · split
      · rw [hc]; rfl
      · rw [hc, hh]; rfl
  have hoff : (s.synced m).offset16 m = s.offset16 m := by rw [heq]; split <;> rfl
  rw [ptpMessage_heeded h, if_pos hgives, hoff]

theorem ptpMessage_counting {s : State} {m : PtpMsg} (h : Heeds s m) (hc : s.time.counting = true) (hp : s.sec.power ≠ 2) :
    (m.kind = .syncTwoStep → exec (.ptpMessage m) s = .next { s with time := { s.time with lastSync := s.gtc, holdover := false } }) ∧
    (s.time.holdover = true → m.kind = .followUp ∨ m.kind = .delayResp → exec (.ptpMessage m) s = .next s) ∧
    (m.kind = .syncOneStep ∨ ((m.kind = .followUp ∨ m.kind = .delayResp) ∧ s.time.holdover = false) →
      let o := s.offset16 m
      let e := Config.servo s.time.servo o
      ∃ t, exec (.ptpMessage m) s = .next t ∧ t.gtc = s.gtc ∧ t.mem = s.mem ∧ t.time.ptp = o ∧ t.time.offset = e ∧
        (t.time.locked = true ↔ e.natAbs ≤ 48) ∧ (m.kind = .syncOneStep → t.time.lastSync = s.gtc ∧ t.time.holdover = false) ∧
        (s.sched.state = .run → 48 < e.natAbs → t.time.timeFault = true ∧ t.sched.cause = 7) ∧
        (s.inPhase 4 = true → e.natAbs ≤ 48 → t.fw.phase = 5)) := by
  have heq := State.synced_counting (m := m) hc hp
  refine ⟨fun hk => ?_, fun hh hk => ?_, fun hk => ?_⟩
  · have hno : (s.synced m).gives m = false := by simp [State.gives, PtpMsg.estimates, hk]
    have hsync : m.sync = true := by rw [PtpMsg.sync, hk]
    rw [ptpMessage_heeded h, if_neg (Bool.eq_false_iff.mp hno), heq, if_pos hsync]
  · have hsync : m.sync = false := by rcases hk with hk | hk <;> rw [PtpMsg.sync, hk]
    rw [if_neg (Bool.eq_false_iff.mp hsync)] at heq
    have hno : s.gives m = false := by simp [State.gives, hh]
    rw [ptpMessage_heeded h, heq, if_neg (Bool.eq_false_iff.mp hno)]
  · intro o e
    have hest : m.estimates = true := by rcases hk with hk | ⟨hk | hk, -⟩ <;> rw [PtpMsg.estimates, hk]
    have hhold : m.sync = true ∨ s.time.holdover = false := by
      rcases hk with hk | ⟨-, hh⟩
      · exact .inl (by rw [PtpMsg.sync, hk])
      · exact .inr hh
    have hu : (s.synced m).updTime (fun t => { t with ptp := o }) = { s with time := { s.time with
        ptp := o, lastSync := (s.synced m).time.lastSync, holdover := (s.synced m).time.holdover } } := by
      rw [heq]; split <;> rfl
    have hexec := ptpMessage_estimates h hc hp hest hhold
    rw [hu] at hexec
    refine ⟨_, hexec, by rw [State.servo_frame], by rw [State.servo_frame], by rw [State.servo_frame], by rw [State.servo_frame], ?_,
      fun hone => ?_, fun hr hout => State.servo_faults hr hout, fun h4 hin => State.servo_phase h4 hc hin⟩
    · rw [State.servo_frame]; exact inLock_iff
    · have hsync : m.sync = true := by rw [PtpMsg.sync, hone]
      rw [State.servo_frame, heq, if_pos hsync]
      exact ⟨rfl, rfl⟩

/-! ### Edges and ports -/

theorem ppsIn_eq (s : State) (b : Bool) :
    let u : State := { s with time := { s.time with ppsOk := b }, pkg := { s.pkg with pps := b } }
    exec (.ppsIn b) s = .next (if (b && s.time.refOk && s.timing && s.time.counting && !s.time.holdover) = true then u.servo s.ppsOffset else u) :=
  exec_ppsIn s b

theorem ppsIn_clauses (s : State) (b : Bool) :
    ∃ t, exec (.ppsIn b) s = .next t ∧ t.time.ppsOk = b ∧ t.pkg.pps = b ∧ t.gtc = s.gtc ∧ t.mem = s.mem ∧
    (b = false ∨ s.time.refOk = false ∨ s.time.holdover = true ∨ s.timing = false ∨ s.time.counting = false →
      t = { s with time := { s.time with ppsOk := b }, pkg := { s.pkg with pps := b } }) ∧
    (b = true → s.time.refOk = true → s.time.holdover = false → s.timing = true → s.time.counting = true →
      t.time.offset = Config.servo s.time.servo s.ppsOffset ∧ (s.gtc % 1300000000 = 0 → s.ppsOffset = 0)) := by
  have hzero : s.gtc % 1300000000 = 0 → s.ppsOffset = 0 := fun h => by simp [State.ppsOffset, second, h]
  refine ⟨_, ppsIn_eq s b, ?_⟩
  by_cases h : (b && s.time.refOk && s.timing && s.time.counting && !s.time.holdover) = true
  · rw [if_pos h, State.servo_frame]
    refine ⟨rfl, rfl, rfl, rfl, fun hno => ?_, fun _ _ _ _ _ => ⟨rfl, hzero⟩⟩
    rcases hno with hno | hno | hno | hno | hno <;> simp [hno] at h
  · rw [if_neg h]
    exact ⟨rfl, rfl, rfl, rfl, fun _ => rfl, fun hb hr hh ht hc => absurd (by rw [hb, hr, hh, ht, hc]; rfl) h⟩

theorem timeFaultTimeout_due {s : State} (hr : s.sched.state = .run) (hsync : s.time.lastSync + 1300000000 ≤ s.gtc)
    (hlock : s.time.lastLock + 1300000000 ≤ s.gtc) :
    exec .timeFaultTimeout s = .next (s.timeFaulted.updTime fun t => { t with lastLock := s.gtc }) := by
  have hdue : s.timeFaultDue = true := by
    rw [State.timeFaultDue, decide_eq_true hr, Bool.true_and, decide_eq_true_eq, second]; omega
  exact (exec_timeFaultTimeout s).trans (congrArg Host.Outcome.next (if_neg (by rw [hdue]; decide)))

theorem length_kerfUsed (l : List Int) : (kerfUsed l).length = if 8 ≤ l.length then l.length - 4 else l.length := by
  unfold kerfUsed
  split
  · rw [List.length_take, List.length_drop, sortInts, length_sortBy]; omega
  · rfl

/-- A lock is observed (R61): the port's edge, and the number of edges that count. -/
def State.observed (s : State) (p tau : Nat) : State :=
  let inTime := decide (leafTick s.gtc ≤ 160)
  let u := s.updPort p fun x => { x with kerf := some (s.gtc / 4096, (tau : Int) - 2496), locked := if inTime then some (s.gtc / 4096) else x.locked }
  u.updTime fun t => { t with
    kerfPorts := (kerfUsed (u.kerfObs (s.gtc / 4096))).length, lastLock := if inTime then s.gtc else t.lastLock }

theorem portLock_ignored {s : State} {p : Fin 16} (tau : Nat) (h : s.live = false ∨ s.time.counting = false ∨ (s.port p.val).dead = true ∨
    (s.port p.val).far (leafOf s.gtc) = true) : exec (.portLock p tau) s = .next s := by
  refine (exec_portLock s p tau).trans (congrArg Host.Outcome.next (if_pos ?_))
  rcases h with h | h | h | h <;> simp [h]

/-- Beside what is observed, a lock gives the servo at most a new mean. -/
theorem portLock_observes {s : State} {p : Fin 16} (tau : Nat) (hl : s.live = true) (hc : s.time.counting = true)
    (hd : (s.port p.val).dead = false) (hfar : (s.port p.val).far (leafOf s.gtc) = false) :
    ∃ t, exec (.portLock p tau) s = .next t ∧
      (t = s.observed p.val tau ∨ ∃ o, t = ((s.observed p.val tau).updTime fun x => { x with kerf := o }).servo o) := by
  have hno : ¬ (!s.live || !s.time.counting || (s.port p.val).dead || (s.port p.val).far (leafOf s.gtc)) = true := by simp [hl, hc, hd, hfar]
  refine ⟨_, (exec_portLock s p tau).trans (congrArg Host.Outcome.next (if_neg hno)), ?_⟩
  by_cases hu : (kerfUsed ((s.observed p.val tau).kerfObs (s.gtc / 4096))).isEmpty = true
  · exact .inl (if_pos hu)
  · exact .inr ⟨_, if_neg hu⟩

theorem State.observed_ports (s : State) (p tau : Nat) :
    ((s.observed p tau).port p).kerf = some (s.gtc / 4096, (tau : Int) - 2496) ∧
    (s.gtc % 4096 ≤ 160 → ((s.observed p tau).port p).locked = some (s.gtc / 4096) ∧ (s.observed p tau).time.lastLock = s.gtc) ∧
    (160 < s.gtc % 4096 → ((s.observed p tau).port p).locked = (s.port p).locked ∧ (s.observed p tau).time.lastLock = s.time.lastLock) ∧
    ∀ q, q ≠ p → (s.observed p tau).port q = s.port q := by
  have hself : (s.observed p tau).port p = { s.port p with
      kerf := some (s.gtc / 4096, (tau : Int) - 2496)
      locked := if decide (leafTick s.gtc ≤ 160) = true then some (s.gtc / 4096) else (s.port p).locked } :=
    State.port_updPort_self s p fun x => { x with
      kerf := some (s.gtc / 4096, (tau : Int) - 2496)
      locked := if decide (leafTick s.gtc ≤ 160) = true then some (s.gtc / 4096) else x.locked }
  have hother : ∀ q, q ≠ p → (s.observed p tau).port q = s.port q := fun q hq =>
    State.port_updPort_ne s (fun x => { x with
      kerf := some (s.gtc / 4096, (tau : Int) - 2496)
      locked := if decide (leafTick s.gtc ≤ 160) = true then some (s.gtc / 4096) else x.locked }) hq
  refine ⟨by rw [hself], fun h => ?_, fun h => ?_, hother⟩
  · have hin : decide (leafTick s.gtc ≤ 160) = true := decide_eq_true h
    rw [hself]
    simp only [State.observed, hin]
    exact ⟨rfl, rfl⟩
  · have hin : decide (leafTick s.gtc ≤ 160) = false := decide_eq_false (Nat.not_le.mpr h)
    rw [hself]
    simp only [State.observed, hin]
    exact ⟨rfl, rfl⟩

theorem portLock_clauses {s : State} {p : Fin 16} (tau : Nat) (hl : s.live = true) (hc : s.time.counting = true)
    (hd : (s.port p.val).dead = false) (hfar : (s.port p.val).far (leafOf s.gtc) = false) :
    ∃ t, exec (.portLock p tau) s = .next t ∧ t.gtc = s.gtc ∧ t.mem = s.mem ∧
      (t.port p.val).kerf = some (s.gtc / 4096, (tau : Int) - 2496) ∧
      (s.gtc % 4096 ≤ 160 → (t.port p.val).locked = some (s.gtc / 4096) ∧ t.time.lastLock = s.gtc) ∧
      (160 < s.gtc % 4096 → (t.port p.val).locked = (s.port p.val).locked ∧ t.time.lastLock = s.time.lastLock) ∧
      (let n := (t.kerfObs (s.gtc / 4096)).length
       t.time.kerfPorts = if 8 ≤ n then n - 4 else n) ∧
      (∀ q, q ≠ p.val → t.port q = s.port q) := by
  obtain ⟨hkerf, hin, hlate, hother⟩ := s.observed_ports p.val tau
  obtain ⟨t, ht, hcase⟩ := portLock_observes tau hl hc hd hfar
  refine ⟨t, ht, ?_⟩
  rcases hcase with rfl | ⟨o, rfl⟩
  · exact ⟨rfl, rfl, hkerf, hin, hlate, length_kerfUsed _, hother⟩
  · rw [State.servo_frame]
    exact ⟨rfl, rfl, hkerf, hin, hlate, length_kerfUsed _, hother⟩

theorem clockEvents : ClockEvents := by
  refine ⟨fun s m => ptpMessage_ignored, fun s m => State.meetsProfile_eq_false, ?_, fun s m => State.fromMaster_least, fun s tai => State.podTime_eq,
    fun s m => ptpMessage_starts, fun s m => ptpMessage_counting, ppsIn_clauses, ?_, ?_, ?_, fun s p tau => portLock_clauses tau,
    fun s p tau => portLock_ignored tau⟩
  · intro s m ht hp hk
    refine ⟨_, ptpMessage_announce ht hp hk, rfl, ⟨_, List.mem_append_right _ (List.mem_singleton_self _), rfl, rfl, rfl, Nat.le_add_right ..⟩, ?_⟩
    intro x hx
    have hne : x ≠ ⟨m.domain, m.source, m.rank, s.gtc + announceTicks m.logSync⟩ := by rintro rfl; simp at hx
    simp [State.heard, State.updTime, hne, hx]
  · intro s hl hc
    refine ⟨fun h => ?_, fun h => ?_⟩
    · exact (exec_ppsOut s).trans (congrArg Host.Outcome.next (if_pos (by simp [State.ppsDue, second, hl, hc, h])))
    · exact (exec_ppsOut s).trans (congrArg Host.Outcome.next (if_neg (by simp [State.ppsDue, second, h])))
  · intro s ht hc hh
    refine ⟨fun h => ?_, fun h => ?_⟩
    · exact (exec_holdover s).trans (congrArg Host.Outcome.next (if_pos (by simp [State.holdoverDue, second, ht, hc, hh, h])))
    · refine (exec_holdover s).trans (congrArg Host.Outcome.next (if_neg ?_))
      rw [State.holdoverDue, second, decide_eq_false (Nat.not_le.mpr h), Bool.and_false]; decide
  · intro s hr hsync hlock
    obtain ⟨hcause, hstate, hfault⟩ := s.timeFaulted_sched
    refine ⟨_, timeFaultTimeout_due hr hsync hlock, ?_⟩
    rw [State.timeFaulted_frame]
    exact ⟨rfl, hcause, hfault hr, hstate.trans hr, rfl, rfl⟩

end Sys2Proof.Machine
end

section
/-! SUPPORT. The realignment of the GTC and the device hold (R75, R76): which ticks a hold moves, and by how much. -/

namespace Sys2Proof.Machine

/-! ### Which tick a hold gives -/

theorem later_of_lt {v h t : Nat} (ht : t < v) : later v h t = t := if_neg (Nat.not_le.mpr ht)

theorem later_of_le {v h t : Nat} (ht : v ≤ t) : later v h t = t + h := if_pos ht

/-- A date never comes before the tick that it would have without its slot. -/
theorem Hold.tick_le_date (m : Hold) (lag t : Nat) : m.tick t ≤ m.date lag t := by
  unfold Hold.date
  split
  · exact Nat.le_max_left ..
  · exact Nat.le_refl _

theorem Hold.date_eq_tick {m : Hold} {lag t : Nat} (h : m.slots.find? (t - lag) = none) : m.date lag t = m.tick t := by
  unfold Hold.date; rw [h]

theorem find?_eq_none_of_keys {α : Type} {t : Tab α} {k : Nat} (h : ∀ e ∈ t, e.1 ≠ k) : t.find? k = none := by
  induction t with
  | nil => rfl
  | cons e r ih =>
    obtain ⟨he, hr⟩ := List.forall_mem_cons.mp h
    rw [Tab.find?, if_neg he, ih hr]

theorem key_mem_of_slotMoves {r h lo : Nat} {l : List Nat} {e : Nat × Nat} (he : e ∈ slotMoves r h lo l) : e.1 ∈ l := by
  induction l generalizing lo with
  | nil => exact absurd he List.not_mem_nil
  | cons t ts ih =>
    rw [slotMoves] at he
    rcases List.mem_cons.mp he with rfl | he
    · exact List.mem_cons_self ..
    · exact List.mem_cons_of_mem _ (ih he)

/-- The slots that a hold moves are slots of the core, at v or later. -/
theorem State.key_of_movesOf {s : State} {v h core : Nat} {e : Nat × Nat} (he : e ∈ s.movesOf v h core) :
    v ≤ e.1 ∧ ∃ j, j < 8 ∧ e.1 ∈ s.slots.get [] (core * 8 + j) := by
  obtain ⟨j, hj, he⟩ := List.mem_flatMap.mp he
  have hkey := key_mem_of_slotMoves he
  rw [mem_sortBy, List.mem_filter, decide_eq_true_eq] at hkey
  exact ⟨hkey.2, j, List.mem_range.mp hj, hkey.1⟩

/-- What a hold does to the ticks of a core: the core's slots move, or none. -/
def State.holdOf (s : State) (v h core : Nat) : Hold :=
  Tab.get ((dedup (s.slots.map fun e => e.1 / 8)).map fun c => (c, (⟨v, h, s.movesOf v h c⟩ : Hold))) ⟨v, h, []⟩ core

theorem find?_map_keys {α : Type} (l : List Nat) (f : Nat → α) (k : Nat) :
    Tab.find? (l.map fun c => (c, f c)) k = none ∨ Tab.find? (l.map fun c => (c, f c)) k = some (f k) := by
  induction l with
  | nil => exact .inl rfl
  | cons c r ih =>
    simp only [List.map_cons, Tab.find?]
    split
    next hc => exact .inr (by rw [hc])
    next => exact ih

theorem State.holdOf_cases (s : State) (v h core : Nat) : s.holdOf v h core = ⟨v, h, []⟩ ∨ s.holdOf v h core = ⟨v, h, s.movesOf v h core⟩ := by
  unfold State.holdOf Tab.get
  rcases find?_map_keys (dedup (s.slots.map fun e => e.1 / 8)) (fun c => (⟨v, h, s.movesOf v h c⟩ : Hold)) core with hf | hf <;> rw [hf]
  · exact .inl rfl
  · exact .inr rfl

theorem State.holdOf_tick (s : State) (v h core t : Nat) : (s.holdOf v h core).tick t = later v h t := by
  rcases s.holdOf_cases v h core with heq | heq <;> rw [heq] <;> rfl

/-- A date whose slot the hold does not move only falls h ticks later. -/
theorem State.holdOf_date {s : State} {v h core lag t : Nat}
    (hslot : v ≤ t - lag → ∀ j, j < 8 → t - lag ∉ s.slots.get [] (core * 8 + j)) : (s.holdOf v h core).date lag t = later v h t := by
  rw [← s.holdOf_tick v h core t]
  refine Hold.date_eq_tick ?_
  rcases s.holdOf_cases v h core with heq | heq <;> rw [heq]
  · rfl
  · refine find?_eq_none_of_keys fun e he hek => ?_
    obtain ⟨hv, j, hj, hmem⟩ := State.key_of_movesOf he
    exact hslot (hek ▸ hv) j hj (hek ▸ hmem)

/-! ### What moves a warp's landings -/

/-- Memory, the schedule and every warp's landings are the same. -/
def State.SameLandings (s t : State) : Prop :=
  t.mem = s.mem ∧ t.sched = s.sched ∧ ∀ k w, s.warp? k = some w → ∃ v, t.warp? k = some v ∧ v.landings = w.landings

theorem State.SameLandings.refl (s : State) : s.SameLandings s := ⟨rfl, rfl, fun _ w hw => ⟨w, hw, rfl⟩⟩

theorem State.SameLandings.trans {s t u : State} (h : s.SameLandings t) (h' : t.SameLandings u) : s.SameLandings u := by
  obtain ⟨hmem, hsched, hw⟩ := h
  obtain ⟨hmem', hsched', hw'⟩ := h'
  refine ⟨hmem'.trans hmem, hsched'.trans hsched, fun k w hk => ?_⟩
  obtain ⟨v, hv, hl⟩ := hw k w hk
  obtain ⟨u, hu, hl'⟩ := hw' k v hv
  exact ⟨u, hu, hl'.trans hl⟩

theorem State.sameLandings_foldl {α : Type} (f : State → α → State) (hf : ∀ (s : State) x, s.SameLandings (f s x)) (l : List α) (s : State) :
    s.SameLandings (l.foldl f s) :=
  List.foldlRecOn (motive := fun t : State => s.SameLandings t) l f (State.SameLandings.refl s) fun t ht x _ => ht.trans (hf t x)

theorem Warp.raiseBy_landings (w : Warp) (issue now scope wct : Nat) : (w.raiseBy issue now scope wct).landings = w.landings := by
  unfold Warp.raiseBy; split
  · rfl
  · unfold Warp.raiseNew; split <;> rfl

theorem State.cmdWarp_sameLandings (s : State) (c : EngCmd) (f : Warp → Warp) (hf : ∀ w, (f w).landings = w.landings) :
    s.SameLandings (s.cmdWarp c f) := by
  refine ⟨rfl, rfl, fun k w hk => ?_⟩
  by_cases hc : k = c.warp
  · subst hc
    refine ⟨if w.grid = c.grid ∧ w.start = c.inst then f w else w, ?_, ?_⟩
    · refine (Tab.find?_modify_self s.warps c.warp fun w => if w.grid = c.grid ∧ w.start = c.inst then f w else w).trans ?_
      rw [show s.warps.find? c.warp = some w from hk]; rfl
    · split
      · exact hf w
      · rfl
  · exact ⟨w, (Tab.find?_modify_ne s.warps (fun w => if w.grid = c.grid ∧ w.start = c.inst then f w else w) hc).trans hk, rfl⟩

theorem State.heldBeats_sameLandings (s : State) (v : Nat) (c : EngCmd) : s.SameLandings (s.heldBeats v c) := by
  have hfill : ∀ u : State, u.SameLandings (if (c.tpl.toq && decide (c.dst.length ≠ 0)) = true then
      c.rids.zipIdx.foldl (fun s r => s.cmdWarp c fun w =>
        w.fillResv c.tpl.qreg r.1 ((c.dst[min (2 * r.2 + 2) c.dst.length - 1]?).bind (·.w)) none) u else u) := fun u => by
    split
    · refine State.sameLandings_foldl _ (fun u r => ?_) _ u
      exact u.cmdWarp_sameLandings c _ fun w => rfl
    · exact State.SameLandings.refl u
  unfold State.heldBeats; dsimp only
  split
  · exact hfill s
  · exact (hfill s).trans (State.cmdWarp_sameLandings _ c _ fun w => w.raiseBy_landings ..)

/-- The lag of a result in flight behind its slot (R30, R54): longer for the old values of an atomic. -/
def State.lagOf (s : State) (id : Nat) : Nat :=
  if (s.writes.filterMap fun w => match w.ret with
    | .landing _ id => some id
    | _ => none).contains id then 216 else 128

theorem State.lagOf_cases (s : State) (id : Nat) : s.lagOf id = 216 ∨ s.lagOf id = 128 := by
  unfold State.lagOf; split
  · exact .inl rfl
  · exact .inr rfl

/-- Every warp is held by the slots of its core (R76). -/
theorem State.shift_warp (s : State) (v h : Nat) : (s.shift v h).mem = s.mem ∧ (s.shift v h).sched = s.sched ∧
    ∀ k w, s.warp? k = some w → ∃ u, (s.shift v h).warp? k = some u ∧
      u.landings = w.landings.map fun l => { l with tick := (s.holdOf v h w.core).date (s.lagOf l.id) l.tick } := by
  obtain ⟨hmem, hsched, hwarp⟩ := State.sameLandings_foldl
    (fun s (e : Nat × EngCmd) => if e.2.fn ≤ 3 ∧ !e.2.dst.isEmpty then s.heldBeats v e.2 else s)
    (fun s e => by
      split
      · exact s.heldBeats_sameLandings v e.2
      · exact State.SameLandings.refl s) _ _
  refine ⟨hmem, hsched, fun k w hk => ?_⟩
  obtain ⟨u, hu, hl⟩ := hwarp k (w.hold (s.holdOf v h w.core) s.lagOf) (by
    refine (Tab.find?_map s.warps (fun w : Warp => w.hold (s.holdOf v h w.core) s.lagOf) k).trans ?_
    rw [show s.warps.find? k = some w from hk]; rfl)
  exact ⟨u, hu, hl⟩

/-! ### The realignment -/

theorem roundSixteenths_near (o : Int) : (16 * roundSixteenths o - o).natAbs ≤ 8 := by
  unfold roundSixteenths; dsimp only
  split
  · omega
  · split
    · split <;> omega
    · omega

theorem State.gtcRealignDue_of {s : State} (hs : s.sched.state = .realign) (hh : s.sched.hold = none)
    (ht : s.gtc = (s.sched.first + 3) * 131072 + 16 * 4096) : s.gtcRealignDue = true := by
  rw [State.gtcRealignDue, decide_eq_true hs, hh,
    decide_eq_true (show s.gtc = frameTick (s.sched.first + 3) + 16 * 4096 from ht)]; rfl

theorem gtcRealign_halts {s : State} (hdue : s.gtcRealignDue = true) (h : 32 < s.gtcStep.natAbs) :
    exec .gtcRealign s = .next { s with sched := { s.sched with state := .halted, active := false } } :=
  (exec_gtcRealign s).trans (congrArg Host.Outcome.next ((if_neg (by rw [hdue]; decide)).trans ((if_pos h).trans rfl)))

theorem gtcRealign_holds {s : State} (hdue : s.gtcRealignDue = true) (h : s.gtcStep.natAbs ≤ 32) :
    let d := s.gtcStep
    let lag := (64 + d % 8 - d).toNat
    exec .gtcRealign s = .next { (s.shift s.gtc lag) with
      gtc := ((s.gtc : Int) - d).toNat
      sched := { (s.shift s.gtc lag).sched with held := (64 + d % 8).toNat, hold := some (s.gtc, lag) } } :=
  (exec_gtcRealign s).trans (congrArg Host.Outcome.next ((if_neg (by rw [hdue]; decide)).trans (if_neg (Nat.not_lt.mpr h))))

theorem deviceHoldEnd_eq {s : State} {b : Bool} (h : s.holdOver = b) :
    exec .deviceHoldEnd s = .next (if b = true then { s with sched := { s.sched with held := 0 } } else s) := by
  subst h; exact exec_deviceHoldEnd s

theorem realignment : Realignment := by
  refine ⟨?_, fun s h => ?_, ?_, fun s h => ?_, roundSixteenths_near⟩
  · intro s hs hh ht
    have hdue := State.gtcRealignDue_of hs hh ht
    refine ⟨gtcRealign_halts hdue, fun hd => ?_⟩
    obtain ⟨hmem, hsched, hwarp⟩ := s.shift_warp s.gtc (64 + s.gtcStep % 8 - s.gtcStep).toNat
    have hd' : s.gtcStep.natAbs ≤ 32 := hd
    refine ⟨_, gtcRealign_holds hdue hd, hmem, ?_, rfl, rfl, by rw [hsched]; exact hs, fun k w hk => ?_⟩
    · exact Int.toNat_of_nonneg (show 0 ≤ (s.gtc : Int) - s.gtcStep by omega)
    · obtain ⟨u, hu, hl⟩ := hwarp k w hk
      refine ⟨u, hu, by rw [hl, List.length_map], fun i l hi => ?_⟩
      refine ⟨{ l with tick := (s.holdOf s.gtc (64 + s.gtcStep % 8 - s.gtcStep).toNat w.core).date (s.lagOf l.id) l.tick }, ?_, rfl, fun hlt => ?_,
        fun hle => ⟨?_, fun hfree => ?_⟩⟩
      · rw [hl, List.getElem?_map, hi]; rfl
      · exact (State.holdOf_date fun hv => absurd (hv.trans (Nat.sub_le ..)) (Nat.not_le.mpr hlt)).trans (later_of_lt hlt)
      · refine Nat.le_trans (Nat.le_of_eq ?_) (Hold.tick_le_date ..)
        rw [State.holdOf_tick, later_of_le hle]; rfl
      · refine (State.holdOf_date fun _ j hj => ?_).trans (later_of_le hle)
        rcases s.lagOf_cases l.id with hlag | hlag <;> rw [hlag]
        · exact (hfree j hj).2
        · exact (hfree j hj).1
  · exact (exec_gtcRealign s).trans (congrArg Host.Outcome.next (if_pos (by rw [h]; rfl)))
  · intro s v h hhold hheld
    refine ⟨fun hle => deviceHoldEnd_eq (b := true) ?_, fun hlt => deviceHoldEnd_eq (b := false) ?_⟩
    · rw [State.holdOver, hhold]; simp; omega
    · rw [State.holdOver, hhold]; simp; omega
  · refine deviceHoldEnd_eq (b := false) ?_
    rw [State.holdOver]
    rcases h with h | h
    · rw [h]
    · split
      · rw [h]; rfl
      · rfl

/-- Settles O47: the clock's events and the realignment. -/
theorem timeEvents : Obligations.TimeEvents := ⟨clockEvents, realignment⟩

end Sys2Proof.Machine
end

section
/-! SUPPORT. The slack window of an HBM stack (R24, R32 to R38): what each piece of a stack's work touches, each phase of a window stack by
stack, each note of the controllers, and the activates of rows. -/

namespace Sys2Proof.Machine

/-! ### What the work of the stacks touches -/

/-- Beside the stacks, their work touches the marks, the events of firmware, the schedule and the draws. -/
def State.HbmOnly (s t : State) : Prop :=
  ∃ (h : Tab Stack) (p : Tab MCls) (e : List FwEvent) (c : Sched) (d : Nat),
    t = { s with hbm := h, poison := p, fw := { s.fw with events := e }, sched := c, draw := d }

theorem State.HbmOnly.refl (s : State) : s.HbmOnly s := ⟨_, _, _, _, _, rfl⟩

theorem State.HbmOnly.trans {s t u : State} (h : s.HbmOnly t) (h' : t.HbmOnly u) : s.HbmOnly u := by
  obtain ⟨_, _, _, _, _, rfl⟩ := h
  obtain ⟨_, _, _, _, _, rfl⟩ := h'
  exact ⟨_, _, _, _, _, rfl⟩

theorem State.hbmOnly_foldl {α : Type} (f : State → α → State) (hf : ∀ (s : State) x, s.HbmOnly (f s x)) (l : List α) (s : State) :
    s.HbmOnly (l.foldl f s) :=
  List.foldlRecOn (motive := fun t : State => s.HbmOnly t) l f (State.HbmOnly.refl s) fun t ht x _ => ht.trans (hf t x)

theorem State.HbmOnly.keeps {s t : State} (h : s.HbmOnly t) : t.mem = s.mem ∧ t.gtc = s.gtc ∧ t.hbmLeaf = s.hbmLeaf ∧ t.pkg = s.pkg := by
  obtain ⟨_, _, _, _, _, rfl⟩ := h
  exact ⟨rfl, rfl, rfl, rfl⟩

theorem State.HbmOnly.windowDue {s t : State} (h : s.HbmOnly t) : t.windowDue = s.windowDue := by
  obtain ⟨_, _, _, _, _, rfl⟩ := h; rfl

theorem State.updStack_hbmOnly (s : State) (k : Nat) (f : Stack → Stack) : s.HbmOnly (s.updStack k f) := ⟨_, _, _, _, _, rfl⟩

theorem State.schedFault_hbmOnly (s : State) (cause : Nat) : s.HbmOnly (s.schedFault cause) := ⟨_, _, _, _, _, s.schedFault_frame cause⟩

theorem State.stackFault_hbmOnly (s : State) (k cause : Nat) : s.HbmOnly (s.stackFault k cause) :=
  (s.updStack_hbmOnly k _).trans (State.schedFault_hbmOnly _ cause)

theorem State.recovered_hbmOnly (s : State) (pa : Nat) : s.HbmOnly (s.recovered pa) := ⟨_, _, _, _, _, rfl⟩

theorem State.uncorrectable_hbmOnly (s : State) (pa : Nat) : s.HbmOnly (s.uncorrectable pa) := ⟨_, _, _, _, _, rfl⟩

theorem State.stack_schedFault (s : State) (cause k : Nat) : (s.schedFault cause).stack k = s.stack k := by
  rw [State.schedFault_frame]; rfl

@[simp] theorem State.stack_stackFault_self (s : State) (k cause : Nat) : (s.stackFault k cause).stack k = { s.stack k with debtFault := true } :=
  (State.stack_schedFault _ cause k).trans (s.stack_updStack_self k fun x => { x with debtFault := true })

theorem State.stack_stackFault_ne (s : State) {k j : Nat} (cause : Nat) (h : j ≠ k) : (s.stackFault k cause).stack j = s.stack j :=
  (State.stack_schedFault _ cause j).trans (s.stack_updStack_ne (fun x => { x with debtFault := true }) h)

theorem State.stackFault_cause (s : State) (k cause : Nat) : (s.stackFault k cause).sched.cause = cause :=
  ((s.updStack k fun x => { x with debtFault := true }).schedFault_sched cause).1

/-! ### One stack after another -/

/-- Where each stack's part of a phase leaves the others, up to `R`, what the part gives its own stack, as `Q` says it, holds after the phase. -/
theorem State.foldl_stacks {f : State → Nat → State} {R Q : Nat → State → State → Prop} (hrefl : ∀ k s, R k s s)
    (htrans : ∀ k s t u, R k s t → R k t u → R k s u) (hother : ∀ s k j, j ≠ k → R j s (f s k)) (hself : ∀ s k, Q k s (f s k))
    (hresp : ∀ k s t u v, R k s t → Q k t u → R k u v → Q k s v) {l : List Nat} (hl : l.Nodup) (s : State) :
    (∀ k, k ∉ l → R k s (l.foldl f s)) ∧ ∀ k ∈ l, Q k s (l.foldl f s) := by
  induction l generalizing s with
  | nil => exact ⟨fun k _ => hrefl k s, fun k hk => absurd hk List.not_mem_nil⟩
  | cons j r ih =>
    obtain ⟨hj, hr⟩ := List.nodup_cons.mp hl
    obtain ⟨hout, hin⟩ := ih hr (f s j)
    refine ⟨fun k hk => ?_, fun k hk => ?_⟩
    · obtain ⟨hkj, hkr⟩ := not_or.mp (fun h => hk (List.mem_cons.mpr h))
      exact htrans k _ _ _ (hother s j k hkj) (hout k hkr)
    · rcases List.mem_cons.mp hk with rfl | hkr
      · exact hresp k _ _ _ _ (hrefl k s) (hself s k) (hout k hj)
      · have hkj : k ≠ j := fun e => hj (e ▸ hkr)
        exact hresp k _ _ _ _ (hother s j k hkj) (hin k hkr) (hrefl k _)

/-- The same where each part leaves the other stacks as they are. -/
theorem State.foldl_stacks_apart {f : State → Nat → State} {P : Stack → Stack → Prop} (hother : ∀ s k j, j ≠ k → (f s k).stack j = s.stack j)
    (hself : ∀ s k, P (s.stack k) ((f s k).stack k)) (s : State) {k : Nat} (hk : k < 8) :
    P (s.stack k) (((List.range 8).foldl f s).stack k) :=
  (State.foldl_stacks (R := fun k s t => t.stack k = s.stack k) (Q := fun k s t => P (s.stack k) (t.stack k)) (fun _ _ => rfl)
    (fun _ _ _ _ h h' => h'.trans h) hother hself (fun _ _ _ _ _ h hq h' => h' ▸ h ▸ hq) List.nodup_range s).2 k (List.mem_range.mpr hk)

/-! ### When a phase runs -/

theorem State.setTemp_frame (s : State) (temp : Nat) : s.setTemp temp = { s with pkg := { s.pkg with
    temp := temp, alert := s.pkg.alert || decide (100 ≤ temp), thermtrip := s.pkg.thermtrip || decide (110 ≤ temp)
    lasers := (s.setTemp temp).pkg.lasers, stopped := (s.setTemp temp).pkg.stopped } } := by
  unfold State.setTemp State.updPkg
  by_cases h : 110 ≤ temp
  · simp only [h, if_true, decide_true, Bool.or_true]
  · simp only [h, if_false, decide_false, Bool.or_false]

theorem State.windowDue_setTemp (s : State) (temp : Nat) : (s.setTemp temp).windowDue = s.windowDue := by
  rw [State.setTemp_frame]; rfl

theorem State.windowDue_eq_some {s : State} {p : Nat} (hl : s.live = true) (ht : s.fw.tuned = true) (hc : s.time.counting = true)
    (hp : windowPhase s.gtc = some p) (hleaf : s.hbmLeaf < s.gtc / 4096 * 8 + p + 1) : s.windowDue = some p := by
  have hno : ¬ (!(s.live && s.time.counting && s.fw.tuned)) = true := by rw [hl, ht, hc]; decide
  rw [State.windowDue, if_neg hno, hp]
  exact if_pos hleaf

theorem windowPhase_drain {t : Nat} (h : t % 4096 < 64) : windowPhase t = some 0 := if_pos h

theorem windowPhase_refresh {t : Nat} (h : t % 4096 = 64) : windowPhase t = some 1 := by
  rw [windowPhase, leafTick, h]; rfl

theorem windowPhase_swap {t : Nat} (h : t % 4096 = 244) : windowPhase t = some 2 := by
  rw [windowPhase, leafTick, h]; rfl

theorem windowPhase_retry {t i : Nat} (hi : i < 4) (h : t % 4096 = 340 + 11 * i) : windowPhase t = some (3 + i) := by
  obtain rfl | rfl | rfl | rfl : i = 0 ∨ i = 1 ∨ i = 2 ∨ i = 3 := by omega
  all_goals rw [windowPhase, leafTick, h]; rfl

theorem slackWindow_untuned {s : State} (temp : Nat) (ns : List HbmNote) (h : s.live = false ∨ s.fw.tuned = false) :
    exec (.slackWindow temp ns) s = .next s := by
  refine (exec_slackWindow s temp ns).trans (congrArg Host.Outcome.next (if_pos ?_))
  rcases h with h | h <;> simp [h]

theorem slackWindow_phase {s : State} {p : Nat} (temp : Nat) (hl : s.live = true) (ht : s.fw.tuned = true) (hdue : s.windowDue = some p) :
    exec (.slackWindow temp []) s = .next ((List.range 8).foldl (fun s k => s.windowOf p (bandOf temp) [] k)
      { s.setTemp temp with hbmLeaf := s.gtc / 4096 * 8 + p + 1 }) := by
  have hgtc : (s.setTemp temp).gtc = s.gtc := rfl
  refine (exec_slackWindow s temp []).trans (congrArg Host.Outcome.next ((if_neg (by rw [hl, ht]; decide)).trans ?_))
  dsimp only [List.foldl_nil]
  rw [State.windowDue_setTemp, hdue]; rfl

/-! ### The phases -/

theorem State.stack_setTemp (s : State) (temp leaf k : Nat) : ({ s.setTemp temp with hbmLeaf := leaf } : State).stack k = s.stack k := rfl

theorem slackWindow_drain {s : State} (temp : Nat) (hl : s.live = true) (ht : s.fw.tuned = true) (hc : s.time.counting = true)
    (hphase : s.gtc % 4096 < 64) (hleaf : s.hbmLeaf < s.gtc / 4096 * 8 + 1) :
    ∃ t, exec (.slackWindow temp []) s = .next t ∧ t.mem = s.mem ∧ t.gtc = s.gtc ∧ t.pkg.temp = temp ∧
      t.pkg.alert = (s.pkg.alert || decide (100 ≤ temp)) ∧ t.pkg.thermtrip = (s.pkg.thermtrip || decide (110 ≤ temp)) ∧
      t.hbmLeaf = s.gtc / 4096 * 8 + 1 ∧ t.poison = s.poison ∧ ∀ k, k < 8 →
        t.stack k = { s.stack k with band := bandOf temp, issued := 0 } := by
  refine ⟨_, slackWindow_phase temp hl ht (State.windowDue_eq_some hl ht hc (windowPhase_drain hphase) hleaf), ?_⟩
  obtain ⟨hmem, hgtc, hno, hpkg⟩ := State.HbmOnly.keeps (State.hbmOnly_foldl (fun s k => s.windowOf 0 (bandOf temp) [] k)
    (fun s k => s.updStack_hbmOnly k _) (List.range 8) { s.setTemp temp with hbmLeaf := s.gtc / 4096 * 8 + 0 + 1 })
  have hpoison : ∀ u : State, ((List.range 8).foldl (fun s k => s.windowOf 0 (bandOf temp) [] k) u).poison = u.poison := fun u =>
    List.foldlRecOn (motive := fun t : State => t.poison = u.poison) _ _ rfl fun t h x _ => h
  refine ⟨hmem, hgtc, ?_, ?_, ?_, hno, hpoison _, fun k hk => ?_⟩
  · rw [hpkg, State.setTemp_frame]
  · rw [hpkg, State.setTemp_frame]
  · rw [hpkg, State.setTemp_frame]
  · exact State.foldl_stacks_apart (f := fun s k => s.windowOf 0 (bandOf temp) [] k)
      (P := fun x y => y = { x with band := bandOf temp, issued := 0 })
      (fun u k j hj => u.stack_updStack_ne (fun x => { x with band := bandOf temp, issued := 0 }) hj)
      (fun u k => u.stack_updStack_self k fun x => { x with band := bandOf temp, issued := 0 }) _ hk

end Sys2Proof.Machine
end

section
/-! SUPPORT. The refreshes, the rereads, the row swaps and the retries of a slack window (R33 to R37). -/

namespace Sys2Proof.Machine

/-! ### Rereads -/

theorem State.stack_recovered (s : State) (pa j : Nat) : ∃ l, (s.recovered pa).stack j = { s.stack j with bad := l } := by
  by_cases hj : j = s.hbmStack pa
  · subst hj
    exact ⟨_, s.stack_updStack_self (s.hbmStack pa) fun x => { x with bad := x.bad.filter (· ≠ pa / 64) }⟩
  · exact ⟨_, s.stack_updStack_ne (fun x => { x with bad := x.bad.filter (· ≠ pa / 64) }) hj⟩

/-- A reread of a stack: the beat leaves the queue for the log; another stack may lose a bad beat (R36). -/
theorem State.reread_stacks (s : State) (k b : Nat) :
    (∃ (l : List Nat) (ok : Bool), (s.reread k b).stack k =
      { s.stack k with bad := l, readLog := (s.stack k).readLog ++ [(b, ok)], rereads := (s.stack k).rereads.erase b }) ∧
    (∀ j, j ≠ k → ∃ l, (s.reread k b).stack j = { s.stack j with bad := l }) ∧
    s.HbmOnly (s.reread k b) ∧ (s.reread k b).sched = s.sched := by
  let ok := decide (Config.draw s.draw % 2 = 1)
  let u : State := { s with draw := s.draw + 1 }
  have hstack : ∀ j, ∃ l, (if ok = true then u.recovered (b * 64) else u).stack j = { s.stack j with bad := l } := fun j => by
    split
    · exact u.stack_recovered (b * 64) j
    · exact ⟨_, rfl⟩
  have honly : s.HbmOnly (if ok = true then u.recovered (b * 64) else u) ∧ (if ok = true then u.recovered (b * 64) else u).sched = s.sched := by
    split
    · exact ⟨⟨_, _, _, _, _, rfl⟩, rfl⟩
    · exact ⟨⟨_, _, _, _, _, rfl⟩, rfl⟩
  have heq : s.reread k b = (if ok = true then u.recovered (b * 64) else u).updStack k fun x =>
    { x with readLog := x.readLog ++ [(b, ok)], rereads := x.rereads.erase b } := rfl
  rw [heq]
  obtain ⟨l, hself⟩ := hstack k
  refine ⟨⟨l, ok, ?_⟩, fun j hj => ?_, honly.1.trans (State.updStack_hbmOnly _ k _), honly.2⟩
  · rw [State.stack_updStack_self, hself]
  · obtain ⟨l, hj'⟩ := hstack j
    exact ⟨l, (State.stack_updStack_ne _ _ hj).trans hj'⟩

theorem State.rereads_stacks (s : State) (k : Nat) (bs : List Nat) :
    (∃ (l r : List Nat) (g : List (Nat × Bool)), (bs.foldl (fun s b => s.reread k b) s).stack k =
      { s.stack k with bad := l, readLog := (s.stack k).readLog ++ g, rereads := r } ∧ ∀ b ∈ bs, ∃ ok, (b, ok) ∈ g) ∧
    (∀ j, j ≠ k → ∃ l, (bs.foldl (fun s b => s.reread k b) s).stack j = { s.stack j with bad := l }) ∧
    s.HbmOnly (bs.foldl (fun s b => s.reread k b) s) ∧ (bs.foldl (fun s b => s.reread k b) s).sched = s.sched := by
  induction bs generalizing s with
  | nil => exact ⟨⟨_, _, [], by rw [List.append_nil]; rfl, fun b hb => absurd hb List.not_mem_nil⟩, fun j _ => ⟨_, rfl⟩, State.HbmOnly.refl s, rfl⟩
  | cons b r ih =>
    obtain ⟨⟨l, ok, hself⟩, hother, honly, hsched⟩ := s.reread_stacks k b
    obtain ⟨⟨l', r', g, hself', hlog⟩, hother', honly', hsched'⟩ := ih (s.reread k b)
    refine ⟨⟨l', r', (b, ok) :: g, ?_, ?_⟩, fun j hj => ?_, honly.trans honly', hsched'.trans hsched⟩
    · rw [List.foldl_cons, hself', hself]
      simp only [List.append_assoc, List.singleton_append]
    · rintro c hc
      rcases List.mem_cons.mp hc with rfl | hc
      · exact ⟨ok, List.mem_cons_self ..⟩
      · obtain ⟨ok', h⟩ := hlog c hc
        exact ⟨ok', List.mem_cons_of_mem _ h⟩
    · obtain ⟨a, ha⟩ := hother j hj
      obtain ⟨a', ha'⟩ := hother' j hj
      exact ⟨a', by rw [List.foldl_cons, ha', ha]⟩

/-! ### Refreshes -/

/-- The debt that a window leaves on a stack, and the refreshes that it issues (R33, R34). -/
def Stack.issuedNow (x : Stack) : Nat := min 24 (needOf x.band + x.debt)
def Stack.debtLeft (x : Stack) : Nat := x.debt + needOf x.band - x.issuedNow

/-- The refreshes of a window on one stack, before its rereads. -/
def State.issueRefreshes (s : State) (k : Nat) : State :=
  let u := s.updStack k fun x => { x with debt := (s.stack k).debtLeft, issued := (s.stack k).issuedNow }
  if 64 < (s.stack k).debtLeft then u.stackFault k 1 else u

theorem State.refreshStack_eq (s : State) (k : Nat) :
    s.refreshStack k = (s.stack k).rereads.foldl (fun s b => s.reread k b) (s.issueRefreshes k) := rfl

theorem State.issueRefreshes_stacks (s : State) (k : Nat) :
    (s.issueRefreshes k).stack k = { s.stack k with
      debt := (s.stack k).debtLeft, issued := (s.stack k).issuedNow
      debtFault := (s.stack k).debtFault || decide (64 < (s.stack k).debtLeft) } ∧
    (∀ j, j ≠ k → (s.issueRefreshes k).stack j = s.stack j) ∧ s.HbmOnly (s.issueRefreshes k) ∧
    (64 < (s.stack k).debtLeft → (s.issueRefreshes k).sched.cause = 1) ∧
    (s.sched.cause = 1 → (s.issueRefreshes k).sched.cause = 1) ∧ (s.issueRefreshes k).poison = s.poison := by
  have hupd := s.updStack_hbmOnly k fun x => { x with debt := (s.stack k).debtLeft, issued := (s.stack k).issuedNow }
  unfold State.issueRefreshes; dsimp only
  by_cases h : 64 < (s.stack k).debtLeft
  · rw [if_pos h]
    refine ⟨?_, fun j hj => ?_, hupd.trans (State.stackFault_hbmOnly _ k 1), fun _ => State.stackFault_cause _ k 1,
      fun _ => State.stackFault_cause _ k 1, ?_⟩
    · rw [State.stack_stackFault_self, State.stack_updStack_self, decide_eq_true h, Bool.or_true]
    · rw [State.stack_stackFault_ne _ _ hj, State.stack_updStack_ne _ _ hj]
    · rw [State.stackFault, State.schedFault_frame]; rfl
  · rw [if_neg h]
    refine ⟨?_, fun j hj => State.stack_updStack_ne s _ hj, hupd, fun h' => absurd h' h, fun h' => h', rfl⟩
    rw [State.stack_updStack_self, decide_eq_false h, Bool.or_false]

/-- What the refreshes and rereads of a window make of a stack (R33, R34, R36). -/
def Stack.RefreshedTo (x y : Stack) : Prop :=
  y.band = x.band ∧ y.debt = x.debtLeft ∧ y.issued = x.issuedNow ∧ y.debtFault = (x.debtFault || decide (64 < x.debtLeft)) ∧
  y.retry = x.retry ∧ y.cands = x.cands ∧ y.ceCount = x.ceCount ∧ y.ue = x.ue ∧ ∀ b ∈ x.rereads, ∃ ok, (b, ok) ∈ y.readLog

theorem State.refreshStack_stacks (s : State) (k : Nat) :
    (s.stack k).RefreshedTo ((s.refreshStack k).stack k) ∧ (∀ j, j ≠ k → ∃ l, (s.refreshStack k).stack j = { s.stack j with bad := l }) ∧
    s.HbmOnly (s.refreshStack k) ∧ (64 < (s.stack k).debtLeft → (s.refreshStack k).sched.cause = 1) ∧
    (s.sched.cause = 1 → (s.refreshStack k).sched.cause = 1) ∧ ((s.stack k).rereads = [] → (s.refreshStack k).poison = s.poison) := by
  obtain ⟨hself, hother, honly, hcause, hkeep, hpoison⟩ := s.issueRefreshes_stacks k
  obtain ⟨⟨l, r, g, hself', hlog⟩, hother', honly', hsched⟩ := (s.issueRefreshes k).rereads_stacks k (s.stack k).rereads
  rw [← s.refreshStack_eq k] at hself' hother' honly' hsched
  refine ⟨?_, fun j hj => ?_, honly.trans honly', fun h => by rw [hsched]; exact hcause h, fun h => by rw [hsched]; exact hkeep h, fun h => ?_⟩
  · rw [hself', hself]
    refine ⟨rfl, rfl, rfl, rfl, rfl, rfl, rfl, rfl, fun b hb => ?_⟩
    obtain ⟨ok, hok⟩ := hlog b hb
    exact ⟨ok, List.mem_append_right _ hok⟩
  · obtain ⟨l, hl⟩ := hother' j hj
    exact ⟨l, by rw [hl, hother j hj]⟩
  · rw [State.refreshStack_eq, h]; exact hpoison

theorem State.refreshStack_rereads_ne (s : State) {k j : Nat} (h : j ≠ k) : ((s.refreshStack k).stack j).rereads = (s.stack j).rereads := by
  obtain ⟨-, hother, -⟩ := s.refreshStack_stacks k
  obtain ⟨l, hl⟩ := hother j h
  rw [hl]

theorem State.refreshStack_hbmOnly (s : State) (k : Nat) : s.HbmOnly (s.refreshStack k) := by
  obtain ⟨-, -, honly, -⟩ := s.refreshStack_stacks k
  exact honly

theorem State.refreshStacks_poison {s : State} {l : List Nat} (hl : l.Nodup) (h : ∀ k ∈ l, (s.stack k).rereads = []) :
    (l.foldl State.refreshStack s).poison = s.poison := by
  induction l generalizing s with
  | nil => rfl
  | cons k r ih =>
    obtain ⟨hk, hr⟩ := List.nodup_cons.mp hl
    obtain ⟨hhead, htail⟩ := List.forall_mem_cons.mp h
    obtain ⟨-, -, -, -, -, hpoison⟩ := s.refreshStack_stacks k
    refine (ih hr fun j hj => ?_).trans (hpoison hhead)
    rw [s.refreshStack_rereads_ne fun e : j = k => hk (e ▸ hj)]
    exact htail j hj

theorem State.refreshStacks_each (s : State) {k : Nat} (hk : k < 8) :
    (s.stack k).RefreshedTo (((List.range 8).foldl State.refreshStack s).stack k) ∧
    (64 < (s.stack k).debtLeft → ((List.range 8).foldl State.refreshStack s).sched.cause = 1) := by
  refine (State.foldl_stacks (f := State.refreshStack)
    (R := fun k s t => (∃ l, t.stack k = { s.stack k with bad := l }) ∧ (s.sched.cause = 1 → t.sched.cause = 1))
    (Q := fun k s t => (s.stack k).RefreshedTo (t.stack k) ∧ (64 < (s.stack k).debtLeft → t.sched.cause = 1))
    (fun k s => ⟨⟨_, rfl⟩, fun h => h⟩) ?_ ?_ ?_ ?_ List.nodup_range s).2 k (List.mem_range.mpr hk)
  · rintro k s t u ⟨⟨l, hl⟩, hc⟩ ⟨⟨l', hl'⟩, hc'⟩
    exact ⟨⟨l', by rw [hl', hl]⟩, fun h => hc' (hc h)⟩
  · intro s k j hj
    obtain ⟨-, hother, -, -, hkeep, -⟩ := s.refreshStack_stacks k
    exact ⟨hother j hj, hkeep⟩
  · intro s k
    obtain ⟨hself, -, -, hcause, -, -⟩ := s.refreshStack_stacks k
    exact ⟨hself, hcause⟩
  · rintro k s t u v ⟨⟨l, hl⟩, -⟩ ⟨hq, hcause⟩ ⟨⟨l', hl'⟩, hc⟩
    rw [hl] at hq hcause
    rw [hl']
    exact ⟨hq, fun h => hc (hcause h)⟩

theorem needOf_band (x : Stack) : needOf x.band = if x.band = 0 then 8 else if x.band = 1 then 16 else 32 := by
  unfold needOf
  rcases x.band with _ | _ | _ | n <;> rfl

/-- A phase whose work on a stack is `f` runs `f` on each stack of the state that only its count and its temperature tell from `s`. -/
theorem slackWindow_foldl {s : State} {f : State → Nat → State} {p : Nat} (temp : Nat) (hl : s.live = true) (ht : s.fw.tuned = true)
    (hdue : s.windowDue = some p) (hf : ∀ (s : State) k, s.windowOf p (bandOf temp) [] k = f s k) (honly : ∀ (s : State) k, s.HbmOnly (f s k)) :
    ∃ u : State, exec (.slackWindow temp []) s = .next ((List.range 8).foldl f u) ∧ (∀ k, u.stack k = s.stack k) ∧ u.poison = s.poison ∧
      ((List.range 8).foldl f u).mem = s.mem ∧ ((List.range 8).foldl f u).gtc = s.gtc ∧
      ((List.range 8).foldl f u).hbmLeaf = s.gtc / 4096 * 8 + p + 1 := by
  have hexec := slackWindow_phase temp hl ht hdue
  rw [show (fun (s : State) k => s.windowOf p (bandOf temp) [] k) = f from funext fun s => funext (hf s)] at hexec
  obtain ⟨hmem, hgtc, hleaf, -⟩ := (State.hbmOnly_foldl f honly (List.range 8)
    { s.setTemp temp with hbmLeaf := s.gtc / 4096 * 8 + p + 1 }).keeps
  exact ⟨_, hexec, s.stack_setTemp temp _, rfl, hmem, hgtc, hleaf⟩

theorem slackWindow_refresh {s : State} (temp : Nat) (hl : s.live = true) (ht : s.fw.tuned = true) (hc : s.time.counting = true)
    (hphase : s.gtc % 4096 = 64) (hleaf : s.hbmLeaf < s.gtc / 4096 * 8 + 2) :
    ∃ t, exec (.slackWindow temp []) s = .next t ∧ t.mem = s.mem ∧ t.gtc = s.gtc ∧ t.hbmLeaf = s.gtc / 4096 * 8 + 2 ∧
      ((∀ k, k < 8 → (s.stack k).rereads = []) → t.poison = s.poison) ∧
      ∀ k, k < 8 → (s.stack k).RefreshedTo (t.stack k) ∧ (64 < (s.stack k).debtLeft → t.sched.cause = 1) := by
  obtain ⟨u, hexec, hstack, hpoison, hmem, hgtc, hno⟩ := slackWindow_foldl (f := State.refreshStack) temp hl ht
    (State.windowDue_eq_some hl ht hc (windowPhase_refresh hphase) hleaf) (fun _ _ => rfl) State.refreshStack_hbmOnly
  refine ⟨_, hexec, hmem, hgtc, hno, fun h => ?_, fun k hk => ?_⟩
  · exact (State.refreshStacks_poison List.nodup_range fun k hk => by rw [hstack]; exact h k (List.mem_range.mp hk)).trans hpoison
  · rw [← hstack]; exact u.refreshStacks_each hk

/-! ### Row swaps -/

/-- What a row swap leaves of its stack (R35). -/
theorem State.swapRow_stacks (s : State) (k : Nat) (c : Nat × Nat) :
    (∃ m, (s.swapRow k c).stack k = { s.stack k with remap := m, cands := (s.stack k).cands.erase c, rowCopy := some c }) ∧
    (∀ j, j ≠ k → (s.swapRow k c).stack j = s.stack j) ∧ s.HbmOnly (s.swapRow k c) ∧ (s.swapRow k c).poison = s.poison :=
  ⟨⟨_, State.stack_updStack_self { s with draw := s.draw + 1 } k _⟩, fun _ hj => State.stack_updStack_ne { s with draw := s.draw + 1 } _ hj,
    ⟨_, _, _, _, _, rfl⟩, rfl⟩

theorem State.swapRows_stacks (s : State) (k : Nat) (l : List (Nat × Nat)) :
    let t := l.foldl (fun s c => s.swapRow k c) s
    ((t.stack k).debt = (s.stack k).debt ∧ (t.stack k).retry = (s.stack k).retry ∧ ∀ c ∈ (t.stack k).cands, c ∈ (s.stack k).cands) ∧
    (∀ j, j ≠ k → t.stack j = s.stack j) ∧ s.HbmOnly t ∧ t.poison = s.poison := by
  induction l generalizing s with
  | nil => exact ⟨⟨rfl, rfl, fun c hc => hc⟩, fun j _ => rfl, State.HbmOnly.refl s, rfl⟩
  | cons c r ih =>
    obtain ⟨⟨m, hself⟩, hother, honly, hpoison⟩ := s.swapRow_stacks k c
    obtain ⟨⟨hdebt, hretry, hcands⟩, hother', honly', hpoison'⟩ := ih (s.swapRow k c)
    rw [hself] at hdebt hretry hcands
    exact ⟨⟨hdebt, hretry, fun d hd => List.mem_of_mem_erase (hcands d hd)⟩, fun j hj => (hother' j hj).trans (hother j hj),
      honly.trans honly', hpoison'.trans hpoison⟩

/-- What the swaps of a window make of a stack (R33, R35): nothing where more than 8 refreshes were issued. -/
def Stack.SwappedTo (x y : Stack) : Prop :=
  (8 < x.issued → y = x) ∧
  (x.issued ≤ 8 → y.debt = x.debt ∧ y.retry = x.retry ∧ (∀ c, x.cands = [c] → y.cands = [] ∧ y.rowCopy = some c) ∧ ∀ c ∈ y.cands, c ∈ x.cands)

theorem State.swapStack_stacks (s : State) (k : Nat) :
    (s.stack k).SwappedTo ((s.swapStack k).stack k) ∧ (∀ j, j ≠ k → (s.swapStack k).stack j = s.stack j) ∧ s.HbmOnly (s.swapStack k) ∧
    (s.swapStack k).poison = s.poison := by
  by_cases h : (s.stack k).issued ≤ 8
  · have heq : s.swapStack k = (swapsOf (s.stack k).cands).foldl (fun s c => s.swapRow k c) s := if_pos h
    obtain ⟨⟨hdebt, hretry, hcands⟩, hother, honly, hpoison⟩ := s.swapRows_stacks k (swapsOf (s.stack k).cands)
    rw [heq]
    refine ⟨⟨fun h' => absurd h (Nat.not_le.mpr h'), fun _ => ⟨hdebt, hretry, fun c hc => ?_, hcands⟩⟩, hother, honly, hpoison⟩
    obtain ⟨m, hself⟩ := (s.swapRow_stacks k c).1
    rw [hc, show swapsOf [c] = [c] from rfl, List.foldl_cons, List.foldl_nil, hself, hc]
    exact ⟨by simp, rfl⟩
  · have heq : s.swapStack k = s := if_neg h
    rw [heq]
    exact ⟨⟨fun _ => rfl, fun h' => absurd h' h⟩, fun j _ => rfl, State.HbmOnly.refl s, rfl⟩

theorem State.swapStack_hbmOnly (s : State) (k : Nat) : s.HbmOnly (s.swapStack k) := by
  obtain ⟨-, -, honly, -⟩ := s.swapStack_stacks k
  exact honly

theorem State.stack_swapStack_ne (s : State) (k j : Nat) (h : j ≠ k) : (s.swapStack k).stack j = s.stack j := by
  obtain ⟨-, hother, -⟩ := s.swapStack_stacks k
  exact hother j h

theorem State.poison_swapStack (s : State) (k : Nat) : (s.swapStack k).poison = s.poison := by
  obtain ⟨-, -, -, hpoison⟩ := s.swapStack_stacks k
  exact hpoison

theorem slackWindow_swap {s : State} (temp : Nat) (hl : s.live = true) (ht : s.fw.tuned = true) (hc : s.time.counting = true)
    (hphase : s.gtc % 4096 = 244) (hleaf : s.hbmLeaf < s.gtc / 4096 * 8 + 3) :
    ∃ t, exec (.slackWindow temp []) s = .next t ∧ t.mem = s.mem ∧ t.poison = s.poison ∧ t.hbmLeaf = s.gtc / 4096 * 8 + 3 ∧
      ∀ k, k < 8 → (s.stack k).SwappedTo (t.stack k) := by
  obtain ⟨u, hexec, hstack, hpoison, hmem, -, hno⟩ := slackWindow_foldl (f := State.swapStack) temp hl ht
    (State.windowDue_eq_some hl ht hc (windowPhase_swap hphase) hleaf) (fun _ _ => rfl) State.swapStack_hbmOnly
  refine ⟨_, hexec, hmem, ?_, hno, fun k hk => ?_⟩
  · exact List.foldlRecOn (motive := fun t : State => t.poison = s.poison) _ _ hpoison fun t h k _ => (t.poison_swapStack k).trans h
  · rw [← hstack]
    exact State.foldl_stacks_apart (P := Stack.SwappedTo) State.stack_swapStack_ne
      (fun u k => (u.swapStack_stacks k).1) u hk

/-! ### Retries -/

theorem retryOne_eq (failed r : List Nat) (b : Nat) : retryOne failed (b :: r) = if b ∈ failed then r ++ [b] else r := by
  simp only [retryOne, List.contains_iff_mem]

theorem retryOne_nil (l : List Nat) : retryOne [] l = l.drop 1 := by
  cases l <;> rfl

/-- A retry that no note fails takes the oldest beat of each channel (R37). -/
theorem State.retryStack_channel (s : State) (k ch : Nat) :
    ((s.retryStack [] k).stack k).retry.get [] ch = ((s.stack k).retry.get [] ch).drop 1 := by
  rw [State.retryStack, State.stack_updStack_self]
  simp only [Tab.get, Tab.find?_map (s.stack k).retry (retryOne [])]
  cases (s.stack k).retry.find? ch with
  | none => rfl
  | some l => exact retryOne_nil l

theorem State.windowOf_retry (s : State) (i band : Nat) (failed : List Nat) (k : Nat) : s.windowOf (3 + i) band failed k = s.retryStack failed k := by
  rw [State.windowOf, if_neg (by omega), if_neg (by omega), if_neg (by omega)]

theorem slackWindow_retry {s : State} (temp : Nat) {i : Nat} (hl : s.live = true) (ht : s.fw.tuned = true) (hc : s.time.counting = true)
    (hi : i < 4) (hphase : s.gtc % 4096 = 340 + 11 * i) (hleaf : s.hbmLeaf < s.gtc / 4096 * 8 + 4 + i) :
    ∃ t, exec (.slackWindow temp []) s = .next t ∧ t.mem = s.mem ∧ t.poison = s.poison ∧ t.hbmLeaf = s.gtc / 4096 * 8 + 4 + i ∧
      ∀ k, k < 8 → ∀ ch, (t.stack k).retry.get [] ch = ((s.stack k).retry.get [] ch).drop 1 := by
  obtain ⟨u, hexec, hstack, hpoison, hmem, -, hno⟩ := slackWindow_foldl (f := fun s k => s.retryStack [] k) temp hl ht
    (State.windowDue_eq_some hl ht hc (windowPhase_retry hi hphase) (by omega)) (fun s k => s.windowOf_retry i _ _ k)
    fun s k => s.updStack_hbmOnly k _
  refine ⟨_, hexec, hmem, ?_, by rw [hno]; omega, fun k hk ch => ?_⟩
  · exact List.foldlRecOn (motive := fun t : State => t.poison = s.poison) _ _ hpoison fun t h k _ => h
  · rw [← hstack]
    exact State.foldl_stacks_apart (P := fun x y => ∀ ch, y.retry.get [] ch = (x.retry.get [] ch).drop 1)
      (fun u k j hj => State.stack_updStack_ne u _ hj) (fun u k ch => u.retryStack_channel k ch) u hk ch

end Sys2Proof.Machine
end

section
/-! SUPPORT. The notes of the HBM controllers, reads of bad beats, activates of rows and swap candidates (R32, R35 to R38), and the slack
window. -/

namespace Sys2Proof.Machine

/-! ### Notes -/

theorem State.loseBeat_eq (s : State) (pa : Nat) : s.loseBeat pa = ({ s with draw := s.draw + 1 } : State).putCells
    ((beatBytes pa).zipIdx.map fun a => (a.1, BitVec.ofNat 8 (field (Config.draw s.draw) (8 * a.2) 8), s.markAt a.1)) := rfl

theorem State.addRetry_full {s : State} {pa : Nat} (h : 16 ≤ ((s.stack (s.hbmStack pa)).retry.get [] (s.hbmChannel pa)).length) :
    s.addRetry pa = (s.loseBeat pa).stackFault (s.hbmStack pa) 3 := if_pos h

theorem State.addRetry_room {s : State} {pa : Nat} (h : ((s.stack (s.hbmStack pa)).retry.get [] (s.hbmChannel pa)).length < 16) :
    s.addRetry pa = s.updStack (s.hbmStack pa) fun x => { x with
      retry := x.retry.put (s.hbmChannel pa) ((s.stack (s.hbmStack pa)).retry.get [] (s.hbmChannel pa) ++ [pa / 64])
      retryPeak := max x.retryPeak (((s.stack (s.hbmStack pa)).retry.get [] (s.hbmChannel pa)).length + 1) } := if_neg (Nat.not_le.mpr h)

/-- Beside the memory, a note touches what the work of the stacks touches. -/
theorem State.loseBeat_hbmOnly (s : State) (pa : Nat) : ∃ m, ({ s with mem := m } : State).HbmOnly (s.loseBeat pa) := by
  rw [State.loseBeat_eq]
  generalize (beatBytes pa).zipIdx.map _ = cs
  rw [State.putCells_frame]
  exact ⟨_, _, _, _, _, _, rfl⟩

theorem State.addRetry_hbmOnly (s : State) (pa : Nat) : ∃ m, ({ s with mem := m } : State).HbmOnly (s.addRetry pa) := by
  by_cases h : 16 ≤ ((s.stack (s.hbmStack pa)).retry.get [] (s.hbmChannel pa)).length
  · obtain ⟨m, honly⟩ := s.loseBeat_hbmOnly pa
    rw [State.addRetry_full h]
    exact ⟨m, honly.trans (State.stackFault_hbmOnly _ _ 3)⟩
  · rw [State.addRetry_room (Nat.not_le.mp h)]
    exact ⟨s.mem, s.updStack_hbmOnly _ _⟩

theorem State.refreshed_hbmOnly (s : State) (pa : Nat) : s.HbmOnly (s.refreshed pa) := by
  unfold State.refreshed; dsimp only
  split
  · exact s.updStack_hbmOnly _ _
  · exact State.HbmOnly.refl s

theorem State.hbmNote_hbmOnly (s : State) (n : HbmNote) : ∃ m, ({ s with mem := m } : State).HbmOnly (s.hbmNote n) := by
  have hrefl := State.HbmOnly.refl s
  cases n with
  | corrected pa => exact ⟨s.mem, by unfold State.hbmNote; dsimp only; split; exacts [s.updStack_hbmOnly _ _, hrefl]⟩
  | uncorrectable pa => exact ⟨s.mem, by unfold State.hbmNote; dsimp only; split; exacts [s.uncorrectable_hbmOnly pa, hrefl]⟩
  | readFailed pa =>
    refine ⟨s.mem, ?_⟩
    unfold State.hbmNote; dsimp only; split
    · exact (s.uncorrectable_hbmOnly pa).trans (State.updStack_hbmOnly _ _ _)
    · exact hrefl
  | recovered pa => exact ⟨s.mem, by unfold State.hbmNote; dsimp only; split; exacts [s.recovered_hbmOnly pa, hrefl]⟩
  | refreshed pa => exact ⟨s.mem, by unfold State.hbmNote; dsimp only; split; exacts [s.refreshed_hbmOnly pa, hrefl]⟩
  | writeFailed pa =>
    unfold State.hbmNote; dsimp only; split
    · exact s.addRetry_hbmOnly pa
    · exact ⟨s.mem, hrefl⟩
  | retryFailed pa => exact ⟨s.mem, hrefl⟩

/-- A note on a tick on which no phase of a window begins. -/
theorem slackWindow_note {s : State} (temp : Nat) (n : HbmNote) (hl : s.live = true) (ht : s.fw.tuned = true) (hdue : s.windowDue = none) :
    exec (.slackWindow temp [n]) s = .next ((s.hbmNote n).setTemp temp) := by
  obtain ⟨m, honly⟩ := s.hbmNote_hbmOnly n
  have hnone : ((s.hbmNote n).setTemp temp).windowDue = none := by
    rw [State.windowDue_setTemp, honly.windowDue]; exact hdue
  refine (exec_slackWindow s temp [n]).trans (congrArg Host.Outcome.next ((if_neg (by rw [hl, ht]; decide)).trans ?_))
  dsimp only [List.foldl_cons, List.foldl_nil]
  rw [hnone]

theorem mem_beatBytes {pa a : Nat} : a ∈ beatBytes pa ↔ a / 64 = pa / 64 := by
  simp only [beatBytes, List.mem_map, List.mem_range]
  constructor
  · rintro ⟨i, hi, rfl⟩; omega
  · intro h; exact ⟨a % 64, by omega, by omega⟩

/-- The marks of an uncorrectable beat: a byte that is marked keeps its mark. -/
theorem find?_foldl_ecc (l : List Nat) (t : Tab MCls) (a : Nat) :
    (l.foldl (fun t a => if (t.find? a).isSome then t else t.put a .ecc) t).find? a =
      if a ∈ l then some ((t.find? a).getD .ecc) else t.find? a := by
  induction l generalizing t with
  | nil => rfl
  | cons b r ih =>
    rw [List.foldl_cons, ih]
    by_cases hab : a = b
    · subst hab
      rw [if_pos (List.mem_cons_self ..)]
      cases hfind : t.find? a with
      | none => simp
      | some c => simp [hfind]
    · have hsame : (if (t.find? b).isSome then t else t.put b .ecc).find? a = t.find? a := by
        split
        · rfl
        · exact Tab.find?_put_ne t .ecc hab
      rw [hsame]
      simp only [List.mem_cons, hab, false_or]

theorem State.markAt_uncorrectable (s : State) (pa a : Nat) :
    (s.uncorrectable pa).markAt a = if a / 64 = pa / 64 then some ((s.markAt a).getD .ecc) else s.markAt a := by
  have hfind : (s.uncorrectable pa).markAt a = if a ∈ beatBytes pa then some ((s.markAt a).getD .ecc) else s.markAt a := by
    rw [State.uncorrectable]
    generalize beatBytes pa = l
    exact find?_foldl_ecc l s.poison a
  by_cases h : a / 64 = pa / 64
  · rw [hfind, if_pos h, if_pos (mem_beatBytes.mpr h)]
  · rw [hfind, if_neg h, if_neg fun hm => h (mem_beatBytes.mp hm)]

/-- A beat joins those of its stack that read as uncorrectable. -/
def Stack.addBad (b : Nat) (x : Stack) : Stack := { x with bad := if x.bad.contains b then x.bad else x.bad ++ [b] }

theorem Stack.mem_addBad (b : Nat) (x : Stack) : b ∈ (x.addBad b).bad := by
  unfold Stack.addBad; dsimp only
  split
  · rename_i h; exact List.contains_iff_mem.mp h
  · exact List.mem_append_right _ (List.mem_singleton.mpr rfl)

theorem State.hbm_uncorrectable (s : State) (pa : Nat) :
    (s.uncorrectable pa).hbm = (s.updStack (s.hbmStack pa) (Stack.addBad (pa / 64))).hbm := rfl

theorem State.stack_uncorrectable (s : State) (pa : Nat) :
    (s.uncorrectable pa).stack (s.hbmStack pa) = (s.stack (s.hbmStack pa)).addBad (pa / 64) := by
  rw [State.stack, State.hbm_uncorrectable]
  exact s.stack_updStack_self (s.hbmStack pa) (Stack.addBad (pa / 64))

theorem mem_of_tab_find? {α : Type} {t : Tab α} {k : Nat} {v : α} (h : t.find? k = some v) : (k, v) ∈ t := by
  induction t with
  | nil => cases h
  | cons e r ih =>
    obtain ⟨j, w⟩ := e
    rw [Tab.find?] at h
    split at h
    · rename_i hj
      cases h; rw [hj]; exact List.mem_cons_self ..
    · exact List.mem_cons_of_mem _ (ih h)

theorem State.markAt_recovered (s : State) {pa a : Nat} (ha : a / 64 = pa / 64) : (s.recovered pa).markAt a ≠ some .ecc := by
  intro h
  obtain ⟨-, hp⟩ := List.mem_filter.mp (mem_of_tab_find? h)
  simp [ha] at hp

theorem State.byteAt_loseBeat {s : State} {pa a : Nat} (h : s.MemOk) (ha : a / 64 ≠ pa / 64) : (s.loseBeat pa).byteAt a = s.byteAt a := by
  rw [State.loseBeat_eq]
  refine State.byteAt_putCells_of_notMem (s := { s with draw := s.draw + 1 }) _ h fun c hc hca => ?_
  obtain ⟨x, hx, rfl⟩ := List.mem_map.mp hc
  exact ha (mem_beatBytes.mp (hca ▸ List.fst_mem_of_mem_zipIdx hx))

/-- A refresh ends on this tick: one of those that the window issued, and of one bank of its pseudo-channel (R33). -/
def State.RefreshEnds (s : State) (pa : Nat) : Prop :=
  (∃ i, i < (s.stack (s.hbmStack pa)).issued ∧ s.gtc % 4096 = 64 + 6 * i + 138) ∧
  ∀ b, (s.gtc, b) ∈ (s.stack (s.hbmStack pa)).refreshes → b = s.hbmBank pa ∨ b % 64 ≠ s.hbmBank pa % 64

theorem State.refreshEnds_iff (s : State) (pa : Nat) :
    (((List.range (s.stack (s.hbmStack pa)).issued).any fun i => decide (leafTick s.gtc = refreshEnd i)) &&
      ((s.stack (s.hbmStack pa)).refreshes.filter fun (e : Nat × Nat) => decide (e.1 = s.gtc)).all fun (e : Nat × Nat) =>
        decide (e.2 = s.hbmBank pa ∨ pseudoOf e.2 ≠ pseudoOf (s.hbmBank pa))) = true ↔ s.RefreshEnds pa := by
  rw [Bool.and_eq_true, List.any_eq_true, List.all_eq_true, State.RefreshEnds]
  refine and_congr ⟨?_, ?_⟩ ⟨fun h b hb => ?_, fun h e he => ?_⟩
  · rintro ⟨i, hi, h⟩; exact ⟨i, List.mem_range.mp hi, of_decide_eq_true h⟩
  · rintro ⟨i, hi, h⟩; exact ⟨i, List.mem_range.mpr hi, decide_eq_true h⟩
  · exact of_decide_eq_true (h (s.gtc, b) (List.mem_filter.mpr ⟨hb, decide_eq_true rfl⟩))
  · obtain ⟨hmem, hnow⟩ := List.mem_filter.mp he
    obtain ⟨t, b⟩ := e
    obtain rfl : t = s.gtc := of_decide_eq_true hnow
    exact decide_eq_true (h b hmem)

theorem State.refreshed_of_ends {s : State} {pa : Nat} (h : s.RefreshEnds pa) :
    ((s.refreshed pa).stack (s.hbmStack pa)).acts.get 0
      (rowKey (s.hbmBank pa) ((s.stack (s.hbmStack pa)).physRow (s.hbmBank pa) (s.hbmRow pa))) = 0 ∧
    (s.gtc, s.hbmBank pa) ∈ ((s.refreshed pa).stack (s.hbmStack pa)).refreshes := by
  have heq : s.refreshed pa = s.updStack (s.hbmStack pa) _ := if_pos ((s.refreshEnds_iff pa).mpr h)
  rw [heq, State.stack_updStack_self]
  exact ⟨by simp [Tab.get], List.mem_append_right _ (List.mem_singleton.mpr rfl)⟩

theorem State.refreshed_of_not_ends {s : State} {pa : Nat} (h : ¬ s.RefreshEnds pa) : s.refreshed pa = s :=
  if_neg fun h' => h ((s.refreshEnds_iff pa).mp h')

/-! ### Reads of bad beats -/

theorem State.sawBad_one {s : State} {a : Nat} (ha : a < 2 ^ 39) (hm : s.markAt a = some .ecc)
    (hbad : a / 64 ∈ (s.stack (s.hbmStack (a / 64 * 64))).bad) :
    (s.sawBad [a]).stack (s.hbmStack (a / 64 * 64)) = { s.stack (s.hbmStack (a / 64 * 64)) with
      ue := true
      ueAddr := if (s.stack (s.hbmStack (a / 64 * 64))).ue then (s.stack (s.hbmStack (a / 64 * 64))).ueAddr else a / 64 * 64 } := by
  have hfilter : [a].filter (fun a => decide (a < hbmEnd ∧ s.markAt a = some .ecc)) = [a] :=
    List.filter_eq_self.mpr fun x hx => by rw [List.mem_singleton.mp hx]; exact decide_eq_true ⟨ha, hm⟩
  rw [State.sawBad, hfilter]
  refine (s.stack_updStack_self (s.hbmStack (a / 64 * 64)) _).trans (if_pos ?_)
  exact List.contains_iff_mem.mpr hbad

/-! ### Activates and swap candidates -/

theorem State.addCandidate_full {s : State} {k bank : Nat} (row : Nat)
    (h : 4 ≤ ((s.stack k).cands.filter fun c => decide (c.1 = bank)).length) : s.addCandidate k bank row = s.stackFault k 2 := if_pos h

theorem State.addCandidate_room {s : State} {k bank : Nat} (row : Nat)
    (h : ((s.stack k).cands.filter fun c => decide (c.1 = bank)).length < 4) : ∃ p, (s.addCandidate k bank row).stack k =
      { s.stack k with cands := (s.stack k).cands ++ [(bank, row)], swapPeak := p } := by
  have heq : s.addCandidate k bank row = s.updStack k _ := if_neg (Nat.not_le.mpr h)
  exact ⟨_, heq ▸ State.stack_updStack_self s k _⟩

theorem State.addCandidate_keeps (s : State) (k bank row : Nat) :
    s.HbmOnly (s.addCandidate k bank row) ∧ ((s.addCandidate k bank row).stack k).acts = (s.stack k).acts ∧
    ((s.addCandidate k bank row).stack k).opens = (s.stack k).opens := by
  by_cases h : 4 ≤ ((s.stack k).cands.filter fun c => decide (c.1 = bank)).length
  · rw [State.addCandidate_full row h, State.stack_stackFault_self]
    exact ⟨s.stackFault_hbmOnly k 2, rfl, rfl⟩
  · have heq : s.addCandidate k bank row = s.updStack k _ := if_neg h
    rw [heq, State.stack_updStack_self]
    exact ⟨s.updStack_hbmOnly k _, rfl, rfl⟩

/-- A row's activate joins its count. -/
def State.addActivate (s : State) (k bank row : Nat) : State :=
  let key := rowKey bank ((s.stack k).physRow bank row)
  s.updStack k fun x => { x with acts := x.acts.put key ((s.stack k).acts.get 0 key + 1) }

theorem State.countActivate_eq (s : State) (k bank row : Nat) : s.countActivate k bank row =
    if (s.stack k).acts.get 0 (rowKey bank ((s.stack k).physRow bank row)) + 1 = 4096 then (s.addActivate k bank row).addCandidate k bank row
    else s.addActivate k bank row := rfl

theorem State.stack_addActivate (s : State) (k bank row : Nat) : (s.addActivate k bank row).stack k = { s.stack k with
    acts := (s.stack k).acts.put (rowKey bank ((s.stack k).physRow bank row))
      ((s.stack k).acts.get 0 (rowKey bank ((s.stack k).physRow bank row)) + 1) } := State.stack_updStack_self s k _

theorem State.countActivate_keeps (s : State) (k bank row : Nat) :
    s.HbmOnly (s.countActivate k bank row) ∧ ((s.countActivate k bank row).stack k).opens = (s.stack k).opens ∧
    ((s.countActivate k bank row).stack k).acts.get 0 (rowKey bank ((s.stack k).physRow bank row)) =
      (s.stack k).acts.get 0 (rowKey bank ((s.stack k).physRow bank row)) + 1 := by
  have hadd : s.HbmOnly (s.addActivate k bank row) := s.updStack_hbmOnly k _
  rw [State.countActivate_eq]
  split
  · obtain ⟨honly, hacts, hopens⟩ := (s.addActivate k bank row).addCandidate_keeps k bank row
    refine ⟨hadd.trans honly, ?_, ?_⟩
    · rw [hopens, State.stack_addActivate]
    · rw [hacts, State.stack_addActivate, Tab.get_put_self]
  · rw [State.stack_addActivate, Tab.get_put_self]
    exact ⟨hadd, rfl, rfl⟩

theorem State.countActivate_below {s : State} {k bank row : Nat}
    (h : (s.stack k).acts.get 0 (rowKey bank ((s.stack k).physRow bank row)) + 1 ≠ 4096) :
    ((s.countActivate k bank row).stack k).cands = (s.stack k).cands := by
  rw [State.countActivate_eq, if_neg h, State.stack_addActivate]

/-- The 4,096th activate of a row (R35). -/
theorem State.countActivate_limit {s : State} {k bank row : Nat}
    (h : (s.stack k).acts.get 0 (rowKey bank ((s.stack k).physRow bank row)) + 1 = 4096) :
    (((s.stack k).cands.filter fun c => decide (c.1 = bank)).length < 4 →
      ((s.countActivate k bank row).stack k).cands = (s.stack k).cands ++ [(bank, row)]) ∧
    (4 ≤ ((s.stack k).cands.filter fun c => decide (c.1 = bank)).length →
      ((s.countActivate k bank row).stack k).debtFault = true ∧ (s.countActivate k bank row).sched.cause = 2 ∧
      ((s.countActivate k bank row).stack k).cands = (s.stack k).cands) := by
  have hcands : ((s.addActivate k bank row).stack k).cands = (s.stack k).cands := by rw [State.stack_addActivate]
  rw [State.countActivate_eq, if_pos h]
  refine ⟨fun hroom => ?_, fun hfull => ?_⟩
  · obtain ⟨p, hp⟩ := State.addCandidate_room (s := s.addActivate k bank row) row (hcands ▸ hroom)
    rw [hp, hcands]
  · rw [State.addCandidate_full row (hcands ▸ hfull), State.stack_stackFault_self]
    exact ⟨rfl, State.stackFault_cause _ k 2, hcands⟩

/-- A row's beats join its open rows with a mask. -/
def State.openAs (s : State) (k bank phys mask now : Nat) : State :=
  s.updStack k fun x => { x with
    opens := x.opens.filter (fun o => !decide (o.bank = bank ∧ o.row = phys) && decide (now < o.till)) ++ [⟨bank, phys, mask, now + 64⟩] }

theorem State.stack_openAs (s : State) (k bank phys mask now : Nat) : (s.openAs k bank phys mask now).stack k = { s.stack k with
    opens := ((s.stack k).opens.filter fun o => !decide (o.bank = bank ∧ o.row = phys) && decide (now < o.till)) ++
      [⟨bank, phys, mask, now + 64⟩] } := State.stack_updStack_self s k _

theorem State.openRow_eq (s : State) (k bank row mask : Nat) : s.openRow k bank row mask =
    match (s.stack k).opens.find? fun o => decide (o.bank = bank ∧ o.row = (s.stack k).physRow bank row) && decide (s.gtc < o.till) with
    | some o => (if o.mask ||| mask = o.mask then s else s.countActivate k bank row).openAs k bank ((s.stack k).physRow bank row)
        (o.mask ||| mask) s.gtc
    | none => (s.countActivate k bank row).openAs k bank ((s.stack k).physRow bank row) mask s.gtc := by
  rfl

theorem State.openRow_hbmOnly (s : State) (k bank row mask : Nat) : s.HbmOnly (s.openRow k bank row mask) := by
  obtain ⟨hcount, -⟩ := s.countActivate_keeps k bank row
  rw [State.openRow_eq]
  split
  · split
    · exact s.updStack_hbmOnly k _
    · exact hcount.trans (State.updStack_hbmOnly _ k _)
  · exact hcount.trans (State.updStack_hbmOnly _ k _)

theorem State.openRow_closed {s : State} {k bank row : Nat} (mask : Nat)
    (h : ∀ o ∈ (s.stack k).opens, o.bank = bank → o.row = (s.stack k).physRow bank row → o.till ≤ s.gtc) :
    ((s.openRow k bank row mask).stack k).acts.get 0 (rowKey bank ((s.stack k).physRow bank row)) =
      (s.stack k).acts.get 0 (rowKey bank ((s.stack k).physRow bank row)) + 1 ∧
    (⟨bank, (s.stack k).physRow bank row, mask, s.gtc + 64⟩ : OpenRow) ∈ ((s.openRow k bank row mask).stack k).opens := by
  have hnone : (s.stack k).opens.find? (fun o => decide (o.bank = bank ∧ o.row = (s.stack k).physRow bank row) && decide (s.gtc < o.till)) =
      none := List.find?_eq_none.mpr fun o ho hp => by
    simp only [Bool.and_eq_true, decide_eq_true_eq] at hp
    exact absurd hp.2 (Nat.not_lt.mpr (h o ho hp.1.1 hp.1.2))
  obtain ⟨-, -, hacts⟩ := s.countActivate_keeps k bank row
  rw [State.openRow_eq, hnone]
  dsimp only
  rw [State.stack_openAs]
  exact ⟨hacts, List.mem_append_right _ (List.mem_singleton.mpr rfl)⟩

theorem State.openRow_open {s : State} {k bank row : Nat} {o : OpenRow} (mask : Nat) (hopens : (s.stack k).opens = [o]) (hb : o.bank = bank)
    (hr : o.row = (s.stack k).physRow bank row) (ht : s.gtc < o.till) :
    ((s.openRow k bank row mask).stack k).acts.get 0 (rowKey bank ((s.stack k).physRow bank row)) =
      (if o.mask ||| mask = o.mask then (s.stack k).acts.get 0 (rowKey bank ((s.stack k).physRow bank row))
        else (s.stack k).acts.get 0 (rowKey bank ((s.stack k).physRow bank row)) + 1) ∧
    ((s.openRow k bank row mask).stack k).opens = [⟨bank, (s.stack k).physRow bank row, o.mask ||| mask, s.gtc + 64⟩] := by
  have hsome : (s.stack k).opens.find? (fun o => decide (o.bank = bank ∧ o.row = (s.stack k).physRow bank row) && decide (s.gtc < o.till)) =
      some o := by
    rw [hopens, List.find?_cons_of_pos (by simp [hb, hr, ht])]
  have hrest : [o].filter (fun o => !decide (o.bank = bank ∧ o.row = (s.stack k).physRow bank row) && decide (s.gtc < o.till)) = [] :=
    List.filter_eq_nil_iff.mpr fun x hx => by rw [List.mem_singleton.mp hx]; simp [hb, hr]
  obtain ⟨-, hkeeps, hacts⟩ := s.countActivate_keeps k bank row
  rw [State.openRow_eq, hsome]
  dsimp only
  rw [State.stack_openAs]
  split
  · exact ⟨rfl, by rw [hopens, hrest]; rfl⟩
  · exact ⟨hacts, by dsimp only; rw [hkeeps, hopens, hrest]; rfl⟩

end Sys2Proof.Machine
end

section
/-! SUPPORT. The slack window of an HBM stack, settled. -/

namespace Sys2Proof.Machine

/-- The temperature of a window leaves the stacks, the memory, the marks and the schedule. -/
theorem State.setTemp_keeps (s : State) (temp : Nat) : (s.setTemp temp).mem = s.mem ∧ (s.setTemp temp).hbm = s.hbm ∧
    (s.setTemp temp).poison = s.poison ∧ (s.setTemp temp).sched = s.sched := ⟨rfl, rfl, rfl, rfl⟩

theorem State.updStack_keeps {s : State} {k : Nat} {f : Stack → Stack} : (s.updStack k f).mem = s.mem ∧ (s.updStack k f).poison = s.poison :=
  ⟨rfl, rfl⟩

/-- The state after a note agrees with the note's own in what the notes' clauses read. -/
theorem slackWindow_note_keeps {s : State} {n : HbmNote} {u : State} (temp : Nat) (hl : s.live = true) (ht : s.fw.tuned = true)
    (hdue : s.windowDue = none) (hn : s.hbmNote n = u) : ∃ t, exec (.slackWindow temp [n]) s = .next t ∧
      t.mem = u.mem ∧ t.hbm = u.hbm ∧ t.poison = u.poison ∧ t.sched = u.sched := by
  subst hn
  exact ⟨_, slackWindow_note temp n hl ht hdue, (s.hbmNote n).setTemp_keeps temp⟩

section Notes

variable {s : State} (temp : Nat) {pa : Nat} (hl : s.live = true) (ht : s.fw.tuned = true) (hdue : s.windowDue = none) (hpa : pa < 2 ^ 39)
include hl ht hdue hpa

theorem slackWindow_corrected : ∃ t, exec (.slackWindow temp [.corrected pa]) s = .next t ∧ t.mem = s.mem ∧
    t.stack (s.hbmStack pa) = { s.stack (s.hbmStack pa) with ceCount := min 0xFFFF ((s.stack (s.hbmStack pa)).ceCount + 1) } := by
  obtain ⟨t, hexec, hmem, hhbm, -⟩ := slackWindow_note_keeps (n := .corrected pa) temp hl ht hdue (if_pos hpa)
  exact ⟨t, hexec, hmem, (congrArg (Tab.get · Stack.fresh _) hhbm).trans (s.stack_updStack_self (s.hbmStack pa) _)⟩

theorem slackWindow_uncorrectable : ∃ t, exec (.slackWindow temp [.uncorrectable pa]) s = .next t ∧ t.mem = s.mem ∧
    pa / 64 ∈ (t.stack (s.hbmStack pa)).bad ∧ (t.stack (s.hbmStack pa)).ue = (s.stack (s.hbmStack pa)).ue ∧
    (t.stack (s.hbmStack pa)).rereads = (s.stack (s.hbmStack pa)).rereads ∧
    (∀ a, a / 64 = pa / 64 → t.markAt a = some ((s.markAt a).getD .ecc)) ∧ ∀ a, a / 64 ≠ pa / 64 → t.markAt a = s.markAt a := by
  obtain ⟨t, hexec, hmem, hhbm, hpoison, -⟩ := slackWindow_note_keeps (n := .uncorrectable pa) temp hl ht hdue (if_pos hpa)
  have hstack : t.stack (s.hbmStack pa) = (s.stack (s.hbmStack pa)).addBad (pa / 64) :=
    (congrArg (Tab.get · Stack.fresh _) hhbm).trans (s.stack_uncorrectable pa)
  have hmark (a : Nat) := (congrArg (Tab.find? · a) hpoison).trans (s.markAt_uncorrectable pa a)
  refine ⟨t, hexec, hmem.trans (s.uncorrectable_hbmOnly pa).keeps.1, ?_⟩
  rw [hstack]
  exact ⟨Stack.mem_addBad _ _, rfl, rfl, fun a ha => (hmark a).trans (if_pos ha), fun a ha => (hmark a).trans (if_neg ha)⟩

theorem slackWindow_readFailed : ∃ t, exec (.slackWindow temp [.readFailed pa]) s = .next t ∧ t.mem = s.mem ∧
    pa / 64 ∈ (t.stack (s.hbmStack pa)).bad ∧
    (t.stack (s.hbmStack pa)).rereads = (s.stack (s.hbmStack pa)).rereads ++ [pa / 64] ∧
    ∀ a, a / 64 = pa / 64 → t.markAt a = some ((s.markAt a).getD .ecc) := by
  obtain ⟨t, hexec, hmem, hhbm, hpoison, -⟩ := slackWindow_note_keeps (n := .readFailed pa) temp hl ht hdue (if_pos hpa)
  have hstack : t.stack (s.hbmStack pa) = { (s.stack (s.hbmStack pa)).addBad (pa / 64) with
      rereads := (s.stack (s.hbmStack pa)).rereads ++ [pa / 64] } := by
    refine (congrArg (Tab.get · Stack.fresh _) hhbm).trans
      ((State.stack_updStack_self _ _ fun x => { x with rereads := x.rereads ++ [pa / 64] }).trans ?_)
    rw [s.stack_uncorrectable pa]; rfl
  have hmark (a : Nat) : t.markAt a = (s.uncorrectable pa).markAt a := by rw [State.markAt, hpoison, State.updStack_keeps.2]; rfl
  refine ⟨t, hexec, hmem.trans (State.updStack_keeps.1.trans (s.uncorrectable_hbmOnly pa).keeps.1), ?_⟩
  rw [hstack]
  exact ⟨Stack.mem_addBad _ _, rfl,
    fun a ha => ((hmark a).trans (s.markAt_uncorrectable pa a)).trans (if_pos ha)⟩

theorem slackWindow_recovered : ∃ t, exec (.slackWindow temp [.recovered pa]) s = .next t ∧ t.mem = s.mem ∧
    ∀ a, a / 64 = pa / 64 → t.markAt a ≠ some .ecc := by
  obtain ⟨t, hexec, hmem, -, hpoison, -⟩ := slackWindow_note_keeps (n := .recovered pa) temp hl ht hdue (if_pos hpa)
  exact ⟨t, hexec, hmem, fun a ha h => s.markAt_recovered ha ((congrArg (Tab.find? · a) hpoison).symm.trans h)⟩

theorem slackWindow_refreshed : ∃ t, exec (.slackWindow temp [.refreshed pa]) s = .next t ∧ t.mem = s.mem ∧
    (s.RefreshEnds pa → (t.stack (s.hbmStack pa)).acts.get 0
        (rowKey (s.hbmBank pa) ((s.stack (s.hbmStack pa)).physRow (s.hbmBank pa) (s.hbmRow pa))) = 0 ∧
      (s.gtc, s.hbmBank pa) ∈ (t.stack (s.hbmStack pa)).refreshes) ∧
    (¬ s.RefreshEnds pa → t.hbm = s.hbm) := by
  obtain ⟨t, hexec, hmem, hhbm, -⟩ := slackWindow_note_keeps (n := .refreshed pa) temp hl ht hdue (if_pos hpa)
  refine ⟨t, hexec, hmem.trans (s.refreshed_hbmOnly pa).keeps.1, fun h => ?_, fun h => by rw [hhbm, State.refreshed_of_not_ends h]⟩
  rw [State.stack, hhbm]
  exact State.refreshed_of_ends h

theorem slackWindow_writeFailed_room (h : ((s.stack (s.hbmStack pa)).retry.get [] (s.hbmChannel pa)).length < 16) :
    ∃ t, exec (.slackWindow temp [.writeFailed pa]) s = .next t ∧ t.mem = s.mem ∧
      (t.stack (s.hbmStack pa)).retry.get [] (s.hbmChannel pa) =
        (s.stack (s.hbmStack pa)).retry.get [] (s.hbmChannel pa) ++ [pa / 64] := by
  obtain ⟨t, hexec, hmem, hhbm, -⟩ := slackWindow_note_keeps (n := .writeFailed pa) temp hl ht hdue
    ((if_pos hpa).trans (State.addRetry_room h))
  refine ⟨t, hexec, hmem, ?_⟩
  rw [State.stack, hhbm]
  exact (congrArg (fun x : Stack => x.retry.get [] (s.hbmChannel pa)) (State.stack_updStack_self s _ _)).trans (Tab.get_put_self _ _ _ _)

theorem slackWindow_writeFailed_full (h : 16 ≤ ((s.stack (s.hbmStack pa)).retry.get [] (s.hbmChannel pa)).length) :
    ∃ t, exec (.slackWindow temp [.writeFailed pa]) s = .next t ∧ (t.stack (s.hbmStack pa)).debtFault = true ∧ t.sched.cause = 3 ∧
      ∀ a, a / 64 ≠ pa / 64 → s.MemOk → t.byteAt a = s.byteAt a := by
  obtain ⟨t, hexec, hmem, hhbm, -, hsched⟩ := slackWindow_note_keeps (n := .writeFailed pa) temp hl ht hdue
    ((if_pos hpa).trans (State.addRetry_full h))
  refine ⟨t, hexec, ?_, by rw [hsched, State.stackFault_cause], fun a ha hok => ?_⟩
  · rw [State.stack, hhbm]
    exact congrArg Stack.debtFault (State.stack_stackFault_self (s.loseBeat pa) (s.hbmStack pa) 3)
  · have hlost : t.mem = (s.loseBeat pa).mem := hmem.trans (State.stackFault_hbmOnly _ _ 3).keeps.1
    have hread : t.byteAt a = (s.loseBeat pa).byteAt a := by rw [State.byteAt, State.byteAt, hlost]
    exact hread.trans (State.byteAt_loseBeat hok ha)

end Notes

/-- Settles O54: each phase stack by stack, each note by what it makes of its stack, and the counts of activates row by row. -/
theorem slackWindow : Obligations.SlackWindow := by
  unfold Obligations.SlackWindow
  refine ⟨fun s temp hl ht hc hphase hleaf => slackWindow_drain temp hl ht hc hphase hleaf,
    fun s temp hl ht hc hphase hleaf => ?_,
    fun s temp hl ht hc hphase hleaf => slackWindow_swap temp hl ht hc hphase hleaf,
    fun s temp i hl ht hc hi hphase hleaf => slackWindow_retry temp hl ht hc hi hphase hleaf, retryOne_eq,
    fun s temp ns h => slackWindow_untuned temp ns h,
    fun s temp pa hl ht hdue hpa => ⟨slackWindow_corrected temp hl ht hdue hpa, slackWindow_uncorrectable temp hl ht hdue hpa,
      slackWindow_readFailed temp hl ht hdue hpa, slackWindow_recovered temp hl ht hdue hpa, slackWindow_refreshed temp hl ht hdue hpa,
      slackWindow_writeFailed_room temp hl ht hdue hpa, slackWindow_writeFailed_full temp hl ht hdue hpa⟩,
    fun s a ha hm hbad => ?_,
    fun s k bank row mask => ⟨(s.openRow_hbmOnly k bank row mask).keeps.1, fun h => State.openRow_closed mask h,
      fun o hopens hb hr hopen => State.openRow_open mask hopens hb hr hopen⟩,
    fun s k bank row => ⟨State.countActivate_below, State.countActivate_limit⟩⟩
  · obtain ⟨t, hexec, hmem, hgtc, hno, hpoison, hstacks⟩ := slackWindow_refresh temp hl ht hc hphase hleaf
    refine ⟨t, hexec, hmem, hgtc, hno, hpoison, fun k hk => ?_⟩
    obtain ⟨⟨hband, hdebt, hissued, hfault, hretry, hcands, hce, hue, hlog⟩, hcause⟩ := hstacks k hk
    simp only [← needOf_band]
    exact ⟨hband, hdebt, hissued, hfault, hcause, hretry, hcands, hce, hue, hlog⟩
  · dsimp only
    rw [State.sawBad_one ha hm hbad]
    exact ⟨rfl, rfl⟩

end Sys2Proof.Machine
end

section
/-! SUPPORT. A table of marks that lists one byte twice, which a change of its region's mode reorders (R27). -/

namespace Sys2Proof.Machine

/-- A device out of reset whose first byte of HBM is listed twice among the marked bytes: a lookup finds the first entry. -/
def markedTwice : State :=
  { State.reset with pkg := { Package.reset with pwrok := true, inReset := false }, poison := [(0, .ecc), (0, .access)] }

/-- A table that gives partition 0 one region, the first one, in local mode. -/
def localTable : List PartEntry := [⟨0, 0, 0, [0], [0]⟩]

theorem markedTwice_markAt : markedTwice.markAt (hbmSwap true 0) = some .ecc := by decide

theorem markedTwice_setModes : (markedTwice.setModes localTable).markAt 0 = some .access := by decide

theorem markedTwice_partitionTableSet : ∃ u, exec (.partitionTableSet localTable) markedTwice = .next u ∧
    u.markAt 0 = some .access :=
  ⟨_, rfl, markedTwice_setModes⟩

theorem markedTwice_flips : ∃ e ∈ localTable, 0 ∈ e.regions ∧ markedTwice.regionMapped 0 = false ∧
    markedTwice.localRegions.contains 0 ≠ e.locals.contains 0 :=
  ⟨_, List.mem_singleton.mpr rfl, by decide⟩

/-- Refutes O60, in the clause of the partition table (R27): a mode change rewrites a region's marks in the order of their entries, so of two
entries for one byte the last one stands, while the byte's mark before was the first. The clause asks that the memory is well formed, not that
the marks list each byte once, as those that stores leave do. -/
theorem not_partitionsDebugPower : ¬ Obligations.PartitionsDebugPower := by
  unfold Obligations.PartitionsDebugPower PartitionEvents
  rintro ⟨⟨-, htable, -⟩, -⟩
  obtain ⟨t, hexec, -, -, -, hregions⟩ := (htable markedTwice localTable (by decide)).2 (by decide) (by decide)
  obtain ⟨-, -, hcells⟩ := hregions 0
  obtain ⟨-, hmark⟩ := (hcells 0 rfl).1 markedTwice_flips
  obtain ⟨u, hexec', hlast⟩ := markedTwice_partitionTableSet
  obtain rfl : t = u := Host.Outcome.next.inj (hexec.symm.trans hexec')
  rw [hlast, markedTwice_markAt] at hmark
  exact absurd hmark (by decide)

end Sys2Proof.Machine
end

section
/-! SUPPORT. Bring-up (R42, R44, R99, R101, R103 to R106): the image that the ROM starts, the pod that the device joins, and the end of phase 5. -/

namespace Sys2Proof.Machine

/-! ### The ROM, and failures -/

/-- R99, R101: what the ROM does in phase 1, by the strap and by the images in the two slots. -/
theorem romBoot_eq {s : State} (h : InPhase s 0 ∨ InPhase s 1) : exec .romBoot s =
    let b := s.updFw fun f => { f with phase := 1 }
    let first := xor s.fw.activeSlot (decide (s.pkg.strap.toNat % 4 = 1))
    if s.pkg.strap.toNat % 4 = 3 then .next (b.bringupFail 1)
    else if s.pkg.strap.toNat % 4 = 2 then .next (b.updFw fun f => { f with recBoot := true })
    else if s.imageValid (slotBase first) = true then .next (b.startFw (slotBase first) first)
    else if s.imageValid (slotBase !first) = true then .next (b.startFw (slotBase !first) !first)
    else .next (b.bringupFail 2) := by
  refine (exec_romBoot s).trans (if_neg ?_)
  rcases h with h | h <;> simp [State.inPhase_of_inPhase h]

theorem State.bringupFail_failed (s : State) (code : Nat) : Failed s (s.bringupFail code) code := rfl

/-- R103: the bound of a phase passes, and bring-up fails with the phase's code. -/
theorem bringupPhaseTimeout_failed {s : State} (p : Nat) {code : Nat} (hp : InPhase s p) (hrec : s.fw.recBoot = false)
    (hcode : (p, code) ∈ ([(1, 2), (2, 3), (3, 4), (5, 5)] : List (Nat × Nat))) (h5 : p = 5 → s.fw.phaseAt + 37978112 < s.gtc) :
    exec .bringupPhaseTimeout s = .next (s.bringupFail code) := by
  have hphase : s.fw.phase = p := hp.2.2.1
  have hgo : (!s.inPhase s.fw.phase || decide (s.fw.phase = 1 ∧ s.fw.recBoot = true ∧ s.fw.recState ≠ 2)) = false := by
    simp [hphase, State.inPhase_of_inPhase hp, hrec]
  refine (exec_bringupPhaseTimeout s).trans ((if_neg (Bool.eq_false_iff.mp hgo)).trans ?_)
  rw [hphase]
  simp only [List.mem_cons, Prod.mk.injEq, List.not_mem_nil, or_false] at hcode
  rcases hcode with ⟨rfl, rfl⟩ | ⟨rfl, rfl⟩ | ⟨rfl, rfl⟩ | ⟨rfl, rfl⟩
  · rfl
  · rfl
  · rfl
  · have hlate : s.fw.phaseAt + initBound < s.gtc := by rw [initBound]; exact h5 rfl
    rw [if_neg (by decide), if_neg (by decide), if_neg (by decide), if_pos ⟨rfl, hlate⟩]

theorem bringupPhaseTimeout_early {s : State} (hp : InPhase s 5) (h : s.gtc ≤ s.fw.phaseAt + 37978112) :
    exec .bringupPhaseTimeout s = .next s := by
  have hphase : s.fw.phase = 5 := hp.2.2.1
  rw [exec_bringupPhaseTimeout, execBringupPhaseTimeout]
  simp only [hphase, initBound]
  simp [Nat.not_lt.mpr h]

/-! ### The pod (R42, R44) -/

/-- A measured path delay joins its port (R44). -/
def State.setDelay (s : State) (d : Nat × Nat × Nat) : State := s.updPort d.1 fun x => { x with delays := x.delays.put d.2.1 d.2.2 }

theorem State.updPort_frame (s : State) (p : Nat) (f : Port → Port) : s.updPort p f = { s with ports := (s.updPort p f).ports } := rfl

/-- Changes of ports alone, in a row, change the ports alone. -/
theorem State.foldl_ports_frame {α : Type} {f : State → α → State} (hf : ∀ (s : State) x, f s x = { s with ports := (f s x).ports }) (l : List α)
    (s : State) : l.foldl f s = { s with ports := (l.foldl f s).ports } := by
  induction l generalizing s with
  | nil => rfl
  | cons x r ih => rw [List.foldl_cons, ih (f s x), hf s x]

/-- Measurements leave everything of a port but its delays. -/
theorem State.setDelays_port (l : List (Nat × Nat × Nat)) (s : State) (p : Nat) :
    (l.foldl State.setDelay s).port p = { s.port p with delays := ((l.foldl State.setDelay s).port p).delays } := by
  induction l generalizing s with
  | nil => rfl
  | cons d r ih =>
    rw [List.foldl_cons, ih]
    by_cases h : p = d.1
    · subst h; rw [State.setDelay, State.port_updPort_self]
    · rw [State.setDelay, State.port_updPort_ne _ _ h]

/-- A leaf of a port that no measurement names keeps its delay. -/
theorem State.setDelays_other {l : List (Nat × Nat × Nat)} {p leaf : Nat} (h : ∀ d ∈ l, d.1 = p → d.2.1 ≠ leaf) (s : State) :
    ((l.foldl State.setDelay s).port p).delays.find? leaf = (s.port p).delays.find? leaf := by
  induction l generalizing s with
  | nil => rfl
  | cons d r ih =>
    obtain ⟨hd, hr⟩ := List.forall_mem_cons.mp h
    rw [List.foldl_cons, ih hr]
    by_cases hp : p = d.1
    · subst hp
      rw [State.setDelay, State.port_updPort_self]
      exact Tab.find?_put_ne _ _ (hd rfl).symm
    · rw [State.setDelay, State.port_updPort_ne _ _ hp]

/-- A delay on which all measurements of a port in a leaf agree is the one that stands. -/
theorem State.setDelays_agreed {l : List (Nat × Nat × Nat)} {p leaf k : Nat} (hmem : (p, leaf, k) ∈ l)
    (h : ∀ d ∈ l, d.1 = p → d.2.1 = leaf → d.2.2 = k) (s : State) :
    ((l.foldl State.setDelay s).port p).delays.find? leaf = some k := by
  induction l generalizing s with
  | nil => exact absurd hmem List.not_mem_nil
  | cons d r ih =>
    obtain ⟨hd, hr⟩ := List.forall_mem_cons.mp h
    rw [List.foldl_cons]
    by_cases hin : (p, leaf, k) ∈ r
    · exact ih hin hr _
    · obtain rfl : (p, leaf, k) = d := (List.mem_cons.mp hmem).resolve_right hin
      by_cases hother : ∃ d ∈ r, d.1 = p ∧ d.2.1 = leaf
      · obtain ⟨d, hdr, rfl, rfl⟩ := hother
        exact absurd (hr d hdr rfl rfl ▸ hdr) hin
      · rw [State.setDelays_other fun d hdr hp hl => hother ⟨d, hdr, hp, hl⟩, State.setDelay, State.port_updPort_self]
        exact Tab.find?_put_self _ _ _

/-- A port on which training failed dies (R57, R103). -/
def State.killPort (ports : BitVec 16) (s : State) (p : Nat) : State :=
  if ports.getLsbD p then s.updPort p fun x => { x with dead := true } else s

theorem State.killPort_frame (ports : BitVec 16) (s : State) (p : Nat) : s.killPort ports p = { s with ports := (s.killPort ports p).ports } := by
  unfold State.killPort; split <;> rfl

theorem State.killPort_port (ports : BitVec 16) (s : State) (p q : Nat) : (s.killPort ports p).port q =
    { s.port q with dead := (decide (q = p) && ports.getLsbD q) || (s.port q).dead } := by
  unfold State.killPort
  by_cases hq : q = p
  · subst hq
    cases h : ports.getLsbD q
    · simp
    · simp
  · split
    · simp [State.port_updPort_ne _ _ hq, hq]
    · simp [hq]

theorem State.killPorts_port (ports : BitVec 16) (l : List Nat) (s : State) (q : Nat) : (l.foldl (State.killPort ports) s).port q =
    { s.port q with dead := (decide (q ∈ l) && ports.getLsbD q) || (s.port q).dead } := by
  induction l generalizing s with
  | nil => simp
  | cons p r ih =>
    rw [List.foldl_cons, ih, State.killPort_port]
    by_cases hq : q = p <;> cases ports.getLsbD q <;> simp [hq]

/-- The device has joined its pod, and the ports on which training failed are dead (R42, R44, R57). -/
def State.joined (s : State) (ports : BitVec 16) (join : PodJoin) : State :=
  (List.range 16).foldl (State.killPort ports) ((s.updFw fun f => { f with darkPorts := ports }).joinPod join)

theorem tuningAndTrainingDone_eq {s : State} (ports : BitVec 16) (trained : BitVec 8) (join : PodJoin) (h : InPhase s 3) :
    exec (.tuningAndTrainingDone ports trained join) s =
      if trained = 0xFF then .next ((s.joined ports join).updFw fun f => { f with phase := 4, tuned := true })
      else .next ((s.joined ports join).bringupFail 4) :=
  (exec_tuningAndTrainingDone s ports trained join).trans (if_neg (by simp [State.inPhase_of_inPhase h]))

/-- Beside the ports, the join touches the pod's number and size and the list of dark ports. -/
theorem State.joined_keeps (s : State) (ports : BitVec 16) (join : PodJoin) : (s.joined ports join).mem = s.mem ∧
    (s.joined ports join).fw = { s.fw with darkPorts := ports } ∧
    (s.joined ports join).sched = { s.sched with podNumber := join.number.val, podSize := some join.size } := by
  rw [State.joined, State.foldl_ports_frame (State.killPort_frame ports), State.joinPod,
    State.foldl_ports_frame fun u d => State.updPort_frame u d.1 fun x => { x with delays := x.delays.put d.2.1 d.2.2 }]
  exact ⟨rfl, rfl, rfl⟩

/-- The path delays that the ports of a device have after some measurements (R44). -/
theorem State.joined_delays (s : State) (ports : BitVec 16) (join : PodJoin) (p : Nat) : ((s.joined ports join).port p).delays =
    ((join.delays.foldl State.setDelay (s.updFw fun f => { f with darkPorts := ports })).port p).delays := by
  rw [State.joined, State.killPorts_port]; rfl

theorem State.joined_port (s : State) (ports : BitVec 16) (join : PodJoin) (p : Fin 16) : (s.joined ports join).port p.val =
    { s.port p.val with dead := ports.getLsbD p.val || (s.port p.val).dead, delays := ((s.joined ports join).port p.val).delays } := by
  have hdelays : ((s.updFw fun f => { f with darkPorts := ports }).joinPod join).port p.val =
      { s.port p.val with delays := (((s.updFw fun f => { f with darkPorts := ports }).joinPod join).port p.val).delays } :=
    State.setDelays_port join.delays (s.updFw fun f => { f with darkPorts := ports }) p.val
  have hp : decide (p.val ∈ List.range 16) = true := decide_eq_true (List.mem_range.mpr p.isLt)
  rw [State.joined, State.killPorts_port, hdelays, hp, Bool.true_and]

/-! ### Phase 5 (R103 to R106) -/

theorem memoryInitDone_early {s : State} (ue : Bool) (h : s.gtc < s.initEnd) : exec (.memoryInitDone ue) s = .next s :=
  (exec_memoryInitDone s ue).trans (if_pos (by simp [h]))

/-- HBM after phase 5 has written it: every byte reads 0, and none is marked. -/
def State.zeroedHbm (s : State) : State :=
  { s with mem := Mem.clear s.mem 0 hbmEnd, poison := s.poison.filter fun e => decide (hbmEnd ≤ e.1) }

theorem memoryInitDone_eq {s : State} (ue : Bool) (hp : InPhase s 5) (h : s.initEnd ≤ s.gtc) : exec (.memoryInitDone ue) s =
    if ue = true then .next (s.zeroedHbm.bringupFail 5) else .next (s.zeroedHbm.updFw fun f => { f with phase := 6, ready := true }) :=
  (exec_memoryInitDone s ue).trans (if_neg (by simp [State.inPhase_of_inPhase hp, Nat.not_lt.mpr h]))

theorem State.byteAt_zeroedHbm {s : State} (h : s.MemOk) (a : Nat) : s.zeroedHbm.byteAt a = if a < 2 ^ 39 then 0 else s.byteAt a := by
  refine (Mem.read_clear 0 hbmEnd h a).trans ?_
  simp only [hbmEnd, Nat.zero_le, true_and, Nat.zero_add]; rfl

theorem Tab.find?_filter_dropped {α : Type} (t : Tab α) (q : Nat → Bool) {k : Nat} (h : q k = false) :
    Tab.find? (t.filter fun e => q e.1) k = none := by
  induction t with
  | nil => rfl
  | cons e r ih =>
    obtain ⟨j, b⟩ := e
    cases hj : q j
    · rw [List.filter_cons_of_neg (by simp [hj]), ih]
    · have hjk : j ≠ k := fun he => by rw [he, h] at hj; exact Bool.false_ne_true hj
      rw [List.filter_cons_of_pos (by simp [hj])]
      simp only [Tab.find?, hjk, if_false, ih]

theorem State.markAt_zeroedHbm (s : State) {a : Nat} (h : a < 2 ^ 39) : s.zeroedHbm.markAt a = none :=
  Tab.find?_filter_dropped s.poison (fun k => decide (hbmEnd ≤ k)) (decide_eq_false (Nat.not_le.mpr h))

/-- Phase 5 ends by its bound (R103). -/
theorem State.initEnd_le (s : State) : s.initEnd ≤ s.fw.phaseAt + 37978112 := Nat.min_le_right _ _

theorem State.inPhase_iff {s : State} {p : Nat} : s.inPhase p = true ↔ InPhase s p := by
  simp [State.inPhase, State.live, InPhase, and_assoc]

theorem State.initDue_iff {s : State} : s.initDue = true ↔ InPhase s 5 ∧ s.time.counting = true ∧ s.initEnd ≤ s.gtc := by
  simp [State.initDue, State.inPhase_iff, and_assoc]

/-- Settles O43: phase by phase what ends it, the failures with their codes, and the end of phase 5 by its bound. -/
theorem bringUp : Obligations.BringUp := by
  unfold Obligations.BringUp
  refine ⟨?_, ?_, ?_, ?_, ?_, ?_, fun s => bringupPhaseTimeout_early, fun s => ⟨s.initEnd_le, State.initDue_iff⟩⟩
  · intro s hp
    have hboot := romBoot_eq hp
    refine ⟨fun h3 => ⟨_, hboot.trans (if_pos h3), State.bringupFail_failed _ 1⟩, fun h2 => hboot.trans ?_, fun hlow => ?_⟩
    · exact (if_neg (by omega)).trans (if_pos h2)
    · replace hboot := hboot.trans ((if_neg (by omega)).trans (if_neg (by omega)))
      by_cases hfirst : s.imageValid (slotBase (xor s.fw.activeSlot (decide (s.pkg.strap.toNat % 4 = 1)))) = true
      · refine ⟨_, hboot.trans (if_pos hfirst), ?_⟩
        rw [if_pos hfirst]; rfl
      · by_cases hother : s.imageValid (slotBase !(xor s.fw.activeSlot (decide (s.pkg.strap.toNat % 4 = 1)))) = true
        · refine ⟨_, hboot.trans ((if_neg hfirst).trans (if_pos hother)), ?_⟩
          rw [if_neg hfirst, if_pos hother]; rfl
        · refine ⟨_, hboot.trans ((if_neg hfirst).trans (if_neg hother)), ?_⟩
          rw [if_neg hfirst, if_neg hother]; exact State.bringupFail_failed _ 2
  · exact fun s hp => (exec_pllLock s).trans (congrArg _ (if_pos (State.inPhase_of_inPhase hp)))
  · intro s ports trained join hp
    have heq := tuningAndTrainingDone_eq ports trained join hp
    obtain ⟨-, -, hphase, hfail⟩ := hp
    obtain ⟨hmem, hfw, hsched⟩ := s.joined_keeps ports join
    have hdark : (s.joined ports join).fw.darkPorts = ports := by rw [hfw]
    replace hphase : (s.joined ports join).fw.phase = 3 := by rw [hfw]; exact hphase
    replace hfail : (s.joined ports join).fw.fail = false := by rw [hfw]; exact hfail
    have hport := s.joined_port ports join
    have hother : ∀ p l, (∀ d ∈ join.delays, d.1 = p → d.2.1 ≠ l) →
        ((s.joined ports join).port p).delays.find? l = (s.port p).delays.find? l := fun p l h => by
      rw [State.joined_delays, State.setDelays_other h]; rfl
    have hagreed : ∀ p l k, (p, l, k) ∈ join.delays → (∀ d ∈ join.delays, d.1 = p → d.2.1 = l → d.2.2 = k) →
        ((s.joined ports join).port p).delays.find? l = some k := fun p l k hmem h => by
      rw [State.joined_delays, State.setDelays_agreed hmem h]
    generalize s.joined ports join = u at heq hmem hsched hdark hphase hfail hport hother hagreed
    by_cases htrained : trained = 0xFF
    · exact ⟨_, heq.trans (if_pos htrained), hdark, hmem, hsched, hport, hother, hagreed,
        fun _ => ⟨rfl, rfl, hfail⟩, fun h => absurd htrained h⟩
    · exact ⟨_, heq.trans (if_neg htrained), hdark, hmem, hsched, hport, hother, hagreed,
        fun h => absurd h htrained, fun _ => ⟨hphase, rfl, rfl, rfl⟩⟩
  · intro s hp
    have hgo : ¬ (!s.inPhase 4) = true := by simp [State.inPhase_of_inPhase hp]
    have heq := (exec_gtcDisciplineTimeout s).trans (if_neg hgo)
    exact ⟨fun hc => heq.trans (if_pos hc), fun hc => heq.trans (if_neg (Bool.eq_false_iff.mp hc))⟩
  · intro s ue hp hok
    refine ⟨memoryInitDone_early ue, fun h => ?_⟩
    have heq := memoryInitDone_eq ue hp h
    obtain ⟨-, -, hphase, hfail⟩ := hp
    cases ue
    · exact ⟨_, heq, State.byteAt_zeroedHbm hok, fun a => s.markAt_zeroedHbm, fun _ => ⟨rfl, rfl, hfail⟩, fun h => absurd h (by decide)⟩
    · exact ⟨_, heq, State.byteAt_zeroedHbm hok, fun a => s.markAt_zeroedHbm, fun h => absurd h (by decide), fun _ => ⟨hphase, rfl, rfl, rfl, rfl⟩⟩
  · intro s e he hp hrec h5
    exact ⟨_, bringupPhaseTimeout_failed e.1 hp hrec he h5, State.bringupFail_failed s e.2⟩

end Sys2Proof.Machine
end

section
/-! SUPPORT. What a write that takes effect touches, and what the latest write of a tick leaves (R50, R190, R192, R334): the layer on which the
statements about bundles and records rest. -/

namespace Sys2Proof.Machine

/-! ### Warps that stay at their places -/

/-- A warp's grid, its start and its failed commands are the same. -/
def Warp.SamePlace (w u : Warp) : Prop := u.grid = w.grid ∧ u.start = w.start ∧ u.failed = w.failed

/-- The warps of the two states have the same keys, and each is at its place with the same failed commands. -/
def State.SameWarps (s t : State) : Prop :=
  t.warps.map (·.1) = s.warps.map (·.1) ∧ ∀ k w, s.warp? k = some w → ∃ u, t.warp? k = some u ∧ w.SamePlace u

theorem State.SameWarps.of_eq {s t : State} (h : t.warps = s.warps) : s.SameWarps t :=
  ⟨congrArg _ h, fun k w hw => ⟨w, (congrArg (Tab.find? · k) h).trans hw, rfl, rfl, rfl⟩⟩

theorem State.SameWarps.trans {s t u : State} (h : s.SameWarps t) (h' : t.SameWarps u) : s.SameWarps u := by
  obtain ⟨hkeys, hw⟩ := h
  obtain ⟨hkeys', hw'⟩ := h'
  refine ⟨hkeys'.trans hkeys, fun k w hk => ?_⟩
  obtain ⟨v, hv, hgrid, hstart, hfailed⟩ := hw k w hk
  obtain ⟨u, hu, hgrid', hstart', hfailed'⟩ := hw' k v hv
  exact ⟨u, hu, hgrid'.trans hgrid, hstart'.trans hstart, hfailed'.trans hfailed⟩

theorem Tab.keys_modify {α : Type} (t : Tab α) (k : Nat) (f : α → α) : (t.modify k f).map (·.1) = t.map (·.1) := by
  unfold Tab.modify
  rw [List.map_map]
  refine List.map_congr_left fun e _ => ?_
  dsimp only [Function.comp]
  split <;> rfl

theorem State.sameWarps_updWarp (s : State) (key : Nat) {f : Warp → Warp} (hf : ∀ w : Warp, w.SamePlace (f w)) : s.SameWarps (s.updWarp key f) := by
  refine ⟨Tab.keys_modify _ _ _, fun k w hw => ?_⟩
  by_cases hk : k = key
  · subst hk
    exact ⟨f w, by rw [State.warp?_updWarp_self, hw]; rfl, hf w⟩
  · exact ⟨w, (State.warp?_updWarp_ne s f hk).trans hw, rfl, rfl, rfl⟩

theorem Warp.deliver_samePlace (w : Warp) (id : Nat) (v : RVal) : w.SamePlace (w.deliver id v) := by
  unfold Warp.deliver; dsimp only; split <;> exact ⟨rfl, rfl, rfl⟩

theorem Warp.raiseBy_samePlace (w : Warp) (issue now scope wct : Nat) : w.SamePlace (w.raiseBy issue now scope wct) := by
  unfold Warp.raiseBy; split <;> exact ⟨rfl, rfl, rfl⟩

theorem State.sameWarps_cmdWarp (s : State) (c : EngCmd) {f : Warp → Warp} (hf : ∀ w : Warp, w.SamePlace (f w)) : s.SameWarps (s.cmdWarp c f) :=
  s.sameWarps_updWarp c.warp fun w => by
    split
    · exact hf w
    · exact ⟨rfl, rfl, rfl⟩

/-- The warp of a command that is still at its place is changed. -/
theorem State.warp?_cmdWarp {s : State} {c : EngCmd} {w : Warp} (f : Warp → Warp) (hw : s.warp? c.warp = some w) (hgrid : w.grid = c.grid)
    (hstart : w.start = c.inst) : (s.cmdWarp c f).warp? c.warp = some (f w) := by
  refine (State.warp?_updWarp_self s c.warp _).trans ?_
  rw [hw]
  exact congrArg some (if_pos ⟨hgrid, hstart⟩)

/-! ### Writes touch memory and what depends on it -/

/-- Between the states lie writes alone: they change memory, its marks, the landings of warps, the data of records, and what a tick keeps of its
writes. -/
def State.WriteOnly (s t : State) : Prop :=
  (∃ m p w r h b k a, t = { s with mem := m, poison := p, warps := w, recs := r, hist := h, base := b, hbm := k, applied := a }) ∧
  s.SameWarps t ∧ t.recs.map (·.desc) = s.recs.map (·.desc)

theorem State.WriteOnly.refl (s : State) : s.WriteOnly s := ⟨⟨_, _, _, _, _, _, _, _, rfl⟩, .of_eq rfl, rfl⟩

theorem State.WriteOnly.trans {s t u : State} (h : s.WriteOnly t) (h' : t.WriteOnly u) : s.WriteOnly u := by
  obtain ⟨hframe, hwarps, hrecs⟩ := h
  obtain ⟨hframe', hwarps', hrecs'⟩ := h'
  refine ⟨?_, hwarps.trans hwarps', hrecs'.trans hrecs⟩
  obtain ⟨_, _, _, _, _, _, _, _, rfl⟩ := hframe
  obtain ⟨_, _, _, _, _, _, _, _, rfl⟩ := hframe'
  exact ⟨_, _, _, _, _, _, _, _, rfl⟩

theorem State.writeOnly_foldl {α : Type} (f : State → α → State) (hf : ∀ (s : State) x, s.WriteOnly (f s x)) (l : List α) (s : State) :
    s.WriteOnly (l.foldl f s) :=
  List.foldlRecOn (motive := fun t : State => s.WriteOnly t) l f (State.WriteOnly.refl s) fun t ht x _ => ht.trans (hf t x)

theorem State.putByte_writeOnly (s : State) (a : Nat) (b : Byte) (m : Option MCls) : s.WriteOnly (s.putByte a b m) :=
  ⟨⟨_, _, _, _, _, _, _, _, rfl⟩, .of_eq rfl, rfl⟩

theorem State.putCells_writeOnly (s : State) (cs : List (Nat × Byte × Option MCls)) : s.WriteOnly (s.putCells cs) :=
  State.writeOnly_foldl _ (fun u (c : Nat × Byte × Option MCls) => u.putByte_writeOnly c.1 c.2.1 c.2.2) cs s

theorem State.keepBase_writeOnly (s : State) (as : List Nat) : s.WriteOnly (s.keepBase as) := ⟨⟨_, _, _, _, _, _, _, _, rfl⟩, .of_eq rfl, rfl⟩

theorem State.remember_writeOnly (s : State) (as : List Nat) : s.WriteOnly (s.remember as) := by
  unfold State.remember; dsimp only
  split
  · exact State.WriteOnly.refl s
  · exact ⟨⟨_, _, _, _, _, _, _, _, rfl⟩, .of_eq rfl, rfl⟩

theorem State.sawBad_writeOnly (s : State) (as : List Nat) : s.WriteOnly (s.sawBad as) :=
  List.foldlRecOn (motive := fun t : State => s.WriteOnly t) _ _ (State.WriteOnly.refl s) fun _ ht _ _ =>
    ht.trans ⟨⟨_, _, _, _, _, _, _, _, rfl⟩, .of_eq rfl, rfl⟩

theorem State.deliver_writeOnly (s : State) (k id : Nat) (v : RVal) : s.WriteOnly (s.deliver k id v) :=
  ⟨⟨_, _, _, _, _, _, _, _, rfl⟩, s.sameWarps_updWarp k fun w => w.deliver_samePlace id v, rfl⟩

theorem State.fillAnswer_writeOnly (s : State) (id : Nat) (old : Word) (m : Option MCls) : s.WriteOnly (s.fillAnswer id old m) := by
  refine ⟨⟨_, _, _, _, _, _, _, _, rfl⟩, .of_eq rfl, (List.map_map ..).trans (List.map_congr_left fun r _ => ?_)⟩
  dsimp only [Function.comp]
  split <;> rfl

theorem State.atom_writeOnly (s : State) (a : Atom) : s.WriteOnly (s.atom a).2.2 :=
  ((s.remember_writeOnly a.addrs).trans (State.sawBad_writeOnly _ a.addrs)).trans (State.putCells_writeOnly _ _)

theorem State.atoms_writeOnly (s : State) (l : List Atom) : s.WriteOnly (s.atoms l).2.2 := by
  unfold State.atoms
  generalize ([] : Tab Word) = o
  generalize ([] : Tab MCls) = m
  induction l generalizing s o m with
  | nil => exact State.WriteOnly.refl s
  | cons a r ih => exact (s.atom_writeOnly a).trans (ih _ _ _)

theorem State.addTo_writeOnly (s : State) (a inc : Nat) : s.WriteOnly (s.addTo a inc) :=
  ((s.remember_writeOnly _).trans (State.sawBad_writeOnly _ _)).trans (State.putCells_writeOnly _ _)

theorem State.applyWrite_writeOnly (s : State) (w : PWrite) : s.WriteOnly (s.applyWrite w) := by
  have hcells : s.WriteOnly (w.bits.foldl State.putBits
      (((s.keepBase w.addrs).remember (w.cells.map (·.1) ++ w.bits.map (·.1))).putCells w.cells)) :=
    (((s.keepBase_writeOnly _).trans (State.remember_writeOnly _ _)).trans (State.putCells_writeOnly _ _)).trans
      (State.writeOnly_foldl _ (fun u c => u.putByte_writeOnly _ _ _) _ _)
  have hatoms := hcells.trans (State.atoms_writeOnly _ w.atoms)
  unfold State.applyWrite
  dsimp only
  cases w.add with
  | none =>
    cases w.ret with
    | none => exact hatoms
    | landing k id => exact hatoms.trans (State.deliver_writeOnly _ _ _ _)
    | answer id => exact hatoms.trans (State.fillAnswer_writeOnly _ _ _ _)
  | some e =>
    have hadd := hatoms.trans (State.addTo_writeOnly _ e.1 e.2)
    cases w.ret with
    | none => exact hadd
    | landing k id => exact hadd.trans (State.deliver_writeOnly _ _ _ _)
    | answer id => exact hadd.trans (State.fillAnswer_writeOnly _ _ _ _)

theorem State.redo_writeOnly (s : State) : s.WriteOnly s.redo := by
  refine State.WriteOnly.trans ?_ (State.writeOnly_foldl _ State.applyWrite_writeOnly _ _)
  exact (s.putCells_writeOnly s.base).trans ⟨⟨_, _, _, _, _, _, _, _, rfl⟩, .of_eq rfl, rfl⟩

theorem State.noteApplied_writeOnly (s : State) (l : List PWrite) : s.WriteOnly { s with applied := l } :=
  ⟨⟨_, _, _, _, _, _, _, _, rfl⟩, .of_eq rfl, rfl⟩

theorem State.writeNow_writeOnly (s : State) (w : PWrite) : s.WriteOnly (s.writeNow w) := by
  unfold State.writeNow; dsimp only
  split
  · exact (s.noteApplied_writeOnly _).trans (State.redo_writeOnly _)
  · exact (s.applyWrite_writeOnly w).trans (State.noteApplied_writeOnly _ _)

/-! ### Cells of distinct addresses -/

/-- Where no two cells have one address, each is read back. -/
theorem State.putCells_read {s : State} {cs : List (Nat × Byte × Option MCls)} (h : s.MemOk) (hnd : (cs.map (·.1)).Nodup)
    {c : Nat × Byte × Option MCls} (hc : c ∈ cs) : (s.putCells cs).byteAt c.1 = c.2.1 ∧ (s.putCells cs).markAt c.1 = c.2.2 := by
  obtain ⟨pre, post, rfl⟩ := List.append_of_mem hc
  refine s.putCells_last pre post c.1 c.2.1 c.2.2 h fun d hd heq => ?_
  rw [List.map_append, List.map_cons] at hnd
  exact (List.nodup_cons.mp hnd.of_append_right).1 (heq ▸ List.mem_map_of_mem hd)

/-- Cells of distinct addresses, read back in their order. -/
theorem State.map_byteAt_putCells {s : State} {cs : List (Nat × Byte × Option MCls)} (h : s.MemOk) (hnd : (cs.map (·.1)).Nodup) :
    (cs.map (·.1)).map (s.putCells cs).byteAt = cs.map (·.2.1) :=
  (List.map_map ..).trans (List.map_congr_left fun _ hc => (State.putCells_read h hnd hc).1)

/-- Where all cells carry one mark, every byte of theirs is marked so. -/
theorem State.putCells_marked (s : State) {cs : List (Nat × Byte × Option MCls)} {m : Option MCls} (hm : ∀ c ∈ cs, c.2.2 = m) {a : Nat}
    (ha : a ∈ cs.map (·.1)) : (s.putCells cs).markAt a = m := by
  induction cs generalizing s with
  | nil => exact absurd ha List.not_mem_nil
  | cons c r ih =>
    obtain ⟨hc, hr⟩ := List.forall_mem_cons.mp hm
    by_cases har : a ∈ r.map (·.1)
    · exact ih _ hr har
    · obtain rfl : a = c.1 := (List.mem_cons.mp ha).resolve_right har
      have hnot : ∀ d ∈ r, d.1 ≠ c.1 := fun d hd heq => har (List.mem_map.mpr ⟨d, hd, heq⟩)
      exact (State.markAt_putCells_of_notMem r hnot).trans ((State.markAt_putByte_self s _ _ _).trans hc)

/-! ### The latest write of a tick -/

theorem State.SameMemory.trans {s t u : State} (h : s.SameMemory t) (h' : t.SameMemory u) : s.SameMemory u := by
  obtain ⟨hmem, hpoison, hwrites⟩ := h
  obtain ⟨hmem', hpoison', hwrites'⟩ := h'
  exact ⟨hmem'.trans hmem, hpoison'.trans hpoison, hwrites'.trans hwrites⟩

/-- No write of this tick that shares a byte with these comes after a write in write order (R190). -/
def State.Latest (s : State) (w : PWrite) : Prop := ∀ x ∈ s.applied, w.before x = true → ∀ a ∈ w.addrs, a ∉ x.addrs

/-- A write that comes behind the writes of its bytes takes effect on the state as it stands. -/
theorem State.writeNow_latest {s : State} {w : PWrite} (h : s.Latest w) :
    s.writeNow w = { s.applyWrite w with applied := (s.applyWrite w).applied ++ [w] } := by
  refine if_neg fun hany => ?_
  obtain ⟨x, hx, hboth⟩ := List.any_eq_true.mp hany
  obtain ⟨hbefore, hshare⟩ := Bool.and_eq_true_iff.mp hboth
  obtain ⟨a, hax, haw⟩ := List.any_eq_true.mp hshare
  exact h x hx hbefore a (List.contains_iff_mem.mp haw) hax

theorem State.writeNow_latest_keeps {s : State} {w : PWrite} (h : s.Latest w) : (s.applyWrite w).SameMemory (s.writeNow w) ∧
    (s.writeNow w).recs = (s.applyWrite w).recs ∧ (s.writeNow w).warps = (s.applyWrite w).warps := by
  rw [State.writeNow_latest h]
  exact ⟨⟨rfl, rfl, rfl⟩, rfl, rfl⟩

/-- A landing is behind every local write and every write of an earlier tick (R50, R190). -/
theorem State.latest_of_precede {s : State} {w : PWrite} (hwct : w.wct = s.gtc) (hcls : w.cls = 1) (h : Precede s w.addrs) : s.Latest w := by
  intro x hx hbefore a ha
  rw [PWrite.before_iff, hwct, hcls] at hbefore
  simp only [List.cons_lt_cons_iff] at hbefore
  rcases h x hx with hlt | ⟨heq, hlocal⟩ | hapart
  · omega
  · omega
  · exact hapart a ha

theorem State.remember_beside (s : State) (as : List Nat) : (s.remember as).recs = s.recs ∧ (s.remember as).warps = s.warps := by
  unfold State.remember; dsimp only; split <;> exact ⟨rfl, rfl⟩

/-- What a write of bytes alone leaves beside memory. -/
theorem State.applyWrite_bytesOnly_recs (s : State) {w : PWrite} (hw : w.BytesOnly) :
    (s.applyWrite w).recs = s.recs ∧ (s.applyWrite w).warps = s.warps := by
  obtain ⟨hatoms, hadd, hret, hbits⟩ := hw
  have heq : s.applyWrite w =
      ((s.keepBase w.addrs).remember (w.cells.map (·.1) ++ w.bits.map (·.1))).putCells w.cells := by
    unfold State.applyWrite; simp only [hatoms, hadd, hret, hbits]; rfl
  rw [heq, State.putCells_frame]
  exact State.remember_beside _ _

/-- A fabric write as the state holds it (R50). -/
def State.landing (s : State) (port pos : Nat) (cells : List (Nat × Byte × Option MCls)) : PWrite :=
  ⟨s.gtc, 1, port, pos, s.applied.length, cells, [], .none, none, none, 0, []⟩

/-- A landing behind the writes of its bytes writes its cells, and nothing else of memory, of its marks or of the records (R50). -/
theorem State.landWrite_latest {s : State} (port pos : Nat) {cells : List (Nat × Byte × Option MCls)} (h : Precede s (cells.map (·.1))) :
    (s.putCells cells).SameMemory (s.landWrite port pos cells) ∧ (s.landWrite port pos cells).recs = s.recs ∧
    (s.landWrite port pos cells).warps = s.warps := by
  have haddrs : (s.landing port pos cells).addrs = cells.map (·.1) := by simp [State.landing, PWrite.addrs]
  have hlatest : s.Latest (s.landing port pos cells) := State.latest_of_precede rfl rfl (haddrs ▸ h)
  have hbytes : (s.landing port pos cells).BytesOnly := ⟨rfl, rfl, rfl, rfl⟩
  obtain ⟨hrecs, hwarps⟩ := s.applyWrite_bytesOnly_recs hbytes
  obtain ⟨hsame, hrecs', hwarps'⟩ := State.writeNow_latest_keeps hlatest
  exact ⟨(s.applyWrite_bytesOnly hbytes).trans hsame, hrecs'.trans hrecs, hwarps'.trans hwarps⟩

/-- What a landing leaves, byte by byte. -/
theorem State.landWrite_read {s : State} (port pos : Nat) {cells : List (Nat × Byte × Option MCls)} (hok : s.MemOk)
    (h : Precede s (cells.map (·.1))) (hnd : (cells.map (·.1)).Nodup) :
    (∀ c ∈ cells, (s.landWrite port pos cells).byteAt c.1 = c.2.1 ∧ (s.landWrite port pos cells).markAt c.1 = c.2.2) ∧
    ∀ a, a ∉ cells.map (·.1) → (s.landWrite port pos cells).byteAt a = s.byteAt a ∧ (s.landWrite port pos cells).markAt a = s.markAt a := by
  obtain ⟨hsame, -, -⟩ := s.landWrite_latest port pos h
  refine ⟨fun c hc => ?_, fun a ha => ?_⟩
  · obtain ⟨hbyte, hmark⟩ := State.putCells_read hok hnd hc
    exact ⟨(hsame.byteAt c.1).trans hbyte, (hsame.markAt c.1).trans hmark⟩
  · have hnot : ∀ c ∈ cells, c.1 ≠ a := fun c hc heq => ha (heq ▸ List.mem_map_of_mem hc)
    exact ⟨(hsame.byteAt a).trans (State.byteAt_putCells_of_notMem cells hok hnot), (hsame.markAt a).trans (State.markAt_putCells_of_notMem cells hnot)⟩

/-! ### Spans -/

/-- The cells of a span of bytes from an address up, under one mark. -/
def spanCells (base n : Nat) (f : Nat → Byte) (m : Option MCls) : List (Nat × Byte × Option MCls) := (List.range n).map fun k => (base + k, f k, m)

theorem spanCells_addrs (base n : Nat) (f : Nat → Byte) (m : Option MCls) : (spanCells base n f m).map (·.1) = (List.range n).map (base + ·) :=
  List.map_map ..

theorem span_nodup (base n : Nat) : ((List.range n).map (base + ·)).Nodup :=
  List.nodup_range.map fun _ _ h => Nat.add_left_cancel h

theorem mem_span {base n a : Nat} : a ∈ (List.range n).map (base + ·) ↔ base ≤ a ∧ a < base + n := by
  simp only [List.mem_map, List.mem_range]
  refine ⟨?_, fun ⟨hlo, hhi⟩ => ⟨a - base, by omega, by omega⟩⟩
  rintro ⟨k, hk, rfl⟩
  omega

/-- In mode 0 a scratch byte lies at its address (R175, R176). -/
theorem scratchCell_mode0 (core a : Nat) : scratchCell core 0 a = scratchBase core + a := by
  simp [scratchCell, scratchLoc, scratchBank, skewK]
  omega

/-- What a landing of a span leaves: its bytes under its mark, and every other byte. -/
theorem State.landWrite_span {s : State} (port pos base n : Nat) (f : Nat → Byte) (m : Option MCls) (hok : s.MemOk)
    (h : Precede s ((List.range n).map (base + ·))) :
    (∀ k, k < n → (s.landWrite port pos (spanCells base n f m)).byteAt (base + k) = f k ∧
      (s.landWrite port pos (spanCells base n f m)).markAt (base + k) = m) ∧
    ∀ a, a < base ∨ base + n ≤ a → (s.landWrite port pos (spanCells base n f m)).byteAt a = s.byteAt a := by
  have haddrs := spanCells_addrs base n f m
  obtain ⟨hin, hout⟩ := State.landWrite_read port pos hok (haddrs ▸ h) (haddrs ▸ span_nodup base n)
  refine ⟨fun k hk => hin (base + k, f k, m) (List.mem_map.mpr ⟨k, List.mem_range.mpr hk, rfl⟩), fun a ha => (hout a ?_).1⟩
  rw [haddrs, mem_span]
  omega

end Sys2Proof.Machine
end

section
/-! SUPPORT. Request records (R54, R55, R191, R192, R213): which record does what, and what an answer carries. -/

namespace Sys2Proof
open Machine

/-- The record that sends an answer to the origin of another, to one of its cores (R54). -/
def FabRecord.back (r : FabRecord) (kind len dcore : Nat) : Nat := descOf kind 0 len r.odev r.ocore r.oq r.tag dcore 0

/-- The bytes that a record names here (R54, R55). -/
def FabRecord.span (r : FabRecord) (core n : Nat) : List Nat := (List.range n).map (scratchBase core + r.daddr + ·)

/-- The mark of what a record writes (R401). -/
def FabRecord.mark (r : FabRecord) : Option MCls := if r.poison then some .fabric else none

/-- The atomic operation that a record asks for (R54). -/
def FabRecord.atom (r : FabRecord) (core : Nat) : Atom :=
  ⟨0, r.span core 4, r.afn, wordOfNat (getLE r.data 0 4), wordOfNat (getLE r.data 4 4)⟩

/-- The function of the command that a reply answers (R54). -/
def FabRecord.replyFn (r : FabRecord) : Nat := if r.kind = 3 then 6 else 7

end Sys2Proof

namespace Sys2Proof.Machine

/-! ### Little-endian numbers -/

theorem leBytes_succ (n v : Nat) : leBytes (n + 1) v = BitVec.ofNat 8 v :: leBytes n (v / 256) := by
  simp only [leBytes, List.range_succ_eq_map, List.map_cons, List.map_map, Nat.mul_zero, Nat.pow_zero, Nat.div_one]
  refine congrArg _ (List.map_congr_left fun k _ => ?_)
  rw [Function.comp, Nat.div_div_eq_div_mul, Nat.mul_succ, Nat.pow_add, Nat.mul_comm (2 ^ (8 * k))]

theorem length_leBytes (n v : Nat) : (leBytes n v).length = n := by simp [leBytes]

theorem leNat_leBytes (n v : Nat) : leNat (leBytes n v) = v % 2 ^ (8 * n) := by
  induction n generalizing v with
  | zero => simp [leBytes, leNat, Nat.mod_one]
  | succ n ih =>
    rw [leBytes_succ, leNat, ih, BitVec.toNat_ofNat, Nat.mul_succ, Nat.pow_add, Nat.mul_comm (2 ^ (8 * n)), Nat.mod_mul]

theorem leNat_lt (bs : List Byte) : leNat bs < 2 ^ (8 * bs.length) := by
  induction bs with
  | nil => exact Nat.one_pos
  | cons b r ih =>
    have hb := b.isLt
    rw [leNat, List.length_cons, Nat.mul_succ, Nat.pow_add]
    omega

/-! ### Descriptors (R54) -/

theorem descOf_packed (kind len odev ocore oq tag dcore : Nat) : descOf kind 0 len odev ocore oq tag dcore 0 =
    packed [(124, 4, kind), (114, 7, (len / 16 - 1) % 2 ^ 7), (105, 9, odev % 2 ^ 9), (97, 8, ocore % 2 ^ 8), (93, 4, oq % 2 ^ 4),
      (77, 16, tag % 2 ^ 16), (32, 8, dcore % 2 ^ 8)] := by
  simp only [descOf, packed]; omega

theorem descOf_fitting {kind : Nat} (hkind : kind < 16) (len odev ocore oq tag dcore : Nat) : Fitting 128
    [(124, 4, kind), (114, 7, (len / 16 - 1) % 2 ^ 7), (105, 9, odev % 2 ^ 9), (97, 8, ocore % 2 ^ 8), (93, 4, oq % 2 ^ 4),
      (77, 16, tag % 2 ^ 16), (32, 8, dcore % 2 ^ 8)] := by
  simp only [Fitting, and_true]; omega

/-- The kind and the destination core of the record that answers another. -/
theorem descOf_fields {kind : Nat} (hkind : kind < 16) (len odev ocore oq tag dcore : Nat) :
    field (descOf kind 0 len odev ocore oq tag dcore 0) 124 4 = kind ∧
    field (descOf kind 0 len odev ocore oq tag dcore 0) 32 8 = dcore % 2 ^ 8 := by
  have hfit := descOf_fitting hkind len odev ocore oq tag dcore
  rw [descOf_packed]
  exact ⟨field_packed hfit (g := (124, 4, kind)) (by simp), field_packed hfit (g := (32, 8, dcore % 2 ^ 8)) (by simp)⟩

/-! ### Which record does what -/

theorem requestRecord_reset {s : State} (p : Fin 16) (r : FabRecord) (hl : s.live = false) : exec (.requestRecord p r) s = .next s :=
  (exec_requestRecord s p r).trans (congrArg _ (if_pos (by rw [hl]; rfl)))

theorem failureNotice_reset {s : State} (p : Fin 16) (dev : Nat) (r : FabRecord) (hl : s.live = false) :
    exec (.failureNotice p dev r) s = .next s :=
  (exec_failureNotice s p dev r).trans (congrArg _ (if_pos (by rw [hl]; rfl)))

theorem requestRecord_bad {s : State} (p : Fin 16) {r : FabRecord} (hl : s.live = true) (hbad : r.bad = true) :
    exec (.requestRecord p r) s = .next (s.updPort p.val fun x => { x with protoErr := true }) := by
  refine (exec_requestRecord s p r).trans (congrArg _ ((if_neg ?_).trans (if_pos hbad)))
  rw [hl]; decide

theorem range_scratchCells (core a n : Nat) : (List.range n).map (fun k => scratchCell core 0 (a + k)) = (List.range n).map (scratchBase core + a + ·) :=
  List.map_congr_left fun k _ => (scratchCell_mode0 core (a + k)).trans (Nat.add_assoc ..).symm

theorem zipIdx_span (base n : Nat) (f : Nat → Byte) (m : Option MCls) :
    (((List.range n).map (base + ·)).zipIdx.map fun a => (a.1, f a.2, m)) = spanCells base n f m := by
  refine List.ext_getElem (by simp [spanCells]) fun i h1 h2 => ?_
  simp [spanCells]

/-- R54, R55: a put, a get request or an atomic that a landing region holds is performed. -/
theorem requestRecord_performed {s : State} (p : Fin 16) {r : FabRecord} {g : Grid} (hl : s.live = true) (hbad : r.bad = false)
    (hk : r.kind = 1 ∨ r.kind = 2 ∨ r.kind = 4) (hal : ¬ (r.kind = 4 ∧ r.daddr % 4 ≠ 0))
    (hg : s.landGrid r.dcore r.daddr (if r.kind = 4 then 4 else r.len) = some g) : exec (.requestRecord p r) s = .next (
      let core := (s.tenant g.part).slotBase + r.dcore
      if r.kind = 1 then s.landWrite p.val r.pos (spanCells (scratchBase core + r.daddr) r.len (r.data.getD · 0) r.mark)
      else if r.kind = 2 then s.answerGet r.odev (r.back 3 r.len r.ocore) (r.span core r.len)
      else (s.answerAtom r.odev (r.back 5 16 r.ocore)).landAtom p.val r.pos (r.atom core) (s.fresh + 1)) := by
  rw [exec_requestRecord, execRequestRecord]
  simp only [hl, hbad, hk, hal, hg, range_scratchCells, Bool.not_true, Bool.false_eq_true, if_false, if_true]
  rcases hk with hk | hk | hk
  · simp only [hk, Nat.reduceEqDiff, if_true, if_false]
    rw [← zipIdx_span]; rfl
  · simp only [hk, Nat.reduceEqDiff, if_true, if_false]; rfl
  · simp only [hk, Nat.reduceEqDiff, if_true, if_false]; rfl

/-- R55: a put, a get request or an atomic outside the landing regions is answered with a failure notice. -/
theorem requestRecord_refused {s : State} (p : Fin 16) {r : FabRecord} (hl : s.live = true) (hbad : r.bad = false)
    (hk : r.kind = 1 ∨ r.kind = 2 ∨ r.kind = 4)
    (h : (r.kind = 4 ∧ r.daddr % 4 ≠ 0) ∨ s.landGrid r.dcore r.daddr (if r.kind = 4 then 4 else r.len) = none) :
    exec (.requestRecord p r) s = .next (s.answer r.odev (r.back 6 16 r.dcore) [] false) := by
  have hnone : (if r.kind = 4 ∧ r.daddr % 4 ≠ 0 then none else s.landGrid r.dcore r.daddr (if r.kind = 4 then 4 else r.len)) = none := by
    rcases h with h | h
    · exact if_pos h
    · rw [h]; exact ite_self none
  rw [exec_requestRecord, execRequestRecord]
  simp only [hl, hbad, hk, hnone, Bool.not_true, Bool.false_eq_true, if_false, if_true]
  rfl

theorem requestRecord_reply {s : State} (p : Fin 16) {r : FabRecord} {c : EngCmd} (hl : s.live = true) (hbad : r.bad = false)
    (hk : r.kind = 3 ∨ r.kind = 5) (hdev : r.odev = s.sched.podNumber) (hc : s.fabricCmd r.replyFn r.ocore r.oq r.tag = some c) :
    exec (.requestRecord p r) s = .next (s.replyLands c p.val r.pos r.data r.mark) := by
  have hreq : ¬ (r.kind = 1 ∨ r.kind = 2 ∨ r.kind = 4) := by omega
  rw [FabRecord.replyFn] at hc
  rw [exec_requestRecord, execRequestRecord]
  simp only [hl, hbad, hreq, hdev, hc, ne_eq, not_true, Bool.not_true, Bool.false_eq_true, if_false]
  rfl

theorem requestRecord_ignored {s : State} (p : Fin 16) {r : FabRecord} (hbad : r.bad = false) (hk : r.kind = 3 ∨ r.kind = 5)
    (h : r.odev ≠ s.sched.podNumber ∨ s.fabricCmd r.replyFn r.ocore r.oq r.tag = none) : exec (.requestRecord p r) s = .next s := by
  cases hl : s.live
  · exact requestRecord_reset p r hl
  · have hreq : ¬ (r.kind = 1 ∨ r.kind = 2 ∨ r.kind = 4) := by omega
    rw [FabRecord.replyFn] at h
    rw [exec_requestRecord, execRequestRecord]
    simp only [hl, hbad, hreq, Bool.not_true, Bool.false_eq_true, if_false]
    rcases h with h | h
    · rw [if_pos h]
    · rw [h]; exact congrArg _ (ite_self s)

/-! ### Atomics (R54, R192) -/

/-- The write of an atomic record, as the state holds it. -/
def State.landingAtom (s : State) (port pos : Nat) (a : Atom) (id : Nat) : PWrite :=
  ⟨s.gtc, 1, port, pos, s.applied.length, [], [a], .answer id, none, none, 0, []⟩

theorem State.landingAtom_addrs (s : State) (port pos : Nat) (a : Atom) (id : Nat) : (s.landingAtom port pos a id).addrs = a.addrs := by
  simp [State.landingAtom, PWrite.addrs]

/-- An atomic record's write: the atomic operation, and its old word in the reply record that waits. -/
theorem State.applyWrite_landingAtom (s : State) (port pos : Nat) {a : Atom} (id : Nat) (hlane : a.lane = 0) :
    s.applyWrite (s.landingAtom port pos a id) =
      ((s.keepBase a.addrs).atom a).2.2.fillAnswer id ((s.keepBase a.addrs).atom a).1 ((s.keepBase a.addrs).atom a).2.1 := by
  have hbase : s.keepBase (s.landingAtom port pos a id).addrs = s.keepBase a.addrs := by rw [State.landingAtom_addrs]
  unfold State.applyWrite
  rw [hbase]
  have hnone : (s.keepBase a.addrs).remember [] = s.keepBase a.addrs := rfl
  simp only [State.landingAtom, List.map_nil, List.append_nil, hnone, State.putCells, List.foldl_nil, State.atoms, List.foldl_cons, hlane,
    Tab.get_put_self]
  cases ((s.keepBase a.addrs).atom a).2.1 with
  | none => rfl
  | some c => simp only [Tab.find?_put_self]

/-- The word that an atomic operation works on (R339). -/
def State.atomWord (s : State) (a : Atom) : Word := wordOfNat (leNat (a.addrs.map s.byteAt))

/-- What an atomic operation of distinct bytes leaves: its new value there, and every other byte. -/
theorem State.atom_read {s : State} {a : Atom} (hok : s.MemOk) (hnd : a.addrs.Nodup) :
    a.addrs.map (s.atom a).2.2.byteAt = leBytes a.addrs.length (atomNew a.fn (s.atomWord a) a.opnd a.cmp).toNat ∧
    ∀ x, x ∉ a.addrs → (s.atom a).2.2.byteAt x = s.byteAt x := by
  have hmem : ((s.remember a.addrs).sawBad a.addrs).mem = s.mem := (State.sawBad_mem _ _).trans (State.remember_mem _ _)
  generalize hcells : ((a.addrs.zip (leBytes a.addrs.length (atomNew a.fn (s.atomWord a) a.opnd a.cmp).toNat)).map
    fun c => (c.1, c.2, if a.fn = 6 then none else ((s.remember a.addrs).sawBad a.addrs).markAt c.1)) = cells
  have hstate : (s.atom a).2.2 = ((s.remember a.addrs).sawBad a.addrs).putCells cells := hcells ▸ rfl
  have haddrs : cells.map (·.1) = a.addrs := by
    rw [← hcells, List.map_map]
    exact List.map_fst_zip (by rw [length_leBytes])
  have hok' : ((s.remember a.addrs).sawBad a.addrs).MemOk := by rw [State.MemOk, hmem]; exact hok
  have hbytes : cells.map (·.2.1) = leBytes a.addrs.length (atomNew a.fn (s.atomWord a) a.opnd a.cmp).toNat := by
    rw [← hcells, List.map_map]
    exact List.map_snd_zip (by rw [length_leBytes])
  have hread := State.map_byteAt_putCells hok' (haddrs ▸ hnd)
  rw [haddrs, hbytes] at hread
  rw [hstate]
  refine ⟨hread, fun x hx => (State.byteAt_putCells_of_notMem cells hok' fun c hc heq => hx ?_).trans (congrArg (Mem.read · x) hmem)⟩
  exact haddrs ▸ heq ▸ List.mem_map_of_mem hc

/-- A reply record gets the old word; a record of another number stays. -/
theorem map_answer_last {l : List RecOut} {x : RecOut} {id : Nat} (f : RecOut → RecOut) (hx : x.cmd = none ∧ x.member = id)
    (hl : ∀ y ∈ l, ¬ (y.cmd.isNone = true ∧ y.member = id)) :
    ((l ++ [x]).map fun r => if r.cmd.isNone = true ∧ r.member = id then f r else r) = l ++ [f x] := by
  have hsame : (l.map fun r => if r.cmd.isNone = true ∧ r.member = id then f r else r) = l :=
    (List.map_congr_left fun y hy => if_neg (hl y hy)).trans (List.map_id l)
  rw [List.map_append, hsame, List.map_singleton, if_pos ⟨by rw [hx.1]; rfl, hx.2⟩]

theorem State.sawBad_recs (s : State) (as : List Nat) : (s.sawBad as).recs = s.recs :=
  List.foldlRecOn (motive := fun t : State => t.recs = s.recs) _ _ rfl fun _ ht _ _ => ht

theorem State.atom_recs (s : State) (a : Atom) : (s.atom a).2.2.recs = s.recs := by
  have h : (s.atom a).2.2.recs = (((s.remember a.addrs).sawBad a.addrs).putCells _).recs := rfl
  rw [h, State.putCells_frame]
  exact (State.sawBad_recs _ _).trans (s.remember_beside a.addrs).1

theorem firstMark_isSome {s : State} {as : List Nat} : (s.firstMark as).isSome = true ↔ ∃ a ∈ as, s.markAt a ≠ none := by
  rw [State.firstMark, List.findSome?_isSome_iff]
  simp [Option.isSome_iff_ne_none]

theorem State.landAtom_latest {s : State} (port pos : Nat) {a : Atom} (id : Nat) (hlane : a.lane = 0) (h : Precede s a.addrs) :
    (s.landAtom port pos a id).mem = ((s.keepBase a.addrs).atom a).2.2.mem ∧
    (s.landAtom port pos a id).recs = s.recs.map fun r => if r.cmd.isNone = true ∧ r.member = id then
      { r with data := leBytes 16 (s.atomWord a).toNat, poisoned := (s.firstMark a.addrs).isSome } else r := by
  have hlatest : s.Latest (s.landingAtom port pos a id) :=
    State.latest_of_precede rfl rfl ((s.landingAtom_addrs port pos a id).symm ▸ h)
  obtain ⟨⟨hmem, -, -⟩, hrecs, -⟩ := State.writeNow_latest_keeps hlatest
  have happly := State.applyWrite_landingAtom s port pos id hlane
  rw [happly] at hmem hrecs
  exact ⟨hmem, hrecs.trans (congrArg (List.map _) (State.atom_recs _ a))⟩

/-- What an atomic record leaves (R54, R192, R339): the new word, every other byte, and the reply with the old word. -/
theorem State.landAtom_read {s : State} (port pos : Nat) {a : Atom} (id : Nat) (hlane : a.lane = 0) (hlen : a.addrs.length = 4) (hok : s.MemOk)
    (hnd : a.addrs.Nodup) (h : Precede s a.addrs) :
    (s.landAtom port pos a id).MemOk ∧ (s.landAtom port pos a id).atomWord a = atomNew a.fn (s.atomWord a) a.opnd a.cmp ∧
    ∀ x, x ∉ a.addrs → (s.landAtom port pos a id).byteAt x = s.byteAt x := by
  obtain ⟨hmem, -⟩ := s.landAtom_latest port pos id hlane h
  have hread := State.atom_read (s := s.keepBase a.addrs) hok hnd
  have hbyte : ∀ x, (s.landAtom port pos a id).byteAt x = ((s.keepBase a.addrs).atom a).2.2.byteAt x := fun x => congrArg (Mem.read · x) hmem
  refine ⟨State.writeNow_wf _ hok, ?_, fun x hx => (hbyte x).trans (hread.2 x hx)⟩
  have hword : (s.keepBase a.addrs).atomWord a = s.atomWord a := rfl
  rw [State.atomWord, List.map_congr_left fun x _ => hbyte x, hread.1, hlen, leNat_leBytes, hword, wordOfNat]
  exact BitVec.eq_of_toNat_eq (by simpa using (atomNew a.fn (s.atomWord a) a.opnd a.cmp).isLt)

/-! ### The ends of commands (R193, R213) -/

theorem State.countNow_uncounted {s : State} {ord : Nat} (h : ∀ c, s.cmdsE.find? ord = some c → c.inc = 0) : s.countNow ord = s := by
  unfold State.countNow
  cases hc : s.cmdsE.find? ord with
  | none => rfl
  | some c =>
    dsimp only
    split
    · exact if_pos (.inl (h c hc))
    · rfl

@[simp] theorem State.find?_updCmd (s : State) (ord : Nat) (f : EngCmd → EngCmd) :
    (s.updCmd ord f).cmdsE.find? ord = (s.cmdsE.find? ord).map f := Tab.find?_modify_self s.cmdsE ord f

/-- A command is marked finished. -/
def State.finished (s : State) (ord : Nat) : State := s.updCmd ord fun c => { c with finished := true }

/-- What the finish of a command can do (R218): nothing, the mark that it is finished, and a fault handed to its warp. -/
theorem State.doneCmd_cases {s : State} {ord : Nat} {c : EngCmd} (hc : s.cmdsE.find? ord = some c) :
    s.doneCmd ord = s ∨ s.doneCmd ord = s.finished ord ∨
    ∃ f : Warp → Warp, (∀ w : Warp, w.SamePlace (f w)) ∧ s.doneCmd ord = (s.finished ord).cmdWarp c f := by
  unfold State.doneCmd
  simp only [hc]
  split
  next d hd =>
    split
    · exact .inl rfl
    · split
      next m hm => exact .inr (.inr ⟨fun w => { w with faulted := w.faulted ++ [(d, m.1, m.2)] }, fun w => ⟨rfl, rfl, rfl⟩, rfl⟩)
      next => exact .inr (.inl rfl)
  next => exact .inl rfl

theorem State.doneCmd_keeps {s : State} {ord : Nat} {c : EngCmd} (hc : s.cmdsE.find? ord = some c) :
    (∃ e, (s.doneCmd ord).cmdsE.find? ord = some e ∧ e.done = c.done ∧ e.fault = c.fault) ∧ s.SameMemory (s.doneCmd ord) ∧
    s.SameWarps (s.doneCmd ord) := by
  have hfind : (s.finished ord).cmdsE.find? ord = some { c with finished := true } := by
    rw [State.finished, State.find?_updCmd, hc]; rfl
  have hsame : s.SameWarps (s.finished ord) := .of_eq rfl
  rcases State.doneCmd_cases hc with heq | heq | ⟨f, hf, heq⟩ <;> rw [heq]
  · exact ⟨⟨c, hc, rfl, rfl⟩, ⟨rfl, rfl, rfl⟩, .of_eq rfl⟩
  · exact ⟨⟨_, hfind, rfl, rfl⟩, ⟨rfl, rfl, rfl⟩, hsame⟩
  · exact ⟨⟨_, hfind, rfl, rfl⟩, ⟨rfl, rfl, rfl⟩, hsame.trans (State.sameWarps_cmdWarp _ c hf)⟩

/-- A command with its completion tick. -/
def EngCmd.endsAt (c : EngCmd) (t : Nat) : EngCmd := { (c.fixData t) with done := some t }

/-- The completion tick of a command is this one, and its warp's mark rises. -/
def State.endsNow (s : State) (ord : Nat) (c : EngCmd) (scope : Nat) : State :=
  (s.updCmd ord fun c => c.endsAt s.gtc).cmdWarp c fun w => w.raiseBy c.issue s.gtc scope s.gtc

/-- A command without a counter ends now (R193): its completion tick is this one, and memory stays. -/
theorem State.finishCmd_keeps {s : State} {ord : Nat} {c : EngCmd} (scope : Nat) (hc : s.cmdsE.find? ord = some c) (hdone : c.done = none)
    (hinc : c.inc = 0) :
    (∃ e, (s.finishCmd ord scope).cmdsE.find? ord = some e ∧ e.done = some s.gtc ∧ e.fault = c.fault) ∧
    s.SameMemory (s.finishCmd ord scope) ∧ s.SameWarps (s.finishCmd ord scope) := by
  have hfind : (s.endsNow ord c scope).cmdsE.find? ord = some (c.endsAt s.gtc) :=
    (s.find?_updCmd ord fun c => c.endsAt s.gtc).trans (by rw [hc]; rfl)
  have hcount : (s.endsNow ord c scope).countNow ord = s.endsNow ord c scope := State.countNow_uncounted fun d hd => by
    obtain rfl := Option.some.inj (hd.symm.trans hfind); exact hinc
  have heq : s.finishCmd ord scope = (s.endsNow ord c scope).doneCmd ord := by
    have hopen : ¬ c.done.isSome = true := by rw [hdone]; exact Bool.false_ne_true
    unfold State.finishCmd
    simp only [hc]
    exact (if_neg hopen).trans (congrArg (State.doneCmd · ord) hcount)
  have hwarps : s.SameWarps (s.endsNow ord c scope) :=
    State.SameWarps.trans (t := s.updCmd ord fun c => c.endsAt s.gtc) (.of_eq rfl)
      (State.sameWarps_cmdWarp _ c fun w => w.raiseBy_samePlace c.issue s.gtc scope s.gtc)
  obtain ⟨hcmd, hmem, hw⟩ := State.doneCmd_keeps hfind
  rw [heq]
  exact ⟨hcmd, hmem, hwarps.trans hw⟩

/-! ### Replies (R193, R213, R218) -/

theorem State.fabricCmd_fn {s : State} {fn core queue tag : Nat} {c : EngCmd} (h : s.fabricCmd fn core queue tag = some c) : c.fn = fn := by
  have hpred := List.find?_some h
  simp only [Bool.and_eq_true, decide_eq_true_eq] at hpred
  exact hpred.1.1.1

/-- Where the data of a get or of an atomic lands at its origin (R175, R213). -/
theorem EngCmd.replyBytes_span (c : EngCmd) : c.replyBytes =
    if c.fn = 6 then (List.range (c.tpl.e 0)).map (scratchBase c.core + c.word 5 % 2 ^ 23 + ·)
    else (List.range 4).map (scratchBase c.core + c.word 7 % 2 ^ 23 + ·) := by
  simp only [EngCmd.replyBytes, EngCmd.landBytes, range_scratchCells, field_zero]

/-- What a landing changes beside memory: nothing of the commands. -/
theorem State.landWrite_writeOnly (s : State) (port pos : Nat) (cells : List (Nat × Byte × Option MCls)) :
    s.WriteOnly (s.landWrite port pos cells) := s.writeNow_writeOnly _

theorem State.WriteOnly.keeps {s t : State} (h : s.WriteOnly t) : t.gtc = s.gtc ∧ t.cmdsE = s.cmdsE ∧ t.sched = s.sched ∧ t.ports = s.ports ∧
    t.grids = s.grids ∧ t.tenants = s.tenants ∧ t.relays = s.relays ∧ t.pending = s.pending := by
  obtain ⟨⟨_, _, _, _, _, _, _, _, rfl⟩, -, -⟩ := h
  exact ⟨rfl, rfl, rfl, rfl, rfl, rfl, rfl, rfl⟩

/-- A reply lands, and its command ends (R193, R213). -/
theorem State.replyLands_span {s : State} {c : EngCmd} (port pos base n : Nat) (data : List Byte) (mark : Option MCls)
    (hspan : c.replyBytes = (List.range n).map (base + ·)) (hc : s.cmdsE.find? c.ord = some c) (hkilled : c.killed = false)
    (hdone : c.done = none) (hinc : c.inc = 0) (hok : s.MemOk) (h : Precede s ((List.range n).map (base + ·))) :
    (s.replyLands c port pos data mark).MemOk ∧
    (∃ e, (s.replyLands c port pos data mark).cmdsE.find? c.ord = some e ∧ e.done = some s.gtc ∧
      e.fault = (c.fault <|> mark.map fun x => (x, 0))) ∧
    (∀ k, k < n → (s.replyLands c port pos data mark).byteAt (base + k) = data.getD k 0 ∧
      (s.replyLands c port pos data mark).markAt (base + k) = mark) ∧
    ∀ a, a < base ∨ base + n ≤ a → (s.replyLands c port pos data mark).byteAt a = s.byteAt a := by
  have heq : s.replyLands c port pos data mark =
      ((s.landWrite port pos (spanCells base n (data.getD · 0) mark)).updCmd c.ord fun c => c.met mark).finishCmd c.ord 1 := by
    have hlive : ¬ c.killed = true := by rw [hkilled]; exact Bool.false_ne_true
    have hcells : (c.replyBytes.zipIdx.map fun a => (a.1, data.getD a.2 0, mark)) = spanCells base n (data.getD · 0) mark := by
      rw [hspan]; exact zipIdx_span base n (data.getD · 0) mark
    rw [State.replyLands, hcells]
    simp only [if_neg hlive]
  obtain ⟨hgtc, hcmds, -⟩ := (s.landWrite_writeOnly port pos (spanCells base n (data.getD · 0) mark)).keeps
  have hfind : ((s.landWrite port pos (spanCells base n (data.getD · 0) mark)).updCmd c.ord fun c => c.met mark).cmdsE.find? c.ord =
      some (c.met mark) := by rw [State.find?_updCmd, hcmds, hc]; rfl
  obtain ⟨hcmd, hmem, -⟩ := State.finishCmd_keeps (c := c.met mark) 1 hfind hdone hinc
  obtain ⟨hin, hout⟩ := State.landWrite_span port pos base n (data.getD · 0) mark hok h
  rw [← heq] at hcmd hmem
  refine ⟨?_, hgtc ▸ hcmd, fun k hk => ?_, fun a ha => (hmem.byteAt a).trans (hout a ha)⟩
  · rw [State.MemOk, hmem.1]; exact State.writeNow_wf _ hok
  · exact ⟨(hmem.byteAt _).trans (hin k hk).1, (hmem.markAt _).trans (hin k hk).2⟩

/-! ### Failure notices (R55, R56, R213) -/

theorem failureNotice_ignored {s : State} (p : Fin 16) (dev : Nat) {r : FabRecord}
    (h : r.odev ≠ s.sched.podNumber ∨ ∀ fn, s.fabricCmd fn r.ocore r.oq r.tag = none) : exec (.failureNotice p dev r) s = .next s := by
  rw [exec_failureNotice, execFailureNotice]
  rcases h with h | h
  · exact congrArg _ (if_pos (by rw [decide_eq_true h, Bool.or_true]))
  · simp only [h]; exact congrArg _ (ite_self s)

theorem failureNotice_put {s : State} (p : Fin 16) (dev : Nat) {r : FabRecord} {c : EngCmd} (hl : s.live = true)
    (hdev : r.odev = s.sched.podNumber) (h5 : s.fabricCmd 5 r.ocore r.oq r.tag = some c) :
    exec (.failureNotice p dev r) s = .next (s.markFailed c) := by
  rw [exec_failureNotice, execFailureNotice]
  simp [hl, hdev, h5]

theorem failureNotice_reply {s : State} (p : Fin 16) (dev : Nat) {r : FabRecord} {c : EngCmd} {fn : Nat} (hl : s.live = true)
    (hdev : r.odev = s.sched.podNumber) (hfn : fn = 6 ∨ fn = 7) (hbelow : ∀ f, 5 ≤ f → f < fn → s.fabricCmd f r.ocore r.oq r.tag = none)
    (hc : s.fabricCmd fn r.ocore r.oq r.tag = some c) : exec (.failureNotice p dev r) s = .next (s.replyFails c p.val r.pos) := by
  rw [exec_failureNotice, execFailureNotice]
  rcases hfn with rfl | rfl
  · simp [hl, hdev, hc, hbelow 5]
  · simp [hl, hdev, hc, hbelow 5, hbelow 6]

theorem failureNotice_branch {s : State} (p : Fin 16) (dev : Nat) {r : FabRecord} {c : EngCmd} (hl : s.live = true)
    (hdev : r.odev = s.sched.podNumber) (hbelow : ∀ f, 5 ≤ f → f < 8 → s.fabricCmd f r.ocore r.oq r.tag = none)
    (hc : s.fabricCmd 8 r.ocore r.oq r.tag = some c) : exec (.failureNotice p dev r) s = .next (
      s.updCmd c.ord fun c => { c with failMask := (c.membersAt dev r.dcore).foldl (fun m k => m ||| 2 ^ k) c.failMask }) := by
  rw [exec_failureNotice, execFailureNotice]
  simp [hl, hdev, hc, hbelow 5, hbelow 6, hbelow 7]

/-- A command marked failed: its warp remembers the tick (R55, R194). -/
theorem State.markFailed_warp {s : State} {c : EngCmd} {w : Warp} (hw : s.warp? c.warp = some w) (hgrid : w.grid = c.grid)
    (hstart : w.start = c.inst) : (s.markFailed c).warp? c.warp = some { w with failed := w.failed ++ [s.gtc] } :=
  State.warp?_cmdWarp _ hw hgrid hstart

theorem testBit_foldl_or (l : List Nat) (m k : Nat) : (l.foldl (fun m k => m ||| 2 ^ k) m).testBit k = (m.testBit k || decide (k ∈ l)) := by
  induction l generalizing m with
  | nil => simp
  | cons j r ih => rw [List.foldl_cons, ih, Nat.testBit_or, Nat.testBit_two_pow]; simp [Bool.or_assoc, eq_comm]

/-- The members of a multicast that a notice names, by their place in its list (R56). -/
theorem EngCmd.mem_membersAt (c : EngCmd) (dev dcore k : Nat) : decide (k ∈ c.membersAt dev dcore) =
    match c.idx[k]? with
    | some m => decide (field m 0 9 = dev ∧ field m 9 8 = dcore)
    | none => false := by
  have hmem : k ∈ c.membersAt dev dcore ↔ ∃ m, c.idx[k]? = some m ∧ field m 0 9 = dev ∧ field m 9 8 = dcore := by
    simp only [EngCmd.membersAt, List.mem_map, List.mem_filter, decide_eq_true_eq, Prod.exists]
    refine ⟨?_, fun ⟨m, hm, hd⟩ => ⟨m, k, ⟨List.mem_zipIdx_iff_getElem?.mpr hm, hd⟩, rfl⟩⟩
    rintro ⟨m, j, ⟨hm, hd⟩, rfl⟩
    exact ⟨m, List.mem_zipIdx_iff_getElem?.mp hm, hd⟩
  split
  next m hm => simp [hmem, hm]
  next hm => simp [hmem, hm]

/-- The bytes that a failed get or atomic leaves poisoned (R213). -/
def EngCmd.poisonCells (c : EngCmd) (d : Nat) : List (Nat × Byte × Option MCls) :=
  (c.replyBytes.zip (freeBytes c.replyBytes.length d)).map fun a => (a.1, a.2, some .fabric)

theorem EngCmd.poisonCells_addrs (c : EngCmd) (d : Nat) : (c.poisonCells d).map (·.1) = c.replyBytes := by
  rw [EngCmd.poisonCells, List.map_map]
  exact List.map_fst_zip (by simp [freeBytes])

theorem EngCmd.poisonCells_mark (c : EngCmd) (d : Nat) : ∀ e ∈ c.poisonCells d, e.2.2 = some .fabric := by
  intro e he
  obtain ⟨a, -, rfl⟩ := List.mem_map.mp he
  rfl

/-- The bytes of a command's reply are poisoned, and its warp remembers the failure. -/
def State.poisoned (s : State) (c : EngCmd) (port pos : Nat) : State :=
  ((s.drawn Config.draw).2.landWrite port pos (c.poisonCells (s.drawn Config.draw).1)).markFailed c

/-- A get or an atomic fails (R213): the bytes of its data are poisoned, its command is marked failed, and ends. -/
theorem State.replyFails_keeps {s : State} {c : EngCmd} (port pos : Nat) (hc : s.cmdsE.find? c.ord = some c) (hkilled : c.killed = false)
    (hdone : c.done = none) (hinc : c.inc = 0) (h : Precede s c.replyBytes) :
    (∃ e, (s.replyFails c port pos).cmdsE.find? c.ord = some e ∧ e.done = some s.gtc) ∧
    (∀ a ∈ c.replyBytes, (s.replyFails c port pos).markAt a = some .fabric) ∧
    ∀ w, s.warp? c.warp = some w → w.grid = c.grid → w.start = c.inst →
      ∃ v, (s.replyFails c port pos).warp? c.warp = some v ∧ s.gtc ∈ v.failed := by
  have heq : s.replyFails c port pos = (s.poisoned c port pos).finishCmd c.ord 1 := by
    have hlive : ¬ c.killed = true := by rw [hkilled]; exact Bool.false_ne_true
    unfold State.replyFails
    simp only [if_neg hlive]
    rfl
  have hprec : Precede (s.drawn Config.draw).2 ((c.poisonCells (s.drawn Config.draw).1).map (·.1)) := by
    rw [EngCmd.poisonCells_addrs]; exact h
  obtain ⟨hgtc, hcmds, -⟩ := State.WriteOnly.keeps
    (State.landWrite_writeOnly (s.drawn Config.draw).2 port pos (c.poisonCells (s.drawn Config.draw).1))
  obtain ⟨hsame, -, hwarps⟩ := State.landWrite_latest port pos hprec
  have hfind : (s.poisoned c port pos).cmdsE.find? c.ord = some c := (congrArg (Tab.find? · c.ord) hcmds).trans hc
  have hnow : (s.poisoned c port pos).gtc = s.gtc := hgtc
  obtain ⟨⟨e, he, hd, -⟩, hmem, -, hkept⟩ := State.finishCmd_keeps 1 hfind hdone hinc
  rw [← heq] at he hmem hkept
  refine ⟨⟨e, he, hnow ▸ hd⟩, fun a ha => (hmem.markAt a).trans ?_, fun w hw hgrid hstart => ?_⟩
  · exact (hsame.markAt a).trans (State.putCells_marked _ (c.poisonCells_mark _) ((c.poisonCells_addrs _).symm ▸ ha))
  · obtain ⟨v, hv, -, -, hfailed⟩ := hkept c.warp _
      (State.markFailed_warp ((congrArg (Tab.find? · c.warp) hwarps).trans hw) hgrid hstart)
    exact ⟨v, hv, by rw [hfailed, hgtc]; exact List.mem_append_right _ (List.mem_singleton.mpr rfl)⟩

/-! ### The end of a multicast (R56, R194) -/

/-- The write of a status word. -/
def State.statusWrite (s : State) (c : EngCmd) (w : Nat) (bs : List Byte) : PWrite :=
  c.pwrite s.gtc 0 ((c.spanBytes w 8).zip (bs.map fun b => (b, none))) [] none

theorem State.statusWord_eq {s : State} {c : EngCmd} (w : Nat) (bs : List Byte) (h : c.killed = false) :
    s.statusWord c w bs = s.writeNow (s.statusWrite c w bs) := if_neg (by rw [h]; exact Bool.false_ne_true)

/-- A status word whose bytes nothing else of the tick names reads as it was written. -/
theorem State.statusWord_read {s : State} {c : EngCmd} (w v : Nat) (hkilled : c.killed = false) (hok : s.MemOk) (hv : v < 2 ^ 64)
    (hnd : (c.spanBytes w 8).Nodup) (hapart : ∀ x ∈ s.applied, ∀ a ∈ c.spanBytes w 8, a ∉ x.addrs) :
    leNat ((c.spanBytes w 8).map (s.statusWord c w (leBytes 8 v)).byteAt) = v := by
  have hlen : (c.spanBytes w 8).length = 8 := by simp [EngCmd.spanBytes]
  have haddrs : (s.statusWrite c w (leBytes 8 v)).cells.map (·.1) = c.spanBytes w 8 := List.map_fst_zip (by simp [hlen, length_leBytes])
  have hwaddrs : (s.statusWrite c w (leBytes 8 v)).addrs = c.spanBytes w 8 := by
    rw [← haddrs]; simp [State.statusWrite, EngCmd.pwrite, PWrite.addrs]
  have hlatest : s.Latest (s.statusWrite c w (leBytes 8 v)) := fun x hx _ a ha => hapart x hx a (hwaddrs ▸ ha)
  obtain ⟨hsame, -, -⟩ := State.writeNow_latest_keeps hlatest
  have hbytes : (s.statusWrite c w (leBytes 8 v)).BytesOnly := ⟨rfl, rfl, rfl, rfl⟩
  have hcells : (s.statusWrite c w (leBytes 8 v)).cells.map (·.2.1) = leBytes 8 v := by
    have hsnd : ((c.spanBytes w 8).zip ((leBytes 8 v).map fun b => (b, (none : Option MCls)))).map (·.2) = (leBytes 8 v).map fun b => (b, none) :=
      List.map_snd_zip (by simp [hlen, length_leBytes])
    rw [State.statusWrite, EngCmd.pwrite, ← Function.comp_def Prod.fst, ← List.map_map, hsnd, List.map_map]
    exact List.map_id _
  have hread := State.map_byteAt_putCells hok (haddrs ▸ hnd)
  rw [haddrs, hcells] at hread
  have hword : (c.spanBytes w 8).map (s.statusWord c w (leBytes 8 v)).byteAt = leBytes 8 v := by
    rw [State.statusWord_eq w _ hkilled]
    exact (List.map_congr_left fun a _ => (hsame.byteAt a).trans ((s.applyWrite_bytesOnly hbytes).byteAt a)).trans hread
  rw [hword, leNat_leBytes]
  exact Nat.mod_eq_of_lt hv

theorem State.statusWord_writeOnly {s : State} {c : EngCmd} (w : Nat) (bs : List Byte) (h : c.killed = false) :
    s.WriteOnly (s.statusWord c w bs) := State.statusWord_eq w bs h ▸ s.writeNow_writeOnly _

/-- The status of a multicast: the mask of the members that failed (R56). -/
def EngCmd.status (c : EngCmd) : Nat := c.failMask % 2 ^ c.tpl.e 1

/-- The status word is written, and the command has resolved (R56). -/
def State.resolved (s : State) (c : EngCmd) : State := (s.statusWord c (c.word 6) (leBytes 8 c.status)).updCmd c.ord fun c => { c with mStart := 1 }

theorem multicastResolution_one {s : State} {c : EngCmd} (h : s.resolving = [c]) :
    exec .multicastResolution s = .next (if c.status = 0 then s.resolved c else (s.resolved c).markFailed c) := by
  rw [exec_multicastResolution, execMulticastResolution, h]; rfl

theorem State.resolved_keeps {s : State} {c : EngCmd} (hc : s.cmdsE.find? c.ord = some c) (hkilled : c.killed = false) (hok : s.MemOk) :
    (s.resolved c).MemOk ∧ (∃ e, (s.resolved c).cmdsE.find? c.ord = some e ∧ e.mStart = 1) ∧ s.SameWarps (s.resolved c) ∧
    (s.resolved c).gtc = s.gtc := by
  have honly := State.statusWord_writeOnly (s := s) (c.word 6) (leBytes 8 c.status) hkilled
  obtain ⟨hgtc, hcmds, -⟩ := honly.keeps
  obtain ⟨-, hwarps, -⟩ := honly
  refine ⟨?_, ⟨{ c with mStart := 1 }, ?_, rfl⟩, hwarps.trans (.of_eq rfl), hgtc⟩
  · show (s.statusWord c (c.word 6) (leBytes 8 c.status)).MemOk
    rw [State.statusWord_eq _ _ hkilled]
    exact State.writeNow_wf _ hok
  · rw [State.resolved, State.find?_updCmd, hcmds, hc]; rfl

/-! ### The clauses -/

theorem iminWord_eq (a b : Word) : iminWord a b = if a.toInt ≤ b.toInt then a else b := by
  unfold iminWord; split <;> split <;> first | rfl | omega

theorem imaxWord_eq (a b : Word) : imaxWord a b = if b.toInt ≤ a.toInt then a else b := by
  unfold imaxWord; split <;> split <;> first | rfl | omega

/-- R54, R339: the new word of an atomic, by its function. -/
theorem atomNew_eq (fn : Nat) (old b cmp : Word) : atomNew fn old b cmp = match fn with
    | 0 => old + b
    | 1 => if old.toInt ≤ b.toInt then old else b
    | 2 => if b.toInt ≤ old.toInt then old else b
    | 3 => old &&& b
    | 4 => old ||| b
    | 5 => old ^^^ b
    | 6 => b
    | _ => if old = cmp then b else old := by
  unfold atomNew
  simp only [iminWord_eq, imaxWord_eq] <;> rfl

theorem State.atomWord_record (s : State) (r : FabRecord) (core : Nat) : s.atomWord (r.atom core) =
    BitVec.ofNat 32 (leNat ((List.range 4).map fun k => s.byteAt (scratchBase core + r.daddr + k))) := by
  rw [State.atomWord, FabRecord.atom, FabRecord.span, List.map_map]; rfl

theorem State.atomWord_record_toNat (s : State) (r : FabRecord) (core : Nat) : (s.atomWord (r.atom core)).toNat =
    leNat ((List.range 4).map fun k => s.byteAt (scratchBase core + r.daddr + k)) := by
  have hlt := leNat_lt ((List.range 4).map fun k => s.byteAt (scratchBase core + r.daddr + k))
  rw [List.length_map, List.length_range] at hlt
  rw [State.atomWord_record, BitVec.toNat_ofNat, Nat.mod_eq_of_lt hlt]

theorem firstMark_span {s : State} {r : FabRecord} {core n : Nat} : (s.firstMark (r.span core n)).isSome = true ↔
    ∃ k, k < n ∧ s.markAt (scratchBase core + r.daddr + k) ≠ none := by
  rw [firstMark_isSome, FabRecord.span]
  simp only [List.mem_map, List.mem_range, exists_exists_and_eq_and]

/-- What an atomic record in a landing region leaves (R54, R192). -/
theorem atomicRecord_read {s : State} (port pos core dest desc : Nat) (r : FabRecord) (hok : s.MemOk)
    (h : Precede s ((List.range 4).map (scratchBase core + r.daddr + ·))) (hfresh : ∀ y ∈ s.recs, y.cmd = none → y.member ≤ s.fresh) :
    let t := (s.answerAtom dest desc).landAtom port pos (r.atom core) (s.fresh + 1)
    t.MemOk ∧ t.recs = s.recs ++ [⟨s.gtc + 200, dest, desc, leBytes 16 (s.atomWord (r.atom core)).toNat, (s.firstMark (r.atom core).addrs).isSome, none, s.fresh + 1, []⟩] ∧
    t.atomWord (r.atom core) = atomNew r.afn (s.atomWord (r.atom core)) (wordOfNat (getLE r.data 0 4)) (wordOfNat (getLE r.data 4 4)) ∧
    ∀ a, a < scratchBase core + r.daddr ∨ scratchBase core + r.daddr + 4 ≤ a → t.byteAt a = s.byteAt a := by
  intro t
  have hprec : Precede (s.answerAtom dest desc) (r.atom core).addrs := h
  obtain ⟨hwf, hword, hout⟩ := State.landAtom_read (s := s.answerAtom dest desc) port pos (a := r.atom core) (s.fresh + 1) rfl
    (by simp [FabRecord.atom, FabRecord.span]) hok (span_nodup _ 4) hprec
  obtain ⟨-, hrecs⟩ := State.landAtom_latest (s := s.answerAtom dest desc) port pos (a := r.atom core) (s.fresh + 1) rfl hprec
  refine ⟨hwf, hrecs.trans ?_, hword, fun a ha => hout a fun hin => ?_⟩
  · refine map_answer_last _ ⟨rfl, rfl⟩ fun y hy hboth => ?_
    have := hfresh y hy (Option.isNone_iff_eq_none.mp hboth.1)
    omega
  · have := mem_span.mp hin
    omega

theorem State.fetchGets_answer (s : State) {i : Nat} {r : RecOut} (h : s.recs[i]? = some r) : ∃ x : RecOut, s.fetchGets.recs[i]? = some x ∧
    (r.fetch = [] → x = r) ∧
    (r.fetch ≠ [] → x = { r with data := r.fetch.map s.byteAt, poisoned := x.poisoned, fetch := [] } ∧
      (x.poisoned = true ↔ ∃ a ∈ r.fetch, s.markAt a ≠ none)) := by
  have hget : s.fetchGets.recs[i]? = some (if r.fetch.isEmpty = true then r
      else { r with data := r.fetch.map s.byteAt, poisoned := (s.firstMark r.fetch).isSome, fetch := [] }) :=
    List.getElem?_map.trans (by rw [h]; rfl)
  by_cases he : r.fetch = []
  · exact ⟨r, hget.trans (congrArg some (if_pos (by rw [he]; rfl))), fun _ => rfl, fun hne => absurd he hne⟩
  · exact ⟨_, hget.trans (congrArg some (if_neg (by simpa using he))), fun h => absurd h he, fun _ => ⟨rfl, firstMark_isSome⟩⟩

/-- Settles O58: record by record what it does here, the answers of gets, the failure notices by the command they name, and the resolution of a
multicast. -/
theorem fabricRequests : Obligations.FabricRequests := by
  unfold Obligations.FabricRequests
  refine ⟨fun s p dev r hl => ⟨requestRecord_reset p r hl, failureNotice_reset p dev r hl⟩,
    fun s p r hl hbad => ⟨_, requestRecord_bad p hl hbad, rfl, State.port_updPort_self s p.val _⟩, ?_,
    fun s => ⟨rfl, List.length_map .., fun i r => s.fetchGets_answer⟩, ?_, ?_, fun s p r hbad hk h => requestRecord_ignored p hbad hk h,
    fun s p dev r h => failureNotice_ignored p dev h, ?_, ?_, ?_, ?_⟩
  · intro s p r g hl hbad hg
    have hdo := fun hk hal => requestRecord_performed p hl hbad hk hal hg
    refine ⟨fun hk hok hprec => ?_, fun hk => ?_, fun hk hal hok hprec hfresh => ?_⟩
    · obtain ⟨hin, hout⟩ := State.landWrite_span p.val r.pos _ r.len (r.data.getD · 0) r.mark hok hprec
      refine ⟨_, (hdo (.inl hk) fun h => by omega).trans (congrArg _ (if_pos hk)), State.writeNow_wf _ hok, ?_, hin, hout⟩
      exact (State.landWrite_latest p.val r.pos ((spanCells_addrs ..).symm ▸ hprec)).2.1
    · refine ⟨_, _, (hdo (.inr (.inl hk)) fun h => by omega).trans (congrArg _ ((if_neg (by omega)).trans (if_pos hk))), rfl, rfl, rfl, ?_, rfl⟩
      exact (descOf_fields (kind := 3) (by decide) r.len r.odev r.ocore r.oq r.tag r.ocore).1
    · obtain ⟨hwf, hrecs, hword, hout⟩ := atomicRecord_read p.val r.pos _ r.odev (r.back 5 16 r.ocore) r hok hprec hfresh
      refine ⟨_, _, (hdo (.inr (.inr hk)) fun h => h.2 hal).trans (congrArg _ ((if_neg (by omega)).trans (if_neg (by omega)))), hwf, hrecs, rfl, rfl,
        (descOf_fields (kind := 5) (by decide) 16 r.odev r.ocore r.oq r.tag r.ocore).1, ?_, ?_, ?_, hout⟩
      · rw [State.atomWord_record_toNat]
      · exact firstMark_span
      · rw [State.atomWord_record, State.atomWord_record] at hword
        exact hword.trans (atomNew_eq r.afn _ _ _)
  · intro s p r hl hbad hk h
    obtain ⟨hkind, hcore⟩ := descOf_fields (kind := 6) (by decide) 16 r.odev r.ocore r.oq r.tag r.dcore
    refine ⟨_, _, requestRecord_refused p hl hbad hk h, rfl, rfl, hkind, hcore.trans ?_, rfl, rfl⟩
    exact Nat.mod_eq_of_lt (Nat.mod_lt _ (by decide))
  · intro s p r c hl hbad hk hdev hc hfind hkilled hdone hok hinc n base hprec
    have hspan : c.replyBytes = (List.range n).map (base + ·) := by
      rw [c.replyBytes_span, State.fabricCmd_fn hc]
      rcases hk with hk | hk <;> simp [n, base, hk]
    obtain ⟨hwf, ⟨e, he, hd, hf⟩, hin, hout⟩ := State.replyLands_span p.val r.pos base n r.data r.mark hspan hfind hkilled hdone hinc hok hprec
    refine ⟨_, e, requestRecord_reply p hl hbad hk hdev hc, hwf, he, hd, hf.trans ?_, hin, hout⟩
    cases hp : r.poison <;> simp [FabRecord.mark, hp]
  · intro s p dev r c w hl hdev hc hw hgrid hstart
    exact ⟨_, _, failureNotice_put p dev hl hdev hc, rfl, State.markFailed_warp hw hgrid hstart, rfl⟩
  · intro s p dev r c fn hl hdev hfn hbelow hc hfind hdone hkilled hinc hprec
    obtain ⟨⟨e, he, hd⟩, hmark, hwarp⟩ := State.replyFails_keeps p.val r.pos hfind hkilled hdone hinc hprec
    exact ⟨_, e, failureNotice_reply p dev hl hdev hfn hbelow hc, he, hd, hmark, hwarp⟩
  · intro s p dev r c hl hdev hbelow hc hfind
    refine ⟨_, _, failureNotice_branch p dev hl hdev hbelow hc, rfl, by rw [State.find?_updCmd, hfind]; rfl, rfl, fun k => ?_⟩
    exact (testBit_foldl_or _ _ k).trans (congrArg _ (c.mem_membersAt dev r.dcore k))
  · intro s c hone hfind hkilled hok v
    obtain ⟨hwf, ⟨e, he, hstart⟩, ⟨hkeys, hplaces⟩, hgtc⟩ := State.resolved_keeps hfind hkilled hok
    have hread : v < 2 ^ 64 → (c.spanBytes (c.word 6) 8).Nodup → (∀ x ∈ s.applied, ∀ a ∈ c.spanBytes (c.word 6) 8, a ∉ x.addrs) →
        leNat ((c.spanBytes (c.word 6) 8).map (s.resolved c).byteAt) = v := State.statusWord_read (c.word 6) v hkilled hok
    by_cases hv : v = 0
    · refine ⟨_, e, (multicastResolution_one hone).trans (congrArg _ (if_pos hv)), hwf, he, hstart, hread,
        fun _ => ⟨hkeys, fun k w hw => ?_⟩, fun w hne => absurd hv hne⟩
      obtain ⟨u, hu, -, -, hfailed⟩ := hplaces k w hw
      exact ⟨u, hu, hfailed⟩
    · refine ⟨_, e, (multicastResolution_one hone).trans (congrArg _ (if_neg hv)), hwf, he, hstart, hread,
        fun h => absurd h hv, fun w _ hw hgrid hinst => ?_⟩
      obtain ⟨u, hu, hgrid', hinst', -⟩ := hplaces c.warp w hw
      refine ⟨_, State.markFailed_warp hu (hgrid'.trans hgrid) (hinst'.trans hinst), ?_⟩
      rw [← hgtc]
      exact List.mem_append_right _ (List.mem_singleton.mpr rfl)

end Sys2Proof.Machine
end

section
/-! SUPPORT. What a port sends (R43 to R49, R52 to R54, R67, R70, R75, R214, R393, R401): the bundle read for a position, the bundle launched, replays, relayed
bundles and keys. -/

namespace Sys2Proof.Machine

/-! ### States that poison -/

theorem poisons_iff {s : State} : s.sched.state.poisons = true ↔ Poisons s := by
  unfold Poisons
  cases s.sched.state <;> simp [SchedState.poisons]

theorem leBytes_zero (n : Nat) : leBytes n 0 = List.replicate n 0 := by
  simp [leBytes, List.map_const']

theorem Content.empty_eq : Content.empty = ⟨List.replicate 4096 0, false, false⟩ := by
  rw [Content.empty, leBytes_zero]

/-! ### What keeps a port from sending (R24, R43, R44, R51) -/

theorem State.linkDead_iff {s : State} {p leaf : Nat} : s.linkDead p leaf = true ↔ (s.port p).dead = true ∨ 128 < (s.port p).delays.get 0 leaf := by
  simp [State.linkDead, Port.far]

theorem State.sends_of {s : State} {p t : Nat} (h : s.sends p t = true) : s.mayTransmit = true ∧ (s.port p).dead = false ∧
    (s.port p).delays.get 0 (t / 4096 % 32) ≤ 128 ∧ s.paired p (t / 4096 % 32) = true := by
  simp only [State.sends, Bool.and_eq_true, Bool.not_eq_true'] at h
  obtain ⟨⟨⟨⟨hmay, -⟩, hpaired⟩, hlink⟩, -⟩ := h
  have hdead := mt State.linkDead_iff.mpr (Bool.eq_false_iff.mp hlink)
  rw [not_or, Bool.not_eq_true, Nat.not_lt] at hdead
  exact ⟨hmay, hdead.1, hdead.2, hpaired⟩

/-! ### What the reading of a bundle touches -/

/-- The ports, the tick, the schedule's mode and the descriptors of the records that wait are the same. -/
def State.SameLink (s t : State) : Prop := t.gtc = s.gtc ∧ t.ports = s.ports ∧ t.recs.map (·.desc) = s.recs.map (·.desc)

theorem State.SameLink.refl (s : State) : s.SameLink s := ⟨rfl, rfl, rfl⟩

theorem State.SameLink.trans {s t u : State} (h : s.SameLink t) (h' : t.SameLink u) : s.SameLink u := by
  obtain ⟨hgtc, hports, hrecs⟩ := h
  obtain ⟨hgtc', hports', hrecs'⟩ := h'
  exact ⟨hgtc'.trans hgtc, hports'.trans hports, hrecs'.trans hrecs⟩

theorem State.sameLink_foldl {α : Type} (f : State → α → State) (hf : ∀ (s : State) x, s.SameLink (f s x)) (l : List α) (s : State) :
    s.SameLink (l.foldl f s) :=
  List.foldlRecOn (motive := fun t : State => s.SameLink t) l f (State.SameLink.refl s) fun t ht x _ => ht.trans (hf t x)

theorem State.issueWrite_sameLink (s : State) (w : PWrite) : s.SameLink (s.issueWrite w) := by
  unfold State.issueWrite
  split
  · have honly := s.writeNow_writeOnly w
    obtain ⟨hgtc, -, -, hports, -⟩ := honly.keeps
    exact ⟨hgtc, hports, honly.2.2⟩
  · exact State.SameLink.refl s

theorem State.countNow_sameLink (s : State) (ord : Nat) : s.SameLink (s.countNow ord) := by
  unfold State.countNow
  split
  · exact State.SameLink.refl s
  · split
    · split
      · exact State.SameLink.refl s
      · dsimp only
        split
        · exact State.SameLink.refl s
        · exact State.SameLink.trans (State.SameLink.refl s) (State.issueWrite_sameLink _ _)
    · exact State.SameLink.refl s

theorem State.answerBy_sameLink (s : State) (r : Run) (pos t : Nat) : s.SameLink (s.answerBy r pos t).2 := by
  unfold State.answerBy
  split <;> exact State.SameLink.refl s

theorem State.recordPlaced_sameLink (s : State) (r : Run) (pos t : Nat) (o : RecOut) : s.SameLink (s.recordPlaced r pos t o) := by
  unfold State.recordPlaced
  split
  · exact State.SameLink.refl s
  · split
    · have hanswer := s.answerBy_sameLink r pos t
      generalize s.answerBy r pos t = e at hanswer ⊢
      dsimp only
      split
      · exact (hanswer.trans ⟨rfl, rfl, rfl⟩).trans (State.countNow_sameLink _ _)
      · exact hanswer
    · exact State.SameLink.refl s

/-! ### What is read for a position (R54, R67, R214, R401) -/

/-- The bundle of a position is the program's: neither a control position nor one of a device in FAULT or AGREE. -/
def State.free (s : State) (pos : Nat) : Prop := ¬ ((leafOf (s.gtc + 192) = 0 ∧ pos ≤ 6) ∨ s.sched.state.poisons = true)

theorem State.free_of {s : State} {pos : Nat} (hpos : (s.gtc + 192) / 4096 % 32 ≠ 0 ∨ 6 < pos) (h : ¬ Poisons s) : s.free pos := by
  rintro (⟨hleaf, hlow⟩ | hp)
  · rcases hpos with hpos | hpos
    · exact hpos hleaf
    · omega
  · exact h (poisons_iff.mp hp)

theorem State.content_eq (s : State) (p pos : Nat) : s.content p pos =
    if (leafOf (s.gtc + 192) = 0 ∧ pos ≤ 6) ∨ s.sched.state.poisons = true then (Content.empty, s)
    else match s.runAt (s.gtc + 192) p true pos with
      | none => (Content.empty, s)
      | some r =>
        if r.use = 1 then (if r.staged = true then s.sendStaged r else (s.readRunBytes r pos, s))
        else if r.use = 3 then s.sendRequests r pos
        else (Content.empty, s) := rfl

theorem State.content_noRun {s : State} {p pos : Nat} (hfree : s.free pos) (h : s.runAt (s.gtc + 192) p true pos = none) :
    s.content p pos = (Content.empty, s) := by
  rw [State.content_eq, if_neg hfree, h]

theorem State.content_run {s : State} {p pos : Nat} {r : Run} (hfree : s.free pos) (h : s.runAt (s.gtc + 192) p true pos = some r) :
    s.content p pos = if r.use = 1 then (if r.staged = true then s.sendStaged r else (s.readRunBytes r pos, s))
      else if r.use = 3 then s.sendRequests r pos else (Content.empty, s) := by
  rw [State.content_eq, if_neg hfree, h]

theorem State.sendStaged_keeps (s : State) (r : Run) : s.SameLink (s.sendStaged r).2 ∧ (s.sendStaged r).2.mem = s.mem := by
  unfold State.sendStaged
  split
  · exact ⟨State.SameLink.refl s, rfl⟩
  · dsimp only
    split
    · exact ⟨⟨rfl, rfl, rfl⟩, rfl⟩
    · rw [State.schedFault_frame]; exact ⟨⟨rfl, rfl, rfl⟩, rfl⟩

/-- The records that a bundle takes leave the others in their order (R54). -/
theorem State.sendRequests_keeps (s : State) (r : Run) (pos : Nat) : (s.sendRequests r pos).2.gtc = s.gtc ∧ (s.sendRequests r pos).2.ports = s.ports ∧
    (s.sendRequests r pos).2.recs.map (·.desc) = (packRecords r.dest (s.gtc + 192) s.recs 4096 []).2.map (·.desc) :=
  State.sameLink_foldl _ (fun u o => u.recordPlaced_sameLink r pos _ o) _ { s with recs := (packRecords r.dest (s.gtc + 192) s.recs 4096 []).2 }

/-- The reading of a bundle leaves the tick and the ports, and memory unless it is one of records. -/
theorem State.content_keeps (s : State) (p pos : Nat) : (s.content p pos).2.gtc = s.gtc ∧ (s.content p pos).2.ports = s.ports ∧
    ((∀ r, s.runAt (s.gtc + 192) p true pos = some r → r.use ≠ 3) → (s.content p pos).2.mem = s.mem) := by
  by_cases hfree : s.free pos
  · cases hrun : s.runAt (s.gtc + 192) p true pos with
    | none => rw [State.content_noRun hfree hrun]; exact ⟨rfl, rfl, fun _ => rfl⟩
    | some r =>
      rw [State.content_run hfree hrun]
      split
      · split
        · obtain ⟨⟨hgtc, hports, -⟩, hmem⟩ := s.sendStaged_keeps r
          exact ⟨hgtc, hports, fun _ => hmem⟩
        · exact ⟨rfl, rfl, fun _ => rfl⟩
      · split
        next huse =>
          obtain ⟨hgtc, hports, -⟩ := s.sendRequests_keeps r pos
          exact ⟨hgtc, hports, fun h => absurd huse (h r rfl)⟩
        next => exact ⟨rfl, rfl, fun _ => rfl⟩
  · rw [State.content_eq, if_pos (not_not.mp hfree)]
    exact ⟨rfl, rfl, fun _ => rfl⟩

/-- A bundle read from scratch: its bytes, and whether one of them is marked (R67, R393, R401). -/
theorem State.readRunBytes_dataPoison {s : State} {r : Run} {pos : Nat} : (s.readRunBytes r pos).dataPoison = true ↔
    ∃ a, some a ∈ s.runCells r.core (r.addrOf pos) ∧ s.markAt a ≠ none := by
  simp only [State.readRunBytes, List.any_eq_true]
  refine ⟨fun ⟨c, hc, hm⟩ => ?_, fun ⟨a, ha, hm⟩ => ⟨some a, ha, Option.isSome_iff_ne_none.mpr hm⟩⟩
  cases c with
  | none => exact absurd hm Bool.false_ne_true
  | some a => exact ⟨a, hc, Option.isSome_iff_ne_none.mp hm⟩

/-! ### The bundle that is read (R67, R401) -/

theorem State.port_of_ports {s t : State} (h : t.ports = s.ports) (p : Nat) : t.port p = s.port p := by rw [State.port, h]; rfl

/-- The draft of a position that starts 192 t from now. -/
def State.draftOf (s : State) (p pos : Nat) : Draft :=
  ⟨pos, leafNo (s.gtc + 192), (s.content p pos).1.payload, (s.content p pos).1.poison, (s.content p pos).1.dataPoison⟩

/-- The state in which a bundle has been read. -/
def State.drafted (s : State) (p pos : Nat) : State :=
  (s.content p pos).2.updPort p fun x => { x with drafts := x.drafts ++ [s.draftOf p pos] }

/-- The state after the launch of a position that starts on this tick. -/
def State.launched (s : State) (p pos : Nat) : State := if s.startsNow p pos && !s.controlPos p pos then s.sendNow p pos else s

theorem State.drafted_port (s : State) (p pos : Nat) :
    (s.drafted p pos).port p = { s.port p with drafts := (s.port p).drafts ++ [s.draftOf p pos] } := by
  obtain ⟨-, hports, -⟩ := s.content_keeps p pos
  rw [State.drafted, State.port_updPort_self, State.port_of_ports hports]

theorem State.startPos_of_delays {s t : State} {p : Nat} (hgtc : t.gtc = s.gtc) (hdelays : (t.port p).delays = (s.port p).delays) :
    t.startPos p = s.startPos p := by
  unfold State.startPos State.launching
  rw [hgtc, hdelays]

theorem bundleTransmit_eq (s : State) (p : Fin 16) (pos : Nat) : exec (.bundleTransmit p pos) s =
    .next ((if s.readPos = some pos ∧ s.sends p.val (s.gtc + 192) = true then s.drafted p.val pos else s).launched p.val pos) := by
  obtain ⟨hgtc, -, -⟩ := s.content_keeps p.val pos
  rw [exec_bundleTransmit, execBundleTransmit, State.drafted, State.draftOf]
  generalize s.content p.val pos = e at hgtc ⊢
  dsimp only
  rw [hgtc]
  rfl

/-- R67: a data position is read 192 t before it starts. -/
theorem bundleTransmit_read {s : State} {p : Fin 16} {pos : Nat} (hread : s.readPos = some pos) (hsends : s.sends p.val (s.gtc + 192) = true)
    (hstart : s.startPos p.val ≠ some pos) : exec (.bundleTransmit p pos) s = .next (s.drafted p.val pos) := by
  obtain ⟨hgtc, -, -⟩ := s.content_keeps p.val pos
  have hdelays : ((s.drafted p.val pos).port p.val).delays = (s.port p.val).delays := by rw [State.drafted_port]
  have hquiet : (s.drafted p.val pos).startsNow p.val pos = false := by
    have hsame : (s.drafted p.val pos).startPos p.val = s.startPos p.val := State.startPos_of_delays hgtc hdelays
    rw [State.startsNow, hsame, decide_eq_false hstart, Bool.false_and]
  rw [bundleTransmit_eq, if_pos ⟨hread, hsends⟩, State.launched, hquiet]
  rfl

/-- A position that neither is read nor starts changes nothing. -/
theorem bundleTransmit_idle {s : State} {p : Fin 16} {pos : Nat} (hread : s.readPos ≠ some pos ∨ s.sends p.val (s.gtc + 192) = false)
    (hstart : s.startPos p.val ≠ some pos ∨ s.sends p.val s.gtc = false ∨ s.controlPos p.val pos = true) :
    exec (.bundleTransmit p pos) s = .next s := by
  have hnotRead : ¬ (s.readPos = some pos ∧ s.sends p.val (s.gtc + 192) = true) := by
    rintro ⟨hpos, hsends⟩
    rcases hread with h | h
    · exact h hpos
    · exact Bool.false_ne_true (h.symm.trans hsends)
  have hquiet : (s.startsNow p.val pos && !s.controlPos p.val pos) = false := by
    rcases hstart with h | h | h <;> simp [State.startsNow, h]
  rw [bundleTransmit_eq, if_neg hnotRead, State.launched, hquiet]
  rfl

/-- A position that starts and is not read on the same tick is launched. -/
theorem bundleTransmit_launch {s : State} {p : Fin 16} {pos : Nat} (hstart : s.startPos p.val = some pos) (hsends : s.sends p.val s.gtc = true)
    (hctl : s.controlPos p.val pos = false) (hread : s.readPos ≠ some pos) : exec (.bundleTransmit p pos) s = .next (s.sendNow p.val pos) := by
  rw [bundleTransmit_eq, if_neg fun h => hread h.1, State.launched, if_pos (by simp [State.startsNow, hstart, hsends, hctl])]

/-! ### What a draft holds -/

theorem State.sendRequests_content (s : State) (r : Run) (pos : Nat) : (s.sendRequests r pos).1 =
    let q := packRecords r.dest (s.gtc + 192) s.recs 4096 []
    let bs := q.1.flatMap RecOut.bytes
    ⟨bs ++ List.replicate (4096 - bs.length) 0, false, q.1.any (·.poisoned)⟩ := by
  dsimp only
  rw [← leBytes_zero]
  rfl

/-- R67, R214, R393: the bundle of a staged position, or a late one. -/
theorem State.sendStaged_holder {s : State} {r : Run} {h : Holder} (hh : (s.podHolders r.core).head? = some h) :
    let key := ((s.tenant h.g.part).slotBase + r.core) * 16 + r.eq
    let staged := (s.stage.get [] key).find? fun b => decide (b.grid = h.gid ∧ b.num = h.g.sent.get 0 key ∧ b.ready ≤ s.gtc)
    (∀ b, staged = some b → (s.sendStaged r).1 = ⟨b.data, false, b.poisoned⟩) ∧
    (staged = none → (s.sendStaged r).1.poison = true ∧ (s.sendStaged r).2.sched.cause = 5) := by
  dsimp only
  unfold State.sendStaged
  rw [hh]
  dsimp only [State.updGrid]
  refine ⟨fun b hb => ?_, fun hnone => ?_⟩
  · rw [hb]
  · rw [hnone]
    exact ⟨rfl, (State.schedFault_sched _ 5).1⟩

theorem State.content_unstaged {s : State} {p pos : Nat} {r : Run} (hfree : s.free pos) (hrun : s.runAt (s.gtc + 192) p true pos = some r)
    (huse : r.use = 1) (hstaged : r.staged = false) : s.content p pos = (s.readRunBytes r pos, s) := by
  rw [State.content_run hfree hrun, if_pos huse, hstaged]
  rfl

theorem State.content_staged {s : State} {p pos : Nat} {r : Run} (hfree : s.free pos) (hrun : s.runAt (s.gtc + 192) p true pos = some r)
    (huse : r.use = 1) (hstaged : r.staged = true) : s.content p pos = s.sendStaged r := by
  rw [State.content_run hfree hrun, if_pos huse, if_pos hstaged]

theorem State.content_requests {s : State} {p pos : Nat} {r : Run} (hfree : s.free pos) (hrun : s.runAt (s.gtc + 192) p true pos = some r)
    (huse : r.use = 3) : s.content p pos = s.sendRequests r pos := by
  rw [State.content_run hfree hrun, if_neg (by rw [huse]; decide), if_pos huse]

/-- R54: a request bundle holds the records that fit, in their order, and zeros behind them. -/
theorem State.content_requests_read {s : State} {p pos : Nat} {r : Run} (hfree : s.free pos) (hrun : s.runAt (s.gtc + 192) p true pos = some r)
    (huse : r.use = 3) : let q := packRecords r.dest (s.gtc + 192) s.recs 4096 []
    let bs := q.1.flatMap RecOut.bytes
    (s.draftOf p pos).poison = false ∧ (s.draftOf p pos).payload = bs ++ List.replicate (4096 - bs.length) 0 ∧
    ((s.draftOf p pos).dataPoison = true ↔ ∃ x ∈ q.1, x.poisoned = true) ∧ (s.drafted p pos).recs.map (·.desc) = q.2.map (·.desc) := by
  have hcontent := State.content_requests hfree hrun huse
  obtain ⟨-, -, hrecs⟩ := s.sendRequests_keeps r pos
  have hdrafted : (s.drafted p pos).recs = (s.sendRequests r pos).2.recs := congrArg (fun e : Content × State => e.2.recs) hcontent
  have hdraft : s.draftOf p pos = ⟨pos, leafNo (s.gtc + 192), (s.sendRequests r pos).1.payload, (s.sendRequests r pos).1.poison,
      (s.sendRequests r pos).1.dataPoison⟩ := by rw [State.draftOf, hcontent]
  rw [hdraft, hdrafted, hrecs, State.sendRequests_content]
  simp only [List.any_eq_true, and_self]

/-- R67, R393, R401: a bundle of scratch holds the bytes of its run's cells, and says whether one of them is marked. -/
theorem State.draft_unstaged {s : State} {p pos : Nat} {r : Run} (hfree : s.free pos) (hrun : s.runAt (s.gtc + 192) p true pos = some r)
    (huse : r.use = 1) (hstaged : r.staged = false) : let cs := s.runCells r.core (r.addr + 4096 * (pos - r.first))
    (s.draftOf p pos).poison = false ∧ (s.draftOf p pos).payload = cs.map (fun a => (a.map s.byteAt).getD 0) ∧
    ((s.draftOf p pos).dataPoison = true ↔ ∃ a, some a ∈ cs ∧ s.markAt a ≠ none) := by
  have hmarked := s.readRunBytes_dataPoison (r := r) (pos := pos)
  rw [State.draftOf, State.content_unstaged hfree hrun huse hstaged]
  rw [State.readRunBytes, Run.addrOf] at hmarked ⊢
  generalize s.runCells r.core (r.addr + 4096 * (pos - r.first)) = cs at hmarked ⊢
  exact ⟨rfl, rfl, hmarked⟩

/-- R67, R214: a staged bundle that is ready is sent; one that is not is late. -/
theorem State.draft_staged {s : State} {p pos : Nat} {r : Run} {h : Holder} (hfree : s.free pos)
    (hrun : s.runAt (s.gtc + 192) p true pos = some r) (huse : r.use = 1) (hstaged : r.staged = true)
    (hh : (s.podHolders r.core).head? = some h) :
    let key := ((s.tenant h.g.part).slotBase + r.core) * 16 + r.eq
    let staged := (s.stage.get [] key).find? fun b => decide (b.grid = h.gid ∧ b.num = h.g.sent.get 0 key ∧ b.ready ≤ s.gtc)
    (∀ b, staged = some b → (s.draftOf p pos).payload = b.data ∧ (s.draftOf p pos).poison = false ∧ (s.draftOf p pos).dataPoison = b.poisoned) ∧
    (staged = none → (s.draftOf p pos).poison = true ∧ (s.drafted p pos).sched.cause = 5) := by
  have hcontent := State.content_staged hfree hrun huse hstaged
  have hsched : (s.drafted p pos).sched = (s.sendStaged r).2.sched := congrArg (fun e : Content × State => e.2.sched) hcontent
  obtain ⟨hready, hlate⟩ := s.sendStaged_holder hh
  rw [hsched, State.draftOf, hcontent]
  exact ⟨fun b hb => by rw [hready b hb]; exact ⟨rfl, rfl, rfl⟩, hlate⟩

/-! ### The bundle that is launched (R44, R46, R48, R52, R70) -/

theorem mem_drop_concat {α : Type} (l : List α) (b : α) (n : Nat) : b ∈ (l ++ [b]).drop (l.length - n) := by
  rw [List.drop_append_of_le_length (Nat.sub_le ..)]
  exact List.mem_append_right _ List.mem_cons_self

theorem State.sendNow_port (s : State) (p pos : Nat) : (s.sendNow p pos).port p = (s.port p).sent (s.sealed p pos (s.carried p pos)) :=
  State.port_updPort_self ..

theorem State.sendNow_sentAs (s : State) (p pos : Nat) : SentAs s (s.sendNow p pos) p pos (s.carried p pos) := by
  rw [SentAs, State.sendNow_port]
  generalize s.carried p pos = c
  refine ⟨s.sealed p pos c, rfl, mem_drop_concat .., ?_, rfl, rfl, rfl, rfl, rfl, rfl, rfl, rfl, rfl, rfl, rfl⟩
  dsimp only [Port.sent]
  rw [List.length_drop, List.length_append, List.length_singleton]
  omega

/-- R47, R70: what a position of the control leaf carries. -/
theorem State.carried_control {s : State} {p pos : Nat} (hleaf : s.gtc / 4096 % 32 = 0) (hpos : pos ≤ 6) :
    s.carried p pos = ⟨if pos = 0 then s.controlBytes (s.gtc / 131072) else leBytes 4096 0, s.sched.state.poisons, false⟩ :=
  if_pos ⟨hleaf, hpos⟩

theorem State.carried_data {s : State} {p pos : Nat} (h : s.gtc / 4096 % 32 ≠ 0 ∨ 6 < pos) : s.carried p pos =
    if s.sched.state.poisons = true then ⟨s.controlBytes (s.gtc / 131072), true, false⟩
    else match (s.port p).drafts.find? fun (d : Draft) => decide (d.pos = pos ∧ d.leaf = s.gtc / 4096) with
      | some d => ⟨d.payload, d.poison, d.dataPoison⟩
      | none => Content.empty := by
  refine (if_neg ?_).trans rfl
  rintro ⟨hleaf, hpos⟩
  exact h.elim (fun hne => hne hleaf) (Nat.not_lt.mpr hpos)

/-! ### Replays and relays (R48, R49, R53) -/

/-- R44, R49: a stored bundle goes out again on the port's launch of its replay position. -/
theorem replay_due {s : State} {p : Fin 16} {k pos : Nat} (hdue : s.replayDue p.val = some k) (hlaunch : s.launching p.val = some pos)
    (hsends : s.sends p.val s.gtc = true) : exec (.replay p pos) s = .next (s.updPort p.val fun x =>
      { x with out := (x.store.find? fun b => decide (b.pos = k ∧ b.leaf = s.gtc / 4096)).map fun b => { b with launch := s.gtc }
               replays := min 0xFFFF (x.replays + 1), resend := x.resend.filter fun j => decide (replayPos j ≠ pos) }) := by
  have hgo : ¬ (s.launching p.val ≠ some pos ∨ (!s.sends p.val s.gtc) = true) := by simp [hlaunch, hsends]
  rw [exec_replay, execReplay]
  simp only [hdue, if_neg hgo]
  rfl

theorem replay_idle {s : State} {p : Fin 16} {pos : Nat} (h : s.replayDue p.val = none ∨ s.launching p.val ≠ some pos ∨ s.sends p.val s.gtc = false) :
    exec (.replay p pos) s = .next s := by
  rw [exec_replay, execReplay]
  cases hdue : s.replayDue p.val with
  | none => rfl
  | some k =>
    have hstop : s.launching p.val ≠ some pos ∨ (!s.sends p.val s.gtc) = true := by
      rcases h with h | h | h
      · simp [h] at hdue
      · exact .inl h
      · exact .inr (by simp [h])
    simp only [if_pos hstop]

/-- What a port's stored bundle carries when a relayed bundle falls due at its position (R52, R53). -/
def State.relayed (s : State) (p : Nat) (r : RelayBuf) (b : TxBundle) : TxBundle :=
  if b.pos = r.outPos ∧ b.leaf = s.gtc / 4096 then s.refill p r b else b

/-- A change of the bundles that a port keeps and has on the fibre. -/
def Port.mapBundles (x : Port) (f : TxBundle → TxBundle) : Port := { x with store := x.store.map f, out := x.out.map f }

theorem relay_due {s : State} {p : Fin 16} {r : RelayBuf} (h : s.relayDue p.val = some r) : exec (.relay p r.outPos) s =
    .next (if s.sched.state.poisons = true ∨ (s.gtc / 4096 % 32 = 0 ∧ r.outPos ≤ 6) then { s with relays := s.relays.erase r }
      else { s.updPort p.val (·.mapBundles (s.relayed p.val r)) with relays := s.relays.erase r }) := by
  rw [exec_relay, execRelay]
  simp only [h, ne_eq, not_true_eq_false, if_false, Bool.or_eq_true, decide_eq_true_eq]
  split
  next hp => exact congrArg _ (if_pos hp).symm
  next hp => exact congrArg _ (if_neg hp).symm

theorem relay_other {s : State} {p : Fin 16} {r : RelayBuf} (h : s.relayDue p.val = some r) {pos : Nat} (hpos : pos ≠ r.outPos) :
    exec (.relay p pos) s = .next s := by
  rw [exec_relay, execRelay]
  simp only [h, if_pos hpos.symm]

theorem relay_idle {s : State} {p : Fin 16} (pos : Nat) (h : s.relayDue p.val = none) : exec (.relay p pos) s = .next s := by
  rw [exec_relay, execRelay]
  simp only [h]

/-! ### Keys (R43, R52) -/

/-- A rotation joins the list of its direction of its link. -/
def Port.rotated (x : Port) (leaf : Nat) (tx : Bool) (n : Nat) : Port :=
  if tx then { x with txRots := x.txRots.update [] leaf (· ++ [n]) } else { x with rxRots := x.rxRots.update [] leaf (· ++ [n]) }

theorem keyRotation_live {s : State} (k : Fin 512) (tx : Bool) (n : Nat) (h : s.live = true) :
    exec (.keyRotation k tx n) s = .next (s.updPort (k.val / 32) fun x => x.rotated (k.val % 32) tx n) := by
  rw [exec_keyRotation, execKeyRotation, h]
  rfl

theorem keyRotation_reset {s : State} (k : Fin 512) (tx : Bool) (n : Nat) (h : s.live = false) : exec (.keyRotation k tx n) s = .next s := by
  rw [exec_keyRotation, execKeyRotation, h]
  rfl

theorem Port.rotated_frame (x : Port) (leaf : Nat) (tx : Bool) (n : Nat) :
    x.rotated leaf tx n = { x with txRots := (x.rotated leaf tx n).txRots, rxRots := (x.rotated leaf tx n).rxRots } := by
  cases tx <;> rfl

theorem Port.rotated_same (x : Port) (leaf : Nat) (tx : Bool) (n : Nat) :
    (x.rotated leaf tx n).txRots.get [] leaf = x.txRots.get [] leaf ++ (if tx = true then [n] else []) ∧
    (x.rotated leaf tx n).rxRots.get [] leaf = x.rxRots.get [] leaf ++ (if tx = true then [] else [n]) := by
  cases tx
  · simp [Port.rotated]
  · simp [Port.rotated]

theorem Port.rotated_other (x : Port) {leaf j : Nat} (tx : Bool) (n : Nat) (h : j ≠ leaf) :
    (x.rotated leaf tx n).txRots.get [] j = x.txRots.get [] j ∧ (x.rotated leaf tx n).rxRots.get [] j = x.rxRots.get [] j := by
  cases tx
  · simp [Port.rotated, Tab.get_update_ne _ _ _ h]
  · simp [Port.rotated, Tab.get_update_ne _ _ _ h]

/-! ### What a port sends, together -/

/-- R43 to R49, R52 to R54, R67, R70, R75. -/
theorem transmission : Transmission := by
  refine ⟨fun s p pos hread hsends hstart => ?_, fun s p pos hstart hsends hctl hread => ?_, fun s p pos => bundleTransmit_idle,
    fun s p t => State.sends_of, fun s p k pos hdue hlaunch hsends => ?_, fun s p pos => replay_idle, fun s p r hdue => ⟨fun hp => ?_, fun hp hpos => ?_,
      fun pos => relay_other hdue⟩, fun s p pos => relay_idle pos, fun s k tx n => ⟨keyRotation_reset k tx n, fun hl => ?_⟩⟩
  · -- a draft
    obtain ⟨hgtc, -, hmem⟩ := s.content_keeps p.val pos
    have hport := s.drafted_port p.val pos
    refine ⟨_, s.draftOf p.val pos, bundleTransmit_read hread hsends hstart, hmem, hgtc, ?_, rfl, rfl, by rw [hport], fun hpos hp => ?_⟩
    · rw [hport]; exact List.mem_append_right _ List.mem_cons_self
    have hfree := State.free_of hpos hp
    refine ⟨fun hnone => ?_, fun r hrun => ⟨fun huse hst => State.draft_unstaged hfree hrun huse hst,
      fun huse => State.content_requests_read hfree hrun huse, fun huse hst h hh => State.draft_staged hfree hrun huse hst hh⟩⟩
    rw [State.draftOf, State.content_noRun hfree hnone, Content.empty_eq]
    exact ⟨rfl, rfl, rfl⟩
  · -- a launch
    refine ⟨_, s.carried p.val pos, bundleTransmit_launch hstart hsends hctl hread, rfl, fun q hq => State.port_updPort_ne _ _ hq,
      s.sendNow_sentAs p.val pos, fun hleaf hpos => ?_, fun hpos => ?_⟩
    · rw [State.carried_control hleaf hpos, leBytes_zero]
      exact ⟨poisons_iff, rfl, rfl⟩
    · rw [State.carried_data hpos]
      refine ⟨fun hp => ?_, fun hp d hd => ?_⟩
      · rw [if_pos (poisons_iff.mpr hp)]; exact ⟨rfl, rfl⟩
      · rw [if_neg (mt poisons_iff.mp hp), hd]; exact ⟨rfl, rfl, rfl⟩
  · -- a replay
    refine ⟨_, replay_due hdue hlaunch hsends, rfl, ?_⟩
    rw [State.port_updPort_self]
    refine ⟨rfl, rfl, rfl, fun j hj => ?_, fun q hq => State.port_updPort_ne _ _ hq⟩
    exact of_decide_eq_true (List.mem_filter.mp hj).2
  · rw [relay_due hdue, if_pos (hp.imp_left poisons_iff.mpr)]
  · have hgo : ¬ (s.sched.state.poisons = true ∨ (s.gtc / 4096 % 32 = 0 ∧ r.outPos ≤ 6)) := by
      rintro (h | ⟨hleaf, hlow⟩)
      · exact hp (poisons_iff.mp h)
      · exact hpos.elim (fun hne => hne hleaf) (Nat.not_lt.mpr hlow)
    have hport := State.port_updPort_self s p.val (·.mapBundles (s.relayed p.val r))
    exact ⟨_, (relay_due hdue).trans (congrArg _ (if_neg hgo)), rfl, hport.trans rfl,
      fun q hq => State.port_updPort_ne s (·.mapBundles (s.relayed p.val r)) hq⟩
  · -- a key
    refine ⟨_, keyRotation_live k tx n hl, rfl, ?_⟩
    dsimp only
    rw [State.port_updPort_self]
    obtain ⟨htx, hrx⟩ := (s.port (k.val / 32)).rotated_same (k.val % 32) tx n
    exact ⟨Port.rotated_frame .., htx, hrx, fun j hj => Port.rotated_other _ _ _ hj, fun q hq => State.port_updPort_ne _ _ hq⟩

end Sys2Proof.Machine
end

section
/-! SUPPORT. Dark and dead ports, what a port receives, and what lands (R44 to R53, R57, R70, R393, R401). -/

namespace Sys2Proof.Machine

/-! ### What a bundle leaves beside memory -/

/-- Ports, the firmware's events and what the schedule notes of faults may differ, and the draws made; the schedule's image and all else do not. -/
def State.BesideMemory (s t : State) : Prop :=
  (∃ x f c d, t = { s with ports := x, fw := f, sched := c, draw := d }) ∧ t.activeImage = s.activeImage ∧ t.sched.base = s.sched.base

theorem State.BesideMemory.trans {s t u : State} (h : s.BesideMemory t) (h' : t.BesideMemory u) : s.BesideMemory u := by
  obtain ⟨⟨_, _, _, _, rfl⟩, himage, hbase⟩ := h
  obtain ⟨⟨_, _, _, _, rfl⟩, himage', hbase'⟩ := h'
  exact ⟨⟨_, _, _, _, rfl⟩, himage'.trans himage, hbase'.trans hbase⟩

theorem State.BesideMemory.keeps {s t : State} (h : s.BesideMemory t) : t.gtc = s.gtc ∧ t.mem = s.mem ∧ t.applied = s.applied ∧
    t.relays = s.relays ∧ t.pending = s.pending := by
  obtain ⟨⟨_, _, _, _, rfl⟩, -, -⟩ := h
  exact ⟨rfl, rfl, rfl, rfl, rfl⟩

theorem State.BesideMemory.reads {s t : State} (h : s.BesideMemory t) (a : Nat) : t.byteAt a = s.byteAt a ∧ t.markAt a = s.markAt a := by
  obtain ⟨⟨_, _, _, _, rfl⟩, -, -⟩ := h
  exact ⟨rfl, rfl⟩

theorem State.BesideMemory.runAt {s t : State} (h : s.BesideMemory t) (u p : Nat) (tx : Bool) (pos : Nat) :
    t.runAt u p tx pos = s.runAt u p tx pos := by
  obtain ⟨-, himage, hbase⟩ := h
  unfold State.runAt
  rw [himage, hbase]

theorem State.BesideMemory.runCells {s t : State} (h : s.BesideMemory t) (core a : Nat) : t.runCells core a = s.runCells core a := by
  obtain ⟨⟨_, _, _, _, rfl⟩, -, -⟩ := h
  rfl

theorem State.BesideMemory.precede {s t : State} (h : s.BesideMemory t) {dst : List Nat} (hs : Precede s dst) : Precede t dst := by
  obtain ⟨⟨_, _, _, _, rfl⟩, -, -⟩ := h
  exact hs

theorem State.updPort_besideMemory (s : State) (p : Nat) (f : Port → Port) : s.BesideMemory (s.updPort p f) := ⟨⟨_, _, _, _, rfl⟩, rfl, rfl⟩

theorem State.schedFault_image (s : State) (cause : Nat) : (s.schedFault cause).activeImage = s.activeImage ∧
    (s.schedFault cause).sched.base = s.sched.base := by
  unfold State.schedFault; dsimp only; split <;> exact ⟨rfl, rfl⟩

theorem State.schedFault_besideMemory (s : State) (cause : Nat) : s.BesideMemory (s.schedFault cause) :=
  ⟨⟨_, _, _, _, s.schedFault_frame cause⟩, s.schedFault_image cause⟩

theorem State.schedFault_ports (s : State) (cause : Nat) : (s.schedFault cause).ports = s.ports := by
  rw [State.schedFault_frame]

/-! ### A fault of a link that lives (R44, R51) -/

/-- UNRECOVERED is raised, unless the link is dead. -/
def State.unrecovered (s : State) (dead : Bool) : State := if dead then s else s.schedFault 6

theorem State.unrecovered_keeps (s : State) (dead : Bool) : s.BesideMemory (s.unrecovered dead) ∧ (s.unrecovered dead).ports = s.ports ∧
    (dead = true → (s.unrecovered dead).sched = s.sched) ∧ (dead = false → (s.unrecovered dead).sched.cause = 6) := by
  cases dead
  · exact ⟨s.schedFault_besideMemory 6, s.schedFault_ports 6, nofun, fun _ => (s.schedFault_sched 6).1⟩
  · exact ⟨⟨⟨_, _, _, _, rfl⟩, rfl, rfl⟩, rfl, fun _ => rfl, nofun⟩

theorem State.linkDead_of_port {s t : State} {p : Nat} (hdead : (t.port p).dead = (s.port p).dead)
    (hdelays : (t.port p).delays = (s.port p).delays) (leaf : Nat) : t.linkDead p leaf = s.linkDead p leaf := by
  unfold State.linkDead Port.far
  rw [hdead, hdelays]

theorem State.lose_keeps (s : State) (p leaf : Nat) : s.BesideMemory (s.lose p leaf) ∧
    (s.lose p leaf).port p = { s.port p with unrec := min 0xFF ((s.port p).unrec + 1) } ∧
    (s.linkDead p leaf = false → (s.lose p leaf).sched.cause = 6) := by
  have hcount := s.updPort_besideMemory p fun x => { x with unrec := min 0xFF (x.unrec + 1) }
  have hport := State.port_updPort_self s p fun x => { x with unrec := min 0xFF (x.unrec + 1) }
  obtain ⟨hbeside, hports, -, hcause⟩ := (s.updPort p fun x => { x with unrec := min 0xFF (x.unrec + 1) }).unrecovered_keeps (s.linkDead p leaf)
  exact ⟨hcount.trans hbeside, (State.port_of_ports hports p).trans hport, hcause⟩

/-! ### Dark and dead ports (R44, R51, R57) -/

theorem portDark_idle {s : State} {p : Fin 16} (h : s.darkCheck p.val = false) : exec (.portDark p) s = .next s := by
  rw [exec_portDark, execPortDark]
  simp [h]

/-- The state after PORT_DARK at a port that locked. -/
def State.lit (s : State) (p : Nat) : State :=
  (s.updPort p Port.nextLeaf).updPort p fun x => { x with dark := false, darkLeaves := 0 }

/-- The state after PORT_DARK at a port that did not lock, but for its fault. -/
def State.darkened (s : State) (p : Nat) : State :=
  (s.updPort p Port.nextLeaf).updPort p fun x => { x with dark := true, darkLeaves := x.darkLeaves + 1 }

theorem State.lit_port (s : State) (p : Nat) : (s.lit p).port p = { (s.port p).nextLeaf with dark := false, darkLeaves := 0 } := by
  rw [State.lit, State.port_updPort_self, State.port_updPort_self]

theorem State.darkened_port (s : State) (p : Nat) :
    (s.darkened p).port p = { (s.port p).nextLeaf with dark := true, darkLeaves := (s.port p).darkLeaves + 1 } := by
  rw [State.darkened, State.port_updPort_self, State.port_updPort_self]
  rfl

theorem portDark_due {s : State} {p : Fin 16} (h : s.darkCheck p.val = true) : exec (.portDark p) s =
    .next (if (s.port p.val).locked = some (s.gtc / 4096) then s.lit p.val
      else (s.darkened p.val).unrecovered (s.linkDead p.val (s.gtc / 4096 % 32))) := by
  have hport := State.port_updPort_self s p.val Port.nextLeaf
  have hlocked : (s.updPort p.val Port.nextLeaf).lockedIn p.val s.gtc = decide ((s.port p.val).locked = some (s.gtc / 4096)) := by
    rw [State.lockedIn, hport]
    rfl
  have hdead : (s.updPort p.val Port.nextLeaf).linkDead p.val (leafOf s.gtc) = s.linkDead p.val (s.gtc / 4096 % 32) :=
    State.linkDead_of_port (by rw [hport]; rfl) (by rw [hport]; rfl) _
  have heq : execPortDark p s = .next (if (s.updPort p.val Port.nextLeaf).lockedIn p.val s.gtc = true then s.lit p.val
      else (s.darkened p.val).unrecovered ((s.updPort p.val Port.nextLeaf).linkDead p.val (leafOf s.gtc))) := by
    rw [execPortDark, h]
    rfl
  rw [exec_portDark, heq, hlocked, hdead]
  simp only [decide_eq_true_eq]

theorem portDead_dying {s : State} {p : Fin 16} (hcheck : s.darkCheck p.val = true) (hlive : (s.port p.val).dead = false)
    (hleaves : 3 ≤ (s.port p.val).darkLeaves) : exec (.portDead p) s = .next (s.updPort p.val fun x => { x with dead := true }) := by
  rw [exec_portDead, execPortDead, if_pos (by simp [State.dying, hcheck, hlive, hleaves])]

theorem portDead_idle {s : State} {p : Fin 16} (h : s.darkCheck p.val = false ∨ (s.port p.val).dead = true ∨ (s.port p.val).darkLeaves < 3) :
    exec (.portDead p) s = .next s := by
  have hnot : s.dying p.val = false := by
    rcases h with h | h | h <;> simp [State.dying, h]
  rw [exec_portDead, execPortDead, hnot]
  rfl

/-- R44, R51, R57. -/
theorem portDark_outcome (s : State) (p : Fin 16) (h : s.darkCheck p.val = true) :
    let x := { s.port p.val with verdicts := [], resend := [] }
    ((s.port p.val).locked = some (s.gtc / 4096) → ∃ t, exec (.portDark p) s = .next t ∧ t = { s with ports := t.ports } ∧
      t.port p.val = { x with dark := false, darkLeaves := 0 } ∧ ∀ q, q ≠ p.val → t.port q = s.port q) ∧
    ((s.port p.val).locked ≠ some (s.gtc / 4096) → ∃ t, exec (.portDark p) s = .next t ∧ t.mem = s.mem ∧
      t.port p.val = { x with dark := true, darkLeaves := (s.port p.val).darkLeaves + 1 } ∧
      (∀ q, q ≠ p.val → t.port q = s.port q) ∧ (s.linkDead p.val (s.gtc / 4096 % 32) = true → t.sched = s.sched) ∧
      (s.linkDead p.val (s.gtc / 4096 % 32) = false → t.sched.cause = 6)) := by
  have hother : ∀ f q, q ≠ p.val → ((s.updPort p.val Port.nextLeaf).updPort p.val f).port q = s.port q := fun f q hq =>
    (State.port_updPort_ne _ f hq).trans (State.port_updPort_ne s _ hq)
  refine ⟨fun hlocked => ⟨_, (portDark_due h).trans (congrArg _ (if_pos hlocked)), rfl, s.lit_port p.val, hother _⟩, fun hlocked => ?_⟩
  obtain ⟨hbeside, hports, hsame, hcause⟩ := (s.darkened p.val).unrecovered_keeps (s.linkDead p.val (s.gtc / 4096 % 32))
  obtain ⟨-, hmem, -⟩ := hbeside.keeps
  exact ⟨_, (portDark_due h).trans (congrArg _ (if_neg hlocked)), hmem, (State.port_of_ports hports _).trans (s.darkened_port p.val),
    fun q hq => (State.port_of_ports hports q).trans (hother _ q hq), hsame, hcause⟩

/-! ### Reception (R45, R48, R49, R51, R52, R70) -/

/-- Verdicts change what a port keeps and replays alone. -/
theorem Port.judged_frame (x : Port) (vs : List (Nat × Bool)) (leaf : Nat) : ∃ b l, x.judged vs leaf = { x with store := b, resend := l } := by
  refine List.foldlRecOn (motive := fun y : Port => ∃ b l, y = { x with store := b, resend := l }) vs _ ⟨_, _, rfl⟩ ?_
  rintro _ ⟨b, l, rfl⟩ v -
  dsimp only
  split
  · exact ⟨_, _, rfl⟩
  · split
    · exact ⟨_, _, rfl⟩
    · exact ⟨_, _, rfl⟩

/-- What a port makes of a bundle that arrives, before it is kept: the verdicts in it, its own verdict, and a tag that fails. -/
def Port.received (x : Port) (pos leaf : Nat) (rx : RxBundle) (good : Bool) : Port :=
  let x := x.judged rx.verdicts leaf
  let x := if rx.replayed then x else { x with verdicts := x.verdicts ++ [(pos, rx.crcOk)] }
  if rx.crcOk && !good then { x with authFail := true } else x

theorem Port.received_keeps (x : Port) (pos leaf : Nat) (rx : RxBundle) (good : Bool) :
    (x.received pos leaf rx good).dead = x.dead ∧ (x.received pos leaf rx good).delays = x.delays ∧
    (x.received pos leaf rx good).unrec = x.unrec ∧ (x.received pos leaf rx good).lands = x.lands ∧
    (rx.replayed = false → (pos, rx.crcOk) ∈ (x.received pos leaf rx good).verdicts) ∧
    (x.received pos leaf rx good).authFail = (rx.crcOk && !good || x.authFail) := by
  obtain ⟨b, l, hjudged⟩ := x.judged_frame rx.verdicts leaf
  unfold Port.received
  rw [hjudged]
  dsimp only
  cases rx.replayed <;> cases hbad : (rx.crcOk && !good) <;>
    exact ⟨rfl, rfl, rfl, rfl, by simp, by simp⟩

/-- A bundle that does not open, and that no replay can mend, is lost at once (R49, R51). -/
def isLost (rx : RxBundle) (pos : Nat) (good : Bool) : Bool := !good && (rx.crcOk || rx.replayed || isLate pos)

/-- The state in which a bundle has arrived and, when it is lost, has been counted. -/
def State.received (s : State) (p pos : Nat) (rx : RxBundle) (good lost : Bool) : State :=
  let t := s.updPort p fun x => x.received pos (s.gtc / 4096) rx good
  if lost then t.lose p (s.gtc / 4096 % 32) else t

/-- A bundle takes its place in a port's landing buffer (R49). -/
def Port.keep (x : Port) (l : LandBuf) : Port :=
  { x with lands := x.lands.filter (fun b => decide (b.pos ≠ l.pos ∨ b.leaf ≠ l.leaf)) ++ [l] }

/-- The state in which a bundle has been received and waits to land (R48, R49, R51). -/
def State.buffered (s : State) (p pos : Nat) (rx : RxBundle) (good lost : Bool) (bs : List Byte) : State :=
  (s.received p pos rx good lost).updPort p (·.keep ⟨pos, s.gtc / 4096, (s.received p pos rx good lost).landAbs pos, good, lost, rx.poison,
    rx.dataPoison, rx.source, bs⟩)

theorem Tab.put_put {α : Type} (t : Tab α) (k : Nat) (a b : α) : (t.put k a).put k b = t.put k b := by
  induction t with
  | nil => simp [Tab.put]
  | cons e r ih =>
    obtain ⟨j, x⟩ := e
    by_cases hlt : k < j
    · simp [Tab.put, hlt]
    · by_cases heq : k = j
      · simp [Tab.put, heq]
      · simp [Tab.put, hlt, heq, ih]

theorem State.updPort_updPort (s : State) (p : Nat) (f g : Port → Port) : (s.updPort p f).updPort p g = s.updPort p fun x => g (f x) := by
  have hports : (s.updPort p f).ports.update Port.fresh p g = s.ports.update Port.fresh p fun x => g (f x) := by
    rw [Tab.update, show (s.updPort p f).ports.get Port.fresh p = f (s.port p) from State.port_updPort_self s p f]
    exact Tab.put_put ..
  rw [State.updPort, hports]
  rfl

/-- What the model does to the port of a bundle that arrives, step by step, is one change. -/
theorem State.received_eq (s : State) (p pos leaf : Nat) (rx : RxBundle) (good : Bool) :
    (let s := s.updPort p fun x => x.judged rx.verdicts leaf
     let s := if rx.replayed then s else s.updPort p fun x => { x with verdicts := x.verdicts ++ [(pos, rx.crcOk)] }
     if rx.crcOk && !good then s.updPort p fun x => { x with authFail := true } else s) =
    s.updPort p fun x => x.received pos leaf rx good := by
  unfold Port.received
  cases rx.replayed <;> cases (rx.crcOk && !good) <;>
    simp only [Bool.false_eq_true, if_false, if_true, State.updPort_updPort]

/-- R44, R45: what a bundle needs to be received. -/
def State.receives (s : State) (p pos : Nat) (rx : RxBundle) : Prop := s.live = true ∧ (s.port p).locked = some (s.gtc / 4096) ∧
  s.paired p (s.gtc / 4096 % 32) = true ∧ s.arrives pos rx.replayed = true

/-- R45, R48, R49: a bundle waits to land, and one that opens tells what it holds. -/
theorem bundleReceive_eq (s : State) (p : Fin 16) (pos : Nat) (rx : RxBundle) (h : s.receives p.val pos rx) :
    exec (.bundleReceive p pos rx) s =
      let good := (s.opened p.val pos rx).isSome
      let t := s.buffered p.val pos rx good (isLost rx pos good) ((s.opened p.val pos rx).getD [])
      .next (match s.opened p.val pos rx with
        | none => t
        | some bs => t.readBundle p pos rx.poison bs) := by
  obtain ⟨hlive, hlocked, hpaired, harrives⟩ := h
  have hgo : ¬ (!s.live || !s.lockedIn p.val s.gtc || !s.paired p.val (leafOf s.gtc) || !s.arrives pos rx.replayed) = true := by
    have hleaf : s.paired p.val (leafOf s.gtc) = true := hpaired
    simp [hlive, State.lockedIn, hlocked, hleaf, harrives, leafNo]
  rw [exec_bundleReceive, execBundleReceive]
  dsimp only
  rw [if_neg hgo]
  generalize s.opened p.val pos rx = o
  rw [State.buffered, State.received, ← State.received_eq]
  rfl

theorem bundleReceive_idle {s : State} {p : Fin 16} {pos : Nat} {rx : RxBundle} (h : s.live = false ∨
    (s.port p.val).locked ≠ some (s.gtc / 4096) ∨ s.paired p.val (s.gtc / 4096 % 32) = false ∨ s.arrives pos rx.replayed = false) :
    exec (.bundleReceive p pos rx) s = .next s := by
  have hstop : (!s.live || !s.lockedIn p.val s.gtc || !s.paired p.val (s.gtc / 4096 % 32) || !s.arrives pos rx.replayed) = true := by
    rcases h with h | h | h | h <;> simp [State.lockedIn, leafNo, h]
  rw [exec_bundleReceive, execBundleReceive]
  exact congrArg _ (if_pos hstop)

/-- R48, R51: what a port keeps of a bundle that has arrived; one that is lost counts, and raises UNRECOVERED on a link that lives. -/
theorem State.received_keeps (s : State) (p pos : Nat) (rx : RxBundle) (good lost : Bool) :
    s.BesideMemory (s.received p pos rx good lost) ∧
    (s.received p pos rx good lost).port p = { (s.port p).received pos (s.gtc / 4096) rx good with
      unrec := if lost then min 0xFF ((s.port p).unrec + 1) else (s.port p).unrec } ∧
    (lost = true → s.linkDead p (s.gtc / 4096 % 32) = false → (s.received p pos rx good lost).sched.cause = 6) ∧
    (lost = false → (s.received p pos rx good lost).sched = s.sched) := by
  have hupd := s.updPort_besideMemory p fun x => x.received pos (s.gtc / 4096) rx good
  have hport := State.port_updPort_self s p fun x => x.received pos (s.gtc / 4096) rx good
  obtain ⟨hdead, hdelays, hunrec, -⟩ := (s.port p).received_keeps pos (s.gtc / 4096) rx good
  cases lost with
  | true =>
    obtain ⟨hlose, hlosePort, hcause⟩ := (s.updPort p fun x => x.received pos (s.gtc / 4096) rx good).lose_keeps p (s.gtc / 4096 % 32)
    rw [hport, hunrec] at hlosePort
    refine ⟨hupd.trans hlose, hlosePort, fun _ hlink => hcause ?_, nofun⟩
    rw [← hlink]
    exact State.linkDead_of_port ((congrArg Port.dead hport).trans hdead) ((congrArg Port.delays hport).trans hdelays) _
  | false =>
    refine ⟨hupd, hport.trans ?_, nofun, fun _ => rfl⟩
    rw [if_neg Bool.false_ne_true, ← hunrec]

/-- R48, R49, R51: a received bundle waits in the landing buffer with its verdict. -/
theorem State.buffered_keeps (s : State) (p pos : Nat) (rx : RxBundle) (good lost : Bool) (bs : List Byte) :
    s.BesideMemory (s.buffered p pos rx good lost bs) ∧ Waits (s.buffered p pos rx good lost bs) p pos rx good lost bs ∧
    (rx.replayed = false → (pos, rx.crcOk) ∈ ((s.buffered p pos rx good lost bs).port p).verdicts) ∧
    ((s.buffered p pos rx good lost bs).port p).authFail = (rx.crcOk && !good || (s.port p).authFail) ∧
    ((s.buffered p pos rx good lost bs).port p).unrec = (if lost then min 0xFF ((s.port p).unrec + 1) else (s.port p).unrec) ∧
    (s.buffered p pos rx good lost bs).sched = (s.received p pos rx good lost).sched := by
  obtain ⟨hreceived, hport, -, -⟩ := s.received_keeps p pos rx good lost
  obtain ⟨-, -, -, -, hverdict, hauth⟩ := (s.port p).received_keeps pos (s.gtc / 4096) rx good
  obtain ⟨hgtc, -⟩ := hreceived.keeps
  have hland : (s.received p pos rx good lost).landAbs pos = s.gtc / 4096 * 4096 + landTick pos := by rw [State.landAbs, hgtc]; rfl
  unfold Waits State.buffered
  rw [State.port_updPort_self, hland, hport]
  refine ⟨hreceived.trans (State.updPort_besideMemory _ _ _), ?_, hverdict, hauth, rfl, rfl⟩
  exact List.mem_append_right _ (List.mem_singleton.mpr (by rw [← hgtc]; rfl))

/-- A poison bit raises CONTAGION (R70, R73). -/
def State.contagion (s : State) (poison : Bool) : State := if poison then s.schedFault 8 else s

theorem State.contagion_keeps (s : State) (poison : Bool) :
    s.BesideMemory (s.contagion poison) ∧ (s.contagion poison).ports = s.ports ∧ (poison = true → (s.contagion poison).sched.cause = 8) := by
  cases poison
  · exact ⟨⟨⟨_, _, _, _, rfl⟩, rfl, rfl⟩, rfl, nofun⟩
  · exact ⟨s.schedFault_besideMemory 8, s.schedFault_ports 8, fun _ => (s.schedFault_sched 8).1⟩

/-- A position of the control leaf that carries zeros carries something else (R70). -/
def State.notZeros (s : State) (pos : Nat) (bs : List Byte) : Bool :=
  (decide (leafOf s.gtc = 0) && decide (pos ≤ 6)) && decide (pos ≠ 0) && bs.any (· ≠ 0)

/-- A bundle holds a control record of FORMAT 1 (R70). -/
def State.holdsRecord (s : State) (pos : Nat) (poison : Bool) (bs : List Byte) : Bool :=
  let ctl := decide (leafOf s.gtc = 0) && decide (pos ≤ 6)
  ((ctl && decide (pos = 0)) || (poison && !ctl)) && decide (getLE bs 0 4 = 1)

theorem State.notZeros_of {s : State} {pos : Nat} {bs : List Byte} (hleaf : s.gtc / 4096 % 32 = 0) (hlow : 1 ≤ pos) (hhigh : pos ≤ 6)
    (h : ∃ b ∈ bs, b ≠ 0) : s.notZeros pos bs = true := by
  obtain ⟨b, hb, hne⟩ := h
  have hany : bs.any (· ≠ 0) = true := List.any_eq_true.mpr ⟨b, hb, by simpa using hne⟩
  simp only [State.notZeros, leafOf, hleaf, hhigh, hany, Nat.pos_iff_ne_zero.mp hlow, ne_eq, not_false_eq_true, decide_true, Bool.and_self]

theorem State.holdsRecord_of {s : State} {pos : Nat} {poison : Bool} {bs : List Byte}
    (h : (s.gtc / 4096 % 32 = 0 ∧ pos = 0) ∨ (poison = true ∧ (s.gtc / 4096 % 32 ≠ 0 ∨ 6 < pos))) (hformat : getLE bs 0 4 = 1) :
    s.holdsRecord pos poison bs = true := by
  rcases h with ⟨hleaf, rfl⟩ | ⟨hp, hpos⟩
  · simp [State.holdsRecord, leafOf, hleaf, hformat]
  · have hnot : (decide (leafOf s.gtc = 0) && decide (pos ≤ 6)) = false := by
      rcases hpos with hpos | hpos
      · simp [leafOf, hpos]
      · simp [Nat.not_le.mpr hpos]
    simp [State.holdsRecord, hnot, hp, hformat]

/-- The state in which a bundle that opened has shown its poison bit and its zeros. -/
def State.noted (s : State) (p pos : Nat) (poison : Bool) (bs : List Byte) : State :=
  if s.notZeros pos bs then (s.contagion poison).updPort p fun x => { x with protoErr := true } else s.contagion poison

theorem State.noted_keeps (s : State) (p pos : Nat) (poison : Bool) (bs : List Byte) : s.BesideMemory (s.noted p pos poison bs) ∧
    (s.noted p pos poison bs).port p = { s.port p with protoErr := s.notZeros pos bs || (s.port p).protoErr } ∧
    (poison = true → (s.noted p pos poison bs).sched.cause = 8) := by
  obtain ⟨hbeside, hports, hcause⟩ := s.contagion_keeps poison
  have hport := State.port_of_ports hports p
  unfold State.noted
  cases s.notZeros pos bs with
  | true =>
    refine ⟨hbeside.trans (State.updPort_besideMemory _ _ _), (State.port_updPort_self _ _ _).trans ?_, hcause⟩
    rw [hport]
    rfl
  | false => exact ⟨hbeside, hport, hcause⟩

theorem State.readBundle_eq (s : State) (p : Fin 16) (pos : Nat) (poison : Bool) (bs : List Byte) : s.readBundle p pos poison bs =
    if s.holdsRecord pos poison bs then
      { s.noted p.val pos poison bs with pending := .controlRecordReceive p (readControl bs) :: (s.noted p.val pos poison bs).pending }
    else s.noted p.val pos poison bs := rfl

/-- R70, R73: what a bundle that opens tells at once. -/
theorem State.readBundle_keeps (s : State) (p : Fin 16) (pos : Nat) (poison : Bool) (bs : List Byte) :
    (s.readBundle p pos poison bs).mem = s.mem ∧ (s.readBundle p pos poison bs).gtc = s.gtc ∧
    (s.readBundle p pos poison bs).port p.val = { s.port p.val with protoErr := s.notZeros pos bs || (s.port p.val).protoErr } ∧
    (poison = true → (s.readBundle p pos poison bs).sched.cause = 8) ∧
    (s.holdsRecord pos poison bs = true → (s.readBundle p pos poison bs).pending = .controlRecordReceive p (readControl bs) :: s.pending) := by
  obtain ⟨hbeside, hport, hcause⟩ := s.noted_keeps p.val pos poison bs
  obtain ⟨hgtc, hmem, -, -, hpending⟩ := hbeside.keeps
  rw [State.readBundle_eq]
  split
  next => exact ⟨hmem, hgtc, hport, hcause, fun _ => congrArg _ hpending⟩
  next hnot => exact ⟨hmem, hgtc, hport, hcause, fun h => absurd h hnot⟩

/-! ### The outcomes of a reception -/

/-- R48, R49, R52, R70: a bundle that opens. -/
theorem bundleReceive_opened {s : State} {p : Fin 16} {pos : Nat} {rx : RxBundle} {bs : List Byte} (h : s.receives p.val pos rx)
    (hopen : s.opened p.val pos rx = some bs) : ∃ t, exec (.bundleReceive p pos rx) s = .next t ∧ t.mem = s.mem ∧ t.gtc = s.gtc ∧
      (rx.replayed = false → (pos, rx.crcOk) ∈ (t.port p.val).verdicts) ∧ Waits t p.val pos rx true false bs ∧
      (t.port p.val).authFail = (s.port p.val).authFail ∧ (t.port p.val).unrec = (s.port p.val).unrec ∧ (rx.poison = true → t.sched.cause = 8) ∧
      ((s.gtc / 4096 % 32 = 0 ∧ pos = 0) ∨ (rx.poison = true ∧ (s.gtc / 4096 % 32 ≠ 0 ∨ 6 < pos)) → getLE bs 0 4 = 1 →
        t.pending = .controlRecordReceive p (readControl bs) :: s.pending) ∧
      (s.gtc / 4096 % 32 = 0 → 1 ≤ pos → pos ≤ 6 → (∃ b ∈ bs, b ≠ 0) → (t.port p.val).protoErr = true) := by
  have heq := bundleReceive_eq s p pos rx h
  rw [hopen] at heq
  obtain ⟨hbeside, hwaits, hverdict, hauth, hunrec, -⟩ := s.buffered_keeps p.val pos rx true false bs
  obtain ⟨hgtc, hmem, -, -, hpending⟩ := hbeside.keeps
  refine ⟨(s.buffered p.val pos rx true false bs).readBundle p pos rx.poison bs, heq, ?_⟩
  generalize s.buffered p.val pos rx true false bs = u at *
  obtain ⟨hmem', hgtc', hport, hcause, hrecord⟩ := u.readBundle_keeps p pos rx.poison bs
  unfold Waits at hwaits ⊢
  rw [hport, hgtc']
  refine ⟨hmem'.trans hmem, hgtc, hverdict, hwaits, hauth.trans ?_, hunrec, hcause, fun hin hformat => ?_, fun hleaf hlow hhigh hne => ?_⟩
  · rw [Bool.not_true, Bool.and_false, Bool.false_or]
  · rw [← hpending]
    exact hrecord (State.holdsRecord_of (by rw [hgtc]; exact hin) hformat)
  · exact Bool.or_eq_true_iff.mpr (.inl (State.notZeros_of (by rw [hgtc]; exact hleaf) hlow hhigh hne))

/-- R48, R49, R51, R52: a bundle that does not open waits as a gap, and is lost unless its replay may mend it. -/
theorem bundleReceive_closed {s : State} {p : Fin 16} {pos : Nat} {rx : RxBundle} (h : s.receives p.val pos rx)
    (hopen : s.opened p.val pos rx = none) : ∃ t, exec (.bundleReceive p pos rx) s = .next t ∧ t.mem = s.mem ∧ t.gtc = s.gtc ∧
      (rx.replayed = false → (pos, rx.crcOk) ∈ (t.port p.val).verdicts) ∧ Waits t p.val pos rx false (isLost rx pos false) [] ∧
      (t.port p.val).authFail = (rx.crcOk || (s.port p.val).authFail) ∧
      (isLost rx pos false = true → (t.port p.val).unrec = min 0xFF ((s.port p.val).unrec + 1) ∧
        (s.linkDead p.val (s.gtc / 4096 % 32) = false → t.sched.cause = 6)) ∧
      (isLost rx pos false = false → (t.port p.val).unrec = (s.port p.val).unrec ∧ t.sched = s.sched) := by
  have heq := bundleReceive_eq s p pos rx h
  rw [hopen] at heq
  obtain ⟨hbeside, hwaits, hverdict, hauth, hunrec, hsched⟩ := s.buffered_keeps p.val pos rx false (isLost rx pos false) []
  obtain ⟨-, -, hcause, hsame⟩ := s.received_keeps p.val pos rx false (isLost rx pos false)
  obtain ⟨hgtc, hmem, -⟩ := hbeside.keeps
  refine ⟨_, heq, hmem, hgtc, hverdict, hwaits, hauth.trans ?_, fun hlost => ⟨hunrec.trans (if_pos hlost), fun hlink => ?_⟩, fun hlost => ⟨?_, ?_⟩⟩
  · rw [Bool.not_false, Bool.and_true]
  · exact (congrArg Sched.cause hsched).trans (hcause hlost hlink)
  · exact hunrec.trans (if_neg (Bool.eq_false_iff.mp hlost))
  · exact hsched.trans (hsame hlost)

/-! ### Landings (R49 to R51, R53, R54, R393, R401) -/

/-- The bundle of a position as a port's landing buffer holds it, or a gap. -/
def State.waiting (s : State) (p pos leaf : Nat) : LandBuf :=
  ((s.port p).lands.find? fun b => decide (b.pos = pos ∧ b.leaf = leaf)).getD ⟨pos, leaf, s.gtc, false, false, false, false, 0, []⟩

/-- A bundle leaves a port's landing buffer. -/
def Port.release (x : Port) (pos leaf : Nat) : Port := { x with lands := x.lands.filter fun b => decide (b.pos ≠ pos ∨ b.leaf ≠ leaf) }

/-- What a landing bundle leaves beside memory: it has left the buffer, and one that has not come whole is unrecovered, once. -/
def State.Released (s t : State) (p pos leaf : Nat) (b : LandBuf) : Prop :=
  (t.port p).lands = ((s.port p).release pos leaf).lands ∧
  (b.ok = false → b.raised = false → (t.port p).unrec = min 0xFF ((s.port p).unrec + 1) ∧
    (s.linkDead p (leaf % 32) = false → t.sched.cause = 6)) ∧
  (b.ok = true ∨ b.raised = true → (t.port p).unrec = (s.port p).unrec ∧ t.sched = s.sched)

theorem State.Released.congr {s t u : State} {p pos leaf : Nat} {b : LandBuf} (h : s.Released t p pos leaf b) (hports : u.ports = t.ports)
    (hsched : u.sched = t.sched) : s.Released u p pos leaf b := by
  unfold State.Released
  rw [State.port_of_ports hports, hsched]
  exact h

theorem State.landed_eq (s : State) (p pos leaf : Nat) : s.landed p pos leaf =
    let b := s.waiting p pos leaf
    let t := s.updPort p (·.release pos leaf)
    if b.ok then (b, t)
    else ({ b with payload := freeBytes 4096 (Config.draw t.draw) },
      if b.raised then { t with draw := t.draw + 1 } else ({ t with draw := t.draw + 1 } : State).lose p (leaf % 32)) := rfl

/-- R49, R51: the bundle that lands is the one that waited, but for the bytes of one that did not come whole. -/
theorem State.landed_keeps (s : State) (p pos leaf : Nat) : s.BesideMemory (s.landed p pos leaf).2 ∧
    s.Released (s.landed p pos leaf).2 p pos leaf (s.waiting p pos leaf) ∧
    (s.landed p pos leaf).1 = { s.waiting p pos leaf with payload := (s.landed p pos leaf).1.payload } ∧
    ((s.waiting p pos leaf).ok = true → (s.landed p pos leaf).1 = s.waiting p pos leaf) := by
  have hupd := s.updPort_besideMemory p (·.release pos leaf)
  have hport := State.port_updPort_self s p (·.release pos leaf)
  have hlands : ((s.updPort p (·.release pos leaf)).port p).lands = ((s.port p).release pos leaf).lands := by rw [hport]
  have hunrec : ((s.updPort p (·.release pos leaf)).port p).unrec = (s.port p).unrec := by rw [hport]; rfl
  have hdead : ((s.updPort p (·.release pos leaf)).port p).dead = (s.port p).dead := by rw [hport]; rfl
  have hdelays : ((s.updPort p (·.release pos leaf)).port p).delays = (s.port p).delays := by rw [hport]; rfl
  have hdrawn : s.BesideMemory { s.updPort p (·.release pos leaf) with draw := s.draw + 1 } := ⟨⟨_, _, _, _, rfl⟩, rfl, rfl⟩
  rw [State.landed_eq]
  generalize s.waiting p pos leaf = b
  dsimp only
  by_cases hok : b.ok = true
  · rw [if_pos hok]
    refine ⟨hupd, ⟨hlands, fun h => absurd hok (Bool.eq_false_iff.mp h), fun _ => ⟨hunrec, rfl⟩⟩, rfl, fun _ => rfl⟩
  · rw [if_neg hok]
    generalize freeBytes 4096 _ = bs
    by_cases hraised : b.raised = true
    · rw [if_pos hraised]
      refine ⟨hdrawn, ⟨hlands, fun _ h => absurd hraised (Bool.eq_false_iff.mp h), fun _ => ⟨hunrec, rfl⟩⟩,
        rfl, fun h => absurd h hok⟩
    · rw [if_neg hraised]
      obtain ⟨hlose, hlosePort, hcause⟩ := ({ s.updPort p (·.release pos leaf) with draw := s.draw + 1 } : State).lose_keeps p (leaf % 32)
      have hlink : ({ s.updPort p (·.release pos leaf) with draw := s.draw + 1 } : State).linkDead p (leaf % 32) = s.linkDead p (leaf % 32) :=
        State.linkDead_of_port hdead hdelays _
      rw [hlink] at hcause
      refine ⟨hdrawn.trans hlose, ⟨(congrArg Port.lands hlosePort).trans (hlands), fun _ _ => ⟨?_, hcause⟩,
        fun h => absurd h (not_or.mpr ⟨hok, hraised⟩)⟩, rfl, fun h => absurd h hok⟩
      exact (congrArg Port.unrec hlosePort).trans (congrArg (fun n => min 0xFF (n + 1)) hunrec)

/-- The cells of a bundle that lands, byte by byte; a byte in a unit without a POD position has none (R393). -/
def landCells (cs : List (Option Nat)) (f : Nat → Byte) (m : Option MCls) : List (Nat × Byte × Option MCls) :=
  cs.zipIdx.filterMap fun e => e.1.map fun a => (a, f e.2, m)

theorem landCells_addrs (cs : List (Option Nat)) (f : Nat → Byte) (m : Option MCls) :
    (landCells cs f m).map (·.1) = cs.filterMap fun a => a := by
  have hfst : (fun e : Option Nat × Nat => (e.1.map fun a => (a, f e.2, m)).map (·.1)) = (fun a => a) ∘ Prod.fst := by
    funext ⟨c, k⟩
    cases c <;> rfl
  rw [landCells, List.map_filterMap, hfst, ← List.filterMap_map, List.zipIdx_map_fst]

theorem mem_landCells {cs : List (Option Nat)} {k a : Nat} (h : cs[k]? = some (some a)) (f : Nat → Byte) (m : Option MCls) :
    (a, f k, m) ∈ landCells cs f m :=
  List.mem_filterMap.mpr ⟨(some a, k), List.mem_zipIdx_iff_getElem?.mpr h, rfl⟩

/-- The cells of a run's area are apart (R175, R176). -/
theorem State.runCells_nodup (s : State) (core addr : Nat) : ((s.runCells core addr).filterMap fun a => a).Nodup := by
  unfold State.runCells
  dsimp only
  rw [List.filterMap_map]
  refine List.nodup_range.filterMap fun j k a hj hk => ?_
  simp only [Function.comp, Option.mem_def, Option.ite_none_right_eq_some, Option.some.injEq, scratchCell_mode0] at hj hk
  omega

/-- What a landing position does at its R50 tick, by the use of its run (R50, R53, R54, R393). -/
def State.landRun (s : State) (port : Fin 16) (pos t : Nat) (b : LandBuf) (r : Run) : State :=
  if r.use = 1 then
    s.landWrite port.val pos (landCells (s.runCells r.core (r.addrOf pos)) (fun k => b.payload.getD k 0)
      (if b.ok && !b.poison && !b.dataPoison then none else some MCls.fabric))
  else if r.use = 2 then
    { s with relays := s.relays ++
        [⟨r.outPort, r.outPos + (pos - r.first), t + r.outLeaf * 4096, b.payload, !b.ok || b.poison, b.dataPoison⟩] }
  else if r.use = 3 ∧ b.ok ∧ !b.poison then
    { s with pending := (readRecords pos b.dataPoison 256 b.payload).map (recordStep port b.source) ++ s.pending }
  else s

theorem State.landLeaf_now {s : State} {pos : Nat} (h : s.gtc = s.gtc / 4096 * 4096 + landTick pos) : s.landLeaf pos = some (s.gtc / 4096) :=
  if_pos h.symm

/-- R49, R50: a position lands on its R50 tick. -/
theorem landing_eq (s : State) (p : Fin 16) (pos : Nat) (hnow : s.gtc = s.gtc / 4096 * 4096 + landTick pos) (hlands : pos ∈ s.landsNow p.val) :
    exec (.landing p pos) s =
      let e := s.landed p.val pos (s.gtc / 4096)
      .next (match s.runAt (s.gtc / 4096 * 4096) p.val false pos with
        | none => e.2
        | some r => e.2.landRun p pos (s.gtc / 4096 * 4096) e.1 r) := by
  obtain ⟨hbeside, -⟩ := s.landed_keeps p.val pos (s.gtc / 4096)
  have hrun := hbeside.runAt (s.gtc / 4096 * 4096) p.val false pos
  rw [exec_landing, execLanding]
  simp only [State.landLeaf_now hnow, List.contains_iff_mem.mpr hlands, Bool.not_true, Bool.false_eq_true, if_false]
  rw [hrun]
  rfl

/-- Whatever a landing does, the port, the schedule and the tick stay as the bundle left them. -/
theorem State.landRun_keeps (s : State) (p : Fin 16) (pos t : Nat) (b : LandBuf) (r : Run) : (s.landRun p pos t b r).gtc = s.gtc ∧
    (s.landRun p pos t b r).ports = s.ports ∧ (s.landRun p pos t b r).sched = s.sched ∧ (s.MemOk → (s.landRun p pos t b r).MemOk) := by
  unfold State.landRun
  split
  · obtain ⟨hgtc, -, hsched, hports, -⟩ := (s.landWrite_writeOnly p.val pos _).keeps
    exact ⟨hgtc, hports, hsched, fun h => State.writeNow_wf _ h⟩
  · split
    · exact ⟨rfl, rfl, rfl, fun h => h⟩
    · split <;> exact ⟨rfl, rfl, rfl, fun h => h⟩

/-- R50, R393, R401: the cells of a landing hold the bundle's bytes, marked unless it came whole and clean; no other byte changes. -/
theorem State.landRun_cells {s : State} (p : Fin 16) (pos t : Nat) (b : LandBuf) {r : Run} (huse : r.use = 1) (hok : s.MemOk)
    (h : Precede s ((s.runCells r.core (r.addrOf pos)).filterMap fun a => a)) :
    (∀ k a, (s.runCells r.core (r.addrOf pos))[k]? = some (some a) → (s.landRun p pos t b r).byteAt a = b.payload.getD k 0 ∧
      (s.landRun p pos t b r).markAt a = if b.ok = true ∧ b.poison = false ∧ b.dataPoison = false then none else some .fabric) ∧
    ∀ a, some a ∉ s.runCells r.core (r.addrOf pos) →
      (s.landRun p pos t b r).byteAt a = s.byteAt a ∧ (s.landRun p pos t b r).markAt a = s.markAt a := by
  have hnd := s.runCells_nodup r.core (r.addrOf pos)
  rw [State.landRun, if_pos huse]
  generalize s.runCells r.core (r.addrOf pos) = cs at h hnd ⊢
  have hmark : (if (b.ok && !b.poison && !b.dataPoison) = true then none else some MCls.fabric) =
      if b.ok = true ∧ b.poison = false ∧ b.dataPoison = false then none else some MCls.fabric := by
    simp only [Bool.and_eq_true, Bool.not_eq_true', and_assoc]
  rw [hmark]
  generalize (if b.ok = true ∧ b.poison = false ∧ b.dataPoison = false then none else some MCls.fabric) = m
  have haddrs := landCells_addrs cs (fun k => b.payload.getD k 0) m
  obtain ⟨hin, hout⟩ := State.landWrite_read p.val pos hok (haddrs ▸ h) (haddrs ▸ hnd)
  refine ⟨fun k a hk => hin _ (mem_landCells hk _ m), fun a ha => hout a fun hmem => ha ?_⟩
  rw [haddrs] at hmem
  obtain ⟨_, hc, rfl⟩ := List.mem_filterMap.mp hmem
  exact hc

/-! ### What a port receives, together -/

/-- R48, R49, R51, R52, R70: a bundle that arrives at a locked port. -/
theorem bundleReceive_outcome (s : State) (p : Fin 16) (pos : Nat) (rx : RxBundle) (h : s.receives p.val pos rx) :
    ∃ t, exec (.bundleReceive p pos rx) s = .next t ∧
      t.mem = s.mem ∧ t.gtc = s.gtc ∧ (rx.replayed = false → (pos, rx.crcOk) ∈ (t.port p.val).verdicts) ∧
      (∀ bs, s.opened p.val pos rx = some bs → Waits t p.val pos rx true false bs ∧ (t.port p.val).authFail = (s.port p.val).authFail ∧
        (t.port p.val).unrec = (s.port p.val).unrec ∧ (rx.poison = true → t.sched.cause = 8) ∧
        ((s.gtc / 4096 % 32 = 0 ∧ pos = 0) ∨ (rx.poison = true ∧ (s.gtc / 4096 % 32 ≠ 0 ∨ 6 < pos)) → getLE bs 0 4 = 1 →
          t.pending = .controlRecordReceive p (readControl bs) :: s.pending) ∧
        (s.gtc / 4096 % 32 = 0 → 1 ≤ pos → pos ≤ 6 → (∃ b ∈ bs, b ≠ 0) → (t.port p.val).protoErr = true)) ∧
      (s.opened p.val pos rx = none → rx.crcOk = true → Waits t p.val pos rx false true [] ∧ (t.port p.val).authFail = true ∧
        (t.port p.val).unrec = min 0xFF ((s.port p.val).unrec + 1) ∧ (s.linkDead p.val (s.gtc / 4096 % 32) = false → t.sched.cause = 6)) ∧
      (rx.crcOk = false → (rx.replayed = true ∨ 564 ≤ pos) → Waits t p.val pos rx false true [] ∧
        (t.port p.val).unrec = min 0xFF ((s.port p.val).unrec + 1) ∧ (s.linkDead p.val (s.gtc / 4096 % 32) = false → t.sched.cause = 6)) ∧
      (rx.crcOk = false → rx.replayed = false → pos < 564 → Waits t p.val pos rx false false [] ∧
        (t.port p.val).unrec = (s.port p.val).unrec ∧ t.sched = s.sched) := by
  have hbroken : rx.crcOk = false → s.opened p.val pos rx = none := fun hcrc => if_neg (Bool.eq_false_iff.mp hcrc)
  cases hopen : s.opened p.val pos rx with
  | some bs =>
    obtain ⟨t, heq, hmem, hgtc, hverdict, htells⟩ := bundleReceive_opened h hopen
    have hwhole : rx.crcOk ≠ false := fun hcrc => Option.some_ne_none bs (hopen.symm.trans (hbroken hcrc))
    refine ⟨t, heq, hmem, hgtc, hverdict, fun bs' hbs => ?_, nofun, fun hcrc => absurd hcrc hwhole, fun hcrc => absurd hcrc hwhole⟩
    obtain rfl := Option.some.inj hbs
    exact htells
  | none =>
    obtain ⟨t, heq, hmem, hgtc, hverdict, hwaits, hauth, hlost, hheld⟩ := bundleReceive_closed h hopen
    refine ⟨t, heq, hmem, hgtc, hverdict, nofun, fun _ hcrc => ?_, fun hcrc hlate => ?_, fun hcrc hfirst hearly => ?_⟩
    · have his : isLost rx pos false = true := by simp [isLost, hcrc]
      rw [his] at hwaits
      rw [hcrc, Bool.true_or] at hauth
      exact ⟨hwaits, hauth, hlost his⟩
    · have his : isLost rx pos false = true := by
        rcases hlate with hlate | hlate <;> simp [isLost, isLate, hlate]
      rw [his] at hwaits
      exact ⟨hwaits, hlost his⟩
    · have his : isLost rx pos false = false := by simp [isLost, isLate, hcrc, hfirst, hearly]
      rw [his] at hwaits
      exact ⟨hwaits, hheld his⟩

/-- R49, R50, R53, R54, R393, R401: a bundle lands on its R50 tick. -/
theorem landing_outcome (s : State) (p : Fin 16) (pos : Nat) (b : LandBuf) (r : Run) (hnow : s.gtc = s.gtc / 4096 * 4096 + landTick pos)
    (hlands : pos ∈ s.landsNow p.val)
    (hb : (s.port p.val).lands.find? (fun x => decide (x.pos = pos ∧ x.leaf = s.gtc / 4096)) = some b)
    (hr : s.runAt (s.gtc / 4096 * 4096) p.val false pos = some r) (hok : s.MemOk) :
    let cells := s.runCells r.core (r.addr + 4096 * (pos - r.first))
    ∃ t, exec (.landing p pos) s = .next t ∧ t.gtc = s.gtc ∧ t.MemOk ∧
      (∀ x ∈ (t.port p.val).lands, x.pos ≠ pos ∨ x.leaf ≠ s.gtc / 4096) ∧
      (b.ok = false → b.raised = false → (t.port p.val).unrec = min 0xFF ((s.port p.val).unrec + 1) ∧
        (s.linkDead p.val (s.gtc / 4096 % 32) = false → t.sched.cause = 6)) ∧
      (b.ok = true ∨ b.raised = true → (t.port p.val).unrec = (s.port p.val).unrec ∧ t.sched = s.sched) ∧
      (r.use = 1 → Precede s (cells.filterMap fun a => a) → (∀ k a, k < 4096 → cells[k]? = some (some a) →
        (b.ok = true → t.byteAt a = b.payload.getD k 0) ∧
        t.markAt a = (if b.ok = true ∧ b.poison = false ∧ b.dataPoison = false then none else some .fabric)) ∧
        ∀ a, some a ∉ cells → t.byteAt a = s.byteAt a ∧ t.markAt a = s.markAt a) ∧
      (r.use = 2 → t.mem = s.mem ∧ ∃ bs, (b.ok = true → bs = b.payload) ∧ t.relays = s.relays ++
        [⟨r.outPort, r.outPos + (pos - r.first), s.gtc / 4096 * 4096 + r.outLeaf * 4096, bs, !b.ok || b.poison, b.dataPoison⟩]) ∧
      (r.use = 3 → t.mem = s.mem ∧
        (b.ok = true → b.poison = false →
          t.pending = (readRecords pos b.dataPoison 256 b.payload).map (recordStep p b.source) ++ s.pending) ∧
        (b.ok = false ∨ b.poison = true → t.pending = s.pending)) := by
  have hwaiting : s.waiting p.val pos (s.gtc / 4096) = b := congrArg (Option.getD · _) hb
  obtain ⟨hbeside, hreleased, hbundle, hwhole⟩ := s.landed_keeps p.val pos (s.gtc / 4096)
  have heq := landing_eq s p pos hnow hlands
  rw [hr] at heq
  rw [hwaiting] at hreleased hbundle hwhole
  generalize s.landed p.val pos (s.gtc / 4096) = e at *
  obtain ⟨c, u⟩ := e
  dsimp only at *
  obtain ⟨bs, rfl⟩ : ∃ bs, c = { b with payload := bs } := ⟨_, hbundle⟩
  obtain ⟨hgtc, hmem, -, hrelays, hpending⟩ := hbeside.keeps
  have hoku : u.MemOk := by rw [State.MemOk, hmem]; exact hok
  have hcells := hbeside.runCells r.core (r.addrOf pos)
  obtain ⟨hgtc', hports, hsched, hok'⟩ := u.landRun_keeps p pos (s.gtc / 4096 * 4096) { b with payload := bs } r
  obtain ⟨hbuffer, hgap, hcame⟩ := hreleased.congr hports hsched
  have hbytes : b.ok = true → bs = b.payload := fun h => congrArg LandBuf.payload (hwhole h)
  refine ⟨_, heq, hgtc'.trans hgtc, hok' hoku, fun x hx => ?_, hgap, hcame, fun huse hprec => ?_, fun huse => ?_, fun huse => ?_⟩
  · rw [hbuffer] at hx
    exact of_decide_eq_true (List.mem_filter.mp hx).2
  · obtain ⟨hin, hout⟩ := u.landRun_cells p pos (s.gtc / 4096 * 4096) { b with payload := bs } huse hoku
      (by rw [hcells]; exact hbeside.precede hprec)
    rw [hcells] at hin hout
    refine ⟨fun k a _ hk => ?_, fun a ha => ?_⟩
    · obtain ⟨hbyte, hmark⟩ := hin k a hk
      exact ⟨fun h => hbytes h ▸ hbyte, hmark⟩
    · obtain ⟨hbyte, hmark⟩ := hout a ha
      obtain ⟨hbyte', hmark'⟩ := hbeside.reads a
      exact ⟨hbyte.trans hbyte', hmark.trans hmark'⟩
  · rw [State.landRun, if_neg (by rw [huse]; decide), if_pos huse]
    exact ⟨hmem, bs, hbytes, congrArg (· ++ _) hrelays⟩
  · rw [State.landRun, if_neg (by rw [huse]; decide), if_neg (by rw [huse]; decide)]
    refine ⟨?_, fun hwholeb hclean => ?_, fun hbad => ?_⟩
    · split <;> exact hmem
    · rw [if_pos ⟨huse, hwholeb, by rw [hclean]; rfl⟩, hbytes hwholeb, hpending]
    · rw [if_neg, hpending]
      rintro ⟨-, hwholeb, hclean⟩
      rcases hbad with h | h <;> simp [h] at hwholeb hclean

/-- R44 to R53, R57, R70, R393, R401. -/
theorem reception : Reception := by
  refine ⟨portDark_outcome, fun s p leaf => State.linkDead_iff, fun s p => portDark_idle, fun s p => ⟨fun hcheck hlive hleaves =>
      ⟨_, portDead_dying hcheck hlive hleaves, rfl, State.port_updPort_self .., fun q hq => State.port_updPort_ne _ _ hq⟩, portDead_idle⟩,
    fun s p pos rx => ⟨fun hcrc => if_neg (Bool.eq_false_iff.mp hcrc), fun hcrc => if_pos hcrc⟩,
    fun s p pos rx hlive hlocked hpaired harrives => bundleReceive_outcome s p pos rx ⟨hlive, hlocked, hpaired, harrives⟩,
    fun s p pos rx => bundleReceive_idle, landing_outcome, fun s p pos hnow hlands hnone => ?_⟩
  have hwaiting : s.waiting p.val pos (s.gtc / 4096) = ⟨pos, s.gtc / 4096, s.gtc, false, false, false, false, 0, []⟩ :=
    congrArg (Option.getD · _) hnone
  obtain ⟨-, hreleased, -⟩ := s.landed_keeps p.val pos (s.gtc / 4096)
  rw [hwaiting] at hreleased
  refine ⟨_, landing_eq s p pos hnow hlands, ?_⟩
  split
  next => exact hreleased.2.1 rfl rfl
  next r _ =>
    obtain ⟨-, hports, hsched, -⟩ := (s.landed p.val pos (s.gtc / 4096)).2.landRun_keeps p pos (s.gtc / 4096 * 4096)
      (s.landed p.val pos (s.gtc / 4096)).1 r
    exact (hreleased.congr hports hsched).2.1 rfl rfl

/-- Settles O57: what a port sends, and what it receives. -/
theorem fabricBundles : Obligations.FabricBundles := ⟨transmission, reception⟩

end Sys2Proof.Machine
end

section
/-! SUPPORT. Rounds of resynchronisation (R70, R73 to R78): what a halted POD grid leaves, how requests in flight fail, and each state of a round. -/

namespace Sys2Proof.Machine

/-! ### Tables and lists -/

theorem mem_dedup {α : Type} [DecidableEq α] {l : List α} {x : α} : x ∈ dedup l ↔ x ∈ l := by
  have hfold (l acc : List α) : x ∈ l.foldl (fun acc y => if y ∈ acc then acc else acc ++ [y]) acc ↔ x ∈ acc ∨ x ∈ l := by
    induction l generalizing acc with
    | nil => simp
    | cons y r ih =>
      rw [List.foldl_cons, ih, List.mem_cons]
      split
      next hy =>
        refine ⟨Or.imp_right Or.inr, ?_⟩
        rintro (hacc | rfl | hr)
        · exact .inl hacc
        · exact .inl hy
        · exact .inr hr
      next => rw [List.mem_append, List.mem_singleton, or_assoc]
  exact (hfold l []).trans (by simp)

theorem Tab.mem_of_find? {α : Type} {t : Tab α} {k : Nat} {a : α} (h : t.find? k = some a) : (k, a) ∈ t := by
  induction t with
  | nil => exact absurd h nofun
  | cons e r ih =>
    obtain ⟨j, b⟩ := e
    simp only [Tab.find?] at h
    split at h
    next hj => obtain rfl := Option.some.inj h; exact hj ▸ List.mem_cons_self
    next => exact List.mem_cons_of_mem _ (ih h)

theorem Tab.find?_isSome {α : Type} {t : Tab α} {k : Nat} : (t.find? k).isSome = true ↔ k ∈ t.map (·.1) := by
  induction t with
  | nil => simp
  | cons e r ih =>
    obtain ⟨j, b⟩ := e
    simp only [Tab.find?, List.map_cons, List.mem_cons, ← ih]
    split
    next hj => simp [hj]
    next hj => simp [Ne.symm hj]

/-! ### The commands of records -/

theorem State.putCells_recs (s : State) (cs : List (Nat × Byte × Option MCls)) : (s.putCells cs).recs = s.recs :=
  (congrArg State.recs (s.putCells_frame cs)).trans rfl

theorem State.putBits_recs (s : State) (l : List (Nat × Byte × Byte × Option MCls)) : (l.foldl State.putBits s).recs = s.recs :=
  List.foldlRecOn (motive := fun t : State => t.recs = s.recs) l State.putBits rfl fun _ ht _ _ => ht

theorem State.atoms_recs (s : State) (l : List Atom) : (s.atoms l).2.2.recs = s.recs :=
  List.foldlRecOn (motive := fun r : Tab Word × Tab MCls × State => r.2.2.recs = s.recs) l _ rfl fun r hr a _ => (State.atom_recs r.2.2 a).trans hr

theorem State.addTo_recs (s : State) (a inc : Nat) : (s.addTo a inc).recs = s.recs :=
  (State.putCells_recs _ _).trans ((State.sawBad_recs _ _).trans (s.remember_beside _).1)

/-- An answer fills the data of a reply record, and leaves the command of every record. -/
theorem State.fillAnswer_recCmds (s : State) (id : Nat) (old : Word) (m : Option MCls) :
    (s.fillAnswer id old m).recs.map (·.cmd) = s.recs.map (·.cmd) := by
  refine (List.map_map ..).trans (List.map_congr_left fun r _ => ?_)
  dsimp only [Function.comp]
  split <;> rfl

/-- A write leaves the command of every record that waits. -/
theorem State.applyWrite_recCmds (s : State) (w : PWrite) : (s.applyWrite w).recs.map (·.cmd) = s.recs.map (·.cmd) := by
  have hatoms := (State.atoms_recs (w.bits.foldl State.putBits
    (((s.keepBase w.addrs).remember (w.cells.map (·.1) ++ w.bits.map (·.1))).putCells w.cells)) w.atoms).trans
    ((State.putBits_recs _ w.bits).trans ((State.putCells_recs _ w.cells).trans ((s.keepBase w.addrs).remember_beside _).1))
  unfold State.applyWrite
  dsimp only
  cases w.add with
  | none =>
    cases w.ret with
    | none => exact congrArg _ hatoms
    | landing k id => exact congrArg _ hatoms
    | answer id => exact (State.fillAnswer_recCmds _ _ _ _).trans (congrArg _ hatoms)
  | some e =>
    have hadd := (State.addTo_recs _ e.1 e.2).trans hatoms
    cases w.ret with
    | none => exact congrArg _ hadd
    | landing k id => exact congrArg _ hadd
    | answer id => exact (State.fillAnswer_recCmds _ _ _ _).trans (congrArg _ hadd)

theorem State.redo_recCmds (s : State) : s.redo.recs.map (·.cmd) = s.recs.map (·.cmd) :=
  List.foldlRecOn (motive := fun t : State => t.recs.map (·.cmd) = s.recs.map (·.cmd)) _ State.applyWrite
    (congrArg _ (s.putCells_recs s.base)) fun t ht w _ => (t.applyWrite_recCmds w).trans ht

theorem State.writeNow_recCmds (s : State) (w : PWrite) : (s.writeNow w).recs.map (·.cmd) = s.recs.map (·.cmd) := by
  unfold State.writeNow; dsimp only
  split
  · exact State.redo_recCmds _
  · exact s.applyWrite_recCmds w

/-! ### What the end of a fabric command leaves -/

/-- A warp stays at its place, and remembers every failed command that it did. -/
def Warp.Remembers (w u : Warp) : Prop := u.grid = w.grid ∧ u.start = w.start ∧ ∀ t ∈ w.failed, t ∈ u.failed

theorem Warp.SamePlace.remembers {w u : Warp} (h : w.SamePlace u) : w.Remembers u := by
  obtain ⟨hgrid, hstart, hfailed⟩ := h
  exact ⟨hgrid, hstart, fun t ht => hfailed ▸ ht⟩

theorem Warp.Remembers.trans {w u v : Warp} (h : w.Remembers u) (h' : u.Remembers v) : w.Remembers v := by
  obtain ⟨hgrid, hstart, hfailed⟩ := h
  obtain ⟨hgrid', hstart', hfailed'⟩ := h'
  exact ⟨hgrid'.trans hgrid, hstart'.trans hstart, fun t ht => hfailed' t (hfailed t ht)⟩

/-- Commands and what they write may differ, and what their warps await; not the tick, the grids, the staged bundles, the schedule, the warps that
there are, or which records are requests. -/
def State.FabricOnly (s t : State) : Prop :=
  (t.gtc = s.gtc ∧ t.grids = s.grids ∧ t.stage = s.stage ∧ t.sched = s.sched) ∧ t.recs.map (·.cmd) = s.recs.map (·.cmd) ∧
  t.warps.map (·.1) = s.warps.map (·.1) ∧ ∀ k w, s.warp? k = some w → ∃ u, t.warp? k = some u ∧ w.Remembers u

theorem State.SameWarps.remembers {s t : State} (h : s.SameWarps t) : t.warps.map (·.1) = s.warps.map (·.1) ∧
    ∀ k w, s.warp? k = some w → ∃ u, t.warp? k = some u ∧ w.Remembers u := by
  obtain ⟨hkeys, hwarps⟩ := h
  refine ⟨hkeys, fun k w hw => ?_⟩
  obtain ⟨u, hu, hplace⟩ := hwarps k w hw
  exact ⟨u, hu, hplace.remembers⟩

theorem State.FabricOnly.refl (s : State) : s.FabricOnly s := ⟨⟨rfl, rfl, rfl, rfl⟩, rfl, (State.SameWarps.of_eq rfl).remembers⟩

theorem State.FabricOnly.trans {s t u : State} (h : s.FabricOnly t) (h' : t.FabricOnly u) : s.FabricOnly u := by
  obtain ⟨⟨hgtc, hgrids, hstage, hsched⟩, hrecs, hkeys, hwarps⟩ := h
  obtain ⟨⟨hgtc', hgrids', hstage', hsched'⟩, hrecs', hkeys', hwarps'⟩ := h'
  refine ⟨⟨hgtc'.trans hgtc, hgrids'.trans hgrids, hstage'.trans hstage, hsched'.trans hsched⟩, hrecs'.trans hrecs, hkeys'.trans hkeys,
    fun k w hw => ?_⟩
  obtain ⟨v, hv, hvw⟩ := hwarps k w hw
  obtain ⟨u, hu, huv⟩ := hwarps' k v hv
  exact ⟨u, hu, hvw.trans huv⟩

theorem State.fabricOnly_foldl {α : Type} (f : State → α → State) (hf : ∀ (s : State) x, s.FabricOnly (f s x)) (l : List α) (s : State) :
    s.FabricOnly (l.foldl f s) :=
  List.foldlRecOn (motive := fun t : State => s.FabricOnly t) l f (State.FabricOnly.refl s) fun t ht x _ => ht.trans (hf t x)

theorem State.updCmd_fabricOnly (s : State) (ord : Nat) (f : EngCmd → EngCmd) : s.FabricOnly (s.updCmd ord f) :=
  ⟨⟨rfl, rfl, rfl, rfl⟩, rfl, (State.SameWarps.of_eq rfl).remembers⟩

theorem State.cmdWarp_fabricOnly (s : State) (c : EngCmd) {f : Warp → Warp} (hf : ∀ w : Warp, w.Remembers (f w)) : s.FabricOnly (s.cmdWarp c f) := by
  refine ⟨⟨rfl, rfl, rfl, rfl⟩, rfl, Tab.keys_modify s.warps c.warp fun w => if w.grid = c.grid ∧ w.start = c.inst then f w else w, fun k w hw => ?_⟩
  rcases eq_or_ne k c.warp with rfl | hk
  · refine ⟨_, (State.warp?_updWarp_self s c.warp _).trans (congrArg (Option.map _) hw), ?_⟩
    dsimp only
    split
    · exact hf w
    · exact ⟨rfl, rfl, fun t ht => ht⟩
  · exact ⟨w, (State.warp?_updWarp_ne s _ hk).trans hw, rfl, rfl, fun t ht => ht⟩

theorem State.writeNow_fabricOnly (s : State) (w : PWrite) : s.FabricOnly (s.writeNow w) := by
  obtain ⟨⟨_, _, _, _, _, _, _, _, hframe⟩, hwarps, -⟩ := s.writeNow_writeOnly w
  exact ⟨⟨by rw [hframe], by rw [hframe], by rw [hframe], by rw [hframe]⟩, s.writeNow_recCmds w, hwarps.remembers⟩

theorem State.issueWrite_fabricOnly (s : State) (w : PWrite) : s.FabricOnly (s.issueWrite w) := by
  unfold State.issueWrite
  split
  · exact s.writeNow_fabricOnly w
  · exact ⟨⟨rfl, rfl, rfl, rfl⟩, rfl, (State.SameWarps.of_eq rfl).remembers⟩

theorem State.statusWord_fabricOnly (s : State) (c : EngCmd) (w : Nat) (bs : List Byte) : s.FabricOnly (s.statusWord c w bs) := by
  unfold State.statusWord
  split
  · exact State.FabricOnly.refl s
  · exact State.writeNow_fabricOnly _ _

theorem State.countNow_fabricOnly (s : State) (ord : Nat) : s.FabricOnly (s.countNow ord) := by
  unfold State.countNow
  split
  next => exact State.FabricOnly.refl s
  next c _ =>
    split
    next g d _ _ =>
      split
      next => exact State.FabricOnly.refl s
      next =>
        have hmark := (s.updCmd_fabricOnly ord fun c => { (c.fixCount d) with added := true }).trans
          (State.cmdWarp_fabricOnly _ c fun w => (w.raiseBy_samePlace c.issue s.gtc (if c.csp = 1 then 1 else 2) d).remembers)
        dsimp only
        split
        · exact hmark
        · exact hmark.trans (State.issueWrite_fabricOnly _ _)
    next => exact State.FabricOnly.refl s

theorem State.doneCmd_fabricOnly (s : State) (ord : Nat) : s.FabricOnly (s.doneCmd ord) := by
  cases hc : s.cmdsE.find? ord with
  | none =>
    have hnone : s.doneCmd ord = s := by unfold State.doneCmd; simp only [hc]
    exact hnone.symm ▸ State.FabricOnly.refl s
  | some c =>
    have hfinished : s.FabricOnly (s.finished ord) := s.updCmd_fabricOnly ord _
    rcases State.doneCmd_cases hc with heq | heq | ⟨f, hf, heq⟩ <;> rw [heq]
    · exact State.FabricOnly.refl s
    · exact hfinished
    · exact hfinished.trans (State.cmdWarp_fabricOnly _ c fun w => (hf w).remembers)

theorem State.finishCmd_fabricOnly (s : State) (ord scope : Nat) : s.FabricOnly (s.finishCmd ord scope) := by
  unfold State.finishCmd
  split
  next => exact State.FabricOnly.refl s
  next c _ =>
    split
    · exact State.FabricOnly.refl s
    · exact (((s.updCmd_fabricOnly ord _).trans (State.cmdWarp_fabricOnly _ c fun w => (w.raiseBy_samePlace c.issue s.gtc scope s.gtc).remembers)).trans
        (State.countNow_fabricOnly _ ord)).trans (State.doneCmd_fabricOnly _ ord)

/-! ### Requests in flight fail (R75, R367) -/

theorem State.markFailed_fabricOnly (s : State) (c : EngCmd) : s.FabricOnly (s.markFailed c) :=
  s.cmdWarp_fabricOnly c fun _ => ⟨rfl, rfl, fun _ ht => List.mem_append_left _ ht⟩

/-- A command fails in two parts: what its end does, and the mark that its warp remembers. -/
theorem State.failNow_eq (s : State) (c : EngCmd) : ∃ u, s.FabricOnly u ∧ s.failNow c = u.markFailed c := by
  unfold State.failNow
  split
  · exact ⟨_, s.updCmd_fabricOnly c.ord _, rfl⟩
  · refine ⟨_, State.FabricOnly.trans ?_ (State.finishCmd_fabricOnly _ c.ord c.fabricScope), rfl⟩
    split
    · exact s.statusWord_fabricOnly c _ _
    · exact State.FabricOnly.refl s

theorem State.failNow_fabricOnly (s : State) (c : EngCmd) : s.FabricOnly (s.failNow c) := by
  obtain ⟨u, hu, heq⟩ := s.failNow_eq c
  exact heq ▸ hu.trans (u.markFailed_fabricOnly c)

/-- The warp of a failed command is still at its place and remembers this tick. -/
def State.Failed (s : State) (c : EngCmd) : Prop := ∃ v, s.warp? c.warp = some v ∧ s.gtc ∈ v.failed

theorem State.failNow_failed {s : State} {c : EngCmd} {w : Warp} (hw : s.warp? c.warp = some w) (hgrid : w.grid = c.grid)
    (hstart : w.start = c.inst) : (s.failNow c).Failed c := by
  obtain ⟨u, ⟨-, -, -, hwarps⟩, heq⟩ := s.failNow_eq c
  obtain ⟨v, hv, hvgrid, hvstart, -⟩ := hwarps c.warp w hw
  rw [heq]
  exact ⟨_, State.markFailed_warp hv (hvgrid.trans hgrid) (hvstart.trans hstart), List.mem_append_right _ List.mem_cons_self⟩

theorem State.Failed.keeps {s t : State} {c : EngCmd} (h : s.Failed c) (hst : s.FabricOnly t) : t.Failed c := by
  obtain ⟨v, hv, hfailed⟩ := h
  obtain ⟨⟨hgtc, -⟩, -, -, hwarps⟩ := hst
  obtain ⟨u, hu, -, -, hremember⟩ := hwarps c.warp v hv
  exact ⟨u, hu, hgtc ▸ hremember s.gtc hfailed⟩

/-- Of commands that fail one after the other, the warp of each remembers it. -/
theorem State.failNows_failed {s : State} {l : List (Nat × EngCmd)} {e : Nat × EngCmd} {w : Warp} (he : e ∈ l) (hw : s.warp? e.2.warp = some w)
    (hgrid : w.grid = e.2.grid) (hstart : w.start = e.2.inst) : (l.foldl (fun s (e : Nat × EngCmd) => s.failNow e.2) s).Failed e.2 := by
  have hkeeps := State.fabricOnly_foldl (fun s (e : Nat × EngCmd) => s.failNow e.2) fun s e => s.failNow_fabricOnly e.2
  obtain ⟨pre, post, rfl⟩ := List.append_of_mem he
  obtain ⟨-, -, -, hwarps⟩ := hkeeps pre s
  obtain ⟨v, hv, hvgrid, hvstart, -⟩ := hwarps _ w hw
  rw [List.foldl_append, List.foldl_cons]
  exact (State.failNow_failed hv (hvgrid.trans hgrid) (hvstart.trans hstart)).keeps (hkeeps post _)

/-- The records that wait as requests go. -/
def State.dropRequests (s : State) : State := { s with recs := s.recs.filter fun r => r.cmd.isNone }

theorem State.failRoutes_fabricOnly (s : State) : s.dropRequests.FabricOnly s.failRoutes :=
  State.fabricOnly_foldl _ (fun s (e : Nat × EngCmd) => s.failNow_fabricOnly e.2) _ _

theorem State.failRoutes_keeps (s : State) :
    (s.failRoutes.gtc = s.gtc ∧ s.failRoutes.grids = s.grids ∧ s.failRoutes.stage = s.stage ∧ s.failRoutes.sched = s.sched) ∧
    s.failRoutes.warps.map (·.1) = s.warps.map (·.1) ∧ ∀ k w, s.warp? k = some w → ∃ u, s.failRoutes.warp? k = some u ∧ w.Remembers u := by
  obtain ⟨hkeeps, -, hwarps⟩ := s.failRoutes_fabricOnly
  exact ⟨hkeeps, hwarps⟩

theorem State.failRoutes_recs (s : State) : ∀ r ∈ s.failRoutes.recs, r.cmd = none := by
  intro r hr
  obtain ⟨-, hcmds, -⟩ := s.failRoutes_fabricOnly
  have hcmd : r.cmd ∈ s.dropRequests.recs.map (·.cmd) := hcmds ▸ List.mem_map_of_mem hr
  obtain ⟨x, hx, heq⟩ := List.mem_map.mp hcmd
  exact heq ▸ Option.isNone_iff_eq_none.mp (List.mem_filter.mp hx).2

/-- A fabric command that has started and is not complete fails with its routes. -/
theorem State.failRoutes_failed {s : State} {o : Nat} {c : EngCmd} {w : Warp} (hc : s.cmdsE.find? o = some c) (hlo : 5 ≤ c.fn) (hhi : c.fn ≤ 8)
    (hs : c.s.isSome = true) (hdone : ∀ d, c.done = some d → s.gtc < d) (hw : s.warp? c.warp = some w) (hgrid : w.grid = c.grid)
    (hstart : w.start = c.inst) : s.failRoutes.Failed c := by
  have hopen : byTick c.done s.gtc = false := by
    unfold byTick
    split
    next d hd => exact decide_eq_false (Nat.not_le.mpr (hdone d hd))
    next => rfl
  exact State.failNows_failed (s := s.dropRequests) (e := (o, c))
    (List.mem_filter.mpr ⟨Tab.mem_of_find? hc, by simp [hlo, hhi, hs, hopen]⟩) hw hgrid hstart

/-! ### A halted grid (R75, R90, R134, R144, R219) -/

/-- Neither a staged bundle nor a warp comes; every grid stays in the table, and one that has stopped stays so. -/
def State.HaltOnly (s t : State) : Prop :=
  t.gtc = s.gtc ∧ t.sched = s.sched ∧
  (∀ id h, s.grids.find? id = some h → ∃ x, t.grids.find? id = some x ∧ (h.stopped = true → x.stopped = true)) ∧
  (∀ k, ∀ b ∈ t.stage.get [] k, b ∈ s.stage.get [] k) ∧ ∀ e ∈ t.warps, ∃ d ∈ s.warps, d.2.grid = e.2.grid

theorem State.HaltOnly.of_eq {s t : State} (hgtc : t.gtc = s.gtc) (hsched : t.sched = s.sched) (hgrids : t.grids = s.grids)
    (hstage : t.stage = s.stage) (hwarps : ∀ e ∈ t.warps, ∃ d ∈ s.warps, d.2.grid = e.2.grid) : s.HaltOnly t :=
  ⟨hgtc, hsched, fun _ h hh => ⟨h, hgrids ▸ hh, fun hs => hs⟩, fun _ _ hb => hstage ▸ hb, hwarps⟩

theorem State.HaltOnly.refl (s : State) : s.HaltOnly s := .of_eq rfl rfl rfl rfl fun e he => ⟨e, he, rfl⟩

theorem State.HaltOnly.trans {s t u : State} (h : s.HaltOnly t) (h' : t.HaltOnly u) : s.HaltOnly u := by
  obtain ⟨hgtc, hsched, hgrids, hstage, hwarps⟩ := h
  obtain ⟨hgtc', hsched', hgrids', hstage', hwarps'⟩ := h'
  refine ⟨hgtc'.trans hgtc, hsched'.trans hsched, fun id g hg => ?_, fun k b hb => hstage k b (hstage' k b hb), fun e he => ?_⟩
  · obtain ⟨x, hx, hstop⟩ := hgrids id g hg
    obtain ⟨y, hy, hstop'⟩ := hgrids' id x hx
    exact ⟨y, hy, fun hg => hstop' (hstop hg)⟩
  · obtain ⟨d, hd, hgrid⟩ := hwarps' e he
    obtain ⟨c, hc, hgrid'⟩ := hwarps d hd
    exact ⟨c, hc, hgrid'.trans hgrid⟩

theorem State.haltOnly_foldl {α : Type} (f : State → α → State) (hf : ∀ (s : State) x, s.HaltOnly (f s x)) (l : List α) (s : State) :
    s.HaltOnly (l.foldl f s) :=
  List.foldlRecOn (motive := fun t : State => s.HaltOnly t) l f (State.HaltOnly.refl s) fun t ht x _ => ht.trans (hf t x)

theorem State.updGrid_haltOnly (s : State) (gid : Nat) {f : Grid → Grid} (hf : ∀ g : Grid, g.stopped = true → (f g).stopped = true) :
    s.HaltOnly (s.updGrid gid f) := by
  refine ⟨rfl, rfl, fun id h hh => ?_, fun k b hb => hb, fun e he => ⟨e, he, rfl⟩⟩
  by_cases hid : id = gid
  · subst hid
    exact ⟨f h, (Tab.find?_modify_self s.grids id f).trans (congrArg (Option.map f) hh), hf h⟩
  · exact ⟨h, (Tab.find?_modify_ne s.grids f hid).trans hh, fun hs => hs⟩

theorem Warp.exitStream_gone (w : Warp) (t : Nat) :
    ((w.exitStream .acc t).grid = w.grid ∧ (w.exitStream .acc t).acc.gone = true) ∧
    (w.exitStream .exe t).grid = w.grid ∧ (w.exitStream .exe t).acc = w.acc ∧ (w.exitStream .exe t).exe.gone = true :=
  ⟨⟨rfl, rfl⟩, rfl, rfl, rfl⟩

/-- Both streams of a stopped warp have exited. -/
theorem Warp.stop_gone (w : Warp) (t : Nat) : (w.stop t).grid = w.grid ∧ (w.stop t).acc.gone = true ∧ (w.stop t).exe.gone = true := by
  have hacc : (if w.acc.gone then w else w.exitStream .acc t).grid = w.grid ∧ (if w.acc.gone then w else w.exitStream .acc t).acc.gone = true := by
    split
    next h => exact ⟨rfl, h⟩
    next => exact (w.exitStream_gone t).1
  unfold Warp.stop
  split
  next h => exact ⟨rfl, h⟩
  next =>
    generalize (if w.acc.gone then w else w.exitStream .acc t) = v at hacc ⊢
    obtain ⟨hgrid, hgone⟩ := hacc
    dsimp only
    split
    next h => exact ⟨hgrid, hgone, h⟩
    next =>
      obtain ⟨-, hgrid', hacc', hexe⟩ := v.exitStream_gone t
      exact ⟨hgrid'.trans hgrid, hacc' ▸ hgone, hexe⟩

theorem State.mem_stopWarps {s : State} {gid : Nat} {e : Nat × Warp} (h : e ∈ (s.stopWarps gid).warps) :
    (∃ d ∈ s.warps, d.2.grid = e.2.grid) ∧ (e.2.grid = gid → e.2.acc.gone = true ∧ e.2.exe.gone = true) := by
  obtain ⟨d, hd, rfl⟩ := List.mem_map.mp h
  split
  next hg =>
    obtain ⟨hgrid, hgone⟩ := d.2.stop_gone s.gtc
    exact ⟨⟨d, hd, hgrid.symm⟩, fun _ => hgone⟩
  next hg => exact ⟨⟨d, hd, rfl⟩, fun h => absurd h hg⟩

theorem State.stopWarps_haltOnly (s : State) (gid : Nat) : s.HaltOnly (s.stopWarps gid) :=
  .of_eq rfl rfl rfl rfl fun _ he => (State.mem_stopWarps he).1

theorem State.killCmds_frame (s : State) (gid : Nat) : ∃ c w, s.killCmds gid = { s with cmdsE := c, writes := w } := by
  unfold State.killCmds
  dsimp only
  split <;> exact ⟨_, _, rfl⟩

theorem State.killCmds_haltOnly (s : State) (gid : Nat) : s.HaltOnly (s.killCmds gid) := by
  obtain ⟨c, w, heq⟩ := s.killCmds_frame gid
  rw [heq]
  exact .of_eq rfl rfl rfl rfl fun e he => ⟨e, he, rfl⟩

theorem State.mem_noteExit {s : State} {gid j : Nat} {e : Nat × Warp} :
    e ∈ (s.noteExit gid j).warps ↔ e ∈ s.warps ∧ (e.2.grid, e.2.pos) ≠ (gid, j) := by
  refine List.mem_filter.trans (and_congr_right fun _ => ?_)
  simp [imp_iff_not_or]

theorem State.noteExit_haltOnly (s : State) (gid j : Nat) : s.HaltOnly (s.noteExit gid j) := by
  obtain ⟨w, c, f, heq, hf⟩ : ∃ w c f, s.noteExit gid j = ({ s with warps := w, sec := c } : State).updGrid gid f ∧
      ∀ g : Grid, g.stopped = true → (f g).stopped = true := ⟨_, _, _, rfl, fun _ hg => hg⟩
  have hwarps : (s.noteExit gid j).warps = w := congrArg State.warps heq
  have hbefore : s.HaltOnly { s with warps := w, sec := c } :=
    .of_eq rfl rfl rfl rfl fun e he => ⟨e, (State.mem_noteExit.mp (hwarps ▸ he)).1, rfl⟩
  exact heq ▸ hbefore.trans (State.updGrid_haltOnly _ gid hf)

theorem State.noteExits_haltOnly (s : State) : s.HaltOnly s.noteExits :=
  State.haltOnly_foldl _ (fun s (p : Nat × Nat) => s.noteExit_haltOnly p.1 p.2) _ s

theorem State.mem_noteExitList {s : State} {l : List (Nat × Nat)} {e : Nat × Warp}
    (h : e ∈ (l.foldl (fun s (p : Nat × Nat) => s.noteExit p.1 p.2) s).warps) : e ∈ s.warps ∧ (e.2.grid, e.2.pos) ∉ l := by
  induction l generalizing s with
  | nil => exact ⟨h, List.not_mem_nil⟩
  | cons p r ih =>
    obtain ⟨hin, hr⟩ := ih h
    obtain ⟨hs, hp⟩ := State.mem_noteExit.mp hin
    exact ⟨hs, fun hmem => (List.mem_cons.mp hmem).elim hp hr⟩

/-- Where all warps of a grid have exited, so have its instances. -/
theorem State.mem_exitedInstances {s : State} {e : Nat × Warp} (he : e ∈ s.warps)
    (hgone : ∀ d ∈ s.warps, d.2.grid = e.2.grid → d.2.acc.gone = true ∧ d.2.exe.gone = true) :
    (e.2.grid, e.2.pos) ∈ s.exitedInstances := by
  have hdone : e ∈ s.warps.filter fun (e : Nat × Warp) => e.2.acc.gone && e.2.exe.gone :=
    List.mem_filter.mpr ⟨he, Bool.and_eq_true_iff.mpr (hgone e he rfl)⟩
  refine List.mem_filter.mpr ⟨mem_dedup.mpr (List.mem_map.mpr ⟨e, hdone, rfl⟩), List.all_eq_true.mpr fun d hd => ?_⟩
  obtain ⟨hd, hplace⟩ := List.mem_filter.mp hd
  exact Bool.and_eq_true_iff.mpr (hgone d hd (of_decide_eq_true hplace).1)

/-- Once all warps of a grid have exited, the end of its instances leaves none of them. -/
theorem State.noteExits_vacates {s : State} {gid : Nat} (hgone : ∀ d ∈ s.warps, d.2.grid = gid → d.2.acc.gone = true ∧ d.2.exe.gone = true) :
    ∀ e ∈ s.noteExits.warps, e.2.grid ≠ gid := by
  rintro e he rfl
  obtain ⟨hs, hnot⟩ := State.mem_noteExitList he
  exact hnot (State.mem_exitedInstances hs hgone)

/-- A grid's instances end with their warps and their commands. -/
def State.endInstances (s : State) (gid : Nat) : State := ((s.stopWarps gid).killCmds gid).noteExits

theorem State.endInstances_haltOnly (s : State) (gid : Nat) : s.HaltOnly (s.endInstances gid) :=
  ((s.stopWarps_haltOnly gid).trans (State.killCmds_haltOnly _ gid)).trans (State.noteExits_haltOnly _)

theorem State.endInstances_vacates (s : State) (gid : Nat) : ∀ e ∈ (s.endInstances gid).warps, e.2.grid ≠ gid := by
  refine State.noteExits_vacates fun d hd => (State.mem_stopWarps (s := s) ?_).2
  obtain ⟨c, w, heq⟩ := (s.stopWarps gid).killCmds_frame gid
  exact (congrArg State.warps heq).trans rfl ▸ hd

/-- A grid that stops for a schedule fault. -/
def Grid.halt (g : Grid) : Grid := { g with stopped := true, failCode := if g.stopped then g.failCode else 23 }

/-- The staged bundles of a grid go. -/
def State.unstage (s : State) (gid : Nat) : State :=
  { s with stage := s.stage.map fun (e : Nat × List Staged) => (e.1, e.2.filter fun b => decide (b.grid ≠ gid)) }

theorem State.mem_unstage {s : State} {gid k : Nat} {b : Staged} (h : b ∈ (s.unstage gid).stage.get [] k) :
    b ∈ s.stage.get [] k ∧ b.grid ≠ gid := by
  have hmap : (s.unstage gid).stage.get [] k = (s.stage.get [] k).filter fun b => decide (b.grid ≠ gid) := by
    simp only [State.unstage, Tab.get, Tab.find?_map s.stage fun l : List Staged => l.filter fun b => decide (b.grid ≠ gid)]
    cases s.stage.find? k <;> rfl
  obtain ⟨hb, hgrid⟩ := List.mem_filter.mp (hmap ▸ h)
  exact ⟨hb, of_decide_eq_true hgrid⟩

theorem State.unstage_haltOnly (s : State) (gid : Nat) : s.HaltOnly (s.unstage gid) :=
  ⟨rfl, rfl, fun _ h hh => ⟨h, hh, fun hs => hs⟩, fun _ _ hb => (State.mem_unstage hb).1, fun e he => ⟨e, he, rfl⟩⟩

/-- The scratch of a grid's placed positions is cleared. -/
def State.clearPlaced (s : State) (base : Nat) (g : Grid) : State :=
  g.poss.foldl (fun s (q : Nat × PosState) =>
    if q.2.placed then s.clearScratch (base + g.lcore q.1) (g.unit0 q.1 * 65536) (g.hdr.scru * 65536) else s) s

theorem State.clearPlaced_haltOnly (s : State) (base : Nat) (g : Grid) : s.HaltOnly (s.clearPlaced base g) := by
  refine State.haltOnly_foldl _ (fun s (q : Nat × PosState) => ?_) g.poss s
  split
  · exact .of_eq rfl rfl rfl rfl fun e he => ⟨e, he, rfl⟩
  · exact State.HaltOnly.refl s

theorem State.haltGrid_eq (s : State) (gid : Nat) (g : Grid) : ∃ base,
    s.haltGrid gid g = (((s.updGrid gid Grid.halt).endInstances gid).unstage gid).clearPlaced base g := ⟨_, rfl⟩

theorem State.haltGrid_haltOnly (s : State) (gid : Nat) (g : Grid) : s.HaltOnly (s.haltGrid gid g) := by
  obtain ⟨base, heq⟩ := s.haltGrid_eq gid g
  exact heq ▸ (((s.updGrid_haltOnly gid (f := Grid.halt) fun _ _ => rfl).trans (State.endInstances_haltOnly _ gid)).trans
    (State.unstage_haltOnly _ gid)).trans (State.clearPlaced_haltOnly _ base g)

/-- A grid has stopped, and neither a staged bundle nor a warp is its own. -/
def State.Halted (s : State) (gid : Nat) : Prop :=
  (∃ h, s.grids.find? gid = some h ∧ h.stopped = true) ∧ (∀ k, ∀ b ∈ s.stage.get [] k, b.grid ≠ gid) ∧ ∀ e ∈ s.warps, e.2.grid ≠ gid

theorem State.Halted.keeps {s t : State} {gid : Nat} (h : s.Halted gid) (hst : s.HaltOnly t) : t.Halted gid := by
  obtain ⟨⟨g, hg, hstop⟩, hstage, hwarps⟩ := h
  obtain ⟨-, -, hgrids', hstage', hwarps'⟩ := hst
  refine ⟨?_, fun k b hb => hstage k b (hstage' k b hb), fun e he => ?_⟩
  · obtain ⟨x, hx, hstop'⟩ := hgrids' gid g hg
    exact ⟨x, hx, hstop' hstop⟩
  · obtain ⟨d, hd, hgrid⟩ := hwarps' e he
    exact hgrid ▸ hwarps d hd

theorem State.haltGrid_halts {s : State} {gid : Nat} (g : Grid) (h : (s.grids.find? gid).isSome = true) : (s.haltGrid gid g).Halted gid := by
  obtain ⟨x, hx⟩ := Option.isSome_iff_exists.mp h
  obtain ⟨base, heq⟩ := s.haltGrid_eq gid g
  have hstop : (s.updGrid gid Grid.halt).grids.find? gid = some x.halt :=
    (Tab.find?_modify_self s.grids gid Grid.halt).trans (congrArg (Option.map Grid.halt) hx)
  obtain ⟨-, -, hgrids, -⟩ := (s.updGrid gid Grid.halt).endInstances_haltOnly gid
  obtain ⟨y, hy, hstopped⟩ := hgrids gid x.halt hstop
  have hhalted : (((s.updGrid gid Grid.halt).endInstances gid).unstage gid).Halted gid :=
    ⟨⟨y, hy, hstopped rfl⟩, fun k b hb => (State.mem_unstage hb).2, State.endInstances_vacates _ gid⟩
  exact heq ▸ hhalted.keeps (State.clearPlaced_haltOnly _ base g)

/-- Every POD grid halts. -/
def State.haltPods (s : State) : State := s.podGrids.foldl (fun s (e : Nat × Grid) => s.haltGrid e.1 e.2) s

theorem State.haltPods_haltOnly (s : State) : s.HaltOnly s.haltPods :=
  State.haltOnly_foldl _ (fun s (e : Nat × Grid) => s.haltGrid_haltOnly e.1 e.2) _ s

theorem State.haltPods_halted {s : State} {e : Nat × Grid} (he : e ∈ s.podGrids) : s.haltPods.Halted e.1 := by
  have hkeeps := State.haltOnly_foldl (fun s (e : Nat × Grid) => s.haltGrid e.1 e.2) fun s e => s.haltGrid_haltOnly e.1 e.2
  obtain ⟨x, hx⟩ := Option.isSome_iff_exists.mp (Tab.find?_isSome.mpr (List.mem_map_of_mem (List.mem_filter.mp he).1))
  unfold State.haltPods
  obtain ⟨pre, post, hsplit⟩ := List.append_of_mem he
  rw [hsplit, List.foldl_append, List.foldl_cons]
  obtain ⟨-, -, hgrids, -⟩ := hkeeps pre s
  obtain ⟨y, hy, -⟩ := hgrids e.1 x hx
  exact (State.haltGrid_halts e.2 (Option.isSome_iff_exists.mpr ⟨y, hy⟩)).keeps (hkeeps post _)

/-! ### A schedule fault (R73, R75) -/

theorem State.schedFault_outside {s : State} (cause : Nat) (h : s.sched.state = .idle ∨ s.sched.state = .halted) :
    (s.schedFault cause).sched = { s.sched with cause := cause } := by
  unfold State.schedFault
  dsimp only
  split
  next => rfl
  next hat => exact absurd h hat

/-- The fault frame of a schedule fault: its own, or the one before at the first leaf of a boundary frame (R75). -/
def State.faultFrame (s : State) : Nat :=
  if leafOf s.gtc = 0 && s.isBoundary (frameOf s.gtc) then frameOf s.gtc - 1 else frameOf s.gtc

theorem State.faultFrame_before {s : State} (hleaf : s.gtc / 4096 % 32 = 0) (hboundary : s.isBoundary (s.gtc / 131072) = true) :
    s.faultFrame = s.gtc / 131072 - 1 :=
  if_pos (Bool.and_eq_true_iff.mpr ⟨decide_eq_true hleaf, hboundary⟩)

theorem State.faultFrame_own {s : State} (h : ¬ (s.gtc / 4096 % 32 = 0 ∧ s.isBoundary (s.gtc / 131072) = true)) :
    s.faultFrame = s.gtc / 131072 :=
  if_neg fun hboth => h ((Bool.and_eq_true_iff.mp hboth).imp_left of_decide_eq_true)

theorem State.schedFault_first {s : State} (cause : Nat) (h : ¬ (s.sched.state = .idle ∨ s.sched.state = .halted)) :
    (s.schedFault cause).sched.faultAt = some (s.sched.faultAt.getD s.gtc) ∧
    (s.schedFault cause).sched.knownFirst = some (minOpt s.sched.knownFirst s.faultFrame) := by
  unfold State.schedFault
  dsimp only
  split
  next hout => exact absurd hout h
  next => exact ⟨rfl, rfl⟩

theorem schedFault_outcome (s : State) (cause : Nat) :
    let t := s.schedFault cause
    t.sched.cause = cause ∧ t.mem = s.mem ∧ t.gtc = s.gtc ∧ t.fw.events = s.fw.events ++ [⟨none, 3⟩] ∧ t.sched.state = s.sched.state ∧
    (s.sched.state = .idle ∨ s.sched.state = .halted → t.sched = { s.sched with cause := cause }) ∧
    (s.sched.state ≠ .idle → s.sched.state ≠ .halted → t.sched.faultAt = some (s.sched.faultAt.getD s.gtc) ∧
      (s.sched.knownFirst = none → ¬ (s.gtc / 4096 % 32 = 0 ∧ s.isBoundary (s.gtc / 131072) = true) →
        t.sched.knownFirst = some (s.gtc / 131072)) ∧
      (s.sched.knownFirst = none → s.gtc / 4096 % 32 = 0 → s.isBoundary (s.gtc / 131072) = true →
        t.sched.knownFirst = some (s.gtc / 131072 - 1))) := by
  intro t
  obtain ⟨hcause, hstate, -⟩ := s.schedFault_sched cause
  have hframe := s.schedFault_frame cause
  refine ⟨hcause, (congrArg State.mem hframe).trans rfl, (congrArg State.gtc hframe).trans rfl,
    (congrArg (fun t : State => t.fw.events) hframe).trans rfl, hstate, State.schedFault_outside cause, fun hidle hhalted => ?_⟩
  obtain ⟨hat, hfirst⟩ := State.schedFault_first cause (not_or.mpr ⟨hidle, hhalted⟩)
  refine ⟨hat, fun hnone hinside => ?_, fun hnone hleaf hboundary => ?_⟩
  · rw [hfirst, hnone, State.faultFrame_own hinside]; rfl
  · rw [hfirst, hnone, State.faultFrame_before hleaf hboundary]; rfl

/-! ### FAULT (R75) -/

/-- The device is in FAULT since a first frame. -/
def State.inFault (s : State) (f : Nat) : State := s.updSched fun c => { c with state := .fault, first := f, resume := f + 4 }

theorem enterFault_due {s : State} {f : Nat} (hdue : s.faultDue = true) (hf : s.sched.knownFirst = some f) :
    exec .enterFault s = .next (s.inFault f).haltPods.failRoutes := by
  rw [exec_enterFault, execEnterFault, hdue, hf]; rfl

theorem State.faultDue_of {s : State} {u : Nat} (hrun : s.sched.state = .run) (hleaf : s.gtc % 4096 = 0) (hu : s.sched.faultAt = some u)
    (hlt : u < s.gtc) (hheld : s.sched.held = 0) : s.faultDue = true := by
  simp [State.faultDue, isLeaf, leafTick, hrun, hleaf, hu, hlt, hheld]

theorem enterFault_outcome (s : State) (u f : Nat) (hrun : s.sched.state = .run) (hleaf : s.gtc % 4096 = 0) (hu : s.sched.faultAt = some u)
    (hlt : u < s.gtc) (hheld : s.sched.held = 0) (hf : s.sched.knownFirst = some f) :
    ∃ t, exec .enterFault s = .next t ∧ t.sched.state = .fault ∧ t.sched.first = f ∧ t.sched.resume = f + 4 ∧
      t.gtc = s.gtc ∧ (∀ r ∈ t.recs, r.cmd = none) ∧
      (s.podGrids = [] → t.stage = s.stage ∧ ∀ o c w, s.cmdsE.find? o = some c → c.ord = o → 5 ≤ c.fn → c.fn ≤ 8 →
        c.s.isSome = true → (∀ d, c.done = some d → s.gtc < d) → s.warp? c.warp = some w → w.grid = c.grid → w.start = c.inst →
        ∃ v, t.warp? c.warp = some v ∧ s.gtc ∈ v.failed) ∧
      ∀ gid g, s.podGrids.find? (fun e => decide (e.1 = gid)) = some (gid, g) →
        (∃ h, t.grids.find? gid = some h ∧ h.stopped = true) ∧ (∀ k, ∀ b ∈ t.stage.get [] k, b.grid ≠ gid) ∧
        ∀ k w, t.warp? k = some w → w.grid ≠ gid := by
  obtain ⟨hgtc, hsched, -⟩ := (s.inFault f).haltPods_haltOnly
  obtain ⟨⟨hgtc', hgrids', hstage', hsched'⟩, hkeys', hwarps'⟩ := (s.inFault f).haltPods.failRoutes_keeps
  have hsched : (s.inFault f).haltPods.failRoutes.sched = (s.inFault f).sched := hsched'.trans hsched
  have hgtc : (s.inFault f).haltPods.failRoutes.gtc = s.gtc := hgtc'.trans hgtc
  refine ⟨_, enterFault_due (State.faultDue_of hrun hleaf hu hlt hheld) hf, by rw [hsched]; rfl, by rw [hsched]; rfl, by rw [hsched]; rfl, hgtc,
    State.failRoutes_recs _, fun hnone => ?_, fun gid g hg => ?_⟩
  · have hsame : (s.inFault f).haltPods = s.inFault f := by
      have hnone' : (s.inFault f).podGrids = [] := hnone
      rw [State.haltPods, hnone']; rfl
    have hstage : (s.inFault f).haltPods.stage = s.stage := by rw [hsame]; rfl
    refine ⟨hstage'.trans hstage, fun o c w hc _ hlo hhi hs hdone hw hgrid hstart => ?_⟩
    obtain ⟨v, hv, hfailed⟩ := State.failRoutes_failed (s := s.inFault f) hc hlo hhi hs hdone hw hgrid hstart
    rw [hsame] at hgtc ⊢
    exact ⟨v, hv, hgtc ▸ hfailed⟩
  · obtain ⟨hstop, hstage, hwarps⟩ := State.haltPods_halted (s := s.inFault f) (List.mem_of_find?_eq_some hg)
    refine ⟨hgrids' ▸ hstop, fun k b hb => hstage k b (hstage' ▸ hb), fun k w hw => ?_⟩
    have hkey : k ∈ (s.inFault f).haltPods.warps.map (·.1) :=
      hkeys' ▸ Tab.find?_isSome.mp (Option.isSome_iff_exists.mpr ⟨w, hw⟩)
    obtain ⟨x, hx⟩ := Option.isSome_iff_exists.mp (Tab.find?_isSome.mpr hkey)
    obtain ⟨y, hy, hgrid, -⟩ := hwarps' k x hx
    obtain rfl := Option.some.inj (hy.symm.trans hw)
    exact hgrid ▸ hwarps (k, x) (Tab.mem_of_find? hx)

/-! ### AGREE and REALIGN (R75, R77) -/

theorem enterAgree_outcome (s : State) (f : Nat) (hfault : s.sched.state = .fault) (hleaf : s.gtc % 4096 = 0) (hf : s.sched.knownFirst = some f)
    (htick : (f + 2) * 131072 ≤ s.gtc) :
    let dead := dedup (s.ownDead ++ s.sched.deadLinks)
    let c := { s.sched with first := f, resume := f + 4, deadLinks := dead, chosen := s.chooseImage dead, agreeOk := true }
    (s.chooseImage dead ≠ none → exec .enterAgree s = .next { s with sched := { c with state := .agree } }) ∧
    (s.chooseImage dead = none → exec .enterAgree s = .next { s with sched := { c with state := .halted, active := false } }) := by
  intro dead c
  have hdue : s.agreeDue = true := by simp [State.agreeDue, isLeaf, leafTick, frameTick, frameTicks, hfault, hleaf, hf, htick]
  have heq : exec .enterAgree s = .next { s with sched :=
      if (s.chooseImage dead).isNone then ({ c with state := .agree } : Sched).halt else { c with state := .agree } } := by
    have hfirst : s.sched.knownFirst.getD 0 = f := by rw [hf]; rfl
    rw [exec_enterAgree, execEnterAgree, hdue, hfirst]; rfl
  refine ⟨fun hsome => ?_, fun hnone => ?_⟩
  · rw [heq, if_neg (by rwa [Option.isNone_iff_eq_none])]
  · rw [heq, if_pos (Option.isNone_iff_eq_none.mpr hnone)]; rfl

theorem enterRealign_outcome (s : State) (hagree : s.sched.state = .agree) (hleaf : s.gtc % 4096 = 0)
    (htick : (s.sched.first + 3) * 131072 ≤ s.gtc) :
    (s.sched.agreeOk = true → exec .enterRealign s = .next { s with sched := { s.sched with state := .realign } }) ∧
    (s.sched.agreeOk = false → exec .enterRealign s = .next { s with sched := { s.sched with state := .halted, active := false } }) := by
  have hdue : s.realignDue = true := by simp [State.realignDue, isLeaf, leafTick, frameTick, frameTicks, hagree, hleaf, htick]
  have heq : exec .enterRealign s = .next { s with sched :=
      if s.sched.agreeOk then { s.sched with state := .realign } else s.sched.halt } := by
    rw [exec_enterRealign, execEnterRealign, hdue]; rfl
  refine ⟨fun hok => ?_, fun hbad => ?_⟩
  · rw [heq, if_pos hok]
  · rw [heq, if_neg (Bool.eq_false_iff.mp hbad)]; rfl

/-! ### The resumed run and its relaunches (R75, R77, R78) -/

/-- The relaunches of a round, one after the other. -/
def State.relaunched (s : State) : State :=
  s.relaunches.foldl (fun t i => t.relaunch t.sched.base ((s.activeImage.map (·.period)).getD 1) i) s

/-- Boundary images of contexts that are at work stay. -/
def State.settleBoundaries (s : State) : State :=
  s.updFw fun f => { f with images := f.images.filter fun (i : StoredImage) => i.frame.isNone || s.atWork i.grid }

theorem resumeRun_due {s : State} (hdue : s.resumeDue = true) : exec .resumeRun s = .next (s.relaunched.settleBoundaries.updSched fun c =>
    { (c.start (c.chosen.getD c.image) c.resume) with rounds := min 0xFFFF (c.rounds + 1), hold := none, held := 0 }) := by
  rw [exec_resumeRun, execResumeRun, hdue]; rfl

theorem State.relaunched_keeps (s : State) : s.relaunched.mem = s.mem ∧ s.relaunched.sched = s.sched :=
  List.foldlRecOn (motive := fun t : State => t.mem = s.mem ∧ t.sched = s.sched) s.relaunches _ ⟨rfl, rfl⟩ fun _ ht _ _ => ht

/-- A relaunched context is fresh, from its boundary image, staged and taken now. -/
def State.relaunchGrid (s : State) (base period : Nat) (i : StoredImage) : Grid :=
  { Grid.fresh i.part i.lq (s.lqueue i.lq).prio i.addr s.gtc (some s.gtc) (relaunchStart i.start base period s.sched.resume) with slip0 := s.slips }

theorem State.relaunch_grid (s : State) (base period : Nat) (i : StoredImage) :
    (s.relaunch base period i).grids.find? s.fresh = some (s.relaunchGrid base period i) :=
  Tab.find?_put_self s.grids s.fresh _

theorem State.relaunch_atWork (s : State) (base period : Nat) (i : StoredImage) : (s.relaunch base period i).atWork s.fresh = true :=
  List.any_eq_true.mpr ⟨_, Tab.mem_of_find? (s.relaunch_grid base period i), by simp [State.relaunchGrid, Grid.fresh]⟩

/-- The stored image of a context goes over to its relaunch. -/
theorem State.relaunch_image {s : State} (base period : Nat) {i : StoredImage} (hi : i ∈ s.fw.images) (hframe : i.frame.isSome = true) :
    ({ i with grid := s.fresh, start := relaunchStart i.start base period s.sched.resume } : StoredImage) ∈
      (s.relaunch base period i).fw.images :=
  List.mem_map.mpr ⟨i, hi, if_pos ⟨rfl, hframe⟩⟩

theorem resumeRun_outcome (s : State) (hrealign : s.sched.state = .realign) (htick : s.sched.resume * 131072 ≤ s.gtc) :
    ∃ t, exec .resumeRun s = .next t ∧ t.mem = s.mem ∧
    t.sched.state = .run ∧ t.sched.active = true ∧ t.sched.image = s.sched.chosen.getD s.sched.image ∧ t.sched.base = s.sched.resume ∧
    t.sched.rounds = min 0xFFFF (s.sched.rounds + 1) ∧ t.sched.hold = none ∧ t.sched.held = 0 ∧
    (s.relaunches = [] → t.grids = s.grids) ∧
    ∀ i, s.relaunches = [i] → ∃ g, t.grids.find? s.fresh = some g ∧ g.image = i.addr ∧ g.part = i.part ∧ g.take = s.gtc ∧ g.d = some s.gtc ∧
      (i.start = 0 → g.start = 0) ∧
      (i ∈ s.fw.images → i.frame.isSome = true → ∃ j ∈ t.fw.images, j.addr = i.addr ∧ j.frame = i.frame ∧ j.grid = s.fresh) := by
  have hdue : s.resumeDue = true := by simp [State.resumeDue, frameTick, frameTicks, hrealign, htick]
  obtain ⟨hmem, hsched⟩ := s.relaunched_keeps
  refine ⟨_, resumeRun_due hdue, hmem, rfl, rfl, by rw [← hsched]; rfl, by rw [← hsched]; rfl, by rw [← hsched]; rfl, rfl, rfl, fun hnone => ?_,
    fun i hone => ?_⟩
  · show s.relaunched.grids = s.grids
    rw [State.relaunched, hnone]; rfl
  · generalize hperiod : (s.activeImage.map (·.period)).getD 1 = period
    have heq : s.relaunched = s.relaunch s.sched.base period i := by rw [State.relaunched, hone, hperiod]; rfl
    rw [heq]
    refine ⟨_, s.relaunch_grid s.sched.base period i, rfl, rfl, rfl, rfl, fun hstart => if_pos hstart, fun hi hframe => ?_⟩
    refine ⟨_, List.mem_filter.mpr ⟨State.relaunch_image s.sched.base period hi hframe, ?_⟩, rfl, rfl, rfl⟩
    exact Bool.or_eq_true_iff.mpr (.inr (s.relaunch_atWork s.sched.base period i))

/-- Settles O56: a round state by state, each by what it enters and when it does nothing. -/
theorem resynchronisation : Obligations.Resynchronisation := by
  refine ⟨schedFault_outcome, enterFault_outcome, fun s hdue => ?_, enterAgree_outcome, enterRealign_outcome, fun s hdue => ?_, fun s hdue => ?_,
    resumeRun_outcome, fun s hdue => ?_⟩
  · rw [exec_enterFault, execEnterFault, hdue]; rfl
  · rw [exec_enterAgree, execEnterAgree, hdue]; rfl
  · rw [exec_enterRealign, execEnterRealign, hdue]; rfl
  · rw [exec_resumeRun, execResumeRun, hdue]; rfl

end Sys2Proof.Machine
end

section
/-! SUPPORT. How commands end (R86, R92, R93): alone, with their graph, and many on one tick; what the reads for a command leave as it was. -/

namespace Sys2Proof.Machine

/-! ### What ends of commands touch -/

/-- The end of commands touches them, the journal and its requests, the interrupts, the tables of firmware, and the grids with their copies. -/
def State.HubOnly (s t : State) : Prop :=
  ∃ (c : Tab Cmd) (q : List PoolReq) (j : Journal) (l : Link) (f : Firmware) (g : Tab Grid) (p : List LaunchCopy),
    t = { s with cmds := c, poolq := q, journal := j, link := l, fw := f, grids := g, copies := p }

theorem State.HubOnly.refl (s : State) : s.HubOnly s := ⟨_, _, _, _, _, _, _, rfl⟩

theorem State.HubOnly.trans {s t u : State} (h : s.HubOnly t) (h' : t.HubOnly u) : s.HubOnly u := by
  obtain ⟨_, _, _, _, _, _, _, rfl⟩ := h
  obtain ⟨_, _, _, _, _, _, _, rfl⟩ := h'
  exact ⟨_, _, _, _, _, _, _, rfl⟩

theorem State.HubOnly.mem {s t : State} (h : s.HubOnly t) : t.mem = s.mem := by
  obtain ⟨_, _, _, _, _, _, _, rfl⟩ := h; rfl

theorem State.HubOnly.gtc {s t : State} (h : s.HubOnly t) : t.gtc = s.gtc := by
  obtain ⟨_, _, _, _, _, _, _, rfl⟩ := h; rfl

theorem State.endCmd_hubOnly (s : State) (id : Nat) (st : Status) (code : Nat) : s.HubOnly (s.endCmd id st code) :=
  ⟨_, _, _, _, _, _, _, s.endCmd_frame id st code⟩

theorem State.endStager_frame (s : State) (k : Nat) :
    s.endStager k = { s with grids := (s.endStager k).grids, copies := (s.endStager k).copies } := by
  unfold State.endStager; split <;> rfl

theorem State.endStagers_frame (s : State) (l : List Nat) : l.foldl State.endStager s =
    { s with grids := (l.foldl State.endStager s).grids, copies := (l.foldl State.endStager s).copies } := by
  refine List.foldlRecOn (motive := fun t : State => t = { s with grids := t.grids, copies := t.copies }) l _ rfl fun t ht k _ => ?_
  rw [State.endStager_frame, ht]

/-! ### The end of one command -/

/-- A command with its final status (R86, R93). -/
def Cmd.ended (c : Cmd) (st : Status) (code tick : Nat) : Cmd := { c with status := st, code := code, fin := some tick }

theorem State.endCmd_of_fin {s : State} {id : Nat} {c : Cmd} (st : Status) (code : Nat) (hc : s.cmds.find? id = some c)
    (hfin : c.fin ≠ none) : s.endCmd id st code = s := by
  simp only [State.endCmd, hc, if_pos (Option.isSome_iff_ne_none.mpr hfin)]

theorem State.endCmd_of_none {s : State} {id : Nat} (st : Status) (code : Nat) (hc : s.cmds.find? id = none) : s.endCmd id st code = s := by
  simp only [State.endCmd, hc]

theorem State.endCmd_cmds {s : State} {id : Nat} {c : Cmd} (st : Status) (code : Nat) (hc : s.cmds.find? id = some c) (hfin : c.fin = none) :
    (s.endCmd id st code).cmds = s.cmds.modify id fun c => c.ended st code s.gtc := by
  simp only [State.endCmd, hc, hfin, Option.isSome_none, Bool.false_eq_true, if_false]
  rw [State.notify_frame, State.writeStatus_frame]
  split <;> rfl

theorem State.endCmd_self {s : State} {id : Nat} {c : Cmd} (st : Status) (code : Nat) (hc : s.cmds.find? id = some c) (hfin : c.fin = none) :
    (s.endCmd id st code).cmds.find? id = some (c.ended st code s.gtc) := by
  rw [State.endCmd_cmds st code hc hfin, Tab.find?_modify_self, hc]; rfl

theorem Ended.of_find {s t : State} {id : Nat} {c : Cmd} {st : Status} {code tick : Nat}
    (h : t.cmds.find? id = some (c.ended st code tick)) (htick : tick = s.gtc := by rfl) : Ended s t id st code :=
  ⟨_, h, rfl, rfl, congrArg some htick⟩

/-! ### Commands that end with one status and code -/

/-- Between two states of a tick some commands have ended with the given status and code; no other command has changed. -/
def State.EndsAs (st : Status) (code : Nat) (s t : State) : Prop :=
  s.HubOnly t ∧ ∀ k, t.cmds.find? k = s.cmds.find? k ∨
    ∃ c, s.cmds.find? k = some c ∧ c.fin = none ∧ t.cmds.find? k = some (c.ended st code s.gtc)

theorem State.EndsAs.refl (st : Status) (code : Nat) (s : State) : s.EndsAs st code s := ⟨.refl s, fun _ => .inl rfl⟩

theorem State.EndsAs.of_cmds {st : Status} {code : Nat} {s t : State} (h : s.HubOnly t) (hc : t.cmds = s.cmds) : s.EndsAs st code t :=
  ⟨h, fun k => .inl (congrArg (Tab.find? · k) hc)⟩

theorem State.EndsAs.trans {st : Status} {code : Nat} {s t u : State} (h : s.EndsAs st code t) (h' : t.EndsAs st code u) :
    s.EndsAs st code u := by
  obtain ⟨hhub, hends⟩ := h
  obtain ⟨hhub', hends'⟩ := h'
  refine ⟨hhub.trans hhub', fun k => ?_⟩
  rcases hends' k with hk' | ⟨c', hc', hfin', hk'⟩
  · rw [hk']; exact hends k
  · rcases hends k with hk | ⟨c, -, -, hk⟩
    · exact .inr ⟨c', hk ▸ hc', hfin', hhub.gtc ▸ hk'⟩
    · obtain rfl := Option.some.inj (hk.symm.trans hc')
      exact absurd hfin' (Option.some_ne_none _)

/-- A command that has ended stays as it ended. -/
theorem State.EndsAs.keeps_ended {st : Status} {code : Nat} {s t : State} (h : s.EndsAs st code t) {k : Nat} {c : Cmd}
    (hc : s.cmds.find? k = some c) (hfin : c.fin ≠ none) : t.cmds.find? k = some c := by
  rcases h.2 k with hk | ⟨d, hd, hfin', -⟩
  · exact hk.trans hc
  · exact absurd (Option.some.inj (hd.symm.trans hc) ▸ hfin') hfin

theorem State.endCmd_endsAs (s : State) (id : Nat) (st : Status) (code : Nat) : s.EndsAs st code (s.endCmd id st code) := by
  refine ⟨s.endCmd_hubOnly id st code, fun k => ?_⟩
  by_cases hk : k = id
  · subst hk
    rcases hc : s.cmds.find? k with _ | c
    · rw [State.endCmd_of_none st code hc]; exact .inl hc
    · by_cases hfin : c.fin = none
      · exact .inr ⟨c, rfl, hfin, State.endCmd_self st code hc hfin⟩
      · rw [State.endCmd_of_fin st code hc hfin]; exact .inl hc
  · exact .inl (s.endCmd_cmds_ne st code hk)

/-- The grids staged for the nodes of a graph are no longer used by it (R129). -/
def State.unstaged (s : State) (g : Cmd) : State := (g.stagers.map (·.2)).foldl State.endStager s

theorem State.unstaged_cmds (s : State) (g : Cmd) : (s.unstaged g).cmds = s.cmds := by
  rw [State.unstaged, State.endStagers_frame]

theorem State.unstaged_endsAs (st : Status) (code : Nat) (s : State) (g : Cmd) : s.EndsAs st code (s.unstaged g) :=
  .of_cmds ⟨_, _, _, _, _, _, _, State.endStagers_frame s _⟩ (s.unstaged_cmds g)

theorem State.endGraph_some {s : State} {gid : Nat} {g : Cmd} (st : Status) (code : Nat) (hg : s.cmds.find? gid = some g) :
    s.endGraph gid st code = (s.unstaged g).endCmd gid st code := by
  simp only [State.endGraph, hg]; rfl

theorem State.endGraph_endsAs (s : State) (gid : Nat) (st : Status) (code : Nat) : s.EndsAs st code (s.endGraph gid st code) := by
  rcases hg : s.cmds.find? gid with _ | g
  · simp only [State.endGraph, hg]; exact .refl st code s
  · rw [State.endGraph_some st code hg]
    exact (s.unstaged_endsAs st code g).trans (State.endCmd_endsAs _ gid st code)

theorem State.endGraph_cmds_ne (s : State) {gid k : Nat} (st : Status) (code : Nat) (h : k ≠ gid) :
    (s.endGraph gid st code).cmds.find? k = s.cmds.find? k := by
  rcases hg : s.cmds.find? gid with _ | g
  · simp only [State.endGraph, hg]
  · rw [State.endGraph_some st code hg, State.endCmd_cmds_ne _ st code h, State.unstaged_cmds]

theorem State.endGraph_self {s : State} {gid : Nat} {g : Cmd} (st : Status) (code : Nat) (hg : s.cmds.find? gid = some g) (hfin : g.fin = none) :
    (s.endGraph gid st code).cmds.find? gid = some (g.ended st code s.gtc) := by
  obtain ⟨hhub, -⟩ := s.unstaged_endsAs st code g
  rw [State.endGraph_some st code hg, State.endCmd_self st code ((congrArg (Tab.find? · gid) (s.unstaged_cmds g)).trans hg) hfin, hhub.gtc]

/-! ### The end of a command and of its graph -/

/-- A node that ends with this status ends its graph (R92, log entry 38). -/
def Status.endsGraph (st : Status) : Prop := st = .failed ∨ st = .killed

theorem Status.not_endsGraph_done : ¬ Status.done.endsGraph := fun h => h.elim Status.noConfusion Status.noConfusion

theorem State.endNodeCmd_alone {s : State} {id : Nat} {c : Cmd} (st : Status) (code : Nat) (hc : s.cmds.find? id = some c)
    (h : c.node = none ∨ ¬ st.endsGraph) : s.endNodeCmd id st code = s.endCmd id st code := by
  simp only [State.endNodeCmd, hc]
  rcases h with h | h
  · simp only [h]
  · split
    · exact if_neg h
    · rfl

theorem State.endNodeCmd_graph {s : State} {id g i : Nat} {c : Cmd} {st : Status} (code : Nat) (hc : s.cmds.find? id = some c)
    (hnode : c.node = some (g, i)) (hst : st.endsGraph) : s.endNodeCmd id st code = (s.endCmd id st code).endGraph g st code := by
  simp only [State.endNodeCmd, hc, hnode]; exact if_pos hst

theorem State.endNodeCmd_of_none {s : State} {id : Nat} (st : Status) (code : Nat) (hc : s.cmds.find? id = none) :
    s.endNodeCmd id st code = s := by
  simp only [State.endNodeCmd, hc]

theorem State.endNodeCmd_endsAs (s : State) (id : Nat) (st : Status) (code : Nat) : s.EndsAs st code (s.endNodeCmd id st code) := by
  rcases hc : s.cmds.find? id with _ | c
  · rw [State.endNodeCmd_of_none st code hc]; exact .refl st code s
  · by_cases h : c.node = none ∨ ¬ st.endsGraph
    · rw [State.endNodeCmd_alone st code hc h]; exact s.endCmd_endsAs id st code
    · obtain ⟨hnode, hst⟩ := not_or.mp h
      obtain ⟨⟨g, i⟩, hnode⟩ := Option.ne_none_iff_exists'.mp hnode
      rw [State.endNodeCmd_graph code hc hnode (not_not.mp hst)]
      exact (s.endCmd_endsAs id st code).trans (State.endGraph_endsAs _ g st code)

theorem State.endNodeCmd_self {s : State} {id : Nat} {c : Cmd} (st : Status) (code : Nat) (hc : s.cmds.find? id = some c) (hfin : c.fin = none) :
    (s.endNodeCmd id st code).cmds.find? id = some (c.ended st code s.gtc) := by
  have hself := State.endCmd_self st code hc hfin
  by_cases h : c.node = none ∨ ¬ st.endsGraph
  · rw [State.endNodeCmd_alone st code hc h, hself]
  · obtain ⟨hnode, hst⟩ := not_or.mp h
    obtain ⟨⟨g, i⟩, hnode⟩ := Option.ne_none_iff_exists'.mp hnode
    rw [State.endNodeCmd_graph code hc hnode (not_not.mp hst)]
    exact (State.endGraph_endsAs _ g st code).keeps_ended hself (Option.some_ne_none _)

/-- A node that ends FAILED or KILLED ends its graph likewise. -/
theorem State.endNodeCmd_endsGraph {s : State} {id g i : Nat} {c G : Cmd} {st : Status} (code : Nat) (hc : s.cmds.find? id = some c)
    (hnode : c.node = some (g, i)) (hst : st.endsGraph) (hne : g ≠ id) (hG : s.cmds.find? g = some G) (hfin : G.fin = none) :
    (s.endNodeCmd id st code).cmds.find? g = some (G.ended st code s.gtc) := by
  rw [State.endNodeCmd_graph code hc hnode hst, State.endGraph_self st code ((s.endCmd_cmds_ne st code hne).trans hG) hfin,
    (s.endCmd_hubOnly id st code).gtc]

/-- A command apart from the one that ends and from its graph stays. -/
theorem State.endNodeCmd_cmds_ne {s : State} {id k : Nat} (st : Status) (code : Nat) (hne : k ≠ id)
    (hgraph : st.endsGraph → ∀ c i, s.cmds.find? id = some c → c.node ≠ some (k, i)) :
    (s.endNodeCmd id st code).cmds.find? k = s.cmds.find? k := by
  rcases hc : s.cmds.find? id with _ | c
  · rw [State.endNodeCmd_of_none st code hc]
  · by_cases h : c.node = none ∨ ¬ st.endsGraph
    · rw [State.endNodeCmd_alone st code hc h, s.endCmd_cmds_ne st code hne]
    · obtain ⟨hnode, hst⟩ := not_or.mp h
      obtain ⟨⟨g, i⟩, hnode⟩ := Option.ne_none_iff_exists'.mp hnode
      have hkg : k ≠ g := fun e => hgraph (not_not.mp hst) c i hc (e ▸ hnode)
      rw [State.endNodeCmd_graph code hc hnode (not_not.mp hst), State.endGraph_cmds_ne _ st code hkg, s.endCmd_cmds_ne st code hne]

/-! ### Commands of a list that end -/

/-- The commands of a list end, each with its graph where it must. -/
def State.endNodeCmds (s : State) (l : List (Nat × Cmd)) (st : Status) (code : Nat) : State :=
  l.foldl (fun s e => s.endNodeCmd e.1 st code) s

theorem State.endNodeCmds_endsAs (s : State) (l : List (Nat × Cmd)) (st : Status) (code : Nat) : s.EndsAs st code (s.endNodeCmds l st code) :=
  List.foldlRecOn (motive := fun t : State => s.EndsAs st code t) l _ (.refl st code s) fun t ht e _ => ht.trans (t.endNodeCmd_endsAs e.1 st code)

/-- Every command of the list has ended. -/
theorem State.endNodeCmds_mem {s : State} {l : List (Nat × Cmd)} {id : Nat} {c : Cmd} (st : Status) (code : Nat) (hl : id ∈ l.map (·.1))
    (hc : s.cmds.find? id = some c) (hfin : c.fin = none) : (s.endNodeCmds l st code).cmds.find? id = some (c.ended st code s.gtc) := by
  induction l generalizing s with
  | nil => exact absurd hl List.not_mem_nil
  | cons e r ih =>
    obtain ⟨hhub, hends⟩ := s.endNodeCmd_endsAs e.1 st code
    have hrest := State.endNodeCmds_endsAs (s.endNodeCmd e.1 st code) r st code
    rcases hends id with hk | ⟨d, hd, -, hk⟩
    · rcases List.mem_cons.mp hl with rfl | hr
      · exact hrest.keeps_ended (State.endNodeCmd_self st code hc hfin) (Option.some_ne_none _)
      · exact hhub.gtc ▸ ih hr (hk.trans hc)
    · obtain rfl := Option.some.inj (hd.symm.trans hc)
      exact hrest.keeps_ended hk (Option.some_ne_none _)

/-- A command that is not of the list, and is no graph of one that is, stays. -/
theorem State.endNodeCmds_notMem {s : State} {l : List (Nat × Cmd)} {id : Nat} (st : Status) (code : Nat) (hl : ∀ e ∈ l, e.1 ≠ id)
    (hgraph : st.endsGraph → ∀ k c i, s.cmds.find? k = some c → c.node ≠ some (id, i)) :
    (s.endNodeCmds l st code).cmds.find? id = s.cmds.find? id := by
  induction l generalizing s with
  | nil => rfl
  | cons e r ih =>
    obtain ⟨he, hr⟩ := List.forall_mem_cons.mp hl
    obtain ⟨-, hends⟩ := s.endNodeCmd_endsAs e.1 st code
    refine (ih hr fun hst k c i hc => ?_).trans (State.endNodeCmd_cmds_ne st code (Ne.symm he) fun hst c i => hgraph hst e.1 c i)
    rcases hends k with hk | ⟨d, hd, -, hk⟩
    · exact hgraph hst k c i (hk ▸ hc)
    · obtain rfl := Option.some.inj (hk.symm.trans hc)
      exact hgraph hst k d i hd

/-! ### Reads for a command (R36) -/

theorem State.sawBad_frame (s : State) (as : List Nat) : s.sawBad as = { s with hbm := (s.sawBad as).hbm } := by
  refine List.foldlRecOn (motive := fun t : State => t = { s with hbm := t.hbm }) _ _ rfl fun t ht b _ => ?_
  rw [ht]; rfl

theorem State.sawWalks_frame (s : State) (part : Nat) (vas : List Nat) : s.sawWalks part vas = { s with hbm := (s.sawWalks part vas).hbm } :=
  s.sawBad_frame _

theorem State.sawVas_frame (s : State) (part : Nat) (vas : List Nat) : s.sawVas part vas = { s with hbm := (s.sawVas part vas).hbm } := by
  unfold State.sawVas
  rw [State.sawBad_frame, s.sawWalks_frame part vas]

theorem State.sawHost_frame (s : State) (c : Cmd) (n : Nat) : s.sawHost c n = { s with hbm := (s.sawHost c n).hbm } := s.sawVas_frame _ _

/-! ### Tables with distinct keys -/

theorem Tab.find?_of_mem {α : Type} {t : Tab α} {k : Nat} {a : α} (hnd : (t.map (·.1)).Nodup) (h : (k, a) ∈ t) : t.find? k = some a := by
  induction t with
  | nil => cases h
  | cons e r ih =>
    obtain ⟨j, b⟩ := e
    obtain ⟨hj, hr⟩ := List.nodup_cons.mp hnd
    rcases List.mem_cons.mp h with heq | hmem
    · obtain ⟨rfl, rfl⟩ := Prod.mk.inj heq
      exact if_pos rfl
    · have hne : j ≠ k := fun e => hj (List.mem_map.mpr ⟨(k, a), hmem, e.symm⟩)
      exact (if_neg hne).trans (ih hr hmem)

/-- In a table with distinct keys the entry of a key meets what every entry of the key meets, and the reverse. -/
theorem Tab.entries_of_key {α : Type} {t : Tab α} {k : Nat} {a : α} (hnd : (t.map (·.1)).Nodup) (h : t.find? k = some a) :
    ∀ e ∈ t, e.1 = k → e.2 = a := by
  rintro ⟨j, b⟩ he rfl
  exact Option.some.inj ((Tab.find?_of_mem hnd he).symm.trans h)

end Sys2Proof.Machine
end

section
/-! SUPPORT. The merge unit (R84, R87 to R89, R92 to R94): whose turn it is, what a queue takes, and what it dispatches. -/

namespace Sys2Proof.Machine

/-! ### Turns (R84) -/

/-- In a rising list the first member that passes a test is the least. -/
theorem find?_least {l : List Nat} {p : Nat → Bool} {i : Nat} (hl : l.Pairwise (· < ·)) (h : l.find? p = some i) :
    ∀ j ∈ l, p j = true → i ≤ j := by
  obtain ⟨-, as, bs, rfl, has⟩ := List.find?_eq_some_iff_append.mp h
  obtain ⟨-, hbs, -⟩ := List.pairwise_append.mp hl
  intro j hj hp
  rcases List.mem_append.mp hj with hj | hj
  · exact absurd hp (by simpa using has j hj)
  · rcases List.mem_cons.mp hj with rfl | hj
    · exact le_rfl
    · exact ((List.pairwise_cons.mp hbs).1 j hj).le

theorem head?_least {l : List Nat} {i : Nat} (hl : l.Pairwise (· < ·)) (h : l.head? = some i) : ∀ j ∈ l, i ≤ j := by
  obtain ⟨r, rfl⟩ := List.head?_eq_some_iff.mp h
  intro j hj
  rcases List.mem_cons.mp hj with rfl | hj
  · exact le_rfl
  · exact ((List.pairwise_cons.mp hl).1 j hj).le

theorem State.mem_holding {s : State} {q i : Nat} (hs : (s.rings.map (·.1)).Pairwise (· < ·)) : i ∈ s.holding q ↔ Holds s q i := by
  have hnd : (s.rings.map (·.1)).Nodup := hs.imp ne_of_lt
  simp only [State.holding, List.mem_map, List.mem_filter, Bool.and_eq_true, decide_eq_true_eq]
  constructor
  · rintro ⟨⟨j, r⟩, ⟨hmem, ⟨hen, hlq⟩, hhead⟩, rfl⟩
    exact ⟨r, Tab.find?_of_mem hnd hmem, hen, hlq, hhead⟩
  · rintro ⟨r, hr, hen, hlq, hhead⟩
    exact ⟨(i, r), ⟨Tab.mem_of_find? hr, ⟨hen, hlq⟩, hhead⟩, rfl⟩

theorem State.holding_sorted {s : State} (q : Nat) (hs : (s.rings.map (·.1)).Pairwise (· < ·)) : (s.holding q).Pairwise (· < ·) :=
  hs.sublist (List.filter_sublist.map Prod.fst)

theorem State.nextRing_of_new {s : State} {q : Nat} (h : (s.lqueue q).visited = none) : s.nextRing q = (s.holding q).head? := by
  simp only [State.nextRing, h]

theorem State.nextRing_of_visited {s : State} {q v : Nat} (h : (s.lqueue q).visited = some v) :
    s.nextRing q = (((s.holding q).find? fun i => decide (v < i)) <|> (s.holding q).head?) := by
  simp only [State.nextRing, h]

theorem State.nextRing_eq_none {s : State} {q : Nat} : s.nextRing q = none ↔ s.holding q = [] := by
  rcases h : (s.lqueue q).visited with _ | v
  · rw [State.nextRing_of_new h, List.head?_eq_none_iff]
  · rw [State.nextRing_of_visited h, Option.orElse_eq_none, List.head?_eq_none_iff]
    exact ⟨fun h => h.2, fun h => ⟨by rw [h]; rfl, h⟩⟩

/-- The next ring: the lowest one beyond the last visited, or else the lowest of all (R84). -/
theorem State.nextRing_turn {s : State} {q i : Nat} (hs : (s.holding q).Pairwise (· < ·)) (h : s.nextRing q = some i) :
    i ∈ s.holding q ∧ ((s.lqueue q).visited = none → ∀ j ∈ s.holding q, i ≤ j) ∧
    ∀ v, (s.lqueue q).visited = some v → (v < i ∧ ∀ j ∈ s.holding q, v < j → i ≤ j) ∨
      ((∀ j ∈ s.holding q, j ≤ v) ∧ ∀ j ∈ s.holding q, i ≤ j) := by
  rcases hv : (s.lqueue q).visited with _ | v
  · rw [State.nextRing_of_new hv] at h
    exact ⟨List.mem_of_mem_head? h, fun _ => head?_least hs h, fun v hv => absurd hv.symm (Option.some_ne_none v)⟩
  · rw [State.nextRing_of_visited hv] at h
    rcases hf : (s.holding q).find? fun i => decide (v < i) with _ | k
    · rw [hf] at h
      refine ⟨List.mem_of_mem_head? h, fun hc => absurd hc (Option.some_ne_none v), ?_⟩
      rintro _ ⟨⟩
      exact .inr ⟨fun j hj => by simpa using List.find?_eq_none.mp hf j hj, head?_least hs h⟩
    · rw [hf] at h
      obtain rfl : k = i := Option.some.inj h
      refine ⟨List.mem_of_find?_eq_some hf, fun hc => absurd hc (Option.some_ne_none v), ?_⟩
      rintro _ ⟨⟩
      exact .inl ⟨by simpa using List.find?_some hf, fun j hj hvj => find?_least hs hf j hj (decide_eq_true hvj)⟩

theorem State.nextRing_clause (s : State) (q : Nat) (hs : (s.rings.map (·.1)).Pairwise (· < ·)) :
    (s.nextRing q = none ↔ ∀ i, ¬ Holds s q i) ∧
    ∀ i, s.nextRing q = some i → Holds s q i ∧
      ((s.lqueue q).visited = none → ∀ j, Holds s q j → i ≤ j) ∧
      (∀ v, (s.lqueue q).visited = some v → (v < i ∧ ∀ j, Holds s q j → v < j → i ≤ j) ∨
        ((∀ j, Holds s q j → j ≤ v) ∧ ∀ j, Holds s q j → i ≤ j)) := by
  simp only [← State.mem_holding hs]
  exact ⟨State.nextRing_eq_none.trans List.eq_nil_iff_forall_not_mem, fun i hi => State.nextRing_turn (State.holding_sorted q hs) hi⟩

/-- After a visit the turn stands just before the next ring that holds a packet, and begins anew when none follows (R84). -/
theorem State.afterVisit_turn {s : State} (q i : Nat) (hs : (s.rings.map (·.1)).Pairwise (· < ·)) :
    ((∀ k, i < k → ¬ Holds s q k) → s.afterVisit q i = none) ∧
    ∀ k, i < k → Holds s q k → (∀ j, i < j → j < k → ¬ Holds s q j) → s.afterVisit q i = some (k - 1) := by
  simp only [← State.mem_holding hs, State.afterVisit]
  rcases hf : (s.holding q).find? fun k => decide (i < k) with _ | m
  · have hnone : ∀ k ∈ s.holding q, ¬ i < k := fun k hk => by simpa using List.find?_eq_none.mp hf k hk
    exact ⟨fun _ => rfl, fun k hik hk => absurd hik (hnone k hk)⟩
  · have hm : m ∈ s.holding q := List.mem_of_find?_eq_some hf
    have him : i < m := by simpa using List.find?_some hf
    refine ⟨fun h => absurd hm (h m him), fun k hik hk hleast => ?_⟩
    have hmk : m ≤ k := find?_least (State.holding_sorted q hs) hf k hk (decide_eq_true hik)
    obtain rfl : m = k := hmk.antisymm (Nat.le_of_not_lt fun hlt => hleast m him hlt hm)
    rfl

/-! ### Releases (R87, R89) -/

theorem State.mayTake_iff (s : State) (q : Nat) : s.mayTake q = true ↔ s.live = true ∧ s.fw.ready = true ∧ s.journal.enable = true ∧
    (s.lqueue q).enable = true ∧ (s.lqueue q).halted = false ∧ (s.lqueue q).chain.length < 64 ∧ s.eventHeld = false ∧ s.sec.power ≠ 2 ∧
    s.sec.wakeAt = none ∧ s.pkg.stopped = false ∧ s.holding q ≠ [] := by
  simp only [State.mayTake, Bool.and_eq_true, Bool.not_eq_true', decide_eq_true_eq, Option.isNone_iff_eq_none, List.isEmpty_eq_false_iff, and_assoc]

/-- When a command may follow the one before it (R89). -/
theorem State.released_iff (s : State) (c : Cmd) (prev : Option Nat) : s.released c prev = true ↔
    ∀ k p, prev = some k → s.cmds.find? k = some p → ∃ d, p.d = some d ∧ d + 1 ≤ s.gtc ∧
      (c.pkt.overlap = true ∨ ∃ f, p.fin = some f ∧ f ≤ s.gtc) := by
  rcases prev with _ | k
  · exact ⟨fun _ k _ h => absurd h.symm (Option.some_ne_none k), fun _ => rfl⟩
  rcases hp : s.cmds.find? k with _ | p
  · have hrel : s.released c (some k) = true := by simp only [State.released, Option.bind_some, hp]
    refine ⟨fun _ j p hj hx => ?_, fun _ => hrel⟩
    rw [← Option.some.inj hj, hp] at hx
    exact absurd hx.symm (Option.some_ne_none p)
  · have hprev : ∀ P : Cmd → Prop, (∀ j x, some k = some j → s.cmds.find? j = some x → P x) ↔ P p := fun P =>
      ⟨fun h => h k p rfl hp, fun h j x hj hx => Option.some.inj (hp.symm.trans (Option.some.inj hj ▸ hx)) ▸ h⟩
    rw [hprev fun p => ∃ d, p.d = some d ∧ d + 1 ≤ s.gtc ∧ (c.pkt.overlap = true ∨ ∃ f, p.fin = some f ∧ f ≤ s.gtc)]
    simp only [State.released, Option.bind_some, hp]
    rcases hd : p.d with _ | d
    · simp
    · rcases hf : p.fin with _ | f <;> simp

theorem State.mayDispatch_iff (s : State) (q id : Nat) : s.mayDispatch q = some id ↔ s.live = true ∧ s.pkg.stopped = false ∧
    s.fw.held = false ∧ (s.lqueue q).enable = true ∧ (s.lqueue q).chain.head? = some id ∧
    ∃ c, s.cmds.find? id = some c ∧ s.beingZeroed c.part = false ∧ s.released c (s.lqueue q).cur = true := by
  by_cases hoff : (!s.live || !(s.lqueue q).enable || s.fw.held || s.pkg.stopped) = true
  · have hnone : s.mayDispatch q = none := if_pos hoff
    rw [hnone]
    refine ⟨fun h => absurd h.symm (Option.some_ne_none id), ?_⟩
    rintro ⟨h1, h2, h3, h4, -⟩
    rw [h1, h2, h3, h4] at hoff
    cases hoff
  · have hon : s.live = true ∧ (s.lqueue q).enable = true ∧ s.fw.held = false ∧ s.pkg.stopped = false := by simpa [and_assoc] using hoff
    obtain ⟨hlive, hen, hheld, hstop⟩ := hon
    simp only [State.mayDispatch, hlive, hen, hheld, hstop, true_and, Bool.not_true, Bool.or_self, Bool.false_eq_true, if_false]
    rcases (s.lqueue q).chain with _ | ⟨k, r⟩
    · simp
    · simp only [List.head?_cons, Option.some.injEq]
      rcases hk : s.cmds.find? k with _ | c
      · refine ⟨fun h => absurd h.symm (Option.some_ne_none id), ?_⟩
        rintro ⟨rfl, c, hc, -⟩
        exact absurd (hk.symm.trans hc).symm (Option.some_ne_none c)
      · constructor
        · intro h
          by_cases hrel : (s.released c (s.lqueue q).cur && !s.beingZeroed c.part) = true
          · simp only [hrel, if_true, Option.some.injEq] at h
            subst h
            rw [Bool.and_eq_true, Bool.not_eq_true'] at hrel
            exact ⟨rfl, c, hk, hrel.2, hrel.1⟩
          · simp only [hrel, Bool.false_eq_true] at h
            cases h
        · rintro ⟨rfl, d, hd, hz, hrel⟩
          obtain rfl := Option.some.inj (hk.symm.trans hd)
          simp [hrel, hz]

/-- R84, R87, R89: the turns of a queue, and when it takes and dispatches. -/
theorem turnsAndReleases : TurnsAndReleases := by
  refine ⟨State.nextRing_clause, State.mayTake_iff, fun s q id => (s.mayDispatch_iff q id).trans ?_⟩
  simp only [State.released_iff]

/-! ### The checks of a packet (R87, R88) -/

theorem Packet.reject_eq (p : Packet) (seq : Nat) : p.reject seq = rejectCode p seq := by
  simp only [Packet.reject, rejectCode, opcodeKnown, Bool.not_eq_true', Bool.or_eq_false_iff, decide_eq_false_iff_not, not_or]

/-! ### The journal's requests (R93) -/

/-- The request that writes bytes of a command's journal entry. -/
def Cmd.journalRequest (c : Cmd) (off : Nat) (bs : List Byte) (first : Bool) : PoolReq :=
  let cs := (List.range bs.length).map fun k => (c.entry + off + k, bs.getD k 0)
  ⟨1, c.part, c.lq, c.entry + off, bs.length, if first then .entry cs else .cells cs⟩

theorem State.journalWrite_eq (s : State) (c : Cmd) (off : Nat) (bs : List Byte) (first : Bool) :
    s.journalWrite c off bs first = s.askPool (c.journalRequest off bs first) := rfl

theorem length_statusBytes (st : Status) (code tick : Nat) : (statusBytes st code tick).length = 8 := length_leBytes _ _

theorem length_entryBytes (c : Cmd) (st : Status) (code tick : Nat) : (entryBytes c st code tick).length = 32 := by
  simp only [entryBytes, List.length_append, length_leBytes, length_statusBytes, List.length_singleton]

/-! ### A packet is taken (R84, R87, R88, R93, R94) -/

/-- A ring whose head packet is taken; one that passes its checks advances the sequence number. -/
def Ring.takeHead (r : Ring) (code : Nat) : Ring :=
  { r with head := (r.head + 1) % 2 ^ 32, fetched := r.fetched.del r.head, seq := if code = 0 then (r.seq + 1) % 2 ^ 32 else r.seq }

/-- The head packet of a ring is taken: the queue's turn goes on, and the packet has the next entry of the journal. -/
def State.takeHead (s : State) (q i code : Nat) : State :=
  let u := s.updRing i fun r => r.takeHead code
  { u.updQueue q fun x => { x with visited := u.afterVisit q i } with
    journal := { s.journal with taken := s.journal.taken + 1, full := false } }

/-- The command of a taken packet. -/
def State.takenCmd (s : State) (q i : Nat) (p : Packet) : Cmd := Cmd.fresh q i (s.ring i).part p s.gtc (s.journalEntry s.journal.taken)

/-- A rejected packet: its entry, its interrupt, and the halt of its queue. -/
def State.rejectPacket (s : State) (c : Cmd) (code : Nat) : State :=
  ((s.journalWrite c 0 (entryBytes c .rejected code s.gtc) true).notify c).rejectQueue c.lq c.ring code

/-- An accepted packet: its entry, and its place in the queue's chain. -/
def State.chainPacket (s : State) (c : Cmd) : State :=
  (s.bump.journalWrite c 0 (entryBytes c .accepted 0 s.gtc) true).updQueue c.lq fun x => { x with chain := x.chain ++ [s.fresh] }

/-- The grid of an accepted LAUNCH. -/
def State.launchPacket (s : State) (c : Cmd) : Nat × State :=
  (s.chainPacket c).addGrid c.part c.lq ((s.chainPacket c).lqueue c.lq).prio c.pkt (some s.fresh)

/-- An accepted packet becomes a command, a LAUNCH with its grid. -/
def State.acceptPacket (s : State) (c : Cmd) : State :=
  if c.pkt.opcode = 1 then
    { (s.launchPacket c).2 with cmds := (s.launchPacket c).2.cmds.put s.fresh { c with grid := some (s.launchPacket c).1 } }
  else { s.chainPacket c with cmds := (s.chainPacket c).cmds.put s.fresh c }

theorem packetTake_takes {s : State} {q : Fin 64} {i : Nat} {p : Packet} (hmay : s.mayTake q.val = true) (hslot : s.slotBusy = false)
    (hring : s.nextRing q.val = some i) (hp : (s.ring i).fetched.find? (s.ring i).head = some p) :
    exec (.packetTake q) s = .next (if rejectCode p (s.ring i).seq ≠ 0 then
      (s.takeHead q.val i (rejectCode p (s.ring i).seq)).rejectPacket (s.takenCmd q.val i p) (rejectCode p (s.ring i).seq)
    else (s.takeHead q.val i (rejectCode p (s.ring i).seq)).acceptPacket (s.takenCmd q.val i p)) := by
  rw [exec_packetTake, ← Packet.reject_eq]
  simp only [execPacketTake, hmay, hslot, hring, hp, Bool.not_true, Bool.false_eq_true, if_false]
  by_cases hcode : p.reject (s.ring i).seq ≠ 0
  · refine (if_pos hcode).trans ?_
    rw [if_pos hcode]; rfl
  · refine (if_neg hcode).trans ?_
    rw [if_neg hcode, State.acceptPacket]
    by_cases hop : p.opcode = 1
    · refine (if_pos hop).trans (congrArg Host.Outcome.next (Eq.trans ?_ (if_pos hop).symm)); rfl
    · refine (if_neg hop).trans (congrArg Host.Outcome.next (Eq.trans ?_ (if_neg hop).symm)); rfl

/-- What a taken packet changes of the rings, of the journal and of its queue's turn. -/
theorem State.takeHead_rings (s : State) (q i code : Nat) : (s.takeHead q i code).ring i = (s.ring i).takeHead code ∧
    (∀ j, j ≠ i → (s.takeHead q i code).ring j = s.ring j) ∧ (s.takeHead q i code).journal.taken = s.journal.taken + 1 ∧
    (s.takeHead q i code).lqueue q = { s.lqueue q with visited := (s.takeHead q i code).afterVisit q i } :=
  ⟨State.ring_updRing_self s i fun r => r.takeHead code, fun _ hj => State.ring_updRing_ne s (fun r => r.takeHead code) hj, rfl,
    State.lqueue_updQueue_self (s.updRing i fun r => r.takeHead code) q
      fun x => { x with visited := (s.updRing i fun r => r.takeHead code).afterVisit q i }⟩

/-- The entry of a taken packet is the next of the journal. -/
theorem State.takenCmd_request (s : State) (q i : Nat) (p : Packet) (st : Status) (code : Nat) :
    let r := (s.takenCmd q i p).journalRequest 0 (entryBytes (s.takenCmd q i p) st code s.gtc) true
    r.cls = 1 ∧ r.size = 32 ∧ r.addr = s.journal.base + 32 * (s.journal.taken % 2 ^ s.journal.log2) :=
  ⟨rfl, length_entryBytes .., rfl⟩

/-- What taking a packet changes in the same way, whether it is accepted or rejected: beside the commands, the grids and the interrupts, the
queue's halt, its error and its chain, and firmware's events. -/
structure State.Journalled (u t : State) (q : Nat) (r : PoolReq) : Prop where
  mem : t.mem = u.mem
  gtc : t.gtc = u.gtc
  journal : t.journal = u.journal
  rings : t.rings = u.rings
  poolq : t.poolq = u.poolq ++ [r]
  visited : (t.lqueue q).visited = (u.lqueue q).visited

theorem State.rejectPacket_journalled (u : State) (c : Cmd) (code : Nat) :
    u.Journalled (u.rejectPacket c code) c.lq (c.journalRequest 0 (entryBytes c .rejected code u.gtc) true) := by
  have hq := State.lqueue_rejectQueue_self ((u.journalWrite c 0 (entryBytes c .rejected code u.gtc) true).notify c) c.lq c.ring code
  have hvisited : ((u.rejectPacket c code).lqueue c.lq).visited = (u.lqueue c.lq).visited := by
    rw [State.rejectPacket, hq, State.notify_frame]; rfl
  rw [State.rejectPacket, State.notify_frame] at hvisited ⊢
  exact ⟨rfl, rfl, rfl, rfl, rfl, hvisited⟩

theorem State.notify_msix (s : State) (c : Cmd) :
    (s.notify c).link.msix = s.link.msix ++ (if c.pkt.notify = true then [(s.ring c.ring).vector] else []) := by
  unfold State.notify
  split
  · rfl
  · exact (List.append_nil _).symm

theorem State.rejectPacket_halts (u : State) (c : Cmd) (code : Nat) :
    (u.rejectPacket c code).lqueue c.lq = { u.lqueue c.lq with halted := true, err := code, errRing := c.ring } ∧
    (u.rejectPacket c code).cmds = u.cmds ∧
    (u.rejectPacket c code).link.msix = u.link.msix ++ (if c.pkt.notify = true then [(u.ring c.ring).vector] else []) := by
  refine ⟨?_, ?_, State.notify_msix (u.journalWrite c 0 (entryBytes c .rejected code u.gtc) true) c⟩
  · rw [State.rejectPacket, State.lqueue_rejectQueue_self, State.notify_frame]; rfl
  · rw [State.rejectPacket, State.notify_frame]; rfl

theorem State.addGrid_frame (s : State) (part lq prio : Nat) (p : Packet) (cmd : Option Nat) : (s.addGrid part lq prio p cmd).2 =
    { s with grids := (s.addGrid part lq prio p cmd).2.grids, copies := (s.addGrid part lq prio p cmd).2.copies, fresh := s.fresh + 1 } := by
  unfold State.addGrid
  dsimp only
  split
  · split <;> rfl
  · rfl

/-- A grid that uses a resident copy is staged at its take (R129). -/
def Grid.onCopy (g : Grid) (now : Nat) (c : LaunchCopy) : Grid :=
  { g with s0 := some now, staged := some now, total := c.size, hdr := readHeader c.bytes, unmapped := c.unmapped }

theorem State.attach_grids (s : State) (gid : Nat) (c : LaunchCopy) :
    (s.attach gid c).grids = s.grids.modify gid fun g => g.onCopy s.gtc c := rfl

/-- The grid of a LAUNCH packet, for its command. -/
def packetGrid (part lq prio take : Nat) (p : Packet) (cmd : Option Nat) : Grid := { gridOfPacket part lq prio take p with cmd := cmd }

/-- The grid of a taken LAUNCH: of its command, its image and its first instance, taken now, without a D. -/
theorem State.addGrid_grid (s : State) (part lq prio : Nat) (p : Packet) (cmd : Option Nat) :
    ∃ h, (s.addGrid part lq prio p cmd).2.grids.find? (s.addGrid part lq prio p cmd).1 = some h ∧ h.cmd = cmd ∧
      h.image = field p.w1.toNat 0 52 ∧ h.start = p.w2.toNat ∧ h.take = s.gtc ∧ h.d = none := by
  have hput := Tab.find?_put_self s.grids s.fresh (packetGrid part lq prio s.gtc p cmd)
  unfold State.addGrid
  dsimp only
  split
  · split
    next c _ =>
      refine ⟨(packetGrid part lq prio s.gtc p cmd).onCopy s.gtc c, ?_, rfl, rfl, rfl, rfl, rfl⟩
      rw [State.attach_grids]
      exact (Tab.find?_modify_self _ _ fun g : Grid => g.onCopy s.gtc c).trans (congrArg (Option.map fun g : Grid => g.onCopy s.gtc c) hput)
    · exact ⟨_, hput, rfl, rfl, rfl, rfl, rfl⟩
  · exact ⟨_, hput, rfl, rfl, rfl, rfl, rfl⟩

theorem State.lqueue_chainPacket (u : State) (c : Cmd) :
    (u.chainPacket c).lqueue c.lq = { u.lqueue c.lq with chain := (u.lqueue c.lq).chain ++ [u.fresh] } :=
  State.lqueue_updQueue_self (u.bump.journalWrite c 0 (entryBytes c .accepted 0 u.gtc) true) c.lq
    fun x => { x with chain := x.chain ++ [u.fresh] }

/-- An accepted packet is in its queue's chain, with its entry on its way. -/
theorem State.acceptPacket_journalled (u : State) (c : Cmd) :
    u.Journalled (u.acceptPacket c) c.lq (c.journalRequest 0 (entryBytes c .accepted 0 u.gtc) true) ∧
    (u.acceptPacket c).lqueue c.lq = { u.lqueue c.lq with chain := (u.lqueue c.lq).chain ++ [u.fresh] } := by
  have hq := u.lqueue_chainPacket c
  have hvisited : ((u.chainPacket c).lqueue c.lq).visited = (u.lqueue c.lq).visited := by rw [hq]
  unfold State.acceptPacket
  split
  · rw [State.launchPacket, State.addGrid_frame]
    exact ⟨⟨rfl, rfl, rfl, rfl, rfl, hvisited⟩, hq⟩
  · exact ⟨⟨rfl, rfl, rfl, rfl, rfl, hvisited⟩, hq⟩

/-- An accepted packet is a command, and a LAUNCH has its grid. -/
theorem State.acceptPacket_cmd (u : State) {c : Cmd} (hgrid : c.grid = none) :
    ∃ g, (u.acceptPacket c).cmds.find? u.fresh = some { c with grid := g } ∧ (c.pkt.opcode = 1 ↔ g.isSome = true) ∧
      ∀ k, g = some k → ∃ h, (u.acceptPacket c).grids.find? k = some h ∧ h.cmd = some u.fresh ∧ h.image = field c.pkt.w1.toNat 0 52 ∧
        h.start = c.pkt.w2.toNat ∧ h.take = u.gtc ∧ h.d = none := by
  unfold State.acceptPacket
  split
  next hop =>
    refine ⟨some (u.launchPacket c).1, Tab.find?_put_self _ _ _, ⟨fun _ => rfl, fun _ => hop⟩, ?_⟩
    rintro _ ⟨⟩
    exact State.addGrid_grid ..
  next hop =>
    refine ⟨none, ?_, ⟨fun h => absurd h hop, fun h => Bool.noConfusion h⟩, fun k hk => absurd hk.symm (Option.some_ne_none k)⟩
    rw [← hgrid]
    exact Tab.find?_put_self _ _ _

/-- What every taken packet leaves: ring `i` without its head packet, the other rings as they were, the turn of queue `q` after the visit, and
the packet's entry on its way to the journal. -/
def State.TookHead (s t : State) (q i : Nat) : Prop :=
  t.mem = s.mem ∧ t.gtc = s.gtc ∧ t.journal.taken = s.journal.taken + 1 ∧
  (t.ring i).head = ((s.ring i).head + 1) % 2 ^ 32 ∧ (t.ring i).fetched.find? (s.ring i).head = none ∧
  (∀ j, j ≠ i → t.ring j = s.ring j) ∧
  ((t.rings.map (·.1)).Pairwise (· < ·) → ((∀ k, i < k → ¬ Holds t q k) → (t.lqueue q).visited = none) ∧
    ∀ k, i < k → Holds t q k → (∀ j, i < j → j < k → ¬ Holds t q j) → (t.lqueue q).visited = some (k - 1)) ∧
  ∃ r, t.poolq = s.poolq ++ [r] ∧ r.cls = 1 ∧ r.size = 32 ∧ r.addr = s.journal.base + 32 * (s.journal.taken % 2 ^ s.journal.log2)

theorem State.Journalled.ring {s t : State} {q i code : Nat} {r : PoolReq} (h : (s.takeHead q i code).Journalled t q r) :
    t.ring i = (s.ring i).takeHead code ∧ ∀ j, j ≠ i → t.ring j = s.ring j := by
  obtain ⟨hself, hothers, -, -⟩ := s.takeHead_rings q i code
  have hring : ∀ j, t.ring j = (s.takeHead q i code).ring j := fun j => congrArg (Tab.get · Ring.fresh j) h.rings
  exact ⟨(hring i).trans hself, fun j hj => (hring j).trans (hothers j hj)⟩

theorem State.Journalled.tookHead {s t : State} {q i code k : Nat} {p : Packet} {st : Status} (h : (s.takeHead q i code).Journalled t q
    ((s.takenCmd q i p).journalRequest 0 (entryBytes (s.takenCmd q i p) st k s.gtc) true)) : s.TookHead t q i := by
  obtain ⟨hself, hothers⟩ := h.ring
  obtain ⟨-, -, htaken, hqueue⟩ := s.takeHead_rings q i code
  have hafter : (t.lqueue q).visited = t.afterVisit q i := by
    rw [h.visited, hqueue]; simp only [State.afterVisit, State.holding, h.rings]
  refine ⟨h.mem, h.gtc, h.journal ▸ htaken, by rw [hself]; rfl, ?_, hothers, fun hs => ?_, ⟨_, h.poolq, s.takenCmd_request q i p st k⟩⟩
  · rw [hself]; exact Tab.find?_del_self _ _
  · rw [hafter]; exact State.afterVisit_turn q i hs

/-- A packet that is rejected (R87, R88). -/
theorem packetTake_rejects {s : State} {q : Fin 64} {i : Nat} {p : Packet} (hmay : s.mayTake q.val = true) (hslot : s.slotBusy = false)
    (hring : s.nextRing q.val = some i) (hp : (s.ring i).fetched.find? (s.ring i).head = some p) (hcode : rejectCode p (s.ring i).seq ≠ 0) :
    ∃ t, exec (.packetTake q) s = .next t ∧ s.TookHead t q.val i ∧ (t.ring i).seq = (s.ring i).seq ∧ (t.lqueue q.val).halted = true ∧
      (t.lqueue q.val).err = rejectCode p (s.ring i).seq ∧ (t.lqueue q.val).errRing = i ∧
      (t.lqueue q.val).chain = (s.lqueue q.val).chain ∧ t.cmds = s.cmds ∧
      t.link.msix = s.link.msix ++ (if p.notify = true then [(s.ring i).vector] else []) := by
  have htake := packetTake_takes hmay hslot hring hp
  rw [if_pos hcode] at htake
  generalize rejectCode p (s.ring i).seq = code at htake hcode ⊢
  obtain ⟨hself, -, -, hqueue⟩ := s.takeHead_rings q.val i code
  have hj := (s.takeHead q.val i code).rejectPacket_journalled (s.takenCmd q.val i p) code
  obtain ⟨hq, hcmds, hmsix⟩ := (s.takeHead q.val i code).rejectPacket_halts (s.takenCmd q.val i p) code
  have hhalt : ((s.takeHead q.val i code).rejectPacket (s.takenCmd q.val i p) code).lqueue q.val =
    { (s.takeHead q.val i code).lqueue q.val with halted := true, err := code, errRing := i } := hq
  rw [hqueue] at hhalt
  refine ⟨_, htake, hj.tookHead, ?_, ?_, ?_, ?_, ?_, hcmds, ?_⟩
  · rw [hj.ring.1]; exact if_neg hcode
  · rw [hhalt]
  · rw [hhalt]
  · rw [hhalt]
  · rw [hhalt]
  · rw [hmsix, show (s.takenCmd q.val i p).ring = i from rfl, hself]; rfl

/-- A packet that is accepted (R87, R93). -/
theorem packetTake_accepts {s : State} {q : Fin 64} {i : Nat} {p : Packet} (hmay : s.mayTake q.val = true) (hslot : s.slotBusy = false)
    (hring : s.nextRing q.val = some i) (hp : (s.ring i).fetched.find? (s.ring i).head = some p) (hcode : rejectCode p (s.ring i).seq = 0) :
    ∃ t, exec (.packetTake q) s = .next t ∧ s.TookHead t q.val i ∧ (t.ring i).seq = ((s.ring i).seq + 1) % 2 ^ 32 ∧
      (t.lqueue q.val).halted = (s.lqueue q.val).halted ∧ (t.lqueue q.val).chain = (s.lqueue q.val).chain ++ [s.fresh] ∧
      ∃ c, t.cmds.find? s.fresh = some c ∧ c.pkt = p ∧ c.lq = q.val ∧ c.ring = i ∧ c.part = (s.ring i).part ∧ c.take = s.gtc ∧
        c.d = none ∧ c.fin = none ∧ c.status = .accepted ∧ (p.opcode = 1 ↔ c.grid.isSome = true) ∧
        ∀ g, c.grid = some g → ∃ h, t.grids.find? g = some h ∧ h.cmd = some s.fresh ∧ h.image = field p.w1.toNat 0 52 ∧
          h.start = p.w2.toNat ∧ h.take = s.gtc ∧ h.d = none := by
  have htake := packetTake_takes hmay hslot hring hp
  rw [hcode, if_neg (not_not.mpr rfl)] at htake
  obtain ⟨-, -, -, hqueue⟩ := s.takeHead_rings q.val i 0
  obtain ⟨hj, hq⟩ := (s.takeHead q.val i 0).acceptPacket_journalled (s.takenCmd q.val i p)
  have hchain : ((s.takeHead q.val i 0).acceptPacket (s.takenCmd q.val i p)).lqueue q.val =
    { (s.takeHead q.val i 0).lqueue q.val with chain := ((s.takeHead q.val i 0).lqueue q.val).chain ++ [s.fresh] } := hq
  rw [hqueue] at hchain
  obtain ⟨g, hc, hop, hg⟩ := (s.takeHead q.val i 0).acceptPacket_cmd (c := s.takenCmd q.val i p) rfl
  refine ⟨_, htake, hj.tookHead, ?_, ?_, ?_, ⟨_, hc, rfl, rfl, rfl, rfl, rfl, rfl, rfl, rfl, hop, hg⟩⟩
  · rw [hj.ring.1]; rfl
  · rw [hchain]
  · rw [hchain]

/-! ### A command is dispatched (R89, R92, R93) -/

/-- The record of a command that is dispatched. -/
def Cmd.dispatched (c : Cmd) (now : Nat) : Cmd := { c with d := some now, status := .dispatched }

theorem State.dispatchCmd_keeps (s : State) (id : Nat) (c : Cmd) : (s.dispatchCmd id c).pending = commandStep c.pkt.opcode id :: s.pending ∧
    (s.dispatchCmd id c).mem = s.mem ∧ (s.dispatchCmd id c).queues = s.queues ∧
    (s.dispatchCmd id c).cmds = s.cmds.modify id fun c => c.dispatched s.gtc := by
  unfold State.dispatchCmd
  dsimp only
  split <;> exact ⟨rfl, rfl, rfl, rfl⟩

/-- A command of a queue has its dispatch journalled; a node has no entry of its own. -/
theorem State.dispatchCmd_poolq (s : State) (id : Nat) {c : Cmd} (hnode : c.node = none) :
    ∃ r, (s.dispatchCmd id c).poolq = s.poolq ++ [r] ∧ r.cls = 1 ∧ r.size = 16 := by
  refine ⟨c.journalRequest 16 (leBytes 8 s.gtc ++ statusBytes .dispatched 0 s.gtc) false, ?_, rfl, ?_⟩
  · simp only [State.dispatchCmd, hnode, Option.isSome_none, Bool.false_eq_true, if_false]; rfl
  · show (leBytes 8 s.gtc ++ statusBytes .dispatched 0 s.gtc).length = 16
    rw [List.length_append, length_leBytes, length_statusBytes]

/-- The next command of a queue is dispatched, and the one before it is forgotten once it has ended. -/
theorem dispatch_next {s : State} {q : Fin 64} {id : Nat} {c : Cmd} (hready : ∀ e ∈ s.readyGraphs, e.2.lq ≠ q.val)
    (hmay : s.mayDispatch q.val = some id) (hc : s.cmds.find? id = some c) (hcur : (s.lqueue q.val).cur ≠ some id) :
    ∃ cs : Tab Cmd, cs.find? id = some c ∧ exec (.dispatch q) s = .next ((({ s with cmds := cs } : State).updQueue q.val
      fun x => { x with chain := x.chain.drop 1, cur := some id }).dispatchCmd id c) := by
  have hnone : List.find? (fun e : Nat × Cmd => decide (e.2.lq = q.val)) s.readyGraphs = none :=
    List.find?_eq_none.mpr fun e he => by simpa using hready e he
  simp only [exec_dispatch, execDispatch, hnone, hmay, hc]
  rcases hold : (s.lqueue q.val).cur with _ | o
  · exact ⟨s.cmds, hc, rfl⟩
  · have hne : id ≠ o := fun e => hcur (hold.trans (congrArg some e.symm))
    dsimp only
    rcases ho : s.cmds.find? o with _ | p
    · exact ⟨s.cmds, hc, rfl⟩
    · dsimp only
      split
      · exact ⟨s.cmds.del o, (Tab.find?_del_ne s.cmds hne).trans hc, rfl⟩
      · exact ⟨s.cmds, hc, rfl⟩

/-- The record of a node's command. -/
def State.nodeCmd (s : State) (gid : Nat) (g : Cmd) (p : Packet) : Cmd :=
  { Cmd.fresh g.lq g.ring g.part p s.gtc g.entry with node := some (gid, g.nextNode) }

/-- A graph that dispatches its next node (R92): the node is its latest child, and its CODE. -/
def Cmd.nextChild (g : Cmd) (id : Nat) : Cmd := { g with child := some id, nextNode := g.nextNode + 1, status := .running, code := g.nextNode }

/-- The commands with a node's own, and its graph gone on. -/
def State.startNode (s : State) (gid : Nat) (g : Cmd) (p : Packet) : State :=
  ({ s.bump with cmds := s.cmds.put s.fresh (s.nodeCmd gid g p) } : State).updCommand gid fun g => g.nextChild s.fresh

theorem State.dispatchNode_eq {s : State} (gid : Nat) {g : Cmd} {p : Packet} (hp : g.nodes[g.nextNode]? = some p) : s.dispatchNode gid g =
    ((s.startNode gid g p).writeStatus { g with status := .running } .running g.nextNode).dispatchCmd s.fresh (s.nodeCmd gid g p) := by
  simp only [State.dispatchNode, hp]; rfl

theorem State.writeStatus_keeps (s : State) (c : Cmd) (st : Status) (code : Nat) : (s.writeStatus c st code).pending = s.pending ∧
    (s.writeStatus c st code).queues = s.queues ∧ (s.writeStatus c st code).mem = s.mem ∧ (s.writeStatus c st code).gtc = s.gtc ∧
    (s.writeStatus c st code).cmds = s.cmds := by
  rw [State.writeStatus_frame]
  exact ⟨rfl, rfl, rfl, rfl, rfl⟩

/-- The next node of a graph is dispatched: a command of its own, with no entry in the journal. -/
theorem State.dispatchNode_node {s : State} (gid : Nat) {g : Cmd} {p : Packet} (hp : g.nodes[g.nextNode]? = some p) :
    (s.dispatchNode gid g).pending = commandStep p.opcode s.fresh :: s.pending ∧ (s.dispatchNode gid g).queues = s.queues ∧
    (s.dispatchNode gid g).mem = s.mem ∧
    ∃ c, (s.dispatchNode gid g).cmds.find? s.fresh = some c ∧ c.pkt = p ∧ c.node = some (gid, g.nextNode) ∧ c.d = some s.gtc := by
  rw [State.dispatchNode_eq gid hp]
  obtain ⟨hpending, hqueues, hmem, hgtc, hcmds⟩ :=
    (s.startNode gid g p).writeStatus_keeps { g with status := .running } .running g.nextNode
  generalize (s.startNode gid g p).writeStatus { g with status := .running } .running g.nextNode = u at hpending hqueues hmem hgtc hcmds ⊢
  obtain ⟨hpending', hmem', hqueues', hcmds'⟩ := u.dispatchCmd_keeps s.fresh (s.nodeCmd gid g p)
  refine ⟨hpending'.trans (congrArg _ hpending), hqueues'.trans hqueues, hmem'.trans hmem, ?_⟩
  have hstart : (s.startNode gid g p).cmds = (s.cmds.put s.fresh (s.nodeCmd gid g p)).modify gid fun g => g.nextChild s.fresh := rfl
  rw [hcmds', Tab.find?_modify_self, hcmds, hgtc, hstart, Tab.find?_modify]
  split
  next hg => rw [← hg, Tab.find?_put_self]; exact ⟨_, rfl, rfl, rfl, rfl⟩
  next => rw [Tab.find?_put_self]; exact ⟨_, rfl, rfl, rfl, rfl⟩

/-- R84, R87 to R89, R92 to R94: what a queue takes and what it dispatches. -/
theorem takesAndDispatches : TakesAndDispatches := by
  refine ⟨fun s q hmay => ?_, fun s q hmay hslot => ?_, fun s q i p hmay hslot hring hp => ?_, fun s q hready => ⟨fun hnone => ?_, ?_⟩, ?_⟩
  · simp only [exec_packetTake, execPacketTake, hmay]; rfl
  · simp only [exec_packetTake, execPacketTake, hmay, hslot]; rfl
  · by_cases hcode : rejectCode p (s.ring i).seq = 0
    · obtain ⟨t, ht, ⟨hmem, hgtc, htaken, hhead, hfetched, hothers, hturn, hentry⟩, hdone⟩ := packetTake_accepts hmay hslot hring hp hcode
      exact ⟨t, ht, hmem, hgtc, htaken, hhead, hfetched, hothers, hturn, hentry, fun hne => absurd hcode hne, fun _ => hdone⟩
    · obtain ⟨t, ht, ⟨hmem, hgtc, htaken, hhead, hfetched, hothers, hturn, hentry⟩, hdone⟩ := packetTake_rejects hmay hslot hring hp hcode
      exact ⟨t, ht, hmem, hgtc, htaken, hhead, hfetched, hothers, hturn, hentry, fun _ => hdone, fun heq => absurd heq hcode⟩
  · have hgraph : List.find? (fun e : Nat × Cmd => decide (e.2.lq = q.val)) s.readyGraphs = none :=
      List.find?_eq_none.mpr fun e he => by simpa using hready e he
    simp only [exec_dispatch, execDispatch, hgraph, hnone]
  · intro id c hmay hc hcur hnode
    obtain ⟨cs, hcs, hexec⟩ := dispatch_next hready hmay hc hcur
    let u : State := ({ s with cmds := cs } : State).updQueue q.val fun x => { x with chain := x.chain.drop 1, cur := some id }
    obtain ⟨hpending, hmem, hqueues, hcmds⟩ := u.dispatchCmd_keeps id c
    refine ⟨_, hexec, hpending, hmem, ?_, ?_, u.dispatchCmd_poolq id hnode⟩
    · rw [hcmds, Tab.find?_modify_self]
      exact congrArg (Option.map _) hcs
    · exact (congrArg (Tab.get · LQueue.fresh q.val) hqueues).trans (State.lqueue_updQueue_self { s with cmds := cs } q.val
        fun x => { x with chain := x.chain.drop 1, cur := some id })
  · intro s q gid g p hfind hp
    refine ⟨s.dispatchNode gid g, ?_, s.dispatchNode_node gid hp⟩
    simp only [exec_dispatch, execDispatch, hfind]

/-- Settles O49: the turns and releases of a queue from its tests, then a packet and a command each followed through its steps. -/
theorem takeAndDispatch : Obligations.TakeAndDispatch := ⟨turnsAndReleases, takesAndDispatches⟩

end Sys2Proof.Machine
end

section
/-! SUPPORT. The commands that run in the hub (R86, R92): from their dispatch to their end. -/

namespace Sys2Proof.Machine

/-! ### The end of a command that is no node (R86, R93, R97) -/

theorem State.writeStatus_poolq (s : State) {c : Cmd} (st : Status) (code : Nat) (hnode : c.node = none) :
    (s.writeStatus c st code).poolq = s.poolq ++ [c.journalRequest 24 (statusBytes st code s.gtc) false] := by
  simp only [State.writeStatus, hnode, Option.isSome_none, Bool.false_eq_true, if_false]
  split <;> rfl

theorem State.endCmd_alone {s : State} {id : Nat} {c : Cmd} (st : Status) (code : Nat) (hc : s.cmds.find? id = some c) (hfin : c.fin = none)
    (hnode : c.node = none) : s.endCmd id st code =
      (((s.updCommand id fun c => c.ended st code s.gtc).writeStatus c st code).notify c).post (some c.lq) 1 := by
  simp only [State.endCmd, hc, hfin, hnode, Option.isSome_none, Option.isNone_none, Bool.false_eq_true, if_false, if_true]; rfl

/-- A command's end is journalled, raises its interrupt, and is an event for firmware. -/
theorem State.endCmd_reports {s : State} {id : Nat} {c : Cmd} (st : Status) (code : Nat) (hc : s.cmds.find? id = some c) (hfin : c.fin = none)
    (hnode : c.node = none) : (∃ r, (s.endCmd id st code).poolq = s.poolq ++ [r] ∧ r.cls = 1 ∧ r.size = 8) ∧
    (s.endCmd id st code).link.msix = s.link.msix ++ (if c.pkt.notify = true then [(s.ring c.ring).vector] else []) ∧
    (s.endCmd id st code).fw.events = s.fw.events ++ [⟨some c.lq, 1⟩] := by
  rw [State.endCmd_alone st code hc hfin hnode]
  refine ⟨⟨c.journalRequest 24 (statusBytes st code s.gtc) false, ?_, rfl, length_statusBytes ..⟩, ?_, ?_⟩
  · rw [State.notify_frame]
    exact State.writeStatus_poolq _ st code hnode
  · refine (State.notify_msix _ c).trans ?_
    rw [State.writeStatus_frame]; rfl
  · rw [State.notify_frame, State.writeStatus_frame]; rfl

/-! ### A command just dispatched -/

theorem State.onCmd_dispatched {s : State} {id : Nat} {c : Cmd} (f : Cmd → State) (h : Dispatched s id c) : s.onCmd id f = .next (f c) := by
  obtain ⟨hc, hfin, hd⟩ := h
  simp only [State.onCmd, hc]
  exact if_pos ⟨Option.isNone_iff_eq_none.mpr hfin, hd⟩

/-- What the reads for a command leave: everything but the stacks. -/
theorem State.sawHost_keeps (s : State) (c : Cmd) (n : Nat) :
    (s.sawHost c n).cmds = s.cmds ∧ (s.sawHost c n).mem = s.mem ∧ (s.sawHost c n).gtc = s.gtc := by
  rw [State.sawHost_frame]; exact ⟨rfl, rfl, rfl⟩

/-! ### WAIT (R86) -/

/-- A WAIT that has found its word. -/
def State.waitAt (s : State) (id : Nat) (c : Cmd) (pa : Nat) : State :=
  { s.sawHost { c with addr := pa } 8 with cmds := s.cmds.put id { c with addr := pa } }

theorem State.waitAt_frame (s : State) (id : Nat) (c : Cmd) (pa : Nat) :
    s.waitAt id c pa = { s with cmds := s.cmds.put id { c with addr := pa }, hbm := (s.waitAt id c pa).hbm } := by
  unfold State.waitAt
  rw [State.sawHost_frame]

theorem wait_unmapped {s : State} {id : Nat} {c : Cmd} (h : Dispatched s id c)
    (ha : s.hostAddr c.part (field c.pkt.w1.toNat 0 52) 8 false = none) : exec (.wait id) s = .next (s.endNodeCmd id .failed 16) := by
  have ha' : s.hostAddr c.part (field (c.pkt.word 1) 0 52) 8 false = none := ha
  rw [exec_wait, execWait, State.onCmd_dispatched _ h]
  simp only [ha']

theorem wait_mapped {s : State} {id : Nat} {c : Cmd} {pa : Nat} (h : Dispatched s id c)
    (ha : s.hostAddr c.part (field c.pkt.w1.toNat 0 52) 8 false = some pa) : exec (.wait id) s = .next
      (if c.pkt.w2.toNat ≤ s.natAt pa 8 then (s.waitAt id c pa).endNodeCmd id .done 0 else s.waitAt id c pa) := by
  have ha' : s.hostAddr c.part (field (c.pkt.word 1) 0 52) 8 false = some pa := ha
  have hcmds : ({ s.sawHost { c with addr := pa } 8 with cmds := (s.sawHost { c with addr := pa } 8).cmds.put id { c with addr := pa } } : State) =
      s.waitAt id c pa := by rw [(s.sawHost_keeps { c with addr := pa } 8).1]; rfl
  have hholds : (s.waitAt id c pa).waitHolds { c with addr := pa } = decide (c.pkt.w2.toNat ≤ s.natAt pa 8) := by
    rw [State.waitAt_frame]; rfl
  rw [exec_wait, execWait, State.onCmd_dispatched _ h]
  simp only [ha', hcmds, hholds, decide_eq_true_eq]

theorem wait_clause (s : State) (id : Nat) (c : Cmd) (h : Dispatched s id c) :
    (s.hostAddr c.part (field c.pkt.w1.toNat 0 52) 8 false = none → exec (.wait id) s = .next (s.endNodeCmd id .failed 16)) ∧
    (∀ pa, s.hostAddr c.part (field c.pkt.w1.toNat 0 52) 8 false = some pa →
      (c.pkt.w2.toNat ≤ s.natAt pa 8 → ∃ t, exec (.wait id) s = .next t ∧ t.mem = s.mem ∧ Ended s t id .done 0) ∧
      (s.natAt pa 8 < c.pkt.w2.toNat → ∃ t, exec (.wait id) s = .next t ∧ t = { s with cmds := t.cmds, hbm := t.hbm } ∧
        t.cmds.find? id = some { c with addr := pa } ∧ ∀ k, k ≠ id → t.cmds.find? k = s.cmds.find? k)) := by
  refine ⟨wait_unmapped h, fun pa ha => ?_⟩
  have hw := wait_mapped h ha
  have hframe := s.waitAt_frame id c pa
  obtain ⟨-, hfin, -⟩ := h
  refine ⟨fun hle => ?_, fun hlt => ?_⟩
  · rw [if_pos hle] at hw
    have hself : (s.waitAt id c pa).cmds.find? id = some { c with addr := pa } := Tab.find?_put_self ..
    have hended := State.endNodeCmd_self .done 0 hself hfin
    obtain ⟨hhub, -⟩ := (s.waitAt id c pa).endNodeCmd_endsAs id .done 0
    exact ⟨_, hw, hhub.mem.trans (by rw [hframe]), Ended.of_find hended (by rw [hframe])⟩
  · rw [if_neg (Nat.not_le.mpr hlt)] at hw
    exact ⟨_, hw, hframe, Tab.find?_put_self .., fun k hk => Tab.find?_put_ne s.cmds _ hk⟩

/-! ### Waits and stores under way (R86) -/

theorem State.mem_inProgress {s : State} {op : Nat} {e : Nat × Cmd} :
    e ∈ s.inProgress op ↔ e ∈ s.cmds ∧ e.2.pkt.opcode = op ∧ e.2.d.isSome = true ∧ e.2.fin = none := by
  simp only [State.inProgress, List.mem_filter, Bool.and_eq_true, decide_eq_true_eq, Option.isNone_iff_eq_none, and_assoc]

/-- A command under way that passes the test of a tick is among those that end. -/
theorem State.inProgress_listed {s : State} {op id : Nat} {c : Cmd} {p : Nat × Cmd → Bool} (hc : s.cmds.find? id = some c)
    (hop : c.pkt.opcode = op) (hd : c.d.isSome = true) (hfin : c.fin = none) (hp : p (id, c) = true) :
    id ∈ ((s.inProgress op).filter p).map (·.1) :=
  List.mem_map.mpr ⟨(id, c), List.mem_filter.mpr ⟨State.mem_inProgress.mpr ⟨Tab.mem_of_find? hc, hop, hd, hfin⟩, hp⟩, rfl⟩

/-- One that does not pass is not. -/
theorem State.inProgress_unlisted {s : State} {op id : Nat} {c : Cmd} {p : Nat × Cmd → Bool} (hnd : (s.cmds.map (·.1)).Nodup)
    (hc : s.cmds.find? id = some c) (hp : p (id, c) = false) : ∀ e ∈ (s.inProgress op).filter p, e.1 ≠ id := by
  rintro ⟨k, x⟩ he rfl
  obtain ⟨hmem, hpe⟩ := List.mem_filter.mp he
  obtain ⟨hin, -⟩ := State.mem_inProgress.mp hmem
  obtain rfl : x = c := Tab.entries_of_key hnd hc _ hin rfl
  exact Bool.false_ne_true (hp.symm.trans hpe)

/-- What an event that ends commands under way does with one command: it ends it, or it leaves it. -/
theorem State.endNodeCmds_outcome {s : State} {op id : Nat} {c : Cmd} {p : Nat × Cmd → Bool} (st : Status) (code : Nat)
    (hnd : (s.cmds.map (·.1)).Nodup) (hc : s.cmds.find? id = some c) (hop : c.pkt.opcode = op) (hd : c.d.isSome = true) (hfin : c.fin = none) :
    let t := s.endNodeCmds ((s.inProgress op).filter p) st code
    t.mem = s.mem ∧ (p (id, c) = true → Ended s t id st code) ∧
    (p (id, c) = false → (st.endsGraph → ∀ e ∈ s.cmds, ∀ i, e.2.node ≠ some (id, i)) → t.cmds.find? id = some c) := by
  refine ⟨(s.endNodeCmds_endsAs _ st code).1.mem, fun hp => ?_, fun hp hgraph => ?_⟩
  · exact Ended.of_find (State.endNodeCmds_mem st code (State.inProgress_listed hc hop hd hfin hp) hc hfin)
  · exact (State.endNodeCmds_notMem st code (State.inProgress_unlisted hnd hc hp)
      fun hst k x i hx => hgraph hst (k, x) (Tab.mem_of_find? hx) i).trans hc

theorem State.waitDone_iff {s : State} {c : Cmd} {d : Nat} (hd : c.d = some d) : s.waitDone c = true ↔
    c.pkt.w2.toNat ≤ s.natAt c.addr 8 ∧ ((s.lqueue c.lq).watchdog = 0 ∨ s.gtc ≤ d + (s.lqueue c.lq).watchdog * 1300) := by
  simp only [State.waitDone, State.waitHolds, State.waitEnd, hd, Bool.and_eq_true, decide_eq_true_eq]
  refine and_congr Iff.rfl ?_
  by_cases h : (s.lqueue c.lq).watchdog = 0 <;> simp [h]

theorem State.waitLate_iff {s : State} {c : Cmd} {d : Nat} (hd : c.d = some d) : s.waitLate c = true ↔
    (s.lqueue c.lq).watchdog ≠ 0 ∧ d + (s.lqueue c.lq).watchdog * 1300 < s.gtc := by
  simp only [State.waitLate, State.waitEnd, hd]
  by_cases h : (s.lqueue c.lq).watchdog = 0 <;> simp [h]

theorem waitSatisfied_eq (s : State) :
    exec .waitSatisfied s = .next (s.endNodeCmds ((s.inProgress 3).filter fun e => s.waitDone e.2) .done 0) := rfl

theorem waitWatchdog_eq (s : State) :
    exec .waitWatchdog s = .next (s.endNodeCmds ((s.inProgress 3).filter fun e => s.waitLate e.2) .killed 0) := rfl

theorem writeCompletion_eq (s : State) :
    exec .writeCompletion s = .next (s.endNodeCmds ((s.inProgress 4).filter fun e => byTick e.2.due s.gtc) .done 0) := rfl

theorem waits_clause (s : State) (id : Nat) (c : Cmd) (hnd : (s.cmds.map (·.1)).Nodup) (hc : s.cmds.find? id = some c)
    (hop : c.pkt.opcode = 3) (hfin : c.fin = none) : ∀ d, c.d = some d → let bound := (s.lqueue c.lq).watchdog
    (c.pkt.w2.toNat ≤ s.natAt c.addr 8 → bound = 0 ∨ s.gtc ≤ d + bound * 1300 →
      ∃ t, exec .waitSatisfied s = .next t ∧ t.mem = s.mem ∧ Ended s t id .done 0) ∧
    (s.natAt c.addr 8 < c.pkt.w2.toNat → ∃ t, exec .waitSatisfied s = .next t ∧ t.mem = s.mem ∧ t.cmds.find? id = some c) ∧
    (bound ≠ 0 → d + bound * 1300 < s.gtc → ∃ t, exec .waitWatchdog s = .next t ∧ t.mem = s.mem ∧ Ended s t id .killed 0) ∧
    (bound = 0 ∨ s.gtc ≤ d + bound * 1300 → (∀ e ∈ s.cmds, ∀ i, e.2.node ≠ some (id, i)) →
      ∃ t, exec .waitWatchdog s = .next t ∧ t.mem = s.mem ∧ t.cmds.find? id = some c) := by
  intro d hd bound
  have hsome : c.d.isSome = true := hd ▸ rfl
  obtain ⟨hmem, hends, hstays⟩ := State.endNodeCmds_outcome (p := fun e => s.waitDone e.2) .done 0 hnd hc hop hsome hfin
  obtain ⟨hmemK, hendsK, hstaysK⟩ := State.endNodeCmds_outcome (p := fun e => s.waitLate e.2) .killed 0 hnd hc hop hsome hfin
  refine ⟨fun hle hin => ⟨_, waitSatisfied_eq s, hmem, hends ((State.waitDone_iff hd).mpr ⟨hle, hin⟩)⟩,
    fun hlt => ⟨_, waitSatisfied_eq s, hmem, hstays ?_ fun h => absurd h Status.not_endsGraph_done⟩,
    fun hb hlate => ⟨_, waitWatchdog_eq s, hmemK, hendsK ((State.waitLate_iff hd).mpr ⟨hb, hlate⟩)⟩,
    fun hin hgraph => ⟨_, waitWatchdog_eq s, hmemK, hstaysK ?_ fun _ => hgraph⟩⟩
  · exact Bool.eq_false_iff.mpr fun h => absurd ((State.waitDone_iff hd).mp h).1 (Nat.not_le.mpr hlt)
  · refine Bool.eq_false_iff.mpr fun h => ?_
    obtain ⟨hb, hlate⟩ := (State.waitLate_iff hd).mp h
    exact hin.elim hb fun hle => absurd hlate (Nat.not_lt.mpr hle)

theorem writes_clause (s : State) (id : Nat) (c : Cmd) (hnd : (s.cmds.map (·.1)).Nodup) (hc : s.cmds.find? id = some c)
    (hop : c.pkt.opcode = 4) (hfin : c.fin = none) (hd : c.d.isSome = true) : ∀ w, c.due = some w →
    (w ≤ s.gtc → ∃ t, exec .writeCompletion s = .next t ∧ t.mem = s.mem ∧ Ended s t id .done 0) ∧
    (s.gtc < w → ∃ t, exec .writeCompletion s = .next t ∧ t.mem = s.mem ∧ t.cmds.find? id = some c) := by
  intro w hw
  obtain ⟨hmem, hends, hstays⟩ := State.endNodeCmds_outcome (p := fun e => byTick e.2.due s.gtc) .done 0 hnd hc hop hd hfin
  have hdue : byTick c.due s.gtc = decide (w ≤ s.gtc) := by rw [hw]; rfl
  exact ⟨fun hle => ⟨_, writeCompletion_eq s, hmem, hends (hdue.trans (decide_eq_true hle))⟩,
    fun hlt => ⟨_, writeCompletion_eq s, hmem, hstays (hdue.trans (decide_eq_false (Nat.not_le.mpr hlt))) fun h => absurd h Status.not_endsGraph_done⟩⟩

/-! ### WRITE (R86) -/

theorem write_clause (s : State) (id : Nat) (c : Cmd) (h : Dispatched s id c) :
    (s.hostAddr c.part (field c.pkt.w1.toNat 0 52) 8 true = none → exec (.write id) s = .next (s.endNodeCmd id .failed 16)) ∧
    (∀ pa, s.hostAddr c.part (field c.pkt.w1.toNat 0 52) 8 true = some pa →
      ∃ t, exec (.write id) s = .next t ∧ t = { s with poolq := s.poolq ++ [⟨2, c.part, c.lq, pa, 8, .hostWrite id⟩], hbm := t.hbm }) := by
  rw [exec_write, execWrite, State.onCmd_dispatched _ h]
  refine ⟨fun ha => ?_, fun pa ha => ?_⟩
  · have ha' : s.hostAddr c.part (field (c.pkt.word 1) 0 52) 8 true = none := ha
    simp only [ha']
  · have ha' : s.hostAddr c.part (field (c.pkt.word 1) 0 52) 8 true = some pa := ha
    simp only [ha']
    refine ⟨_, rfl, ?_⟩
    rw [State.sawWalks_frame]; rfl

/-! ### GRAPH (R92) -/

/-- The nodes of a graph are read (R31, R36, R92). -/
def State.readNodes (s : State) (c : Cmd) (n : Nat) (pas : List Nat) : State :=
  pas.foldl (fun s a => s.askPool ⟨4, c.part, c.lq, a, 64, .read⟩)
    (s.sawWalks c.part ((List.range n).map fun i => field (c.pkt.word 1) 0 52 + 64 * i))

theorem State.readNodes_keeps (s : State) (c : Cmd) (n : Nat) (pas : List Nat) : (s.readNodes c n pas).mem = s.mem ∧
    (s.readNodes c n pas).gtc = s.gtc ∧ (s.readNodes c n pas).cmds = s.cmds ∧ (s.readNodes c n pas).pending = s.pending := by
  refine List.foldlRecOn (motive := fun t : State => t.mem = s.mem ∧ t.gtc = s.gtc ∧ t.cmds = s.cmds ∧ t.pending = s.pending) pas _ ?_
    fun _ ht _ _ => ht
  rw [State.sawWalks_frame]
  exact ⟨rfl, rfl, rfl, rfl⟩

/-- Staging of its LAUNCH nodes begins; the graph's record keeps them beside its nodes. -/
theorem State.stageNodes_keeps (s : State) (id : Nat) (c : Cmd) : (s.stageNodes id c).mem = s.mem ∧
    (s.stageNodes id c).gtc = s.gtc ∧ (s.stageNodes id c).pending = s.pending := by
  refine List.foldlRecOn (motive := fun t : State => t.mem = s.mem ∧ t.gtc = s.gtc ∧ t.pending = s.pending) _ _ ⟨rfl, rfl, rfl⟩
    fun t ht e _ => ?_
  dsimp only
  split
  · rw [State.addGrid_frame]; exact ht
  · exact ht

section
variable {s : State} {id : Nat} {c : Cmd} (h : Dispatched s id c)
include h

theorem graph_badCount (hn : field c.pkt.w2.toNat 0 16 = 0 ∨ 256 < field c.pkt.w2.toNat 0 16) :
    exec (.graph id) s = .next (s.endCmd id .failed 18) := by
  rw [exec_graph, execGraph, State.onCmd_dispatched _ h]
  exact congrArg Host.Outcome.next (if_pos hn)

theorem graph_unmapped (hn : ¬ (field c.pkt.w2.toNat 0 16 = 0 ∨ 256 < field c.pkt.w2.toNat 0 16))
    (hpas : none ∈ (List.range (field c.pkt.w2.toNat 0 16)).map (s.nodeAt c)) : exec (.graph id) s = .next (s.endCmd id .failed 16) := by
  rw [exec_graph, execGraph, State.onCmd_dispatched _ h]
  refine congrArg Host.Outcome.next ((if_neg hn).trans (if_pos ?_))
  exact List.any_eq_true.mpr ⟨none, hpas, rfl⟩

/-- The nodes are read and judged (R87, R92). -/
theorem graph_reads (hn : ¬ (field c.pkt.w2.toNat 0 16 = 0 ∨ 256 < field c.pkt.w2.toNat 0 16))
    (hpas : none ∉ (List.range (field c.pkt.w2.toNat 0 16)).map (s.nodeAt c)) :
    let n := field c.pkt.w2.toNat 0 16
    let pas := ((List.range n).map (s.nodeAt c)).filterMap fun a => a
    let ps := pas.map s.packetAt
    let u := s.readNodes c n pas
    exec (.graph id) s = .next (if (ps.zipIdx.all fun e => nodeOk n e.2 e.1) = false then u.endCmd id .failed 18
      else (({ u with cmds := s.cmds.put id { c with nodes := ps } } : State).stageNodes id { c with nodes := ps }).dispatchNode id
        { c with nodes := ps }) := by
  intro n pas ps u
  obtain ⟨-, -, hcmds, -⟩ := s.readNodes_keeps c n pas
  have hall : ¬ ((List.range n).map (s.nodeAt c)).any (·.isNone) = true := fun hany => by
    obtain ⟨a, ha, hnone⟩ := List.any_eq_true.mp hany
    exact hpas (Option.isNone_iff_eq_none.mp hnone ▸ ha)
  rw [exec_graph, execGraph, State.onCmd_dispatched _ h]
  refine congrArg Host.Outcome.next ((if_neg hn).trans ((if_neg hall).trans ?_))
  rw [← hcmds]
  by_cases hok : (ps.zipIdx.all fun e => nodeOk n e.2 e.1) = false
  · rw [if_pos hok]
    exact if_pos (by rw [Bool.not_eq_true']; exact hok)
  · rw [if_neg hok]
    exact if_neg (by rw [Bool.not_eq_true']; exact hok)

end

theorem graph_clause (s : State) (id : Nat) (c : Cmd) (h : Dispatched s id c) :
    let n := field c.pkt.w2.toNat 0 16
    let pas := (List.range n).map fun i => s.hostAddr c.part (field c.pkt.w1.toNat 0 52 + 64 * i) 64 false
    let ps := (pas.filterMap fun a => a).map s.packetAt
    (n = 0 ∨ 256 < n → exec (.graph id) s = .next (s.endCmd id .failed 18)) ∧
    (n ≠ 0 → n ≤ 256 → none ∈ pas → exec (.graph id) s = .next (s.endCmd id .failed 16)) ∧
    (n ≠ 0 → n ≤ 256 → none ∉ pas → (∃ e ∈ ps.zipIdx, nodeOk n e.2 e.1 = false) →
      ∃ t, exec (.graph id) s = .next t ∧ t.mem = s.mem ∧ Ended s t id .failed 18) ∧
    (n ≠ 0 → n ≤ 256 → none ∉ pas → (∀ e ∈ ps.zipIdx, nodeOk n e.2 e.1 = true) → c.nextNode = 0 →
      ∃ t k, exec (.graph id) s = .next t ∧ t.mem = s.mem ∧ t.pending = commandStep ((ps.getD 0 c.pkt).opcode) k :: s.pending ∧
        (t.cmds.find? k).bind (·.node) = some (id, 0) ∧ (t.cmds.find? k).bind (·.d) = some s.gtc) := by
  intro n pas ps
  have hcount : n ≠ 0 → n ≤ 256 → ¬ (n = 0 ∨ 256 < n) := fun h0 h256 hor => hor.elim h0 (Nat.not_lt.mpr h256)
  obtain ⟨hmem, hgtc, hcmds, hpending⟩ := s.readNodes_keeps c n (pas.filterMap fun a => a)
  have ⟨hc, hfin, _⟩ := h
  refine ⟨graph_badCount h, fun h0 h256 hpas => graph_unmapped h (hcount h0 h256) hpas, fun h0 h256 hpas hbad => ?_,
    fun h0 h256 hpas hok hnext => ?_⟩
  · have hall : (ps.zipIdx.all fun e => nodeOk n e.2 e.1) = false := List.all_eq_false.mpr (by simpa using hbad)
    refine ⟨_, (graph_reads h (hcount h0 h256) hpas).trans (congrArg Host.Outcome.next (if_pos hall)),
      (State.endCmd_hubOnly _ id .failed 18).mem.trans hmem,
      Ended.of_find (State.endCmd_self .failed 18 ((congrArg (Tab.find? · id) hcmds).trans hc) hfin) hgtc⟩
  · have hall : ¬ (ps.zipIdx.all fun e => nodeOk n e.2 e.1) = false := fun hf => by
      rw [List.all_eq_true.mpr hok] at hf; cases hf
    have hread : (pas.filterMap fun a => a).length = pas.length :=
      List.reduceOption_length_eq_iff.mpr fun a ha => Option.isSome_iff_ne_none.mpr fun hnone => hpas (hnone ▸ ha)
    have hlen : 0 < ps.length := by
      rw [List.length_map, hread, List.length_map, List.length_range]
      exact Nat.pos_of_ne_zero h0
    have hp : ({ c with nodes := ps } : Cmd).nodes[({ c with nodes := ps } : Cmd).nextNode]? = some (ps.getD 0 c.pkt) := by
      show ps[c.nextNode]? = _
      rw [hnext, List.getD_eq_getElem?_getD, List.getElem?_eq_getElem hlen]; rfl
    let u : State := { s.readNodes c n (pas.filterMap fun a => a) with cmds := s.cmds.put id { c with nodes := ps } }
    obtain ⟨hmem', hgtc', hpending'⟩ := u.stageNodes_keeps id { c with nodes := ps }
    obtain ⟨hpend, -, hm, x, hx, -, hnode, hd⟩ := State.dispatchNode_node (s := u.stageNodes id { c with nodes := ps }) id hp
    refine ⟨_, _, (graph_reads h (hcount h0 h256) hpas).trans (congrArg Host.Outcome.next (if_neg hall)),
      hm.trans (hmem'.trans hmem), hpend.trans (congrArg _ (hpending'.trans hpending)), ?_, ?_⟩
    · refine (congrArg (Option.bind · Cmd.node) hx).trans (hnode.trans ?_)
      rw [← hnext]
    · exact (congrArg (Option.bind · Cmd.d) hx).trans (hd.trans (congrArg some (hgtc'.trans hgtc)))

/-! ### The nodes COND, LOOP and END (R92) -/

/-- A node of a graph just dispatched, and the graph in progress. -/
structure NodeAt (s : State) (id g i : Nat) (c G : Cmd) : Prop where
  dispatched : Dispatched s id c
  node : c.node = some (g, i)
  ne : g ≠ id
  graph : s.cmds.find? g = some G
  fin : G.fin = none

/-- What a test node's reads leave: the commands, memory and the tick. -/
def State.SameHub (s u : State) : Prop := u.cmds = s.cmds ∧ u.mem = s.mem ∧ u.gtc = s.gtc

section
variable {s u : State} {id g i : Nat} {c G : Cmd}

/-- A node that goes on: it ends DONE, and its graph changes. -/
theorem NodeAt.goesOn (h : NodeAt s id g i c G) (f : Cmd → Cmd) (hu : s.SameHub u) :
    ((u.updCommand g f).endCmd id .done 0).mem = s.mem ∧ Ended s ((u.updCommand g f).endCmd id .done 0) id .done 0 ∧
    ((u.updCommand g f).endCmd id .done 0).cmds.find? g = some (f G) := by
  obtain ⟨⟨hc, hfin, -⟩, -, hne, hG, -⟩ := h
  obtain ⟨hcmds, hmem, hgtc⟩ := hu
  have hupd : ∀ k, (u.updCommand g f).cmds.find? k = (s.cmds.modify g f).find? k := fun k =>
    congrArg (fun t : Tab Cmd => (t.modify g f).find? k) hcmds
  have hid : (u.updCommand g f).cmds.find? id = some c := ((hupd id).trans (Tab.find?_modify_ne s.cmds f hne.symm)).trans hc
  refine ⟨(State.endCmd_hubOnly _ id .done 0).mem.trans hmem, Ended.of_find (State.endCmd_self .done 0 hid hfin) hgtc, ?_⟩
  rw [State.endCmd_cmds_ne _ .done 0 hne, hupd, Tab.find?_modify_self, hG]; rfl

/-- A node that fails: its graph fails with it. -/
theorem NodeAt.fails (h : NodeAt s id g i c G) (code : Nat) (hu : s.SameHub u) : (u.endNodeCmd id .failed code).mem = s.mem ∧
    Ended s (u.endNodeCmd id .failed code) id .failed code ∧ Ended s (u.endNodeCmd id .failed code) g .failed code := by
  obtain ⟨⟨hc, hfin, -⟩, hnode, hne, hG, hfinG⟩ := h
  obtain ⟨hcmds, hmem, hgtc⟩ := hu
  have hid : u.cmds.find? id = some c := (congrArg (Tab.find? · id) hcmds).trans hc
  obtain ⟨hhub, -⟩ := u.endNodeCmd_endsAs id .failed code
  exact ⟨hhub.mem.trans hmem, Ended.of_find (State.endNodeCmd_self .failed code hid hfin) hgtc,
    Ended.of_find (State.endNodeCmd_endsGraph code hid hnode (.inl rfl) hne ((congrArg (Tab.find? · g) hcmds).trans hG) hfinG) hgtc⟩

/-- The last node: its graph is done with it. -/
theorem NodeAt.endNode (h : NodeAt s id g i c G) :
    ∃ t, exec (.endNode id) s = .next t ∧ t.mem = s.mem ∧ Ended s t id .done 0 ∧ Ended s t g .done 0 := by
  have ⟨⟨hc, hfin, _⟩, hnode, hne, hG, hfinG⟩ := h
  have hexec : exec (.endNode id) s = .next ((s.endCmd id .done 0).endGraph g .done 0) := by
    rw [exec_endNode, execEndNode, State.onCmd_dispatched _ h.dispatched]
    simp only [hnode]
  have hhub := s.endCmd_hubOnly id .done 0
  have hends := State.endGraph_endsAs (s.endCmd id .done 0) g .done 0
  refine ⟨_, hexec, hends.1.mem.trans hhub.mem, Ended.of_find (hends.keeps_ended (State.endCmd_self .done 0 hc hfin) (Option.some_ne_none _)), ?_⟩
  exact Ended.of_find (State.endGraph_self .done 0 ((s.endCmd_cmds_ne .done 0 hne).trans hG) hfinG) hhub.gtc

/-! Test nodes: the word that they read decides. -/

theorem State.nodeTest_unmapped (h : s.hostAddr c.part (field c.pkt.w1.toNat 0 52) 4 false = none) : s.nodeTest c = none :=
  congrArg (Option.map _) h

theorem State.nodeTest_mapped {pa : Nat} (h : s.hostAddr c.part (field c.pkt.w1.toNat 0 52) 4 false = some pa) :
    s.nodeTest c = some (predicateHolds (field c.pkt.w2.toNat 32 3) (s.natAt pa 4) (field c.pkt.w2.toNat 0 32)) :=
  congrArg (Option.map _) h

theorem cond_unmapped (h : NodeAt s id g i c G) (htest : s.nodeTest c = none) : exec (.cond id) s = .next (s.endNodeCmd id .failed 16) := by
  rw [exec_cond, execCond, State.onCmd_dispatched _ h.dispatched]
  simp only [h.node, htest]

theorem loop_unmapped (h : NodeAt s id g i c G) (htest : s.nodeTest c = none) : exec (.loop id) s = .next (s.endNodeCmd id .failed 16) := by
  rw [exec_loop, execLoop, State.onCmd_dispatched _ h.dispatched]
  simp only [h.node, htest]

theorem cond_mapped (h : NodeAt s id g i c G) {b : Bool} (htest : s.nodeTest c = some b) : exec (.cond id) s =
    .next (((s.sawHost c 4).updCommand g fun g => { g with nextNode := if b then field c.pkt.w2.toNat 48 16 else i + 1 }).endCmd id .done 0) := by
  rw [exec_cond, execCond, State.onCmd_dispatched _ h.dispatched]
  simp only [h.node, htest]; rfl

/-- A LOOP by its test and by how often its branch was taken. -/
theorem loop_mapped (h : NodeAt s id g i c G) {b : Bool} (htest : s.nodeTest c = some b) : exec (.loop id) s =
    .next (if b = true ∧ G.loops.get 0 i < field c.pkt.w3.toNat 0 32 then
      ((s.sawHost c 4).updCommand g fun x =>
        { x with nextNode := field c.pkt.w2.toNat 48 16, loops := x.loops.put i (G.loops.get 0 i + 1) }).endCmd id .done 0
    else if b = true then (s.sawHost c 4).endNodeCmd id .failed 19
    else ((s.sawHost c 4).updCommand g fun x => { x with loops := x.loops.put i 0 }).endCmd id .done 0) := by
  obtain ⟨hcmds, -, -⟩ := s.sawHost_keeps c 4
  have hcount : (((s.sawHost c 4).cmds.find? g).map fun g => g.loops.get 0 i).getD 0 = G.loops.get 0 i := by
    rw [hcmds, h.graph]; rfl
  rw [exec_loop, execLoop, State.onCmd_dispatched _ h.dispatched]
  simp only [h.node, htest, hcount]; rfl

end

theorem node_clause (s : State) (id g i : Nat) (c G : Cmd) (h : NodeAt s id g i c G) :
    let va := field c.pkt.w1.toNat 0 52
    let tgt := field c.pkt.w2.toNat 48 16
    let max := field c.pkt.w3.toNat 0 32
    (s.hostAddr c.part va 4 false = none →
      (∃ t, exec (.cond id) s = .next t ∧ Ended s t id .failed 16 ∧ Ended s t g .failed 16) ∧
      (∃ t, exec (.loop id) s = .next t ∧ Ended s t id .failed 16 ∧ Ended s t g .failed 16)) ∧
    (∀ pa, s.hostAddr c.part va 4 false = some pa →
      let h := predicateHolds (field c.pkt.w2.toNat 32 3) (s.natAt pa 4) (field c.pkt.w2.toNat 0 32)
      (∃ t, exec (.cond id) s = .next t ∧ t.mem = s.mem ∧ Ended s t id .done 0 ∧
        t.cmds.find? g = some { G with nextNode := if h then tgt else i + 1 }) ∧
      (h = false → ∃ t, exec (.loop id) s = .next t ∧ t.mem = s.mem ∧ Ended s t id .done 0 ∧
        t.cmds.find? g = some { G with loops := G.loops.put i 0 }) ∧
      (h = true → G.loops.get 0 i < max → ∃ t, exec (.loop id) s = .next t ∧ t.mem = s.mem ∧ Ended s t id .done 0 ∧
        t.cmds.find? g = some { G with nextNode := tgt, loops := G.loops.put i (G.loops.get 0 i + 1) }) ∧
      (h = true → max ≤ G.loops.get 0 i → ∃ t, exec (.loop id) s = .next t ∧ t.mem = s.mem ∧ Ended s t id .failed 19 ∧ Ended s t g .failed 19)) ∧
    (∃ t, exec (.endNode id) s = .next t ∧ t.mem = s.mem ∧ Ended s t id .done 0 ∧ Ended s t g .done 0) := by
  intro va tgt max
  have hsaw : s.SameHub (s.sawHost c 4) := s.sawHost_keeps c 4
  refine ⟨fun ha => ?_, fun pa ha => ?_, h.endNode⟩
  · have htest := State.nodeTest_unmapped ha
    obtain ⟨-, hown, hgraph⟩ := h.fails 16 ⟨rfl, rfl, rfl⟩
    exact ⟨⟨_, cond_unmapped h htest, hown, hgraph⟩, ⟨_, loop_unmapped h htest, hown, hgraph⟩⟩
  · intro b
    have htest : s.nodeTest c = some b := State.nodeTest_mapped ha
    have hloop := loop_mapped h htest
    refine ⟨⟨_, cond_mapped h htest, h.goesOn (fun g => { g with nextNode := if b then tgt else i + 1 }) hsaw⟩, fun hb => ?_, fun hb hlt => ?_,
      fun hb hle => ?_⟩
    · rw [hb, if_neg (fun hc => Bool.false_ne_true hc.1), if_neg Bool.false_ne_true] at hloop
      exact ⟨_, hloop, h.goesOn (fun x => { x with loops := x.loops.put i 0 }) hsaw⟩
    · rw [if_pos ⟨hb, hlt⟩] at hloop
      exact ⟨_, hloop, h.goesOn (fun x => { x with nextNode := tgt, loops := x.loops.put i (G.loops.get 0 i + 1) }) hsaw⟩
    · rw [if_neg (fun hc => absurd hc.2 (Nat.not_lt.mpr hle)), if_pos hb] at hloop
      exact ⟨_, hloop, h.fails 19 hsaw⟩

/-! ### The comparisons of test nodes (R92) -/

theorem signedField_word (w : Nat) : signedField w 32 = (BitVec.ofNat 32 w).toInt := by
  have hfield : signedField w 32 = if w % 2 ^ 32 < 2 ^ 31 then ((w % 2 ^ 32 : Nat) : Int) else ((w % 2 ^ 32 : Nat) : Int) - 2 ^ 32 := rfl
  rw [hfield, BitVec.toInt_eq_toNat_cond, BitVec.toNat_ofNat]
  split_ifs <;> omega

theorem predicateHolds_clause (w v : Nat) : predicateHolds 0 w v = decide (w = v) ∧ predicateHolds 1 w v = decide (w ≠ v) ∧
    predicateHolds 2 w v = decide (w < v) ∧ predicateHolds 3 w v = decide (w ≥ v) ∧
    predicateHolds 4 w v = decide ((BitVec.ofNat 32 w).toInt < (BitVec.ofNat 32 v).toInt) ∧
    predicateHolds 5 w v = decide ((BitVec.ofNat 32 w).toInt ≥ (BitVec.ofNat 32 v).toInt) := by
  rw [← signedField_word, ← signedField_word]
  exact ⟨rfl, rfl, rfl, rfl, rfl, rfl⟩

/-- Settles O50: the end of a command, then command by command and node by node what runs at D and what ends it later. -/
theorem hostCommands : Obligations.HostCommands := by
  refine ⟨fun s id c st code hc hfin hnode => ?_, fun s id g i c G st code hc hfin hnode hne hG hfinG => ?_, fun s id c st code hc hnode => ?_,
    fun s id c h => (exec_nop s id).trans (State.onCmd_dispatched _ h), wait_clause, waits_clause, write_clause, writes_clause,
    fun s id c h _ => graph_clause s id c h, fun s id g i c G h hnode hne hG hfinG => node_clause s id g i c G ⟨h, hnode, hne, hG, hfinG⟩,
    fun w v _ _ => predicateHolds_clause w v⟩
  · exact ⟨State.endCmd_self st code hc hfin, fun k hk => s.endCmd_cmds_ne st code hk, (s.endCmd_hubOnly id st code).mem,
      State.endCmd_reports st code hc hfin hnode⟩
  · exact ⟨(s.endNodeCmd_endsAs id st code).1.mem, Ended.of_find (State.endNodeCmd_self st code hc hfin),
      fun hst => Ended.of_find (State.endNodeCmd_endsGraph code hc hnode hst hne hG hfinG),
      fun hf hk => State.endNodeCmd_alone st code hc (.inr fun hst => hst.elim hf hk)⟩
  · exact State.endNodeCmd_alone st code hc (.inl hnode)

end Sys2Proof.Machine
end

section
/-! SUPPORT. The life of a grid in the hub (R90, R91, R127 to R129, R140, R141, R143): its staging and checks, its launch, its freeze and its end. -/

namespace Sys2Proof.Machine

/-! ### Lists that visit a key -/

/-- Where each visit of a key brings `A` to `B`, other visits keep `A`, and `B` stays, a list that visits the key ends in `B`. -/
theorem foldl_visits {α : Type} {f : State → Nat × α → State} {A B : State → Prop} {k : Nat} {l : List (Nat × α)} {s : State}
    (hother : ∀ t e, e.1 ≠ k → A t → A (f t e)) (hvisit : ∀ t e, e.1 = k → A t → B (f t e)) (hstay : ∀ t e, B t → B (f t e))
    (hk : k ∈ l.map (·.1)) (hs : A s) : B (l.foldl f s) := by
  induction l generalizing s with
  | nil => exact absurd hk List.not_mem_nil
  | cons e r ih =>
    by_cases he : e.1 = k
    · exact List.foldlRecOn (motive := B) r f (hvisit s e he hs) fun t ht x _ => hstay t x ht
    · exact ih ((List.mem_cons.mp hk).resolve_left (Ne.symm he)) (hother s e he hs)

theorem Tab.mem_modify {α : Type} {t : Tab α} {k : Nat} {f : α → α} {e : Nat × α} (h : e ∈ t.modify k f) :
    ∃ d ∈ t, d.1 = e.1 ∧ (e.2 = d.2 ∨ e.2 = f d.2) := by
  obtain ⟨d, hd, rfl⟩ := List.mem_map.mp h
  split
  · exact ⟨d, hd, rfl, .inr rfl⟩
  · exact ⟨d, hd, rfl, .inl rfl⟩

theorem State.grid_updGrid_self {s : State} {gid : Nat} {g : Grid} (f : Grid → Grid) (hg : s.grids.find? gid = some g) :
    (s.updGrid gid f).grids.find? gid = some (f g) := (Tab.find?_modify_self s.grids gid f).trans (congrArg (Option.map f) hg)

theorem State.grid_updGrid_ne (s : State) {gid k : Nat} (f : Grid → Grid) (h : k ≠ gid) :
    (s.updGrid gid f).grids.find? k = s.grids.find? k := Tab.find?_modify_ne s.grids f h

/-! ### Staging (R128, R129) -/

theorem State.stagingBeats_frame (s : State) (part : Nat) (vas : List Nat) : s.stagingBeats part vas =
    { s with hbm := (s.stagingBeats part vas).hbm, beats := (s.stagingBeats part vas).beats } := by
  refine List.foldlRecOn (motive := fun t : State => t = { s with hbm := t.hbm, beats := t.beats }) _ _ ?_ fun t ht b _ => ?_
  · rw [State.sawVas_frame]
  · rw [ht]; rfl

/-- A grid after a data tick of its staging. -/
def Grid.afterMove (g : Grid) (n : Nat) (bad : Bool) (staged : Option Nat) : Grid :=
  { g with moved := g.moved + n, unmapped := g.unmapped || bad, staged := staged }

/-- Bytes that a data tick of a staging moves. -/
def Grid.nextMove (g : Grid) : Nat := min 1024 (g.total - g.moved)

/-- The staged tick when the last byte moves now: an image of an older layout is converted (R128). -/
def State.stagedTick (s : State) (g : Grid) : Nat :=
  s.gtc + 640 + if (!(g.unmapped && decide (g.total ≤ 256)) && layoutReadable s.fw.layout g.hdr.layout && decide (g.hdr.layout ≠ s.fw.layout)) = true
    then 13000 else 0

theorem State.stagedTick_eq (s : State) (g : Grid) : s.stagedTick g = s.gtc + 640 +
    if (g.unmapped = false ∨ 256 < g.total) ∧ layoutReadable s.fw.layout g.hdr.layout = true ∧ g.hdr.layout ≠ s.fw.layout then 13000 else 0 := by
  simp only [State.stagedTick, Bool.and_eq_true, Bool.not_eq_true', Bool.and_eq_false_iff, decide_eq_true_eq, decide_eq_false_iff_not, not_le,
    and_assoc]

theorem State.moveStaging_keeps (s : State) (gid : Nat) (g : Grid) : (s.moveStaging gid g).mem = s.mem ∧
    (s.moveStaging gid g).stageEnd = s.gtc + 1 ∧ ∃ bad, (s.moveStaging gid g).grids = s.grids.modify gid fun h =>
      h.afterMove g.nextMove bad (if decide (g.total ≤ g.moved + g.nextMove) = true then some (s.stagedTick g) else none) := by
  unfold State.moveStaging
  dsimp only
  rw [State.stagingBeats_frame]
  exact ⟨rfl, rfl, _, rfl⟩

theorem State.moveStaging_grid {s : State} {gid : Nat} (g : Grid) {h : Grid} (hh : s.grids.find? gid = some h) :
    ∃ x, (s.moveStaging gid g).grids.find? gid = some x ∧ x.moved = h.moved + g.nextMove ∧ x.s0 = h.s0 ∧ x.total = h.total ∧
      x.staged = if g.total ≤ g.moved + g.nextMove then some (s.stagedTick g) else none := by
  obtain ⟨-, -, bad, hgrids⟩ := s.moveStaging_keeps gid g
  refine ⟨h.afterMove g.nextMove bad (if decide (g.total ≤ g.moved + g.nextMove) = true then some (s.stagedTick g) else none), ?_,
    rfl, rfl, rfl, ?_⟩
  · rw [hgrids, Tab.find?_modify_self, hh]; rfl
  · simp only [Grid.afterMove, decide_eq_true_eq]

theorem staging_none {s : State} (h : s.stagingDue = none) : exec .staging s = .next s := by
  rw [exec_staging, execStaging, h]

theorem staging_moves {s : State} {gid : Nat} {g : Grid} (h : s.stagingDue = some (gid, g)) (hs0 : g.s0.isSome = true) :
    exec .staging s = .next (s.moveStaging gid g) := by
  rw [exec_staging, execStaging, h]
  exact congrArg Host.Outcome.next (if_pos hs0)

theorem staging_waits {s : State} {gid : Nat} {g : Grid} (h : s.stagingDue = some (gid, g)) (hs0 : g.s0 = none) (hopen : s.openStaging gid g = none) :
    exec .staging s = .next s := by
  simp only [exec_staging, execStaging, h, hs0, hopen, Option.isSome_none, Bool.false_eq_true, if_false]

theorem staging_begins {s u : State} {gid : Nat} {g h : Grid} (hdue : s.stagingDue = some (gid, g)) (hs0 : g.s0 = none)
    (hopen : s.openStaging gid g = some u) (hh : u.grids.find? gid = some h) : exec .staging s = .next (u.moveStaging gid h) := by
  simp only [exec_staging, execStaging, hdue, hs0, hopen, hh, Option.isSome_none, Bool.false_eq_true, if_false]

/-- A grid whose staging begins: how many bytes it has follows from the header as it stands. -/
def Grid.opened (g : Grid) (now n : Nat) (h : Header) (bad : Bool) : Grid := { g with s0 := some now, total := n, hdr := h, unmapped := bad }

theorem State.openStaging_opens {s u : State} {gid : Nat} {g : Grid} (h : s.openStaging gid g = some u) :
    ∃ (cs : List LaunchCopy) (n : Nat) (hdr : Header) (bad : Bool),
      u = ({ s with copies := cs } : State).updGrid gid fun g => g.opened s.gtc n hdr bad := by
  simp only [State.openStaging, Option.map_eq_some_iff] at h
  obtain ⟨l, -, rfl⟩ := h
  exact ⟨_, _, _, _, rfl⟩

theorem staging_clause (s : State) (gid : Nat) (g : Grid) (hdue : s.stagingDue = some (gid, g)) (hg : s.grids.find? gid = some g)
    (hs0 : g.s0.isSome = true) :
    ∃ t h, exec .staging s = .next t ∧ t.mem = s.mem ∧ t.stageEnd = s.gtc + 1 ∧ t.grids.find? gid = some h ∧
      h.moved = g.moved + min 1024 (g.total - g.moved) ∧ (g.moved + 1024 < g.total → h.staged = none) ∧
      (g.total ≤ g.moved + 1024 → h.staged = some (s.gtc + 640 +
        if (g.unmapped = false ∨ 256 < g.total) ∧ layoutReadable s.fw.layout g.hdr.layout = true ∧ g.hdr.layout ≠ s.fw.layout then 13000 else 0)) := by
  obtain ⟨hmem, hend, -⟩ := s.moveStaging_keeps gid g
  obtain ⟨h, hh, hmoved, -, -, hstaged⟩ := State.moveStaging_grid g hg
  refine ⟨_, h, staging_moves hdue hs0, hmem, hend, hh, hmoved, fun hmore => ?_, fun hlast => ?_⟩
  · rw [hstaged, if_neg]
    unfold Grid.nextMove; omega
  · rw [hstaged, if_pos, s.stagedTick_eq g]
    unfold Grid.nextMove; omega

theorem stagingBegins_clause (s : State) (gid : Nat) (g : Grid) (hdue : s.stagingDue = some (gid, g)) (hs0 : g.s0 = none)
    (hopen : (s.openStaging gid g).isSome = true) (hg : s.grids.find? gid = some g) : ∃ t h, exec .staging s = .next t ∧ t.mem = s.mem ∧
      t.grids.find? gid = some h ∧ h.s0 = some s.gtc ∧ h.moved = g.moved + min 1024 (h.total - g.moved) := by
  obtain ⟨u, hu⟩ := Option.isSome_iff_exists.mp hopen
  obtain ⟨cs, n, hdr, bad, rfl⟩ := State.openStaging_opens hu
  have hself := State.grid_updGrid_self (s := { s with copies := cs }) (fun g => g.opened s.gtc n hdr bad) hg
  obtain ⟨hmem, -, -⟩ := State.moveStaging_keeps _ gid (g.opened s.gtc n hdr bad)
  obtain ⟨h, hh, hmoved, hhs0, htotal, -⟩ := State.moveStaging_grid (g.opened s.gtc n hdr bad) hself
  refine ⟨_, h, staging_begins hdue hs0 hu hself, hmem, hh, hhs0, ?_⟩
  rw [hmoved, htotal]; rfl

/-! ### The checks of an image (R127, R128) -/

theorem judgeImage_clause (s : State) (g : Grid) (bs : List Byte) :
    (g.unmapped = true → g.total ≤ 256 → (s.judgeImage g bs).1 = some 16) ∧
    (g.unmapped = false ∨ 256 < g.total →
      (layoutReadable s.fw.layout g.hdr.layout = false → (s.judgeImage g bs).1 = some 24) ∧
      (layoutReadable s.fw.layout g.hdr.layout = true →
        (g.hdr.rangeOk = false → (s.judgeImage g bs).1 = some 25) ∧
        (g.hdr.rangeOk = true → g.unmapped = true → (s.judgeImage g bs).1 = some 16))) := by
  unfold State.judgeImage
  refine ⟨fun hu ht => by rw [if_pos ⟨hu, ht⟩], fun hread => ?_⟩
  have hheader : ¬ (g.unmapped = true ∧ g.total ≤ 256) := fun hc =>
    hread.elim (fun hf => Bool.false_ne_true (hf.symm.trans hc.1)) (Nat.not_lt.mpr hc.2)
  dsimp only
  rw [if_neg hheader]
  refine ⟨fun hl => by rw [hl]; rfl, fun hl => ?_⟩
  rw [hl]
  exact ⟨fun hr => by rw [hr]; rfl, fun hr hu => by rw [hr, hu]; rfl⟩

/-- A grid whose image has been judged, with its first fault, its pages and its landing regions. -/
def Grid.judged (g : Grid) (j : Option Nat × List (Nat × Page) × List (Nat × Nat × Nat)) (now layout : Nat) : Grid :=
  { g with
    checked := true, imageFault := j.1, pages := j.2.1, land := j.2.2
    freeze := g.freeze.map fun z => z.known g.hdr.pod now
    hdr := { g.hdr with layout := layout } }

/-- A grid judged by the bytes that are staged for it. -/
def State.judgeGrid (s : State) (gid : Nat) (g x : Grid) : Grid := x.judged (s.judgeImage g (s.imageBytes gid)) s.gtc s.fw.layout

theorem State.checkGrid_eq (s : State) (gid : Nat) (g : Grid) : s.checkGrid gid g = s.updGrid gid (s.judgeGrid gid g) := rfl

theorem State.admitGrid_idle {s : State} {gid : Nat} {g : Grid} (hg : s.grids.find? gid = some g) (h : g.d = none ∨ g.checked = false) :
    s.admitGrid gid = s := by
  simp only [State.admitGrid, hg]
  refine if_pos ?_
  rcases h with h | h <;> simp [h]

theorem staged_clause (s : State) (gid : Nat) (g : Grid) (hg : s.grids.find? gid = some g) (hnow : s.stagedNow = [(gid, g)]) (hd : g.d = none)
    (halone : ∀ e ∈ s.grids, e.2.stager ≠ some gid) : ∃ t h, exec .staged s = .next t ∧ t = { s with grids := t.grids } ∧
      t.grids.find? gid = some h ∧ h.checked = true ∧ h.imageFault = (s.judgeImage g (s.imageBytes gid)).1 ∧ h.poss = g.poss ∧
      ∀ k, k ≠ gid → t.grids.find? k = s.grids.find? k := by
  have hself : (s.updGrid gid (s.judgeGrid gid g)).grids.find? gid = some (s.judgeGrid gid g g) := State.grid_updGrid_self _ hg
  have hclones : ((s.updGrid gid (s.judgeGrid gid g)).grids.filter fun e => decide (e.2.stager = some gid) && !e.2.checked) = [] := by
    refine List.filter_eq_nil_iff.mpr fun e he => ?_
    obtain ⟨d, hd, -, heq⟩ := Tab.mem_modify he
    have hstager : e.2.stager = d.2.stager := heq.elim (congrArg Grid.stager) (congrArg Grid.stager)
    simp [hstager, halone d hd]
  have hstaged : s.stagedGrid gid = s.updGrid gid (s.judgeGrid gid g) := by
    simp only [State.stagedGrid, hg, State.checkGrid_eq, hself, hclones, List.map_nil, List.foldl_nil]
    exact State.admitGrid_idle hself (.inl hd)
  have hexec : exec .staged s = .next (s.updGrid gid (s.judgeGrid gid g)) := by
    rw [exec_staged, execStaged, hnow, ← hstaged]; rfl
  exact ⟨_, s.judgeGrid gid g g, hexec, rfl, hself, rfl, rfl, rfl, fun k hk => State.grid_updGrid_ne s _ hk⟩

/-! ### The end of a grid (R90, R140) -/

/-- A grid's end frees the PREEMPTs that wait for it; it touches no other command, no grid and no memory. -/
theorem State.preemptDone_keeps {s : State} {id : Nat} {c : Cmd} (gid : Nat) (hnd : (s.cmds.map (·.1)).Nodup)
    (hc : s.cmds.find? id = some c) (hop : c.pkt.opcode ≠ 7) : (s.preemptDone gid).mem = s.mem ∧
    (s.preemptDone gid).grids = s.grids ∧ (s.preemptDone gid).cmds.find? id = some c := by
  refine List.foldlRecOn (motive := fun t : State => t.mem = s.mem ∧ t.grids = s.grids ∧ t.cmds.find? id = some c) _ _ ⟨rfl, rfl, hc⟩ ?_
  rintro t ⟨hmem, hgrids, hcmd⟩ e he
  obtain ⟨hin, hop7, -⟩ := State.mem_inProgress.mp he
  have hne : id ≠ e.1 := fun heq => hop (Tab.entries_of_key hnd hc e hin heq.symm ▸ hop7)
  dsimp only
  split
  · have hupd : ∀ f : Cmd → Cmd, (t.updCommand e.1 f).cmds.find? id = some c := fun f => (Tab.find?_modify_ne t.cmds f hne).trans hcmd
    split
    · refine ⟨(State.endCmd_hubOnly _ e.1 .done 0).mem.trans hmem, ?_, (State.endCmd_cmds_ne _ .done 0 hne).trans (hupd _)⟩
      rw [State.endCmd_frame]; exact hgrids
    · exact ⟨hmem, hgrids, hupd _⟩
  · exact ⟨hmem, hgrids, hcmd⟩

/-- A grid of a host's LAUNCH that reaches a final status ends its command with it. -/
theorem State.finalGrid_ends {s : State} {gid id : Nat} {g : Grid} {c : Cmd} (st : Status) (code : Nat) (hg : s.grids.find? gid = some g)
    (hstatus : g.status = none) (hcmd : g.cmd = some id) (heng : g.eng = none) (hc : s.cmds.find? id = some c) (hfin : c.fin = none)
    (hnode : c.node = none) (hop : c.pkt.opcode = 1) (hnd : (s.cmds.map (·.1)).Nodup) :
    (s.finalGrid gid st code).mem = s.mem ∧ Ended s (s.finalGrid gid st code) id st code ∧
    (s.finalGrid gid st code).grids.find? gid = some { g with status := some st } := by
  let u : State := (s.dropGrid gid st).settleImages gid g st code
  have hfinal : s.finalGrid gid st code = (u.endCmd id st code).preemptDone gid := by
    rw [← State.endNodeCmd_alone st code (show u.cmds.find? id = some c from hc) (.inl hnode)]
    simp only [State.finalGrid, hg, hstatus, hcmd, heng, Option.isSome_none, Bool.false_eq_true, if_false]; rfl
  have hended : (u.endCmd id st code).cmds.find? id = some (c.ended st code s.gtc) := State.endCmd_self (s := u) st code hc hfin
  have hkeys : ((u.endCmd id st code).cmds.map (·.1)).Nodup := by
    rw [State.endCmd_cmds (s := u) st code hc hfin, Tab.keys_modify]; exact hnd
  obtain ⟨hmem, hgrids, hcmds⟩ := State.preemptDone_keeps gid hkeys hended (by rw [show (c.ended st code s.gtc).pkt = c.pkt from rfl, hop]; decide)
  rw [hfinal]
  refine ⟨hmem.trans (u.endCmd_hubOnly id st code).mem, Ended.of_find hcmds, ?_⟩
  rw [hgrids, State.endCmd_frame]
  exact (State.grid_updGrid_self (s := s) (fun g => { g with status := some (g.status.getD st) }) hg).trans (by rw [hstatus]; rfl)

/-! ### LAUNCH (R90, R91, R132, R142) -/

/-- A dispatched grid (R89, R90). -/
def Grid.launched (g : Grid) (now : Nat) (slips : Tab Nat) (prio : Nat) : Grid := { g with d := some now, slip0 := slips, prio := prio }

/-- A LAUNCH is dispatched: its grid is, and an image that it names awaits resumption no longer (R109). -/
def State.launchNow (s : State) (c : Cmd) (gid : Nat) (g : Grid) : State :=
  (s.updGrid gid fun g => g.launched s.gtc s.slips (s.lqueue c.lq).prio).updFw fun f =>
    { f with images := f.images.filter fun i => !(decide (i.addr = g.image ∧ i.part = g.part) && !i.pending) }

theorem State.launchNow_grid {s : State} {gid : Nat} {g : Grid} (c : Cmd) (hg : s.grids.find? gid = some g) :
    (s.launchNow c gid g).grids.find? gid = some (g.launched s.gtc s.slips (s.lqueue c.lq).prio) :=
  State.grid_updGrid_self (s := s) (fun g => g.launched s.gtc s.slips (s.lqueue c.lq).prio) hg

/-- A dispatch changes nothing of what is staged now. -/
theorem State.launchNow_stagedNow {s : State} {gid k : Nat} {g : Grid} (c : Cmd) (h : ∀ e ∈ s.stagedNow, e.1 ≠ k) :
    ((s.launchNow c gid g).stagedNow.any fun e => decide (e.1 = k)) = false := by
  refine List.any_eq_false.mpr fun e he => ?_
  obtain ⟨hin, hnow⟩ := List.mem_filter.mp he
  obtain ⟨d, hd, hkey, heq⟩ := Tab.mem_modify (t := s.grids) (f := fun g => g.launched s.gtc s.slips (s.lqueue c.lq).prio) hin
  have hsame : (byTick d.2.staged s.gtc && !d.2.checked && d.2.stager.isNone) = true := by
    rcases heq with heq | heq
    · rw [← heq]; exact hnow
    · rw [heq] at hnow; exact hnow
  simpa [← hkey] using h d (List.mem_filter.mpr ⟨hd, hsame⟩)

/-- A LAUNCH of a taken grid whose staged tick is not this one: the grid is dispatched, and goes on or fails if it is staged. -/
theorem launch_admits {s : State} {id gid : Nat} {c : Cmd} {g : Grid} (h : Dispatched s id c) (hgrid : c.grid = some gid)
    (hg : s.grids.find? gid = some g) (hind : g.indirect = none) (hnow : ∀ e ∈ s.stagedNow, e.1 ≠ g.stager.getD gid) :
    exec (.launch id) s = .next ((s.launchNow c gid g).admitGrid gid) := by
  have hlaunch : s.launchGrid id c = (gid, s.updGrid gid fun x => x.launched s.gtc s.slips (s.lqueue c.lq).prio) := by
    simp only [State.launchGrid, hgrid]; rfl
  have hself := State.grid_updGrid_self (s := s) (fun x => x.launched s.gtc s.slips (s.lqueue c.lq).prio) hg
  have hcount : ∀ u : State, u.readCount gid (g.launched s.gtc s.slips (s.lqueue c.lq).prio) = u := fun u => by
    simp only [State.readCount, Grid.launched, hind]
  have hany := State.launchNow_stagedNow (gid := gid) (g := g) c hnow
  rw [exec_launch, execLaunch, State.onCmd_dispatched _ h]
  simp only [hlaunch, hself, hcount]
  exact congrArg (fun u : State => Host.Outcome.next (u.admitGrid gid)) (if_neg (Bool.eq_false_iff.mp hany))

theorem launchEarly_clause (s : State) (id gid : Nat) (c : Cmd) (g : Grid) (h : Dispatched s id c) (hgrid : c.grid = some gid)
    (hg : s.grids.find? gid = some g) (hind : g.indirect = none) (hchecked : g.checked = false)
    (hnow : ∀ e ∈ s.stagedNow, e.1 ≠ g.stager.getD gid) :
    ∃ t h, exec (.launch id) s = .next t ∧ t.mem = s.mem ∧ t.cmds = s.cmds ∧ t.grids.find? gid = some h ∧
      h = { g with d := some s.gtc, slip0 := s.slips, prio := (s.lqueue c.lq).prio } := by
  have hself := State.launchNow_grid c hg
  have hexec := launch_admits h hgrid hg hind hnow
  rw [State.admitGrid_idle hself (.inr hchecked)] at hexec
  exact ⟨_, _, hexec, rfl, rfl, hself, rfl⟩

/-- The positions of a grid that starts, by their cursors (R132, R142). -/
def startPositions (h : Header) (n : Nat) (cs : List (Nat × Bool)) : Tab PosState :=
  cs.zipIdx.map fun c => (c.2, ⟨if c.1.1 < posEntries n h.iters h.npos c.2 then .waiting else .released, c.1.1, c.1.2, false, 2, []⟩)

/-- A grid that passed its checks, with its positions. -/
def Grid.admitted (g : Grid) (n : Nat) (poss : Tab PosState) (lastExit : Nat) : Grid := { g with groups := n, poss := poss, lastExit := lastExit }

/-- The first fault of a grid at the later of D and its staged tick (R127). -/
def State.launchFault (s : State) (gid : Nat) (g : Grid) : Option Nat :=
  g.imageFault <|> countFault g (g.count.getD g.hdr.gcount) (cursorsOf g.hdr (s.imageBytes gid))

/-- A grid that is dispatched and checked, and has no positions yet. -/
structure Grid.Ready (g : Grid) : Prop where
  status : g.status = none
  dispatched : g.d.isSome = true
  checked : g.checked = true
  poss : g.poss = []

theorem Grid.Ready.admits {g : Grid} (h : g.Ready) : ¬ (g.status.isSome || g.d.isNone || !g.checked || !g.poss.isEmpty) = true := by
  obtain ⟨hstatus, hd, hchecked, hposs⟩ := h
  have hnone : g.d.isNone = false := by rw [← Option.not_isSome, hd]; rfl
  rw [hstatus, hnone, hchecked, hposs]
  exact Bool.false_ne_true

theorem State.admitGrid_fails {s : State} {gid code : Nat} {g : Grid} (hg : s.grids.find? gid = some g) (h : g.Ready)
    (hfault : s.launchFault gid g = some code) : s.admitGrid gid = s.finalGrid gid .failed code := by
  simp only [State.admitGrid, hg]
  refine (if_neg h.admits).trans ?_
  rw [State.launchFault] at hfault
  simp only [hfault]

theorem State.admitGrid_passes {s : State} {gid : Nat} {g : Grid} (hg : s.grids.find? gid = some g) (h : g.Ready)
    (hfault : s.launchFault gid g = none) : ∃ x, s.admitGrid gid = s.updGrid gid fun y => y.admitted (g.count.getD g.hdr.gcount)
      (startPositions g.hdr (g.count.getD g.hdr.gcount) (cursorsOf g.hdr (s.imageBytes gid))) x := by
  refine ⟨if ((startPositions g.hdr (g.count.getD g.hdr.gcount) (cursorsOf g.hdr (s.imageBytes gid))).all fun e => decide (e.2.phase = .released)) = true then s.gtc else 0, ?_⟩
  simp only [State.admitGrid, hg]
  refine (if_neg h.admits).trans ?_
  rw [State.launchFault] at hfault
  simp only [hfault]; rfl

theorem startPositions_phase (h : Header) (n : Nat) (cs : List (Nat × Bool)) :
    ∀ e ∈ startPositions h n cs, e.2.phase = .waiting ∨ e.2.phase = .released := by
  intro e he
  obtain ⟨x, -, rfl⟩ := List.mem_map.mp he
  dsimp only
  split
  · exact .inl rfl
  · exact .inr rfl

theorem startPositions_length (h : Header) (n : Nat) (cs : List (Nat × Bool)) : (startPositions h n cs).length = cs.length :=
  List.length_map _ |>.trans List.length_zipIdx

theorem launchChecked_clause (s : State) (id gid : Nat) (c : Cmd) (g : Grid) (h : Dispatched s id c) (hgrid : c.grid = some gid)
    (hg : s.grids.find? gid = some g) (hind : g.indirect = none) (hchecked : g.checked = true) (hstatus : g.status = none) (hposs : g.poss = [])
    (hnode : c.node = none) (hop : c.pkt.opcode = 1) (hcmd : g.cmd = some id) (heng : g.eng = none)
    (hnow : ∀ e ∈ s.stagedNow, e.1 ≠ g.stager.getD gid) (hnd : (s.cmds.map (·.1)).Nodup) :
    let cs := cursorsOf g.hdr (s.imageBytes gid)
    (∀ code, (g.imageFault <|> countFault g (g.count.getD g.hdr.gcount) cs) = some code → ∃ t h, exec (.launch id) s = .next t ∧ t.mem = s.mem ∧
      Ended s t id .failed code ∧ t.grids.find? gid = some h ∧ h.status = some .failed) ∧
    ((g.imageFault <|> countFault g (g.count.getD g.hdr.gcount) cs) = none → ∃ t h, exec (.launch id) s = .next t ∧ t.mem = s.mem ∧
      t.cmds = s.cmds ∧ t.grids.find? gid = some h ∧ h.d = some s.gtc ∧ h.groups = g.count.getD g.hdr.gcount ∧
      h.poss.length = cs.length ∧ ∀ e ∈ h.poss, e.2.phase = .waiting ∨ e.2.phase = .released) := by
  intro cs
  have hself := State.launchNow_grid c hg
  have hexec := launch_admits h hgrid hg hind hnow
  have hready : (g.launched s.gtc s.slips (s.lqueue c.lq).prio).Ready := ⟨hstatus, rfl, hchecked, hposs⟩
  obtain ⟨hc, hfin, -⟩ := h
  refine ⟨fun code hfault => ?_, fun hfault => ?_⟩
  · rw [State.admitGrid_fails hself hready hfault] at hexec
    obtain ⟨hmem, hended, hfinal⟩ := State.finalGrid_ends (s := s.launchNow c gid g) .failed code hself hstatus hcmd heng hc hfin hnode hop hnd
    exact ⟨_, _, hexec, hmem, hended, hfinal, rfl⟩
  · obtain ⟨x, hpass⟩ := State.admitGrid_passes hself hready hfault
    rw [hpass] at hexec
    exact ⟨_, _, hexec, rfl, rfl, State.grid_updGrid_self _ hself, rfl, rfl, startPositions_length _ _ _, startPositions_phase _ _ _⟩

/-! ### The retire tick (R90) -/

theorem Grid.outcome_killed {g : Grid} (h : g.killed = true) : g.outcome = (.killed, 0) := if_pos h

theorem Grid.outcome_stopped {g : Grid} (hk : g.killed = false) (h : g.stopped = true) : g.outcome = (.failed, g.failCode) :=
  (if_neg (Bool.eq_false_iff.mp hk)).trans (if_pos h)

theorem Grid.outcome_preempted {g : Grid} {f : Freeze} (hk : g.killed = false) (hs : g.stopped = false) (hf : g.freeze = some f)
    (hacted : f.acted = true) (himage : f.image = true) : g.outcome = (.preempted, 0) := by
  refine (if_neg (Bool.eq_false_iff.mp hk)).trans ((if_neg (Bool.eq_false_iff.mp hs)).trans (if_pos ?_))
  simp only [Grid.frozen, hf, hacted, himage, Bool.and_self]

theorem Grid.outcome_done {g : Grid} (hk : g.killed = false) (hs : g.stopped = false)
    (h : ∀ f, g.freeze = some f → f.acted = false ∨ f.image = false) : g.outcome = (.done, 0) := by
  refine (if_neg (Bool.eq_false_iff.mp hk)).trans ((if_neg (Bool.eq_false_iff.mp hs)).trans (if_neg ?_))
  rcases hf : g.freeze with _ | f
  · simp [Grid.frozen, hf]
  · rcases h f hf with hno | hno <;> simp [Grid.frozen, hf, hno]

theorem gridRetire_due {s : State} {gid : Nat} {g : Grid} (hg : s.grids.find? gid = some g) (hdue : s.retireDue gid g = true) :
    exec (.gridRetire gid) s = .next (s.finalGrid gid g.outcome.1 g.outcome.2) := by
  simp only [exec_gridRetire, execGridRetire, hg, hdue, if_true]

theorem State.retireDue_status {s : State} {gid : Nat} {g : Grid} (h : s.retireDue gid g = true) : g.status = none := by
  simp only [State.retireDue, Bool.and_eq_true, and_assoc] at h
  exact Option.isNone_iff_eq_none.mp h.1

theorem retire_clause (s : State) (gid id : Nat) (g : Grid) (c : Cmd) (hg : s.grids.find? gid = some g) (hdue : s.retireDue gid g = true)
    (hcmd : g.cmd = some id) (heng : g.eng = none) (hc : s.cmds.find? id = some c) (hfin : c.fin = none) (hnode : c.node = none)
    (hop : c.pkt.opcode = 1) (hnd : (s.cmds.map (·.1)).Nodup) :
    ∃ t h, exec (.gridRetire gid) s = .next t ∧ t.mem = s.mem ∧ t.grids.find? gid = some h ∧
      (g.killed = true → h.status = some .killed ∧ Ended s t id .killed 0) ∧
      (g.killed = false → g.stopped = true → h.status = some .failed ∧ Ended s t id .failed g.failCode) ∧
      (g.killed = false → g.stopped = false →
        ((∃ f, g.freeze = some f ∧ f.acted = true ∧ f.image = true) → h.status = some .preempted ∧ Ended s t id .preempted 0) ∧
        ((∀ f, g.freeze = some f → f.acted = false ∨ f.image = false) → h.status = some .done ∧ Ended s t id .done 0)) := by
  obtain ⟨hmem, hended, hfinal⟩ := State.finalGrid_ends g.outcome.1 g.outcome.2 hg (State.retireDue_status hdue) hcmd heng hc hfin hnode hop hnd
  have hends : ∀ {st : Status} {code : Nat}, g.outcome = (st, code) →
      some g.outcome.1 = some st ∧ Ended s (s.finalGrid gid g.outcome.1 g.outcome.2) id st code := fun ho => by
    obtain ⟨rfl, rfl⟩ := Prod.mk.inj ho
    exact ⟨rfl, hended⟩
  refine ⟨_, _, gridRetire_due hg hdue, hmem, hfinal, fun hk => hends (Grid.outcome_killed hk), fun hk hs => hends (Grid.outcome_stopped hk hs),
    fun hk hs => ⟨?_, fun hno => hends (Grid.outcome_done hk hs hno)⟩⟩
  rintro ⟨f, hf, hacted, himage⟩
  exact hends (Grid.outcome_preempted hk hs hf hacted himage)

end Sys2Proof.Machine
end

section
/-! SUPPORT. Pre-emption (R140, R141, R143): PREEMPT, the freeze tick, the resume image and the drain bound. -/

namespace Sys2Proof.Machine

/-! ### Checkpoint requests -/

/-- A warp whose streams that still run have a checkpoint request pending. -/
def Warp.askCkpt (w : Warp) : Warp :=
  { w with acc := { w.acc with ckptReq := !w.acc.gone }, exe := { w.exe with ckptReq := !w.exe.gone } }

/-- Every warp of a grid gets its checkpoint requests. -/
def State.askCkpts (s : State) (gid : Nat) : State :=
  { s with warps := s.warps.map fun e => (e.1, if e.2.grid = gid then e.2.askCkpt else e.2) }

theorem State.warp?_askCkpts (s : State) (gid k : Nat) :
    (s.askCkpts gid).warp? k = (s.warp? k).map fun w => if w.grid = gid then w.askCkpt else w :=
  Tab.find?_map s.warps (fun w => if w.grid = gid then w.askCkpt else w) k

theorem State.warp?_askCkpts_self {s : State} {gid k : Nat} {w : Warp} (hw : s.warp? k = some w) (hgrid : w.grid = gid) :
    (s.askCkpts gid).warp? k = some w.askCkpt := by
  rw [State.warp?_askCkpts, hw]; exact congrArg some (if_pos hgrid)

theorem State.warp?_askCkpts_ne {s : State} {gid k : Nat} {w : Warp} (hw : s.warp? k = some w) (hgrid : w.grid ≠ gid) :
    (s.askCkpts gid).warp? k = some w := by
  rw [State.warp?_askCkpts, hw]; exact congrArg some (if_neg hgrid)

/-! ### The freeze of one grid -/

/-- A freeze that acts: from its Z the drain bound runs. -/
def Freeze.act (f : Freeze) (bound : Option Nat) : Freeze := { f with acted := true, bound := bound.map (f.z + ·) }

/-- A grid with its freeze changed. -/
def Grid.withFreeze (g : Grid) (f : Freeze) : Grid := { g with freeze := some f }

/-- The freeze of a grid is due. -/
structure Grid.FreezeDue (g : Grid) (f : Freeze) (now : Nat) : Prop where
  freeze : g.freeze = some f
  status : g.status = none
  acted : f.acted = false
  z : f.z ≤ now

theorem Grid.freezeDue_of {g : Grid} {f : Freeze} {now : Nat} (h : g.FreezeDue f now) : g.freezeDue now = true := by
  simp only [Grid.freezeDue, h.freeze, h.status, h.acted, h.z]; rfl

theorem Grid.freezeDue_eq_false {g : Grid} {f : Freeze} {now : Nat} (hf : g.freeze = some f) (h : f.acted = true ∨ now < f.z) :
    g.freezeDue now = false := by
  simp only [Grid.freezeDue, hf]
  rcases h with h | h
  · simp [h]
  · simp [Nat.not_le.mpr h]

/-- A freeze touches the grids and the warps. -/
theorem State.freezeGrid_frame (s : State) (gid : Nat) :
    s.freezeGrid gid = { s with grids := (s.freezeGrid gid).grids, warps := (s.freezeGrid gid).warps } := by
  unfold State.freezeGrid
  split
  · rfl
  · split
    · rfl
    · dsimp only
      split
      · split <;> rfl
      · rfl

theorem State.freezeGrid_idle {s : State} {gid : Nat} {g : Grid} (hg : s.grids.find? gid = some g) (h : g.freezeDue s.gtc = false) :
    s.freezeGrid gid = s := by
  simp only [State.freezeGrid, hg, h]; rfl

/-- A grid whose freeze acts. -/
def State.actFreeze (s : State) (gid : Nat) : State :=
  s.updGrid gid fun g => { g with freeze := g.freeze.map fun f => f.act (s.drainBound g) }

theorem State.freezeGrid_acts {s : State} {gid : Nat} {g : Grid} {f : Freeze} (hg : s.grids.find? gid = some g) (h : g.FreezeDue f s.gtc) :
    s.freezeGrid gid = if f.ckpt = true then (s.actFreeze gid).askCkpts gid else s.actFreeze gid := by
  have hask : (s.actFreeze gid).askCkpts gid = ({ s.actFreeze gid with
      warps := s.warps.map fun (e : Nat × Warp) => if e.2.grid = gid then (e.1, e.2.askCkpt) else e } : State) := by
    rw [State.askCkpts]
    exact congrArg (fun w => ({ s.actFreeze gid with warps := w } : State)) (List.map_congr_left fun e _ => by split <;> rfl)
  rw [hask]
  simp only [State.freezeGrid, hg, Grid.freezeDue_of h, h.freeze]; rfl

/-- What a freeze that acts does with its grid and with the warps. -/
theorem State.freezeGrid_effect {s : State} {gid : Nat} {g : Grid} {f : Freeze} (hg : s.grids.find? gid = some g) (h : g.FreezeDue f s.gtc) :
    (s.freezeGrid gid).grids.find? gid = some (g.withFreeze (f.act (s.drainBound g))) ∧
    ∀ k w, s.warp? k = some w → (w.grid ≠ gid ∨ f.ckpt = false → (s.freezeGrid gid).warp? k = some w) ∧
      (w.grid = gid → f.ckpt = true → (s.freezeGrid gid).warp? k = some w.askCkpt) := by
  have hself : (s.actFreeze gid).grids.find? gid = some (g.withFreeze (f.act (s.drainBound g))) := by
    refine (State.grid_updGrid_self (s := s) (fun g => { g with freeze := g.freeze.map fun f => f.act (s.drainBound g) }) hg).trans ?_
    rw [h.freeze]; rfl
  rw [State.freezeGrid_acts hg h]
  by_cases hck : f.ckpt = true
  · rw [if_pos hck]
    refine ⟨hself, fun k w hw => ⟨fun hother => ?_, fun hgrid _ => State.warp?_askCkpts_self hw hgrid⟩⟩
    exact State.warp?_askCkpts_ne hw (hother.resolve_right fun hno => Bool.false_ne_true (hno.symm.trans hck))
  · rw [if_neg hck]
    exact ⟨hself, fun k w hw => ⟨fun _ => hw, fun _ hyes => absurd hyes hck⟩⟩

theorem Grid.freezeDue_cases (g : Grid) (now : Nat) : g.freezeDue now = false ∨ ∃ f, g.FreezeDue f now := by
  rcases hdue : g.freezeDue now with _ | _
  · exact .inl rfl
  · rcases hf : g.freeze with _ | f
    · simp [Grid.freezeDue, hf] at hdue
    · simp only [Grid.freezeDue, hf, Bool.and_eq_true, Option.isNone_iff_eq_none, Bool.not_eq_true', decide_eq_true_eq] at hdue
      obtain ⟨hstatus, hacted, hz⟩ := hdue
      exact .inr ⟨f, hf, hstatus, hacted, hz⟩

theorem State.freezeGrid_cases (s : State) (gid : Nat) : s.freezeGrid gid = s ∨ ∃ g f, s.grids.find? gid = some g ∧ g.FreezeDue f s.gtc := by
  rcases hg : s.grids.find? gid with _ | g
  · exact .inl (by simp only [State.freezeGrid, hg])
  · rcases g.freezeDue_cases s.gtc with hdue | ⟨f, hdue⟩
    · exact .inl (State.freezeGrid_idle hg hdue)
    · exact .inr ⟨g, f, rfl, hdue⟩

/-- The freeze of another grid changes neither this grid nor its warps. -/
theorem State.freezeGrid_other (s : State) {k gid : Nat} (hne : k ≠ gid) : (s.freezeGrid k).grids.find? gid = s.grids.find? gid ∧
    ∀ j w, s.warp? j = some w → w.grid = gid → (s.freezeGrid k).warp? j = some w := by
  rcases s.freezeGrid_cases k with heq | ⟨g, f, hg, hdue⟩
  · rw [heq]; exact ⟨rfl, fun _ _ hw _ => hw⟩
  · obtain ⟨-, hwarps⟩ := State.freezeGrid_effect hg hdue
    refine ⟨?_, fun j w hw hgrid => (hwarps j w hw).1 (.inl (hgrid ▸ hne.symm))⟩
    have hgrids : (s.freezeGrid k).grids = (s.actFreeze k).grids := by rw [State.freezeGrid_acts hg hdue]; split <;> rfl
    rw [hgrids]
    exact State.grid_updGrid_ne s _ hne.symm

theorem freeze_clause (s : State) (gid : Nat) (g : Grid) (f : Freeze) (hg : s.grids.find? gid = some g) (hf : g.freeze = some f)
    (hacted : f.acted = false) (hz : f.z ≤ s.gtc) (hstatus : g.status = none) :
    ∃ t h, exec (.freeze gid) s = .next t ∧ t = { s with grids := t.grids, warps := t.warps } ∧ t.grids.find? gid = some h ∧
      h = { g with freeze := some { f with acted := true, bound := (s.drainBound g).map (f.z + ·) } } ∧
      (∀ k w, s.warp? k = some w → (w.grid ≠ gid ∨ f.ckpt = false → t.warp? k = some w) ∧
        (w.grid = gid → f.ckpt = true → ∃ v, t.warp? k = some v ∧ v.acc.ckptReq = !w.acc.gone ∧ v.exe.ckptReq = !w.exe.gone)) := by
  obtain ⟨hself, hwarps⟩ := State.freezeGrid_effect hg ⟨hf, hstatus, hacted, hz⟩
  refine ⟨_, _, rfl, s.freezeGrid_frame gid, hself, rfl, fun k w hw => ?_⟩
  obtain ⟨hother, hmine⟩ := hwarps k w hw
  exact ⟨hother, fun hgrid hck => ⟨_, hmine hgrid hck, rfl, rfl⟩⟩

/-! ### PREEMPT (R140, R144) -/

/-- The freeze that a PREEMPT asks for. -/
def Grid.newFreeze (g : Grid) (now podZ : Nat) (ckpt : Bool) : Freeze :=
  ⟨if (g.checked && g.hdr.pod) = true then podZ else now, podZ, ckpt, false, none, false, false⟩

/-- A PREEMPT of a grid: a second one changes nothing (R144). -/
def Grid.preempted (g : Grid) (now podZ : Nat) (ckpt : Bool) : Grid := match g.freeze with
  | some _ => g
  | none => { g with freeze := some (g.newFreeze now podZ ckpt) }

theorem Grid.preempted_of_frozen {g : Grid} {f : Freeze} (now podZ : Nat) (ckpt : Bool) (hf : g.freeze = some f) :
    g.preempted now podZ ckpt = g := by simp only [Grid.preempted, hf]

theorem Grid.preempted_of_free {g : Grid} (now podZ : Nat) (ckpt : Bool) (hf : g.freeze = none) :
    g.preempted now podZ ckpt = g.withFreeze (g.newFreeze now podZ ckpt) := by
  simp only [Grid.preempted, hf]; rfl

theorem Grid.preempted_freeze (g : Grid) (now podZ : Nat) (ckpt : Bool) : g.preempted now podZ ckpt =
    g.withFreeze (g.freeze.getD (g.newFreeze now podZ ckpt)) := by
  rcases hf : g.freeze with _ | f
  · exact Grid.preempted_of_free now podZ ckpt hf
  · rw [Grid.preempted_of_frozen now podZ ckpt hf, Option.getD_some, Grid.withFreeze, ← hf]

/-- The dispatched grids of a queue that have no final status. -/
def State.preemptable (s : State) (lq : Nat) : List (Nat × Grid) :=
  s.grids.filter fun (e : Nat × Grid) => decide (e.2.lq = lq) && e.2.d.isSome && e.2.status.isNone

theorem State.mem_preemptable {s : State} {lq : Nat} {e : Nat × Grid} :
    e ∈ s.preemptable lq ↔ e ∈ s.grids ∧ e.2.lq = lq ∧ e.2.d.isSome = true ∧ e.2.status = none := by
  simp only [State.preemptable, List.mem_filter, Bool.and_eq_true, decide_eq_true_eq, Option.isNone_iff_eq_none, and_assoc]

/-- The grids of a PREEMPT have their freezes, and it waits for them. -/
def State.askFreezes (s : State) (id : Nat) (gs : List (Nat × Grid)) (ckpt : Bool) : State :=
  (gs.foldl (fun t e => t.updGrid e.1 fun g => g.preempted s.gtc (s.podFreezeTick s.gtc) ckpt) s).updCommand id
    fun c => { c with waiting := gs.map (·.1) }

theorem State.askFreezes_frame (s : State) (id : Nat) (gs : List (Nat × Grid)) (ckpt : Bool) : s.askFreezes id gs ckpt =
    { s with grids := (s.askFreezes id gs ckpt).grids, cmds := s.cmds.modify id fun c => { c with waiting := gs.map (·.1) } } := by
  have hgrids : ∀ f : Grid → Grid, gs.foldl (fun t e => t.updGrid e.1 f) s = { s with grids := (gs.foldl (fun t e => t.updGrid e.1 f) s).grids } :=
    fun f => List.foldlRecOn (motive := fun t : State => t = { s with grids := t.grids }) gs _ rfl fun t ht e _ => by rw [ht]; rfl
  unfold State.askFreezes
  rw [hgrids]; rfl

theorem State.askFreezes_grid {s : State} {gid : Nat} {g : Grid} (id : Nat) {gs : List (Nat × Grid)} (ckpt : Bool)
    (hg : s.grids.find? gid = some g) (hmem : gid ∈ gs.map (·.1)) :
    (s.askFreezes id gs ckpt).grids.find? gid = some (g.preempted s.gtc (s.podFreezeTick s.gtc) ckpt) := by
  have htwice : (g.preempted s.gtc (s.podFreezeTick s.gtc) ckpt).preempted s.gtc (s.podFreezeTick s.gtc) ckpt =
      g.preempted s.gtc (s.podFreezeTick s.gtc) ckpt := by
    rw [g.preempted_freeze]; exact Grid.preempted_of_frozen _ _ _ rfl
  refine foldl_visits (A := fun t => t.grids.find? gid = some g)
    (B := fun t => t.grids.find? gid = some (g.preempted s.gtc (s.podFreezeTick s.gtc) ckpt))
    (fun t e he ht => (State.grid_updGrid_ne t _ (Ne.symm he)).trans ht) (fun t e he ht => he ▸ State.grid_updGrid_self _ (he ▸ ht))
    (fun t e ht => ?_) hmem hg
  by_cases he : gid = e.1
  · exact he ▸ (State.grid_updGrid_self _ (he ▸ ht)).trans (congrArg some htwice)
  · exact (State.grid_updGrid_ne t _ he).trans ht

/-- The freezes of a PREEMPT that act on its own tick. -/
def State.freezeNow (s : State) (gs : List (Nat × Grid)) : State := gs.foldl (fun s e => s.freezeGrid e.1) s

theorem State.freezeNow_frame (s : State) (gs : List (Nat × Grid)) :
    s.freezeNow gs = { s with grids := (s.freezeNow gs).grids, warps := (s.freezeNow gs).warps } :=
  List.foldlRecOn (motive := fun t : State => t = { s with grids := t.grids, warps := t.warps }) gs _ rfl fun t ht e _ => by
    rw [State.freezeGrid_frame, ht]

/-- A grid whose freeze is not due stays as it is. -/
theorem State.freezeNow_idle {s : State} {gid : Nat} {g : Grid} (gs : List (Nat × Grid)) (hg : s.grids.find? gid = some g)
    (hdue : g.freezeDue s.gtc = false) : (s.freezeNow gs).grids.find? gid = some g := by
  refine (List.foldlRecOn (motive := fun t : State => t.gtc = s.gtc ∧ t.grids.find? gid = some g) gs _ ⟨rfl, hg⟩ ?_).2
  rintro t ⟨hgtc, ht⟩ e -
  refine ⟨(congrArg State.gtc (t.freezeGrid_frame e.1)).trans hgtc, ?_⟩
  by_cases he : e.1 = gid
  · rw [he, State.freezeGrid_idle ht (hgtc ▸ hdue)]; exact ht
  · exact (t.freezeGrid_other he).1.trans ht

/-- A grid of the list whose freeze is due has it act, with the checkpoint requests of its warps. -/
theorem State.freezeNow_acts {s : State} {gid : Nat} {g : Grid} {f : Freeze} {gs : List (Nat × Grid)} (hg : s.grids.find? gid = some g)
    (hdue : g.FreezeDue f s.gtc) (hmem : gid ∈ gs.map (·.1)) :
    (s.freezeNow gs).grids.find? gid = some (g.withFreeze (f.act (s.drainBound g))) ∧
    ∀ k w, s.warp? k = some w → w.grid = gid → (s.freezeNow gs).warp? k = some (if f.ckpt = true then w.askCkpt else w) := by
  refine foldl_visits (f := fun s e => s.freezeGrid e.1) (k := gid)
    (A := fun t => t.gtc = s.gtc ∧ t.queues = s.queues ∧ t.grids.find? gid = some g ∧ ∀ k w, s.warp? k = some w → w.grid = gid → t.warp? k = some w)
    (B := fun t => t.grids.find? gid = some (g.withFreeze (f.act (s.drainBound g))) ∧
      ∀ k w, s.warp? k = some w → w.grid = gid → t.warp? k = some (if f.ckpt = true then w.askCkpt else w)) ?_ ?_ ?_ hmem
    ⟨rfl, rfl, hg, fun _ _ hw _ => hw⟩
  · rintro t e he ⟨hgtc, hqueues, ht, hwarps⟩
    obtain ⟨hgrid, hother⟩ := t.freezeGrid_other he
    exact ⟨(congrArg State.gtc (t.freezeGrid_frame e.1)).trans hgtc, (congrArg State.queues (t.freezeGrid_frame e.1)).trans hqueues,
      hgrid.trans ht, fun k w hw hg => hother k w (hwarps k w hw hg) hg⟩
  · rintro t e rfl ⟨hgtc, hqueues, ht, hwarps⟩
    obtain ⟨hself, hmine⟩ := State.freezeGrid_effect ht (hgtc ▸ hdue)
    have hbound : t.drainBound g = s.drainBound g := by
      unfold State.drainBound State.lqueue
      rw [hqueues]
    refine ⟨hbound ▸ hself, fun k w hw hg => ?_⟩
    obtain ⟨hno, hyes⟩ := hmine k w (hwarps k w hw hg)
    split
    next hck => exact hyes hg hck
    next hck => exact hno (.inr (Bool.eq_false_iff.mpr hck))
  · rintro t e ⟨ht, hwarps⟩
    by_cases he : e.1 = gid
    · rw [he, State.freezeGrid_idle ht (Grid.freezeDue_eq_false rfl (.inl rfl))]
      exact ⟨ht, hwarps⟩
    · obtain ⟨hgrid, hother⟩ := t.freezeGrid_other he
      refine ⟨hgrid.trans ht, fun k w hw hg => hother k _ (hwarps k w hw hg) ?_⟩
      split <;> exact hg

theorem preempt_none {s : State} {id : Nat} {c : Cmd} (h : Dispatched s id c) (hgs : s.preemptable (field c.pkt.w1.toNat 0 6) = []) :
    exec (.preempt id) s = .next (s.endCmd id .done 0) := by
  rw [exec_preempt, execPreempt, State.onCmd_dispatched _ h]
  exact congrArg Host.Outcome.next (if_pos (List.isEmpty_iff.mpr hgs))

/-- A PREEMPT with grids to freeze: those whose Z is this tick are frozen now, and positions that never start release their resources. -/
theorem preempt_some {s : State} {id : Nat} {c : Cmd} (h : Dispatched s id c) {gs : List (Nat × Grid)}
    (hgs : s.preemptable (field c.pkt.w1.toNat 0 6) = gs) (hne : gs ≠ []) :
    let u := (s.askFreezes id gs (c.pkt.w1.getLsbD 8)).freezeNow gs
    exec (.preempt id) s = .next { u with pending := gs.flatMap (fun e => u.releasesOf e.1) ++ u.pending } := by
  subst hgs
  rw [exec_preempt, execPreempt, State.onCmd_dispatched _ h]
  exact congrArg Host.Outcome.next (if_neg (fun he => hne (List.isEmpty_iff.mp he)))

theorem State.releasesOf_release {s : State} {gid : Nat} : ∀ i ∈ s.releasesOf gid, ∃ a b, i = .resourceRelease a b := by
  intro i hi
  unfold State.releasesOf at hi
  split at hi
  · exact absurd hi List.not_mem_nil
  · obtain ⟨q, -, rfl⟩ := List.mem_map.mp hi
    exact ⟨_, _, rfl⟩

theorem State.podFreezeTick_inactive {s : State} (d : Nat) (h : s.sched.active = false) : s.podFreezeTick d = d := by
  simp only [State.podFreezeTick, State.activeImage, h]; rfl

/-- A freeze asked for with Z = D is due at once. -/
theorem Grid.newFreeze_due {s : State} {g : Grid} (ckpt : Bool) (hfree : g.freeze = none) (hstatus : g.status = none)
    (hnow : s.sched.active = false ∨ g.checked = false ∨ g.hdr.pod = false) :
    (g.preempted s.gtc (s.podFreezeTick s.gtc) ckpt).FreezeDue ⟨s.gtc, s.podFreezeTick s.gtc, ckpt, false, none, false, false⟩ s.gtc := by
  have hz : (if (g.checked && g.hdr.pod) = true then s.podFreezeTick s.gtc else s.gtc) = s.gtc := by
    rcases hnow with hactive | hno | hno
    · rw [State.podFreezeTick_inactive _ hactive, ite_self]
    · rw [hno]; rfl
    · rw [hno, Bool.and_false]; rfl
  rw [Grid.preempted_of_free _ _ _ hfree, Grid.newFreeze, hz]
  exact ⟨rfl, hstatus, rfl, le_refl s.gtc⟩

theorem State.drainBound_congr {s t : State} {g h : Grid} (hqueues : t.queues = s.queues) (hh : h = { g with freeze := h.freeze }) :
    t.drainBound h = s.drainBound g := by
  rw [hh]; unfold State.drainBound State.lqueue; rw [hqueues]

/-- What a PREEMPT does with a grid of its queue: an older freeze stays, and a freeze with Z = D acts on this very tick. -/
theorem freezeNow_preempted {s v : State} {gid : Nat} {g : Grid} {gs : List (Nat × Grid)} {ckpt : Bool} (hgtc : v.gtc = s.gtc)
    (hwarps : v.warps = s.warps) (hqueues : v.queues = s.queues) (hstatus : g.status = none) (hmem : gid ∈ gs.map (·.1))
    (hgrid : v.grids.find? gid = some (g.preempted s.gtc (s.podFreezeTick s.gtc) ckpt)) :
    ∃ h, (v.freezeNow gs).grids.find? gid = some h ∧ h = { g with freeze := h.freeze } ∧
      (∀ f, g.freeze = some f → f.acted = true ∨ s.gtc < f.z → h.freeze = some f) ∧
      (g.freeze = none → s.sched.active = false ∨ g.checked = false ∨ g.hdr.pod = false →
        h.freeze = some ⟨s.gtc, s.podFreezeTick s.gtc, ckpt, true, (s.drainBound g).map (s.gtc + ·), false, false⟩ ∧
        ∀ k w, s.warp? k = some w → w.grid = gid → (v.freezeNow gs).warp? k = some (if ckpt = true then w.askCkpt else w)) := by
  have heq := g.preempted_freeze s.gtc (s.podFreezeTick s.gtc) ckpt
  have hdueNow := fun hfree hnow => Grid.newFreeze_due (s := s) (g := g) ckpt hfree hstatus hnow
  have hold := fun f => Grid.preempted_of_frozen (g := g) (f := f) s.gtc (s.podFreezeTick s.gtc) ckpt
  generalize g.preempted s.gtc (s.podFreezeTick s.gtc) ckpt = p at hgrid heq hdueNow hold
  have hbound : v.drainBound p = s.drainBound g := State.drainBound_congr hqueues (by rw [heq]; rfl)
  rcases p.freezeDue_cases v.gtc with hidle | ⟨f, hdue⟩
  · refine ⟨p, State.freezeNow_idle gs hgrid hidle, by rw [heq]; rfl, fun f hf _ => hold f hf ▸ hf, fun hfree hnow => ?_⟩
    exact absurd ((Grid.freezeDue_of (hdueNow hfree hnow)).symm.trans (hgtc ▸ hidle)) Bool.noConfusion
  · obtain ⟨hself, hmine⟩ := State.freezeNow_acts hgrid hdue hmem
    refine ⟨_, hself, by rw [heq]; rfl, fun f' hf' hwait => ?_, fun hfree hnow => ?_⟩
    · have hno := Grid.freezeDue_eq_false (hold f' hf' ▸ hf') (hgtc.symm ▸ hwait)
      exact absurd ((Grid.freezeDue_of hdue).symm.trans hno) Bool.noConfusion
    · obtain rfl : f = _ := Option.some.inj (hdue.freeze.symm.trans (hdueNow hfree hnow).freeze)
      exact ⟨by rw [hbound]; rfl, fun k w hw hg => hmine k w (by rw [State.warp?, hwarps]; exact hw) hg⟩

theorem preempt_clause (s : State) (id : Nat) (c : Cmd) (hd : Dispatched s id c) :
    let mine (g : Grid) : Prop := g.lq = field c.pkt.w1.toNat 0 6 ∧ g.d.isSome = true ∧ g.status = none
    ((∀ e ∈ s.grids, ¬ mine e.2) → exec (.preempt id) s = .next (s.endCmd id .done 0)) ∧
    (∀ gid g, s.grids.find? gid = some g → mine g → ∃ t h C l, exec (.preempt id) s = .next t ∧
      t = { s with grids := t.grids, cmds := t.cmds, warps := t.warps, pending := l ++ s.pending } ∧ (∀ i ∈ l, ∃ a b, i = .resourceRelease a b) ∧
      t.grids.find? gid = some h ∧ h = { g with freeze := h.freeze } ∧ t.cmds.find? id = some C ∧ gid ∈ C.waiting ∧ C.fin = none ∧
      (∀ f, g.freeze = some f → f.acted = true ∨ s.gtc < f.z → h.freeze = some f) ∧
      (g.freeze = none → s.sched.active = false ∨ g.checked = false ∨ g.hdr.pod = false →
        (∃ z, h.freeze = some ⟨s.gtc, z, c.pkt.w1.getLsbD 8, true, (s.drainBound g).map (s.gtc + ·), false, false⟩) ∧
        ∀ k w, s.warp? k = some w → w.grid = gid → ∃ v, t.warp? k = some v ∧
          v.acc.ckptReq = (if c.pkt.w1.getLsbD 8 = true then !w.acc.gone else w.acc.ckptReq) ∧
          v.exe.ckptReq = (if c.pkt.w1.getLsbD 8 = true then !w.exe.gone else w.exe.ckptReq))) := by
  intro mine
  refine ⟨fun hnone => preempt_none hd (List.filter_eq_nil_iff.mpr fun e he hmine => ?_), fun gid g hg hmine => ?_⟩
  · exact hnone e he (State.mem_preemptable.mp (List.mem_filter.mpr ⟨he, hmine⟩)).2
  generalize hgs : s.preemptable (field c.pkt.w1.toNat 0 6) = gs
  generalize hck : c.pkt.w1.getLsbD 8 = ckpt
  have hmem : gid ∈ gs.map (·.1) := hgs ▸ List.mem_map.mpr ⟨(gid, g), State.mem_preemptable.mpr ⟨Tab.mem_of_find? hg, hmine⟩, rfl⟩
  have hexec := preempt_some hd hgs (fun hnil => by rw [hnil] at hmem; exact List.not_mem_nil hmem)
  rw [hck] at hexec
  obtain ⟨hc, hfin, -⟩ := hd
  obtain ⟨-, -, hstatus⟩ := hmine
  have hask := s.askFreezes_frame id gs ckpt
  have hgrid := State.askFreezes_grid id ckpt hg hmem
  generalize s.askFreezes id gs ckpt = v at hexec hask hgrid
  obtain ⟨h, hfind, hframe, hold, hact⟩ := freezeNow_preempted (congrArg State.gtc hask :) (congrArg State.warps hask :)
    (congrArg State.queues hask :) hstatus hmem hgrid
  have hnow := v.freezeNow_frame gs
  have hcmds : (v.freezeNow gs).cmds = s.cmds.modify id fun c => { c with waiting := gs.map (·.1) } :=
    Eq.trans (b := v.cmds) (congrArg State.cmds hnow :) (congrArg State.cmds hask :)
  refine ⟨_, h, { c with waiting := gs.map (·.1) }, gs.flatMap fun e => (v.freezeNow gs).releasesOf e.1, hexec, ?_, fun i hi => ?_, hfind, hframe, ?_,
    hmem, hfin, hold, fun hfree hz => ?_⟩
  · rw [hnow, hask]
  · obtain ⟨e, -, hi⟩ := List.mem_flatMap.mp hi
    exact State.releasesOf_release i hi
  · rw [hcmds, Tab.find?_modify_self, hc]; rfl
  · obtain ⟨hfreeze, hwarps⟩ := hact hfree hz
    refine ⟨⟨_, hfreeze⟩, fun k w hw hg => ⟨_, hwarps k w hw hg, ?_, ?_⟩⟩
    · cases ckpt <;> rfl
    · cases ckpt <;> rfl

/-! ### The resume image (R141) -/

/-- The beats of a pool write of its own are noted, which touches nothing else. -/
theorem State.noteBeats_frame (s : State) (bs : List Nat) (u : State → Nat) :
    ∃ b, bs.foldl (fun (s : State) x => s.noteBeat (u s) x none) s = { s with beats := b } :=
  List.foldlRecOn (motive := fun t : State => ∃ b, t = { s with beats := b }) bs _ ⟨s.beats, rfl⟩ fun t ht x _ => by
    obtain ⟨b, rfl⟩ := ht
    exact ⟨_, rfl⟩

/-- A grid whose resume image is written. -/
def Grid.withImage (g : Grid) (wct : Nat) : Grid :=
  { g with maxWct := max g.maxWct wct, freeze := g.freeze.map fun f => { f with image := true } }

theorem resumeImage_clause (s : State) (gid : Nat) (g : Grid) (f : Freeze) (cs : List (Nat × Byte)) (hg : s.grids.find? gid = some g)
    (hf : g.freeze = some f) (hdue : g.imageDue s.gtc = true)
    (hcs : s.cellsAt g.part g.hdr.resume (g.contextImage g.hdr.resume PosState.cursor) = some cs) :
    ∃ t h w, exec (.resumeImageWrite gid) s = .next t ∧ t.mem = s.mem ∧ t.writes = s.writes ++ [w] ∧ w.wct = s.gtc + 680 ∧
      w.cells = cs.map (fun c => (c.1, c.2, none)) ∧ t.grids.find? gid = some h ∧ h.freeze = some { f with image := true } ∧
      h.maxWct = max g.maxWct (s.gtc + 680) := by
  have hwalks := s.sawWalks_frame g.part ((List.range cs.length).map (g.hdr.resume + ·))
  have hexec : exec (.resumeImageWrite gid) s = .next ((((beatsOf (cs.map fun (c : Nat × Byte) => c.1)).foldl
      (fun (t : State) b => t.noteBeat (nextData (t.gtc + 48)) b none)
      (s.sawWalks g.part ((List.range cs.length).map (g.hdr.resume + ·)))).poolWrite (s.gtc + 680) g.lq
        (cs.map fun (c : Nat × Byte) => (c.1, c.2, none))).updGrid gid fun g => g.withImage (s.gtc + 680)) := by
    have hrun : exec (.resumeImageWrite gid) s = execResumeImageWrite gid s := rfl
    rw [hrun]
    simp only [execResumeImageWrite, hg, hdue, hcs, Bool.not_true, Bool.false_eq_true, if_false]; rfl
  generalize s.sawWalks g.part ((List.range cs.length).map (g.hdr.resume + ·)) = u at hexec hwalks
  obtain ⟨b, hbeats⟩ := u.noteBeats_frame (beatsOf (cs.map fun (c : Nat × Byte) => c.1)) fun t => nextData (t.gtc + 48)
  rw [hbeats, hwalks] at hexec
  refine ⟨_, _, _, hexec, rfl, rfl, rfl, rfl, State.grid_updGrid_self (fun g => g.withImage (s.gtc + 680)) hg, ?_, rfl⟩
  rw [Grid.withImage, hf]; rfl

/-! ### The drain bound (R143) -/

/-- Only warps go: memory is as it was, every grid stays in the table, and one that was killed stays so. -/
def State.KillOnly (s t : State) : Prop :=
  t.mem = s.mem ∧ (∀ id h, s.grids.find? id = some h → ∃ x, t.grids.find? id = some x ∧ (h.killed = true → x.killed = true)) ∧
  ∀ e ∈ t.warps, ∃ d ∈ s.warps, d.2.grid = e.2.grid

theorem State.KillOnly.of_eq {s t : State} (hmem : t.mem = s.mem) (hgrids : t.grids = s.grids)
    (hwarps : ∀ e ∈ t.warps, ∃ d ∈ s.warps, d.2.grid = e.2.grid) : s.KillOnly t :=
  ⟨hmem, fun _ h hh => ⟨h, hgrids ▸ hh, fun hk => hk⟩, hwarps⟩

theorem State.KillOnly.trans {s t u : State} (h : s.KillOnly t) (h' : t.KillOnly u) : s.KillOnly u := by
  obtain ⟨hmem, hgrids, hwarps⟩ := h
  obtain ⟨hmem', hgrids', hwarps'⟩ := h'
  refine ⟨hmem'.trans hmem, fun id g hg => ?_, fun e he => ?_⟩
  · obtain ⟨x, hx, hkill⟩ := hgrids id g hg
    obtain ⟨y, hy, hkill'⟩ := hgrids' id x hx
    exact ⟨y, hy, fun hg => hkill' (hkill hg)⟩
  · obtain ⟨d, hd, hgrid⟩ := hwarps' e he
    obtain ⟨c, hc, hgrid'⟩ := hwarps d hd
    exact ⟨c, hc, hgrid'.trans hgrid⟩

theorem State.updGrid_killOnly (s : State) (gid : Nat) {f : Grid → Grid} (hf : ∀ g : Grid, g.killed = true → (f g).killed = true) :
    s.KillOnly (s.updGrid gid f) := by
  refine ⟨rfl, fun id h hh => ?_, fun e he => ⟨e, he, rfl⟩⟩
  by_cases hid : id = gid
  · subst hid
    exact ⟨f h, State.grid_updGrid_self f hh, hf h⟩
  · exact ⟨h, (State.grid_updGrid_ne s f hid).trans hh, fun hk => hk⟩

theorem State.noteExit_killOnly (s : State) (gid j : Nat) : s.KillOnly (s.noteExit gid j) := by
  obtain ⟨w, c, f, heq, hf⟩ : ∃ w c f, s.noteExit gid j = ({ s with warps := w, sec := c } : State).updGrid gid f ∧
      ∀ g : Grid, g.killed = true → (f g).killed = true := ⟨_, _, _, rfl, fun _ hg => hg⟩
  obtain ⟨hmem, hgrids, -⟩ := State.updGrid_killOnly { s with warps := w, sec := c } gid hf
  exact ⟨rfl, heq ▸ hgrids, fun e he => ⟨e, (State.mem_noteExit.mp he).1, rfl⟩⟩

theorem State.endInstances_killOnly (s : State) (gid : Nat) : s.KillOnly (s.endInstances gid) := by
  have hstop : s.KillOnly (s.stopWarps gid) := .of_eq rfl rfl fun _ he => (State.mem_stopWarps he).1
  obtain ⟨c, w, heq⟩ := (s.stopWarps gid).killCmds_frame gid
  have hcmds : s.KillOnly ((s.stopWarps gid).killCmds gid) := hstop.trans (by rw [heq]; exact .of_eq rfl rfl fun e he => ⟨e, he, rfl⟩)
  exact List.foldlRecOn (motive := fun t : State => s.KillOnly t) _ _ hcmds fun t ht p _ => ht.trans (t.noteExit_killOnly p.1 p.2)

/-- A grid that is killed. -/
def State.markKilled (s : State) (gid : Nat) : State := s.updGrid gid fun g => { g with killed := true }

theorem State.killGrid_eq (s : State) (gid : Nat) : s.killGrid gid = (s.markKilled gid).endInstances gid := rfl

theorem State.markKilled_killOnly (s : State) (gid : Nat) : s.KillOnly (s.markKilled gid) := s.updGrid_killOnly gid fun _ _ => rfl

theorem State.killGrid_killOnly (s : State) (gid : Nat) : s.KillOnly (s.killGrid gid) := by
  rw [State.killGrid_eq]
  exact (s.markKilled_killOnly gid).trans (State.endInstances_killOnly _ gid)

/-- A killed grid has no warp left. -/
def State.Killed (s : State) (gid : Nat) : Prop :=
  (∃ h, s.grids.find? gid = some h ∧ h.killed = true) ∧ ∀ e ∈ s.warps, e.2.grid ≠ gid

theorem State.Killed.keeps {s t : State} {gid : Nat} (h : s.Killed gid) (hst : s.KillOnly t) : t.Killed gid := by
  obtain ⟨⟨x, hx, hkilled⟩, hno⟩ := h
  obtain ⟨-, hgrids, hwarps⟩ := hst
  obtain ⟨y, hy, hkeep⟩ := hgrids gid x hx
  refine ⟨⟨y, hy, hkeep hkilled⟩, fun e he heq => ?_⟩
  obtain ⟨d, hd, hgrid⟩ := hwarps e he
  exact hno d hd (hgrid.trans heq)

theorem State.killGrid_killed {s : State} {gid : Nat} {g : Grid} (hg : s.grids.find? gid = some g) : (s.killGrid gid).Killed gid := by
  obtain ⟨-, hgrids, -⟩ := (s.markKilled gid).endInstances_killOnly gid
  obtain ⟨x, hx, hkeep⟩ := hgrids gid { g with killed := true } (State.grid_updGrid_self (fun g => { g with killed := true }) hg)
  rw [State.killGrid_eq]
  exact ⟨⟨x, hx, hkeep rfl⟩, State.endInstances_vacates _ gid⟩

theorem drainBound_clause (s : State) (gid : Nat) (g : Grid) (hg : s.grids.find? gid = some g) (hdue : s.drainDue g = true) :
    ∃ t h, exec .drainBoundExpiry s = .next t ∧ t.mem = s.mem ∧ t.grids.find? gid = some h ∧ h.killed = true ∧
      ∀ k w, t.warp? k = some w → w.grid ≠ gid := by
  have hmem : gid ∈ (s.grids.filter fun (e : Nat × Grid) => s.drainDue e.2).map (·.1) :=
    List.mem_map.mpr ⟨(gid, g), List.mem_filter.mpr ⟨Tab.mem_of_find? hg, hdue⟩, rfl⟩
  obtain ⟨hmemory, ⟨h, hh, hkilled⟩, hwarps⟩ := foldl_visits (f := fun (t : State) e => t.killGrid e.1)
    (A := fun t => t.mem = s.mem ∧ ∃ h, t.grids.find? gid = some h) (B := fun t => t.mem = s.mem ∧ t.Killed gid)
    (fun t e _ ⟨hm, h, hh⟩ => by
      obtain ⟨hm', hgrids, -⟩ := t.killGrid_killOnly e.1
      obtain ⟨x, hx, -⟩ := hgrids gid h hh
      exact ⟨hm'.trans hm, x, hx⟩)
    (fun t e he ⟨hm, h, hh⟩ => ⟨(t.killGrid_killOnly e.1).1.trans hm, he ▸ State.killGrid_killed (he ▸ hh)⟩)
    (fun t e ⟨hm, hk⟩ => ⟨(t.killGrid_killOnly e.1).1.trans hm, hk.keeps (t.killGrid_killOnly e.1)⟩) hmem ⟨rfl, g, hg⟩
  exact ⟨_, h, rfl, hmemory, hh, hkilled, fun k w hw => hwarps (k, w) (Tab.mem_of_find? hw)⟩

theorem drainBound_none {s : State} (h : ∀ e ∈ s.grids, s.drainDue e.2 = false) : exec .drainBoundExpiry s = .next s := by
  have hnil : (s.grids.filter fun (e : Nat × Grid) => s.drainDue e.2) = [] :=
    List.filter_eq_nil_iff.mpr fun e he => Bool.eq_false_iff.mp (h e he)
  have hexec : exec .drainBoundExpiry s =
    .next ((s.grids.filter fun (e : Nat × Grid) => s.drainDue e.2).foldl (fun t (e : Nat × Grid) => t.killGrid e.1) s) := rfl
  rw [hexec, hnil]; rfl

/-- Settles O51: each phase of a grid's life has its clause; a pre-emption's grids and a drain bound's grids are visited one by one. -/
theorem gridLife : Obligations.GridLife := by
  unfold Obligations.GridLife
  refine ⟨staging_clause, fun s h => staging_none h, fun s gid g hdue hs0 => ⟨staging_waits hdue hs0, fun hopen hg => ?_⟩, judgeImage_clause,
    staged_clause, ?_, ?_, preempt_clause, freeze_clause, resumeImage_clause, drainBound_clause, fun s h => drainBound_none h, retire_clause⟩
  · exact stagingBegins_clause s gid g hdue hs0 hopen hg
  · intro s id gid c g hd hgrid hg hindirect _ hchecked hnow _
    exact launchEarly_clause s id gid c g hd hgrid hg hindirect hchecked hnow
  · intro s id gid c g hd hgrid hg hindirect hchecked hstatus hposs hnode hop hcmd heng hnow hnodup _
    exact launchChecked_clause s id gid c g hd hgrid hg hindirect hchecked hstatus hposs hnode hop hcmd heng hnow hnodup

end Sys2Proof.Machine
end

section
/-! SUPPORT. The state that reset leaves (R58, R74, R82, R85, R93, R104, R105, R107, R122, R124): none of its tables lists anything, so a lookup gives
the reset value of the table's entries, a byte reads as one that nothing has written, and what is said of every warp holds of no warp. -/

namespace Sys2Proof

/-- A table that lists nothing gives the default at every key. -/
@[simp] theorem Tab.get_nil {α : Type} (d : α) (k : Nat) : Tab.get ([] : Tab α) d k = d := by
  rw [Tab.get, Tab.find?_nil, Option.getD_none]

end Sys2Proof

namespace Sys2Proof.Machine

/-- Without warps the limits of queues and divergence stacks (R150, R322) hold. -/
theorem fits_of_warps_nil {s : State} (h : s.warps = []) : Fits s := by
  unfold Fits
  rw [h]
  exact ⟨List.Pairwise.nil, fun e he => absurd he List.not_mem_nil⟩

theorem State.reset_byteAt (a : Nat) : State.reset.byteAt a = Mem.unlisted :=
  Mem.read_above (k := a) rfl le_rfl

theorem State.reset_tenant (p : Nat) : State.reset.tenant p = Tenant.fresh := Tab.get_nil _ p

theorem State.reset_ring (r : Nat) : State.reset.rings.get Ring.fresh r = Ring.fresh := Tab.get_nil _ r

theorem State.reset_queue (q : Nat) : State.reset.queues.get LQueue.fresh q = LQueue.fresh := Tab.get_nil _ q

/-- Settles O38: what a lookup finds is the reset value of its table's entries, since no table lists anything; the other fields are as
`State.reset` and the reset values of its parts write them. -/
theorem resetState : Obligations.ResetState := by
  unfold Obligations.ResetState
  have hsealed : ∀ p, (State.reset.tenant p).sealed = false := fun p => by rw [State.reset_tenant]; rfl
  have hrings : ∀ r, (State.reset.rings.get Ring.fresh r).enable = false ∧ (State.reset.rings.get Ring.fresh r).log2 = 0 :=
    fun r => by rw [State.reset_ring]; exact ⟨rfl, rfl⟩
  have hqueues : ∀ q, (State.reset.queues.get LQueue.fresh q).watchdog = 0x2710 ∧ (State.reset.queues.get LQueue.fresh q).enable = false :=
    fun q => by rw [State.reset_queue]; exact ⟨rfl, rfl⟩
  exact ⟨rfl, fits_of_warps_nil rfl, rfl, rfl, hsealed, rfl, rfl, rfl, State.reset_byteAt, rfl, rfl, rfl, rfl, rfl, rfl, rfl,
    hrings, hqueues, rfl, rfl⟩

end Sys2Proof.Machine
end

section
/-! SUPPORT. Obligation O52: the distributor (R120, R130, R133 to R139, R178). What placement leaves of memory is a sequence of spans that read as
nothing and the cells of the code, all of them above HBM; the warps of an instance join one after another, each at a key of its own. -/

namespace Sys2Proof.Machine

/-! ### Placement (R136, R139, R178) -/

/-- The next placement is one that fits (R138, R139). -/
theorem State.placeAll_of_nextPlace {s t : State} {u : Pending} (h : s.nextPlace = some (u, t)) : s.placeAll u = some t := by
  unfold State.nextPlace at h
  split at h
  · exact nomatch h
  · refine List.foldlRecOn (motive := fun r : List (Nat × Nat) × Option (Pending × State) => r.2 = some (u, t) → s.placeAll u = some t) _ _ ?_ ?_ h
    · exact fun hnone => nomatch hnone
    · intro r hr v _ hv
      dsimp only at hv
      split at hv
      · exact hr hv
      · split at hv
        · exact nomatch hv
        · split at hv
          next t' ht =>
            obtain ⟨rfl, rfl⟩ := Prod.mk.inj (Option.some.inj hv)
            exact ht
          next => exact nomatch hv

/-- A pending placement of one position places it with a bank and register blocks (R137, R139). -/
theorem execPlacement_single {s v : State} {u : Pending} {j : Nat} {g : Grid} (h : s.nextPlace = some (u, v)) (hjs : u.js = [j])
    (hg : s.grids.find? u.gid = some g) :
    ∃ bank blocks, exec .placement s = .next (s.place u.gid g j (max (s.gtc + 104) u.g.start) bank blocks) := by
  have hall := State.placeAll_of_nextPlace h
  simp only [State.placeAll, hjs, List.foldl_cons, List.foldl_nil, Option.bind_some, State.placeOne, hg, Option.map_eq_some_iff] at hall
  obtain ⟨r, -, rfl⟩ := hall
  exact ⟨r.1, r.2, by rw [exec_placement, execPlacement, h]⟩

theorem execPlacement_none {s : State} (h : s.nextPlace = none) : exec .placement s = .next s := by
  rw [exec_placement, execPlacement, h]

theorem State.byteAt_clearScratch {s : State} (h : s.MemOk) (core lo n a : Nat) : (s.clearScratch core lo n).byteAt a =
    if scratchBase core + lo ≤ a ∧ a < scratchBase core + lo + n then 0 else s.byteAt a :=
  Mem.read_clear _ n h a

/-- From `s` to `t` only scratch changes, and outside of the unit at `unit` it only becomes clear (R173, R178). -/
structure State.Loads (unit : Nat) (s t : State) : Prop where
  memOk : t.MemOk
  below : ∀ a, a < 2 ^ 40 → t.byteAt a = s.byteAt a
  clear : ∀ a, a < unit ∨ unit + 65536 ≤ a → s.byteAt a = 0 → t.byteAt a = 0
  warps : t.warps = s.warps
  grids : t.grids = s.grids

theorem State.Loads.refl {s : State} (h : s.MemOk) (unit : Nat) : s.Loads unit s := ⟨h, fun _ _ => rfl, fun _ _ hz => hz, rfl, rfl⟩

theorem State.Loads.trans {unit : Nat} {s t u : State} (h : s.Loads unit t) (h' : t.Loads unit u) : s.Loads unit u :=
  ⟨h'.memOk, fun a ha => (h'.below a ha).trans (h.below a ha), fun a ha hz => h'.clear a ha (h.clear a ha hz),
    h'.warps.trans h.warps, h'.grids.trans h.grids⟩

theorem State.loads_clearScratch {s : State} (h : s.MemOk) (unit core lo n : Nat) : s.Loads unit (s.clearScratch core lo n) where
  memOk := State.clearScratch_wf core lo n h
  below a ha := by
    rw [State.byteAt_clearScratch h, if_neg]
    unfold scratchBase
    omega
  clear a _ hz := by rw [State.byteAt_clearScratch h, hz, ite_self]
  warps := rfl
  grids := rfl

/-- The code of an image goes to its unit. -/
theorem State.loads_code {s : State} (h : s.MemOk) {unit : Nat} (hunit : 2 ^ 40 ≤ unit) {code : List Byte} (hlen : code.length ≤ 65536) :
    s.Loads unit (s.putCells (plainCells unit code)) := by
  have hkeep : ∀ a, a < unit ∨ unit + 65536 ≤ a → (s.putCells (plainCells unit code)).byteAt a = s.byteAt a := by
    refine fun a ha => State.byteAt_putCells_of_notMem _ h fun c hc => ?_
    obtain ⟨k, hk, rfl⟩ := List.mem_map.mp hc
    have hk := List.mem_range.mp hk
    show unit + k ≠ a
    omega
  have hframe := s.putCells_frame (plainCells unit code)
  exact ⟨State.putCells_wf _ h, fun a ha => hkeep a (by omega), fun a ha hz => (hkeep a ha).trans hz,
    (congrArg State.warps hframe).trans rfl, (congrArg State.grids hframe).trans rfl⟩

/-- Placement's load of a bank that no other position holds: the bank is cleared, its count with it (R179). -/
def State.loadBank (s : State) (new : Bool) (core bank : Nat) (image : List Byte × List Byte) : State :=
  if new then { s.clearScratch core (0x5F0000 + 0x8000 * bank) 0x8000 with
    mbox := s.mbox.put (core * 2 + bank) 0, banks := s.banks.put (core * 2 + bank) image } else s

/-- Placement's load of a unit that no other position holds: the unit is cleared and takes the code (R136). -/
def State.loadUnit (s : State) (new : Bool) (core cunit : Nat) (code : List Byte) : State :=
  if new then (s.clearScratch core (cunit * 65536) 65536).putCells (plainCells (scratchBase core + cunit * 65536) code) else s

/-- A placed position, as its grid records it (R139). -/
def Grid.withPlaced (g : Grid) (j first bank : Nat) (blocks : List (Nat × Nat × Nat)) : Grid :=
  { g with poss := g.poss.modify j fun p => { p with phase := .loading first, bank := bank, blocks := blocks } }

/-- Placement clears the units of the position, loads its bank and its code unit, and records it. -/
theorem State.place_eq (s : State) (gid : Nat) (g : Grid) (j first bank : Nat) (blocks : List (Nat × Nat × Nat)) :
    ∃ newBank image newUnit bytes, s.place gid g j first bank blocks =
      (((s.clearScratch ((s.tenant g.part).slotBase + g.lcore j) (g.unit0 j * 65536) (g.hdr.scru * 65536)).loadBank newBank
        ((s.tenant g.part).slotBase + g.lcore j) bank image).loadUnit newUnit ((s.tenant g.part).slotBase + g.lcore j) g.hdr.cunit
        (List.take g.hdr.codelen bytes)).updGrid gid (·.withPlaced j first bank blocks) := by
  unfold State.place
  exact ⟨_, _, _, _, rfl⟩

theorem State.loads_loadBank {s : State} (h : s.MemOk) (unit : Nat) (new : Bool) (core bank : Nat) (image : List Byte × List Byte) :
    s.Loads unit (s.loadBank new core bank image) := by
  cases new
  · exact .refl h unit
  · obtain ⟨hok, hbelow, hclear, hwarps, hgrids⟩ := State.loads_clearScratch h unit core (0x5F0000 + 0x8000 * bank) 0x8000
    exact ⟨hok, hbelow, hclear, hwarps, hgrids⟩

theorem State.loads_loadUnit {s : State} (h : s.MemOk) (new : Bool) (core cunit : Nat) {code : List Byte} (hlen : code.length ≤ 65536) :
    s.Loads (scratchBase core + cunit * 65536) (s.loadUnit new core cunit code) := by
  cases new
  · exact .refl h _
  · exact (State.loads_clearScratch h _ core _ _).trans
      (State.loads_code (State.clearScratch_wf core _ _ h) (by unfold scratchBase; omega) hlen)

/-- What placement leaves of memory, warps and grids: the position's units read 0, since its code unit is none of them. -/
theorem State.place_clears {s : State} (h : s.MemOk) (gid : Nat) {g : Grid} (j first bank : Nat) (blocks : List (Nat × Nat × Nat))
    (hlen : g.hdr.codelen ≤ 65536) (hunit : g.hdr.cunit < g.unit0 j ∨ g.unit0 j + g.hdr.scru ≤ g.hdr.cunit) :
    let base := scratchBase ((s.tenant g.part).slotBase + g.lcore j)
    let t := s.place gid g j first bank blocks
    t.MemOk ∧ t.warps = s.warps ∧ t.grids = s.grids.modify gid (·.withPlaced j first bank blocks) ∧
      (∀ a, base + g.unit0 j * 65536 ≤ a → a < base + (g.unit0 j + g.hdr.scru) * 65536 → t.byteAt a = 0) ∧
      ∀ a, a < 2 ^ 40 → t.byteAt a = s.byteAt a := by
  intro base t
  obtain ⟨newBank, image, newUnit, bytes, ht⟩ := s.place_eq gid g j first bank blocks
  have hspan := State.loads_clearScratch h (base + g.hdr.cunit * 65536) ((s.tenant g.part).slotBase + g.lcore j) (g.unit0 j * 65536)
    (g.hdr.scru * 65536)
  have hbank := State.loads_loadBank hspan.memOk (base + g.hdr.cunit * 65536) newBank ((s.tenant g.part).slotBase + g.lcore j) bank image
  have hload := hbank.trans (State.loads_loadUnit hbank.memOk newUnit ((s.tenant g.part).slotBase + g.lcore j) g.hdr.cunit
    ((bytes.length_take_le g.hdr.codelen).trans hlen))
  have hall := hspan.trans hload
  simp only [t, ht]
  refine ⟨hall.memOk, hall.warps, congrArg (·.modify gid (·.withPlaced j first bank blocks)) hall.grids, fun a hlo hhi => ?_, hall.below⟩
  refine hload.clear a (by omega) ?_
  rw [State.byteAt_clearScratch h, if_pos ⟨hlo, by omega⟩]

/-- A position that fits is placed (R120, R130, R136, R139, R178). -/
theorem placement_fits {s v : State} {u : Pending} {j : Nat} {g : Grid} {q : PosState} (h : s.nextPlace = some (u, v)) (hjs : u.js = [j])
    (hg : s.grids.find? u.gid = some g) (hug : u.g = g) (hq : g.poss.find? j = some q) (hok : s.MemOk) (hlen : g.hdr.codelen ≤ 65536)
    (hunit : g.hdr.cunit < g.unit0 j ∨ g.unit0 j + g.hdr.scru ≤ g.hdr.cunit) :
    ∃ t h p, exec .placement s = .next t ∧ t.MemOk ∧ t.warps = s.warps ∧ t.grids.find? u.gid = some h ∧
      h.poss.find? j = some p ∧ p.phase = .loading (max (s.gtc + 104) g.start) ∧ p.next = q.next ∧
      (∀ a, scratchBase ((s.tenant g.part).slotBase + g.lcore j) + g.unit0 j * 65536 ≤ a →
        a < scratchBase ((s.tenant g.part).slotBase + g.lcore j) + (g.unit0 j + g.hdr.scru) * 65536 → t.byteAt a = 0) ∧
      (∀ a, a < 2 ^ 40 → t.byteAt a = s.byteAt a) := by
  obtain ⟨bank, blocks, hexec⟩ := execPlacement_single h hjs hg
  obtain ⟨hmem, hwarps, hgrids, hzero, hbelow⟩ := State.place_clears hok u.gid j (max (s.gtc + 104) u.g.start) bank blocks hlen hunit
  refine ⟨_, g.withPlaced j (max (s.gtc + 104) u.g.start) bank blocks, { q with phase := .loading (max (s.gtc + 104) u.g.start), bank, blocks },
    hexec, hmem, hwarps, ?_, ?_, by rw [hug], rfl, hzero, hbelow⟩
  · rw [hgrids, Tab.find?_modify_self, hg, Option.map_some]
  · rw [Grid.withPlaced, Tab.find?_modify_self, hq, Option.map_some]

/-! ### The start of an instance (R133, R135, R147) -/

@[simp] theorem State.joinWarp_warps (s : State) (w : Warp) : (s.joinWarp w).warps = s.warps.put (warpKey w.core w.k) w := rfl

@[simp] theorem State.joinWarp_mem (s : State) (w : Warp) : (s.joinWarp w).mem = s.mem := rfl

@[simp] theorem State.joinWarp_grids (s : State) (w : Warp) : (s.joinWarp w).grids = s.grids := rfl

/-- Warps that join change neither memory nor grids. -/
theorem State.joinWarps_frame (s : State) (ws : List Warp) :
    (ws.foldl State.joinWarp s).mem = s.mem ∧ (ws.foldl State.joinWarp s).grids = s.grids := by
  induction ws generalizing s with
  | nil => exact ⟨rfl, rfl⟩
  | cons w ws ih => exact ih (s.joinWarp w)

/-- A key at which none of the warps joins stays as it is. -/
theorem State.warp?_joinWarps_ne {s : State} {ws : List Warp} {k : Nat} (h : ∀ w ∈ ws, warpKey w.core w.k ≠ k) :
    (ws.foldl State.joinWarp s).warp? k = s.warp? k := by
  induction ws generalizing s with
  | nil => rfl
  | cons w ws ih =>
    rw [List.foldl_cons, ih fun v hv => h v (List.mem_cons_of_mem _ hv)]
    exact Tab.find?_put_ne _ _ (h w List.mem_cons_self).symm

/-- Warps with keys of their own are all there after they joined. -/
theorem State.warp?_joinWarps {s : State} {ws : List Warp} (hkeys : (ws.map fun w => warpKey w.core w.k).Nodup) {w : Warp} (hw : w ∈ ws) :
    (ws.foldl State.joinWarp s).warp? (warpKey w.core w.k) = some w := by
  induction ws generalizing s with
  | nil => exact absurd hw List.not_mem_nil
  | cons v ws ih =>
    obtain ⟨hv, hkeys⟩ := List.nodup_cons.mp hkeys
    rw [List.foldl_cons]
    rcases List.mem_cons.mp hw with rfl | hw
    · rw [State.warp?_joinWarps_ne fun u hu he => hv (List.mem_map.mpr ⟨u, hu, he⟩)]
      exact Tab.find?_put_self _ _ _
    · exact ih hkeys hw

/-- The registers that a warp starts with: R0 to R2 hold the entry, those from R6 on zero (R133). -/
theorem State.newWarp_regs (s : State) (gid : Nat) (g : Grid) (j w : Nat) (e : Entry) (cut : Bool) (x : Strm) :
    let st := (s.newWarp gid g j w e cut).strm x
    st.mask = Mask.full ∧ st.phase = .idle ∧ st.reg 0 = RVal.ofWord (BitVec.ofNat 32 e.group) ∧
      st.reg 1 = RVal.ofWord (BitVec.ofNat 32 e.first) ∧ st.reg 2 = RVal.ofWord (BitVec.ofNat 32 e.count) ∧
      ∀ n, 6 ≤ n → st.reg n = RVal.ofWord 0 := by
  intro st
  have hreg : ∀ n, st.reg n = (State.newWarp s gid g j w e cut).acc.reg n := by cases x <;> exact fun _ => rfl
  refine ⟨by cases x <;> rfl, by cases x <;> rfl, hreg 0, hreg 1, hreg 2, fun n hn => (hreg n).trans ?_⟩
  have hne : ∀ k, k < 6 → ¬ k = n := fun k hk he => by omega
  simp [State.newWarp, Stream.reg, Tab.get, Tab.find?, List.zipIdx, hne, RVal.zero]

/-- The warps of an instance that starts (R133). -/
def State.instanceWarps (s : State) (gid : Nat) (g : Grid) (j : Nat) (e : Entry) (cut : Bool) : List Warp :=
  (List.range g.hdr.wpt).map fun w => s.newWarp gid g j w e cut

/-- The key of a warp of a position (R130). -/
def State.posKey (s : State) (g : Grid) (j w : Nat) : Nat := ((s.tenant g.part).slotBase + g.lcore j) * 32 + (g.warp0 j + w)

theorem State.newWarp_key (s : State) (gid : Nat) (g : Grid) (j w : Nat) (e : Entry) (cut : Bool) :
    warpKey (s.newWarp gid g j w e cut).core (s.newWarp gid g j w e cut).k = s.posKey g j w := rfl

theorem State.instanceWarps_nodup (s : State) (gid : Nat) (g : Grid) (j : Nat) (e : Entry) (cut : Bool) :
    ((s.instanceWarps gid g j e cut).map fun w => warpKey w.core w.k).Nodup := by
  rw [State.instanceWarps, List.map_map]
  exact List.nodup_range.map fun a b (h : s.posKey g j a = s.posKey g j b) => by unfold State.posKey at h; omega

theorem State.mem_instanceWarps {s : State} {gid : Nat} {g : Grid} {j : Nat} {e : Entry} {cut : Bool} {v : Warp} :
    v ∈ s.instanceWarps gid g j e cut ↔ ∃ w, w < g.hdr.wpt ∧ s.newWarp gid g j w e cut = v := by
  simp only [State.instanceWarps, List.mem_map, List.mem_range]

/-- A grid one position of which starts an instance (R133). -/
def Grid.withStarted (g : Grid) (j now : Nat) : Grid :=
  { g with firstIssue := some (g.firstIssue.getD now)
           poss := g.poss.modify j fun p => { p with phase := .running, next := p.next + 1, restore := false, cut := false } }

/-- INSTANCE_START: the warps of the instance join, and the grid notes the start. -/
theorem execInstanceStart_starts {s : State} {gid j : Nat} {g : Grid} {p : PosState} {e : Entry} (hg : s.grids.find? gid = some g)
    (hp : g.poss.find? j = some p) (hstarts : g.starts j p s.gtc = true)
    (he : posEntry g.groups g.hdr.iters g.npos j p.next = some e) :
    ∃ t now, exec (.instanceStart gid j) s = .next t ∧ t.mem = s.mem ∧ t.grids = s.grids.modify gid (·.withStarted j now) ∧
      t.warps = ((s.instanceWarps gid g j e p.restore).foldl State.joinWarp s).warps := by
  obtain ⟨hmem, hgrids⟩ := s.joinWarps_frame (s.instanceWarps gid g j e p.restore)
  rw [exec_instanceStart, execInstanceStart, hg]
  simp only [hp, hstarts, he, Bool.not_true, Bool.false_eq_true, if_false]
  refine ⟨_, ((s.instanceWarps gid g j e p.restore).foldl State.joinWarp s).gtc, rfl, hmem, ?_, rfl⟩
  rw [← hgrids]
  rfl

theorem instanceStart_loads {s : State} {gid j : Nat} {g : Grid} {p : PosState} {e : Entry} (hg : s.grids.find? gid = some g)
    (hp : g.poss.find? j = some p) (hstarts : g.starts j p s.gtc = true)
    (he : posEntry g.groups g.hdr.iters g.npos j p.next = some e) :
    ∃ t h, exec (.instanceStart gid j) s = .next t ∧ t.mem = s.mem ∧ t.grids.find? gid = some h ∧
      h.poss.find? j = some { p with phase := .running, next := p.next + 1, restore := false, cut := false } ∧
      (∀ w, w < g.hdr.wpt → t.warp? (s.posKey g j w) = some (s.newWarp gid g j w e p.restore)) ∧
      ∀ k, (∀ w, w < g.hdr.wpt → k ≠ s.posKey g j w) → t.warp? k = s.warp? k := by
  obtain ⟨t, now, hexec, hmem, hgrids, hwarps⟩ := execInstanceStart_starts hg hp hstarts he
  have hwarp : ∀ k, t.warp? k = ((s.instanceWarps gid g j e p.restore).foldl State.joinWarp s).warp? k :=
    fun k => congrArg (Tab.find? · k) hwarps
  refine ⟨t, g.withStarted j now, hexec, hmem, ?_, ?_, fun w hw => ?_, fun k hk => ?_⟩
  · rw [hgrids, Tab.find?_modify_self, hg, Option.map_some]
  · rw [Grid.withStarted, Tab.find?_modify_self, hp, Option.map_some]
  · rw [hwarp, ← s.newWarp_key gid g j w e p.restore]
    exact State.warp?_joinWarps (s.instanceWarps_nodup gid g j e p.restore) (State.mem_instanceWarps.mpr ⟨w, hw, rfl⟩)
  · refine (hwarp k).trans (State.warp?_joinWarps_ne fun v hv hvk => ?_)
    obtain ⟨w, hw, rfl⟩ := State.mem_instanceWarps.mp hv
    exact hk w hw (hvk.symm.trans (s.newWarp_key gid g j w e p.restore))

/-! ### The release of resources (R134) -/

/-- A grid one position of which has given up its resources (R134). -/
def Grid.withReleased (g : Grid) (j : Nat) : Grid :=
  { g with poss := g.poss.modify j fun p => { p with phase := .released, bank := 2 } }

theorem resourceRelease_due {s : State} {gid j : Nat} {g : Grid} {p : PosState} (hg : s.grids.find? gid = some g)
    (hp : g.poss.find? j = some p) (h : g.releases j p s.gtc = true) :
    ∃ t h, exec (.resourceRelease gid j) s = .next t ∧ t = { s with grids := t.grids } ∧
      t.grids.find? gid = some h ∧ h.poss.find? j = some { p with phase := .released, bank := 2 } ∧
      ∀ k, k ≠ gid → t.grids.find? k = s.grids.find? k := by
  refine ⟨s.updGrid gid (·.withReleased j), g.withReleased j, ?_, rfl, ?_, ?_, fun k hk => ?_⟩
  · simp only [exec_resourceRelease, execResourceRelease, hg, hp, h, if_true]
    rfl
  · rw [State.updGrid_grids, Tab.find?_modify_self, hg, Option.map_some]
  · rw [Grid.withReleased, Tab.find?_modify_self, hp, Option.map_some]
  · rw [State.updGrid_grids, Tab.find?_modify_ne _ _ hk]

theorem resourceRelease_early {s : State} {gid j : Nat} {g : Grid} {p : PosState} (hg : s.grids.find? gid = some g)
    (hp : g.poss.find? j = some p) (h : g.releases j p s.gtc = false) : exec (.resourceRelease gid j) s = .next s := by
  simp only [exec_resourceRelease, execResourceRelease, hg, hp, h, Bool.false_eq_true, if_false]

/-- Settles O52: placement through the spans that it clears and loads, an instance's start through the keys at which its warps join. -/
theorem placement : Obligations.Placement := by
  unfold Obligations.Placement
  refine ⟨?_, fun s => execPlacement_none, ?_, fun s gid j g p hg hp => ⟨resourceRelease_due hg hp, resourceRelease_early hg hp⟩⟩
  · intro s u j g q v h hjs hg hug hq hok hlen hunit _ _
    exact placement_fits h hjs hg hug hq hok hlen hunit
  · intro s gid j g p e hg hp hstarts he
    obtain ⟨t, h, hexec, hmem, hgrid, hpos, hjoined, hothers⟩ := instanceStart_loads hg hp hstarts he
    refine ⟨t, h, hexec, hmem, hgrid, hpos, fun w hw => ?_, fun k v hv hk => (hothers k hk).trans hv⟩
    exact ⟨_, hjoined w hw, rfl, rfl, rfl, rfl, rfl, rfl, s.newWarp_regs gid g j w e p.restore⟩

end Sys2Proof.Machine
end

section
/-! SUPPORT. Obligation O34, what a change keeps. The limits are stated for any bounds on the queues and stacks of each warp, so that a change that
lets no queue take more and no stack get deeper keeps them whatever they are. -/

namespace Sys2Proof.Machine

/-- What the limits speak of stays: the warps, and REVOKED. -/
@[simp] abbrev State.SameLimits (s t : State) : Prop := t.warps = s.warps ∧ t.sec.revoked = s.sec.revoked

theorem State.SameLimits.trans {s t u : State} (h : s.SameLimits t) (h' : t.SameLimits u) : s.SameLimits u :=
  ⟨h'.1.trans h.1, h'.2.trans h.2⟩

/-- Bounds on the occupancy of each queue and on the depth of each stream's divergence stack, by the key of the warp. -/
structure Bounds where
  queue : Nat → Nat → Nat
  stack : Nat → Strm → Nat

/-- A warp's queues and divergence stacks are within bounds. -/
def Warp.Within (w : Warp) (queue : Nat → Nat) (stack : Strm → Nat) : Prop :=
  (∀ q, (w.live q).length ≤ queue q) ∧ ∀ x : Strm, (w.strm x).stack.length ≤ stack x

/-- The warps stand in the order of their keys, each within its bounds. -/
def Bounds.Hold (B : Bounds) (ws : Tab Warp) : Prop :=
  (ws.map (·.1)).Pairwise (· < ·) ∧ ∀ e ∈ ws, e.2.Within (B.queue e.1) (B.stack e.1)

/-- From warps `ws` and REVOKED `r` to `vs` and `q` REVOKED stays, and no queue and no divergence stack exceeds a bound that it met. -/
structure KeepsLimits (ws : Tab Warp) (r : Bool) (vs : Tab Warp) (q : Bool) : Prop where
  revoked : r = true → q = true
  within : ∀ B : Bounds, B.Hold ws → B.Hold vs

/-- From `s` to `t` REVOKED and the bounds stay. -/
@[simp] abbrev State.Keeps (s t : State) : Prop := KeepsLimits s.warps s.sec.revoked t.warps t.sec.revoked

@[simp] theorem KeepsLimits.refl (ws : Tab Warp) (r : Bool) : KeepsLimits ws r ws r := ⟨id, fun _ => id⟩

theorem State.Keeps.refl (s : State) : s.Keeps s := KeepsLimits.refl _ _

theorem KeepsLimits.trans {ws vs us : Tab Warp} {r q p : Bool} (h : KeepsLimits ws r vs q) (h' : KeepsLimits vs q us p) : KeepsLimits ws r us p :=
  ⟨fun hr => h'.revoked (h.revoked hr), fun B hB => h'.within B (h.within B hB)⟩

/-- What changes neither warps nor REVOKED keeps them. -/
theorem State.keeps_of_sameLimits {s t : State} (h : s.SameLimits t) : s.Keeps t := by
  obtain ⟨hw, hr⟩ := h
  rw [State.Keeps, hw, hr]
  exact .refl _ _

/-- A further change of neither warps nor REVOKED. -/
theorem State.Keeps.same {s t u : State} (h : s.Keeps t) (h' : t.SameLimits u) : s.Keeps u := h.trans (State.keeps_of_sameLimits h')

/-- The next state, if the outcome has one, keeps REVOKED and the bounds. -/
def State.KeepsIn (s : State) (o : Out) : Prop := ∀ t : State, o = .next t → s.Keeps t

@[simp] theorem State.keepsIn_next {s t : State} : s.KeepsIn (.next t) ↔ s.Keeps t :=
  ⟨fun h => h t rfl, fun h _ ht => Host.Outcome.next.inj ht ▸ h⟩

@[simp] theorem State.keepsIn_fault {s : State} (r : Fault) : s.KeepsIn (.fault r) := fun _ ht => nomatch ht

@[simp] theorem State.keeps_ite {s t u : State} {c : Prop} [Decidable c] :
    s.Keeps (if c then t else u) ↔ (c → s.Keeps t) ∧ (¬c → s.Keeps u) := by
  split <;> simp [*]

@[simp] theorem State.keepsIn_ite {s : State} {o o' : Out} {c : Prop} [Decidable c] :
    s.KeepsIn (if c then o else o') ↔ (c → s.KeepsIn o) ∧ (¬c → s.KeepsIn o') := by
  split <;> simp [*]

theorem State.foldl_sameLimits {α : Type} {f : State → α → State} (h : ∀ (s : State) (a : α), s.SameLimits (f s a)) (l : List α) (s : State) :
    s.SameLimits (l.foldl f s) := by
  induction l generalizing s with
  | nil => exact ⟨rfl, rfl⟩
  | cons a l ih => exact ⟨(ih _).1.trans (h s a).1, (ih _).2.trans (h s a).2⟩

/-- A fold that carries a value beside the state. -/
theorem State.foldl_snd_sameLimits {α β : Type} {f : β × State → α → β × State} (h : ∀ (r : β × State) (a : α), r.2.SameLimits (f r a).2)
    (l : List α) (r : β × State) :
    r.2.SameLimits (l.foldl f r).2 := by
  induction l generalizing r with
  | nil => exact ⟨rfl, rfl⟩
  | cons a l ih => exact ⟨(ih _).1.trans (h r a).1, (ih _).2.trans (h r a).2⟩

theorem State.ite_limits (c : Prop) [Decidable c] (s t : State) :
    (if c then s else t).warps = (if c then s.warps else t.warps) ∧
      (if c then s else t).sec.revoked = if c then s.sec.revoked else t.sec.revoked := by
  split <;> exact ⟨rfl, rfl⟩

theorem State.foldl_keeps {α : Type} {f : State → α → State} (h : ∀ (s : State) (a : α), s.Keeps (f s a)) (l : List α) {s t : State}
    (ht : s.Keeps t) : s.Keeps (l.foldl f t) := by
  induction l generalizing t with
  | nil => exact ht
  | cons a l ih => exact ih (ht.trans (h t a))

end Sys2Proof.Machine
end

section
/-! SUPPORT. Obligation O34, changes of neither the warps nor REVOKED: the operations on the rest of the state, and the events made of them. -/

namespace Sys2Proof.Machine

/-! ### Memory -/

@[simp] theorem State.putCells_sameLimits (s : State) (cs : List (Nat × Byte × Option MCls)) : s.SameLimits (s.putCells cs) := by
  unfold State.putCells
  exact State.foldl_sameLimits (fun _ _ => by simp) _ _

/-! ### Operations on the state -/

@[simp] theorem State.updGrid_sameLimits (s : State) (g : Nat) (f : Grid → Grid) : s.SameLimits (s.updGrid g f) := ⟨rfl, rfl⟩

@[simp] theorem State.updStack_sameLimits (s : State) (k : Nat) (f : Stack → Stack) : s.SameLimits (s.updStack k f) := ⟨rfl, rfl⟩

@[simp] theorem State.noteBeat_sameLimits (s : State) (t beat : Nat) (core : Option Nat) : s.SameLimits (s.noteBeat t beat core) := ⟨rfl, rfl⟩

@[simp] theorem State.sawBad_sameLimits (s : State) (as : List Nat) : s.SameLimits (s.sawBad as) := by
  unfold State.sawBad
  exact State.foldl_sameLimits (fun _ _ => by simp) _ _

@[simp] theorem State.takeSlot_sameLimits (s : State) (core beat arr : Nat) : s.SameLimits (s.takeSlot core beat arr).2 := ⟨rfl, rfl⟩

@[simp] theorem State.takeBeats_sameLimits (s : State) (core arr : Nat) (beats : List Nat) : s.SameLimits (s.takeBeats core arr beats).2 := by
  unfold State.takeBeats
  exact State.foldl_snd_sameLimits (fun _ _ => by simp) _ (0, s)

@[simp] theorem State.takePool_sameLimits (s : State) (pa t : Nat) : s.SameLimits (s.takePool pa t).2 := ⟨rfl, rfl⟩

@[simp] theorem State.post_sameLimits (s : State) (lock : Option Nat) (what : Nat) : s.SameLimits (s.post lock what) := ⟨rfl, rfl⟩

@[simp] theorem State.askPool_sameLimits (s : State) (r : PoolReq) : s.SameLimits (s.askPool r) := ⟨rfl, rfl⟩

@[simp] theorem State.poolWrite_sameLimits (s : State) (wct lq : Nat) (cs : List (Nat × Byte × Option MCls)) :
    s.SameLimits (s.poolWrite wct lq cs) := ⟨rfl, rfl⟩

@[simp] theorem State.placePool_sameLimits (s : State) (r : PoolReq) : s.SameLimits (s.placePool r) := by
  have hbeats : s.SameLimits (r.beats.foldl (fun (a : Nat × State) b => let (v, s) := a.2.takePool (b * 64) s.gtc; (max a.1 v, s)) (0, s)).2 :=
    State.foldl_snd_sameLimits (fun _ _ => by simp) _ (0, s)
  unfold State.placePool
  simp only [State.SameLimits] at hbeats
  repeat' split
  all_goals simp_all

@[simp] theorem State.settlePools_sameLimits (s : State) : s.SameLimits s.settlePools := by
  unfold State.settlePools
  exact State.foldl_sameLimits (fun _ _ => by simp) _ _

@[simp] theorem State.sawWalks_sameLimits (s : State) (part : Nat) (vas : List Nat) : s.SameLimits (s.sawWalks part vas) := by
  unfold State.sawWalks
  simp

@[simp] theorem State.sawVas_sameLimits (s : State) (part : Nat) (vas : List Nat) : s.SameLimits (s.sawVas part vas) := by
  unfold State.sawVas
  simp

@[simp] theorem State.stopGrid_sameLimits (s : State) (g code : Nat) : s.SameLimits (s.stopGrid g code) := ⟨rfl, rfl⟩

@[simp] theorem State.drawn_sameLimits (s : State) (f : Nat → Nat) : s.SameLimits (s.drawn f).2 := ⟨rfl, rfl⟩

/-! ### Operands -/

@[simp] theorem State.slip_sameLimits (s : State) (key : Nat) : s.SameLimits (s.slip key) := ⟨rfl, rfl⟩

@[simp] theorem Ctx.countEcc_sameLimits (c : Ctx) (s : State) (t : Trap) : s.SameLimits (c.countEcc s t) := by
  unfold Ctx.countEcc
  simp [State.ite_limits]

/-! ### Grids -/

@[simp] theorem State.dropGrid_sameLimits (s : State) (gid : Nat) (st : Status) : s.SameLimits (s.dropGrid gid st) := ⟨rfl, rfl⟩

@[simp] theorem State.endStager_sameLimits (s : State) (gid : Nat) : s.SameLimits (s.endStager gid) := by
  unfold State.endStager
  simp [State.ite_limits]

@[simp] theorem State.sweepGrids_sameLimits (s : State) : s.SameLimits s.sweepGrids := ⟨rfl, rfl⟩

/-! ### The package and its supplies -/

@[simp] theorem State.updPkg_sameLimits (s : State) (f : Package → Package) : s.SameLimits (s.updPkg f) := ⟨rfl, rfl⟩

@[simp] theorem State.updFw_sameLimits (s : State) (f : Firmware → Firmware) : s.SameLimits (s.updFw f) := ⟨rfl, rfl⟩

@[simp] theorem State.updLink_sameLimits (s : State) (f : Link → Link) : s.SameLimits (s.updLink f) := ⟨rfl, rfl⟩

@[simp] theorem State.updTime_sameLimits (s : State) (f : TimeUnit → TimeUnit) : s.SameLimits (s.updTime f) := ⟨rfl, rfl⟩

@[simp] theorem State.updSched_sameLimits (s : State) (f : Sched → Sched) : s.SameLimits (s.updSched f) := ⟨rfl, rfl⟩

@[simp] theorem State.updSec_limits (s : State) (f : Security → Security) : (s.updSec f).warps = s.warps ∧ (s.updSec f).sec = f s.sec := ⟨rfl, rfl⟩

@[simp] theorem State.updPort_sameLimits (s : State) (p : Nat) (f : Port → Port) : s.SameLimits (s.updPort p f) := ⟨rfl, rfl⟩

@[simp] theorem State.onLive_keepsIn (s : State) {f : State → Out} (h : ∀ s : State, s.KeepsIn (f s)) : s.KeepsIn (s.onLive f) := by
  unfold State.onLive
  split
  · exact h s
  · simp

@[simp] theorem State.droopReset_sameLimits (s : State) : s.SameLimits s.droopReset := ⟨rfl, rfl⟩

@[simp] theorem execRailDroop_keepsIn (monitor past : BitVec 10) (s : State) : s.KeepsIn (execRailDroop monitor past s) := by
  unfold execRailDroop
  simp

@[simp] theorem State.droopStop_sameLimits (s : State) : s.SameLimits s.droopStop := by
  unfold State.droopStop
  simp [State.ite_limits]

@[simp] theorem State.setTemp_sameLimits (s : State) (temp : Nat) : s.SameLimits (s.setTemp temp) := ⟨rfl, rfl⟩

@[simp] theorem execOvertempAlert_keepsIn (s : State) : s.KeepsIn (execOvertempAlert s) := by
  unfold execOvertempAlert
  simp

@[simp] theorem execThermtrip_keepsIn (s : State) : s.KeepsIn (execThermtrip s) := by
  unfold execThermtrip
  simp

@[simp] theorem State.endIde_sameLimits (s : State) : s.SameLimits s.endIde := ⟨rfl, rfl⟩

@[simp] theorem execPerstAssert_keepsIn (s : State) : s.KeepsIn (execPerstAssert s) := by
  unfold execPerstAssert
  simp

@[simp] theorem execPerstDeassert_keepsIn (s : State) : s.KeepsIn (execPerstDeassert s) := by
  unfold execPerstDeassert
  simp

@[simp] theorem State.refetch_sameLimits (s : State) : s.SameLimits s.refetch := ⟨rfl, rfl⟩

@[simp] theorem execBusMasterEnable_keepsIn (s : State) : s.KeepsIn (execBusMasterEnable s) := by
  unfold execBusMasterEnable
  simp [State.ite_limits]

@[simp] theorem execD3hotEntry_keepsIn (s : State) : s.KeepsIn (execD3hotEntry s) := by
  unfold execD3hotEntry
  simp

@[simp] theorem execD0Entry_keepsIn (s : State) : s.KeepsIn (execD0Entry s) := by
  unfold execD0Entry
  simp

@[simp] theorem execRef10m_keepsIn (present : Bool) (s : State) : s.KeepsIn (execRef10m present s) := by
  unfold execRef10m
  simp

/-! ### Bring-up and firmware -/

@[simp] theorem State.bringupFail_sameLimits (s : State) (code : Nat) : s.SameLimits (s.bringupFail code) := ⟨rfl, rfl⟩

@[simp] theorem State.runFw_sameLimits (s : State) (a : Nat) (slot : Bool) : s.SameLimits (s.runFw a slot) := ⟨rfl, rfl⟩

@[simp] theorem State.startFw_sameLimits (s : State) (a : Nat) (slot : Bool) : s.SameLimits (s.startFw a slot) := ⟨rfl, rfl⟩

@[simp] theorem State.enterPhase5_sameLimits (s : State) : s.SameLimits s.enterPhase5 := ⟨rfl, rfl⟩

@[simp] theorem execRomBoot_keepsIn (s : State) : s.KeepsIn (execRomBoot s) := by
  unfold execRomBoot
  simp

@[simp] theorem execPllLock_keepsIn (s : State) : s.KeepsIn (execPllLock s) := by
  unfold execPllLock
  simp

@[simp] theorem State.joinPod_sameLimits (s : State) (j : PodJoin) : s.SameLimits (s.joinPod j) := by
  unfold State.joinPod
  exact State.foldl_sameLimits (fun _ _ => by simp) _ _

@[simp] theorem execTuningAndTrainingDone_keepsIn (failedPorts : BitVec 16) (stacksOk : BitVec 8) (join : PodJoin) (s : State) :
    s.KeepsIn (execTuningAndTrainingDone failedPorts stacksOk join s) := by
  unfold execTuningAndTrainingDone
  split
  · simp
  · dsimp only
    split <;> simp [State.foldl_sameLimits, State.ite_limits]

@[simp] theorem execMemoryInitDone_keepsIn (readBackUe : Bool) (s : State) : s.KeepsIn (execMemoryInitDone readBackUe s) := by
  unfold execMemoryInitDone
  simp

@[simp] theorem execBringupPhaseTimeout_keepsIn (s : State) : s.KeepsIn (execBringupPhaseTimeout s) := by
  unfold execBringupPhaseTimeout
  simp

@[simp] theorem execGtcDisciplineTimeout_keepsIn (s : State) : s.KeepsIn (execGtcDisciplineTimeout s) := by
  unfold execGtcDisciplineTimeout
  simp

@[simp] theorem State.deliverRecords_sameLimits (s : State) : s.SameLimits s.deliverRecords := by
  unfold State.deliverRecords
  simp [State.ite_limits]

@[simp] theorem State.reply_sameLimits (s : State) (r : Reply) : s.SameLimits (s.reply r) := ⟨rfl, rfl⟩

@[simp] theorem State.onSmb_keepsIn (s : State) (addr : BitVec 7) {f : State → State} (h : ∀ s : State, s.Keeps (f s)) :
    s.KeepsIn (s.onSmb addr f) := by
  unfold State.onSmb
  split
  · simp [h]
  · simp

@[simp] theorem execRecoveryStatus_keepsIn (addr : BitVec 7) (code : BitVec 8) (s : State) : s.KeepsIn (execRecoveryStatus addr code s) := by
  unfold execRecoveryStatus
  simp

@[simp] theorem execRecoveryBlockWrite_keepsIn (addr : BitVec 7) (pecOk : Bool) (offset : Nat) (data : List Byte) (s : State) :
    s.KeepsIn (execRecoveryBlockWrite addr pecOk offset data s) := by
  unfold execRecoveryBlockWrite
  simp

@[simp] theorem execImageDone_keepsIn (addr : BitVec 7) (pecOk : Bool) (s : State) : s.KeepsIn (execImageDone addr pecOk s) := by
  unfold execImageDone
  simp

@[simp] theorem State.dropRecovery_sameLimits (s : State) (st : Nat) : s.SameLimits (s.dropRecovery st) := ⟨rfl, rfl⟩

@[simp] theorem execAbort_keepsIn (addr : BitVec 7) (pecOk : Bool) (s : State) : s.KeepsIn (execAbort addr pecOk s) := by
  unfold execAbort
  simp

@[simp] theorem execRecoveryVerifyDone_keepsIn (s : State) : s.KeepsIn (execRecoveryVerifyDone s) := by
  unfold execRecoveryVerifyDone
  simp

@[simp] theorem execFwEventTake_keepsIn (s : State) : s.KeepsIn (execFwEventTake s) := by
  unfold execFwEventTake
  split <;> simp

@[simp] theorem State.ringTimers_sameLimits (s : State) : s.SameLimits s.ringTimers := by
  unfold State.ringTimers
  simp [State.foldl_sameLimits, State.ite_limits]

@[simp] theorem execVerify_keepsIn (s : State) : s.KeepsIn (execVerify s) := by
  unfold execVerify
  simp

@[simp] theorem execFwVerifyDone_keepsIn (s : State) : s.KeepsIn (execFwVerifyDone s) := by
  unfold execFwVerifyDone
  simp

@[simp] theorem execActivate_keepsIn (force : Bool) (s : State) : s.KeepsIn (execActivate force s) := by
  unfold execActivate
  simp

@[simp] theorem execFwActivateDone_keepsIn (s : State) : s.KeepsIn (execFwActivateDone s) := by
  unfold execFwActivateDone
  simp

/-! ### Scratch -/

@[simp] theorem Ctx.write_sameLimits (c : Ctx) (s : State) (wct : Nat) (cells : List (Nat × Byte × Option MCls)) (atoms : List Atom) (ret : AtomRet) :
    s.SameLimits (c.write s wct cells atoms ret) := ⟨rfl, rfl⟩

/-! ### The matrix unit -/

@[simp] theorem Ctx.occupy_sameLimits (c : Ctx) (s : State) (n : Nat) : s.SameLimits (c.occupy s n) := ⟨rfl, rfl⟩

/-! ### Writes -/

@[simp] theorem State.remember_sameLimits (s : State) (as : List Nat) : s.SameLimits (s.remember as) := by
  unfold State.remember
  simp [State.ite_limits]

@[simp] theorem State.atom_sameLimits (s : State) (a : Atom) : s.SameLimits (s.atom a).2.2 := by
  unfold State.atom
  simp

@[simp] theorem State.atoms_sameLimits (s : State) (l : List Atom) : s.SameLimits (s.atoms l).2.2 := by
  unfold State.atoms
  generalize ([] : Tab Word) = t, ([] : Tab MCls) = m
  induction l generalizing s t m with
  | nil => exact ⟨rfl, rfl⟩
  | cons a l ih => simpa using ih (s.atom a).2.2 _ _

@[simp] theorem State.addTo_sameLimits (s : State) (a inc : Nat) : s.SameLimits (s.addTo a inc) := by
  unfold State.addTo
  simp

@[simp] theorem State.putBits_sameLimits (s : State) (c : Nat × Byte × Byte × Option MCls) : s.SameLimits (s.putBits c) := ⟨rfl, rfl⟩

@[simp] theorem State.keepBase_sameLimits (s : State) (as : List Nat) : s.SameLimits (s.keepBase as) := ⟨rfl, rfl⟩

@[simp] theorem State.fillAnswer_sameLimits (s : State) (id : Nat) (old : Word) (m : Option MCls) : s.SameLimits (s.fillAnswer id old m) := ⟨rfl, rfl⟩

@[simp] theorem State.deliverMail_sameLimits (s : State) (m : MailMsg) : s.SameLimits (s.deliverMail m) := by
  unfold State.deliverMail
  split
  · simp
  · split <;> simp

@[simp] theorem State.deliverMails_sameLimits (s : State) (t : Nat) : s.SameLimits (s.deliverMails t) := by
  unfold State.deliverMails
  exact State.foldl_sameLimits (fun _ _ => by simp) _ _

@[simp] theorem State.invariantByte_sameLimits (s : State) (a lo : Nat) : s.SameLimits (s.invariantByte a lo).2 := by
  unfold State.invariantByte
  dsimp only
  split <;> simp

@[simp] theorem State.readBytes_sameLimits (s : State) (as : List Nat) (inv : Bool) (lo : Nat) : s.SameLimits (s.readBytes as inv lo).2 := by
  unfold State.readBytes
  split
  · exact State.foldl_snd_sameLimits (fun _ _ => by simp) _ (_, s)
  · simp

/-! ### HBM -/

@[simp] theorem State.wantFills_sameLimits (s : State) (core part : Nat) (who : Nat × Strm) (pages : List Nat) :
    s.SameLimits (s.wantFills core part who pages) := ⟨rfl, rfl⟩

@[simp] theorem State.retryFills_sameLimits (s : State) (core : Nat) (who : Nat × Strm) : s.SameLimits (s.retryFills core who) := by
  unfold State.retryFills
  simp [State.ite_limits]

/-! ### Synchronisation -/

@[simp] theorem State.schedFault_sameLimits (s : State) (cause : Nat) : s.SameLimits (s.schedFault cause) := by
  unfold State.schedFault
  simp [State.ite_limits]

@[simp] theorem State.lateFault_sameLimits (s : State) (gid : Nat) (g : Grid) : s.SameLimits (s.lateFault gid g) := by
  unfold State.lateFault
  simp [State.ite_limits]

@[simp] theorem State.arriveSet_sameLimits (s : State) (gid : Nat) (g : Grid) (w : Warp) (x : Strm) (set : Nat) :
    s.SameLimits (s.arriveSet gid g w x set) := ⟨rfl, rfl⟩

/-! ### System instructions -/

@[simp] theorem State.recordArrivals_sameLimits (s : State) (gid : Nat) (w : Warp) (x : Strm) (set n : Nat) :
    s.SameLimits (s.recordArrivals gid w x set n) := by
  unfold State.recordArrivals
  exact State.SameLimits.trans (State.updGrid_sameLimits _ _ _) (State.foldl_sameLimits (fun _ _ => by split <;> simp) _ _)

/-! ### Engine commands at work -/

@[simp] theorem State.updCmd_sameLimits (s : State) (ord : Nat) (f : EngCmd → EngCmd) : s.SameLimits (s.updCmd ord f) := ⟨rfl, rfl⟩

@[simp] theorem State.captureCmd_sameLimits (s : State) (c : EngCmd) : s.SameLimits (s.captureCmd c) := by
  unfold State.captureCmd
  split <;> simp [State.ite_limits]

@[simp] theorem State.destSlots_sameLimits (s : State) (ord : Nat) : s.SameLimits (s.destSlots ord) := by
  unfold State.destSlots
  split
  · simp
  · split
    · simp
      exact State.foldl_snd_sameLimits (fun _ _ => by split <;> simp) _ (_, s)
    · simp

@[simp] theorem State.stageColl_sameLimits (s : State) (c : EngCmd) (t : Nat) : s.SameLimits (s.stageColl c t) := ⟨rfl, rfl⟩

@[simp] theorem State.mmvLine_sameLimits (s : State) (line start fin : Nat) : s.SameLimits (s.mmvLine line start fin).2 := by
  unfold State.mmvLine
  dsimp only
  split <;> simp

@[simp] theorem State.mmvB_sameLimits (s : State) (c : EngCmd) (g : Grid) : s.SameLimits (s.mmvB c g).2 := by
  unfold State.mmvB
  simp
  exact State.foldl_snd_sameLimits (fun _ _ => by simp) _ (_, s)

@[simp] theorem State.pruneCmds_sameLimits (s : State) : s.SameLimits s.pruneCmds := ⟨rfl, rfl⟩

/-! ### Registers -/

@[simp] theorem State.updRing_sameLimits (s : State) (i : Nat) (f : Ring → Ring) : s.SameLimits (s.updRing i f) := ⟨rfl, rfl⟩

@[simp] theorem State.updQueue_sameLimits (s : State) (q : Nat) (f : LQueue → LQueue) : s.SameLimits (s.updQueue q f) := ⟨rfl, rfl⟩

@[simp] theorem State.plainWrite_sameLimits (s : State) (o v ones : Nat) : s.SameLimits (s.plainWrite o v ones) := by
  unfold State.plainWrite
  simp [State.ite_limits]

@[simp] theorem State.writeReg_sameLimits (s : State) (size o v : Nat) : s.SameLimits (s.writeReg size o v) := by
  unfold State.writeReg
  simp [State.ite_limits]

@[simp] theorem execRegisterWrite_keepsIn (bar : Fin 3) (size : Nat) (offset : BitVec 26) (val : BitVec 64) (s : State) :
    s.KeepsIn (execRegisterWrite bar size offset val s) := by
  unfold execRegisterWrite
  simp

/-! ### The host's rings and commands -/

@[simp] theorem State.notify_sameLimits (s : State) (c : Cmd) : s.SameLimits (s.notify c) := by
  unfold State.notify
  simp [State.ite_limits]

@[simp] theorem State.journalWrite_sameLimits (s : State) (c : Cmd) (off : Nat) (bs : List Byte) (first : Bool) :
    s.SameLimits (s.journalWrite c off bs first) := ⟨rfl, rfl⟩

@[simp] theorem State.updCommand_sameLimits (s : State) (id : Nat) (f : Cmd → Cmd) : s.SameLimits (s.updCommand id f) := ⟨rfl, rfl⟩

@[simp] theorem State.slotFinal_sameLimits (s : State) : s.SameLimits s.slotFinal := ⟨rfl, rfl⟩

@[simp] theorem State.writeStatus_sameLimits (s : State) (c : Cmd) (st : Status) (code : Nat) : s.SameLimits (s.writeStatus c st code) := by
  unfold State.writeStatus
  simp [State.ite_limits]

@[simp] theorem State.endCmd_sameLimits (s : State) (id : Nat) (st : Status) (code : Nat) : s.SameLimits (s.endCmd id st code) := by
  unfold State.endCmd
  split <;> simp [State.ite_limits]

@[simp] theorem State.rejectQueue_sameLimits (s : State) (q ring code : Nat) : s.SameLimits (s.rejectQueue q ring code) := ⟨rfl, rfl⟩

@[simp] theorem State.wake_sameLimits (s : State) : s.SameLimits s.wake := by
  unfold State.wake
  simp [State.ite_limits]

@[simp] theorem execDoorbell_keepsIn (ring : Fin 1024) (tail : BitVec 32) (s : State) : s.KeepsIn (execDoorbell ring tail s) := by
  unfold execDoorbell
  simp

@[simp] theorem execPacketFetch_keepsIn (ring : Fin 1024) (pkt : Packet) (s : State) : s.KeepsIn (execPacketFetch ring pkt s) := by
  unfold execPacketFetch
  simp

@[simp] theorem execRingCfgWrite_keepsIn (ring : Fin 1024) (val : BitVec 32) (s : State) : s.KeepsIn (execRingCfgWrite ring val s) := by
  unfold execRingCfgWrite
  simp

@[simp] theorem State.attach_sameLimits (s : State) (gid : Nat) (c : LaunchCopy) : s.SameLimits (s.attach gid c) := ⟨rfl, rfl⟩

@[simp] theorem State.addGrid_sameLimits (s : State) (part lq prio : Nat) (p : Packet) (cmd : Option Nat) :
    s.SameLimits (s.addGrid part lq prio p cmd).2 := by
  unfold State.addGrid
  dsimp only
  repeat' split
  all_goals simp

@[simp] theorem execPacketTake_keepsIn (lq : Fin 64) (s : State) : s.KeepsIn (execPacketTake lq s) := by
  unfold execPacketTake
  dsimp only
  repeat' split
  all_goals simp

@[simp] theorem State.dispatchCmd_sameLimits (s : State) (id : Nat) (c : Cmd) : s.SameLimits (s.dispatchCmd id c) := by
  unfold State.dispatchCmd
  simp [State.ite_limits]

@[simp] theorem execMergeCfgWrite_keepsIn (lq : Fin 64) (val : BitVec 32) (s : State) : s.KeepsIn (execMergeCfgWrite lq val s) := by
  unfold execMergeCfgWrite
  refine State.onLive_keepsIn _ fun s => State.keepsIn_next.2 (State.keeps_of_sameLimits ?_)
  split
  · simp
    exact State.foldl_sameLimits (fun _ _ => by split <;> simp) _ _
  · simp

@[simp] theorem execClear_keepsIn (lq : Fin 64) (s : State) : s.KeepsIn (execClear lq s) := by
  unfold execClear
  simp

@[simp] theorem execJournalCfgWrite_keepsIn (val : BitVec 32) (s : State) : s.KeepsIn (execJournalCfgWrite val s) := by
  unfold execJournalCfgWrite
  simp

@[simp] theorem State.sawHost_sameLimits (s : State) (c : Cmd) (n : Nat) : s.SameLimits (s.sawHost c n) := by
  unfold State.sawHost
  simp

@[simp] theorem State.onCmd_keepsIn (s : State) (id : Nat) {f : Cmd → State} (h : ∀ c, s.Keeps (f c)) : s.KeepsIn (s.onCmd id f) := by
  unfold State.onCmd
  split
  · split
    · exact State.keepsIn_next.2 (h _)
    · simp
  · simp

@[simp] theorem State.endGraph_sameLimits (s : State) (gid : Nat) (st : Status) (code : Nat) : s.SameLimits (s.endGraph gid st code) := by
  unfold State.endGraph
  split <;> simp [State.foldl_sameLimits]

@[simp] theorem State.endNodeCmd_sameLimits (s : State) (id : Nat) (st : Status) (code : Nat) : s.SameLimits (s.endNodeCmd id st code) := by
  unfold State.endNodeCmd
  repeat' split
  all_goals simp

@[simp] theorem execNop_keepsIn (cmd : Nat) (s : State) : s.KeepsIn (execNop cmd s) := by
  unfold execNop
  simp

@[simp] theorem execWait_keepsIn (cmd : Nat) (s : State) : s.KeepsIn (execWait cmd s) := by
  unfold execWait
  exact State.onCmd_keepsIn _ _ fun c => by split <;> simp

@[simp] theorem State.sawWaits_sameLimits (s : State) : s.SameLimits s.sawWaits := by
  unfold State.sawWaits
  simp [State.ite_limits]

@[simp] theorem execWaitSatisfied_keepsIn (s : State) : s.KeepsIn (execWaitSatisfied s) := by
  unfold execWaitSatisfied
  simp [State.foldl_sameLimits]

@[simp] theorem execWaitWatchdog_keepsIn (s : State) : s.KeepsIn (execWaitWatchdog s) := by
  unfold execWaitWatchdog
  simp [State.foldl_sameLimits]

@[simp] theorem execWrite_keepsIn (cmd : Nat) (s : State) : s.KeepsIn (execWrite cmd s) := by
  unfold execWrite
  exact State.onCmd_keepsIn _ _ fun c => by split <;> simp

@[simp] theorem execWriteCompletion_keepsIn (s : State) : s.KeepsIn (execWriteCompletion s) := by
  unfold execWriteCompletion
  simp [State.foldl_sameLimits]

@[simp] theorem State.stageNodes_sameLimits (s : State) (id : Nat) (c : Cmd) : s.SameLimits (s.stageNodes id c) := by
  unfold State.stageNodes
  exact State.foldl_sameLimits (fun _ _ => by split <;> simp) _ _

@[simp] theorem State.dispatchNode_sameLimits (s : State) (gid : Nat) (g : Cmd) : s.SameLimits (s.dispatchNode gid g) := by
  unfold State.dispatchNode
  split <;> simp

@[simp] theorem execGraph_keepsIn (cmd : Nat) (s : State) : s.KeepsIn (execGraph cmd s) := by
  unfold execGraph
  exact State.onCmd_keepsIn _ _ fun c => by simp [State.foldl_sameLimits]

@[simp] theorem execDispatch_keepsIn (lq : Fin 64) (s : State) : s.KeepsIn (execDispatch lq s) := by
  unfold execDispatch
  dsimp only
  repeat' split
  all_goals simp

@[simp] theorem execCond_keepsIn (cmd : Nat) (s : State) : s.KeepsIn (execCond cmd s) := by
  unfold execCond
  exact State.onCmd_keepsIn _ _ fun c => by split <;> simp

@[simp] theorem execLoop_keepsIn (cmd : Nat) (s : State) : s.KeepsIn (execLoop cmd s) := by
  unfold execLoop
  exact State.onCmd_keepsIn _ _ fun c => by split <;> simp

@[simp] theorem execEndNode_keepsIn (cmd : Nat) (s : State) : s.KeepsIn (execEndNode cmd s) := by
  unfold execEndNode
  exact State.onCmd_keepsIn _ _ fun c => by split <;> simp

/-! ### Launches -/

@[simp] theorem State.preemptDone_sameLimits (s : State) (gid : Nat) : s.SameLimits (s.preemptDone gid) := by
  unfold State.preemptDone
  exact State.foldl_sameLimits (fun _ _ => by simp [State.ite_limits]) _ _

@[simp] theorem State.settleImages_sameLimits (s : State) (gid : Nat) (g : Grid) (st : Status) (code : Nat) :
    s.SameLimits (s.settleImages gid g st code) := ⟨rfl, rfl⟩

theorem State.openStaging_sameLimits (s : State) (gid : Nat) (g : Grid) {t : State} (h : s.openStaging gid g = some t) : s.SameLimits t := by
  unfold State.openStaging at h
  obtain ⟨l, -, rfl⟩ := Option.map_eq_some_iff.1 h
  simp

@[simp] theorem State.stagingBeats_sameLimits (s : State) (part : Nat) (vas : List Nat) : s.SameLimits (s.stagingBeats part vas) := by
  unfold State.stagingBeats
  simp [State.foldl_sameLimits]

@[simp] theorem State.moveStaging_sameLimits (s : State) (gid : Nat) (g : Grid) : s.SameLimits (s.moveStaging gid g) := by
  unfold State.moveStaging
  simp

@[simp] theorem execStaging_keepsIn (s : State) : s.KeepsIn (execStaging s) := by
  unfold execStaging
  split
  · simp
  · split
    · simp
    · split
      · simp
      · rename_i t ht
        have h := State.openStaging_sameLimits _ _ _ ht
        split <;> simp_all

@[simp] theorem State.checkGrid_sameLimits (s : State) (gid : Nat) (g : Grid) : s.SameLimits (s.checkGrid gid g) := ⟨rfl, rfl⟩

@[simp] theorem State.adopt_sameLimits (s : State) (gid sid : Nat) (g : Grid) : s.SameLimits (s.adopt gid sid g) := ⟨rfl, rfl⟩

@[simp] theorem State.launchGrid_sameLimits (s : State) (id : Nat) (c : Cmd) : s.SameLimits (s.launchGrid id c).2 := by
  unfold State.launchGrid
  dsimp only
  repeat' split
  all_goals simp

@[simp] theorem execResumeImageWrite_keepsIn (grid : Nat) (s : State) : s.KeepsIn (execResumeImageWrite grid s) := by
  unfold execResumeImageWrite
  repeat' split
  all_goals simp [State.foldl_sameLimits]

@[simp] theorem State.dropKilled_sameLimits (s : State) : s.SameLimits s.dropKilled := ⟨rfl, rfl⟩

@[simp] theorem State.killCmds_sameLimits (s : State) (gid : Nat) : s.SameLimits (s.killCmds gid) := by
  unfold State.killCmds
  simp [State.ite_limits]

/-! ### Placement -/

@[simp] theorem State.clearScratch_sameLimits (s : State) (core lo n : Nat) : s.SameLimits (s.clearScratch core lo n) := ⟨rfl, rfl⟩

@[simp] theorem State.place_sameLimits (s : State) (gid : Nat) (g : Grid) (j first : Nat) (bank : Nat) (blocks : List (Nat × Nat × Nat)) :
    s.SameLimits (s.place gid g j first bank blocks) := by
  unfold State.place
  simp [State.ite_limits]

theorem State.placeOne_sameLimits (s : State) (gid j first : Nat) {t : State} (h : s.placeOne gid j first = some t) : s.SameLimits t := by
  unfold State.placeOne at h
  obtain ⟨g, -, hg⟩ := Option.bind_eq_some_iff.1 h
  obtain ⟨r, -, rfl⟩ := Option.map_eq_some_iff.1 hg
  simp

/-- What is placed for a pending placement is one position after another. -/
theorem State.foldl_bind_sameLimits {α : Type} {f : α → State → Option State} (h : ∀ a s t, f a s = some t → s.SameLimits t)
    (l : List α) {s t : State} (ht : l.foldl (fun r a => r.bind (f a)) (some s) = some t) : s.SameLimits t := by
  induction l generalizing s with
  | nil => exact Option.some.inj ht ▸ ⟨rfl, rfl⟩
  | cons a l ih =>
    rw [List.foldl_cons, Option.bind_some] at ht
    cases hs : f a s with
    | none =>
      have hnone : ∀ l : List α, l.foldl (fun r a => r.bind (f a)) none = none := fun l => by induction l <;> simp_all
      rw [hs, hnone] at ht
      exact absurd ht (by simp)
    | some u => exact (h a s u hs).trans (ih (hs ▸ ht))

theorem State.placeAll_sameLimits (s : State) (u : Pending) {t : State} (h : s.placeAll u = some t) : s.SameLimits t :=
  State.foldl_bind_sameLimits (fun _ s _ => s.placeOne_sameLimits _ _ _) _ h

@[simp] theorem execPlacement_keepsIn (s : State) : s.KeepsIn (execPlacement s) := by
  unfold execPlacement
  split
  · rename_i h
    exact State.keepsIn_next.2 (State.keeps_of_sameLimits (s.placeAll_sameLimits _ (State.placeAll_of_nextPlace h)))
  · simp

@[simp] theorem execResourceRelease_keepsIn (grid pos : Nat) (s : State) : s.KeepsIn (execResourceRelease grid pos s) := by
  unfold execResourceRelease
  split
  · simp
  · split <;> simp

/-! ### The pod schedule -/

/-- SCHED_LOAD reads its image (R66, R86): a pool request for each beat that can be translated. -/
@[simp] theorem execSchedLoad_keepsIn (cmd : Nat) (s : State) : s.KeepsIn (execSchedLoad cmd s) := by
  unfold execSchedLoad
  refine State.onCmd_keepsIn _ _ fun c => ?_
  dsimp only
  split
  · simp
  · refine State.keeps_of_sameLimits ?_
    simp only [State.SameLimits, State.updCommand_sameLimits, State.drawn_sameLimits]
    exact State.SameLimits.trans (State.sawWalks_sameLimits s _ _) (State.foldl_sameLimits (fun _ _ => by split <;> simp) _ _)

@[simp] theorem execSchedLoadDone_keepsIn (cmd : Nat) (s : State) : s.KeepsIn (execSchedLoadDone cmd s) := by
  unfold execSchedLoadDone
  dsimp only
  repeat' split
  all_goals simp

@[simp] theorem execSchedActivate_keepsIn (cmd : Nat) (s : State) : s.KeepsIn (execSchedActivate cmd s) := by
  unfold execSchedActivate
  simp

@[simp] theorem execActivationTakesEffect_keepsIn (s : State) : s.KeepsIn (execActivationTakesEffect s) := by
  unfold execActivationTakesEffect
  simp [State.foldl_sameLimits]

@[simp] theorem execEnterAgree_keepsIn (s : State) : s.KeepsIn (execEnterAgree s) := by
  unfold execEnterAgree
  simp

@[simp] theorem execEnterRealign_keepsIn (s : State) : s.KeepsIn (execEnterRealign s) := by
  unfold execEnterRealign
  simp

@[simp] theorem execDeviceHoldEnd_keepsIn (s : State) : s.KeepsIn (execDeviceHoldEnd s) := by
  unfold execDeviceHoldEnd
  simp

@[simp] theorem State.relaunch_sameLimits (s : State) (base period : Nat) (i : StoredImage) : s.SameLimits (s.relaunch base period i) := ⟨rfl, rfl⟩

@[simp] theorem execResumeRun_keepsIn (s : State) : s.KeepsIn (execResumeRun s) := by
  unfold execResumeRun
  split <;> simp [State.foldl_sameLimits]

@[simp] theorem State.boundaryOf_sameLimits (s : State) (gid : Nat) (g : Grid) : s.SameLimits (s.boundaryOf gid g) := by
  unfold State.boundaryOf
  dsimp only
  split <;> simp [State.foldl_sameLimits]

@[simp] theorem execBoundaryImage_keepsIn (s : State) : s.KeepsIn (execBoundaryImage s) := by
  unfold execBoundaryImage
  split <;> simp [State.foldl_sameLimits]

/-! ### Time -/

@[simp] theorem State.timeFaulted_sameLimits (s : State) : s.SameLimits s.timeFaulted := by
  unfold State.timeFaulted
  simp

@[simp] theorem State.servo_sameLimits (s : State) (o : Int) : s.SameLimits (s.servo o) := by
  unfold State.servo
  simp [State.ite_limits]

@[simp] theorem State.heard_sameLimits (s : State) (m : PtpMsg) : s.SameLimits (s.heard m) := ⟨rfl, rfl⟩

@[simp] theorem State.startTime_sameLimits (s : State) (now : Nat) : s.SameLimits (s.startTime now) := ⟨rfl, rfl⟩

@[simp] theorem execPtpMessage_keepsIn (msg : PtpMsg) (s : State) : s.KeepsIn (execPtpMessage msg s) := by
  unfold execPtpMessage
  simp [State.ite_limits]

@[simp] theorem execPpsIn_keepsIn (within : Bool) (s : State) : s.KeepsIn (execPpsIn within s) := by
  unfold execPpsIn
  simp

@[simp] theorem execPpsOut_keepsIn (s : State) : s.KeepsIn (execPpsOut s) := by
  unfold execPpsOut
  simp

@[simp] theorem execTimeCfgWrite_keepsIn (val : BitVec 32) (s : State) : s.KeepsIn (execTimeCfgWrite val s) := by
  unfold execTimeCfgWrite
  simp

@[simp] theorem execTimeFaultTimeout_keepsIn (s : State) : s.KeepsIn (execTimeFaultTimeout s) := by
  unfold execTimeFaultTimeout
  simp

@[simp] theorem execHoldover_keepsIn (s : State) : s.KeepsIn (execHoldover s) := by
  unfold execHoldover
  simp

@[simp] theorem execPortLock_keepsIn (port : Fin 16) (tau16 : Nat) (s : State) : s.KeepsIn (execPortLock port tau16 s) := by
  unfold execPortLock
  simp

/-! ### The fabric -/

@[simp] theorem execPortDark_keepsIn (port : Fin 16) (s : State) : s.KeepsIn (execPortDark port s) := by
  unfold execPortDark
  simp

@[simp] theorem execPortDead_keepsIn (port : Fin 16) (s : State) : s.KeepsIn (execPortDead port s) := by
  unfold execPortDead
  simp

@[simp] theorem State.sendStaged_sameLimits (s : State) (r : Run) : s.SameLimits (s.sendStaged r).2 := by
  unfold State.sendStaged
  dsimp only
  repeat' split
  all_goals simp

@[simp] theorem State.answerBy_sameLimits (s : State) (r : Run) (pos t : Nat) : s.SameLimits (s.answerBy r pos t).2 := by
  unfold State.answerBy
  split <;> simp

@[simp] theorem State.sendNow_sameLimits (s : State) (port pos : Nat) : s.SameLimits (s.sendNow port pos) := ⟨rfl, rfl⟩

@[simp] theorem execControlRecord_keepsIn (s : State) : s.KeepsIn (execControlRecord s) := by
  unfold execControlRecord
  split <;> simp [State.foldl_sameLimits, State.ite_limits]

@[simp] theorem execRelay_keepsIn (port : Fin 16) (pos : Nat) (s : State) : s.KeepsIn (execRelay port pos s) := by
  unfold execRelay
  dsimp only
  split <;> simp [State.ite_limits]

@[simp] theorem execReplay_keepsIn (port : Fin 16) (pos : Nat) (s : State) : s.KeepsIn (execReplay port pos s) := by
  unfold execReplay
  dsimp only
  split <;> simp

@[simp] theorem State.lose_sameLimits (s : State) (port leaf : Nat) : s.SameLimits (s.lose port leaf) := by
  unfold State.lose
  simp [State.ite_limits]

@[simp] theorem State.readBundle_sameLimits (s : State) (port : Fin 16) (pos : Nat) (poison : Bool) (bs : List Byte) :
    s.SameLimits (s.readBundle port pos poison bs) := by
  unfold State.readBundle
  simp [State.ite_limits]

@[simp] theorem execBundleReceive_keepsIn (port : Fin 16) (pos : Nat) (rx : RxBundle) (s : State) : s.KeepsIn (execBundleReceive port pos rx s) := by
  unfold execBundleReceive
  dsimp only
  repeat' split
  all_goals simp

@[simp] theorem execControlRecordReceive_keepsIn (port : Fin 16) (rec : CtrlRecord) (s : State) :
    s.KeepsIn (execControlRecordReceive port rec s) := by
  unfold execControlRecordReceive
  dsimp only
  repeat' split
  all_goals simp

@[simp] theorem State.landed_sameLimits (s : State) (port pos leaf : Nat) : s.SameLimits (s.landed port pos leaf).2 := by
  unfold State.landed
  dsimp only
  split <;> simp [State.ite_limits]

@[simp] theorem State.answer_sameLimits (s : State) (dest desc : Nat) (data : List Byte) (poisoned : Bool) :
    s.SameLimits (s.answer dest desc data poisoned) := ⟨rfl, rfl⟩

@[simp] theorem State.answerGet_sameLimits (s : State) (dest desc : Nat) (as : List Nat) : s.SameLimits (s.answerGet dest desc as) := ⟨rfl, rfl⟩

@[simp] theorem State.answerAtom_sameLimits (s : State) (dest desc : Nat) : s.SameLimits (s.answerAtom dest desc) := ⟨rfl, rfl⟩

@[simp] theorem State.fetchGets_sameLimits (s : State) : s.SameLimits s.fetchGets := ⟨rfl, rfl⟩

@[simp] theorem State.sendCommand_sameLimits (s : State) (c : EngCmd) : s.SameLimits (s.sendCommand c) := by
  unfold State.sendCommand
  simp [State.ite_limits]

@[simp] theorem State.fabricReads_sameLimits (s : State) : s.SameLimits s.fabricReads := by
  unfold State.fabricReads
  exact State.foldl_sameLimits (fun _ _ => by split <;> simp [State.ite_limits]) _ _

@[simp] theorem execKeyRotation_keepsIn (port : Fin 512) (tx : Bool) (counter : Nat) (s : State) : s.KeepsIn (execKeyRotation port tx counter s) := by
  unfold execKeyRotation
  simp

/-! ### Starts of engine commands -/

@[simp] theorem State.sourceSlots_sameLimits (s : State) (c : EngCmd) (p : Plan) : s.SameLimits (s.sourceSlots c p).2 := by
  unfold State.sourceSlots
  exact State.foldl_snd_sameLimits (fun _ _ => by simp) _ (_, s)

@[simp] theorem State.startCount_sameLimits (s : State) (c : EngCmd) : s.SameLimits (s.startCount c) := ⟨rfl, rfl⟩

@[simp] theorem State.startLaunch_sameLimits (s : State) (c : EngCmd) (g : Grid) : s.SameLimits (s.startLaunch c g) := ⟨rfl, rfl⟩

/-! ### Slack windows of the HBM -/

@[simp] theorem State.stackFault_sameLimits (s : State) (k cause : Nat) : s.SameLimits (s.stackFault k cause) := by
  unfold State.stackFault
  simp

@[simp] theorem State.addCandidate_sameLimits (s : State) (k bank row : Nat) : s.SameLimits (s.addCandidate k bank row) := by
  unfold State.addCandidate
  simp [State.ite_limits]

@[simp] theorem State.countActivate_sameLimits (s : State) (k bank row : Nat) : s.SameLimits (s.countActivate k bank row) := by
  unfold State.countActivate
  simp [State.ite_limits]

@[simp] theorem State.openRow_sameLimits (s : State) (k bank row mask : Nat) : s.SameLimits (s.openRow k bank row mask) := by
  unfold State.openRow
  dsimp only
  split <;> simp [State.ite_limits]

@[simp] theorem State.serveBeats_sameLimits (s : State) : s.SameLimits s.serveBeats := by
  unfold State.serveBeats
  exact State.foldl_sameLimits (fun _ _ => by simp) _ _

@[simp] theorem State.loseBeat_sameLimits (s : State) (pa : Nat) : s.SameLimits (s.loseBeat pa) := by
  unfold State.loseBeat
  simp

@[simp] theorem State.addRetry_sameLimits (s : State) (pa : Nat) : s.SameLimits (s.addRetry pa) := by
  unfold State.addRetry
  simp [State.ite_limits]

@[simp] theorem State.uncorrectable_sameLimits (s : State) (pa : Nat) : s.SameLimits (s.uncorrectable pa) := by
  unfold State.uncorrectable
  simp

@[simp] theorem State.recovered_sameLimits (s : State) (pa : Nat) : s.SameLimits (s.recovered pa) := ⟨rfl, rfl⟩

@[simp] theorem State.refreshed_sameLimits (s : State) (pa : Nat) : s.SameLimits (s.refreshed pa) := by
  unfold State.refreshed
  simp [State.ite_limits]

@[simp] theorem State.hbmNote_sameLimits (s : State) (n : HbmNote) : s.SameLimits (s.hbmNote n) := by
  unfold State.hbmNote
  split <;> simp [State.ite_limits]

@[simp] theorem State.swapRow_sameLimits (s : State) (k : Nat) (c : Nat × Nat) : s.SameLimits (s.swapRow k c) := ⟨rfl, rfl⟩

@[simp] theorem State.reread_sameLimits (s : State) (k beat : Nat) : s.SameLimits (s.reread k beat) := by
  unfold State.reread
  simp [State.ite_limits]

@[simp] theorem State.bandStack_sameLimits (s : State) (band k : Nat) : s.SameLimits (s.bandStack band k) := ⟨rfl, rfl⟩

@[simp] theorem State.refreshStack_sameLimits (s : State) (k : Nat) : s.SameLimits (s.refreshStack k) := by
  unfold State.refreshStack
  simp [State.foldl_sameLimits, State.ite_limits]

@[simp] theorem State.swapStack_sameLimits (s : State) (k : Nat) : s.SameLimits (s.swapStack k) := by
  unfold State.swapStack
  split <;> simp [State.foldl_sameLimits]

@[simp] theorem State.retryStack_sameLimits (s : State) (failed : List Nat) (k : Nat) : s.SameLimits (s.retryStack failed k) := ⟨rfl, rfl⟩

@[simp] theorem State.windowOf_sameLimits (s : State) (phase band : Nat) (failed : List Nat) (k : Nat) :
    s.SameLimits (s.windowOf phase band failed k) := by
  unfold State.windowOf
  simp [State.ite_limits]

@[simp] theorem execSlackWindow_keepsIn (temp : Nat) (notes : List HbmNote) (s : State) : s.KeepsIn (execSlackWindow temp notes s) := by
  unfold execSlackWindow
  split
  · simp
  · dsimp only
    split <;> simp [State.foldl_sameLimits]

/-! ### Page walks -/

@[simp] theorem State.countLatent_sameLimits (s : State) : s.SameLimits s.countLatent := by
  unfold State.countLatent
  simp [State.ite_limits]

@[simp] theorem execMailboxDelivery_keepsIn (s : State) : s.KeepsIn (execMailboxDelivery s) := by
  unfold execMailboxDelivery
  simp

@[simp] theorem State.readLevel_sameLimits (s : State) (core part page level table : Nat) :
    s.SameLimits (s.readLevel core part page level table) := ⟨rfl, rfl⟩

@[simp] theorem State.startWalk_sameLimits (s : State) (core n : Nat) : s.SameLimits (s.startWalk core n) := by
  induction n generalizing s with
  | zero => exact ⟨rfl, rfl⟩
  | succ n ih =>
    unfold State.startWalk
    split
    · simp
    · split
      · simp
      · split
        · simp
        · exact ih _

@[simp] theorem State.topUpFills_sameLimits (s : State) : s.SameLimits s.topUpFills := by
  unfold State.topUpFills
  exact State.foldl_sameLimits (fun _ _ => by
    split
    · split <;> simp
    · simp) _ _

@[simp] theorem State.startWalks_sameLimits (s : State) : s.SameLimits s.startWalks := by
  unfold State.startWalks
  split <;> simp [State.foldl_sameLimits]

@[simp] theorem State.stepWalk_sameLimits (s : State) (core : Nat) (w : Walk) : s.SameLimits (s.stepWalk core w) := by
  unfold State.stepWalk
  dsimp only
  split <;> simp

@[simp] theorem execPageWalkLevel_keepsIn (s : State) : s.KeepsIn (execPageWalkLevel s) := by
  unfold execPageWalkLevel
  simp [State.foldl_sameLimits]

/-! ### Security -/

@[simp] theorem State.updTenant_sameLimits (s : State) (p : Nat) (f : Tenant → Tenant) : s.SameLimits (s.updTenant p f) := ⟨rfl, rfl⟩

@[simp] theorem State.setPtRoot_sameLimits (s : State) (p v : Nat) : s.SameLimits (s.setPtRoot p v) := by
  unfold State.setPtRoot
  simp [State.ite_limits]

@[simp] theorem execPtRootWrite_keepsIn (part : Fin 4) (val : BitVec 64) (s : State) : s.KeepsIn (execPtRootWrite part val s) := by
  unfold execPtRootWrite
  simp

@[simp] theorem State.doe_sameLimits (s : State) (r : Reply) : s.SameLimits (s.doe r) := by
  unfold State.doe
  simp

@[simp] theorem State.onDoe_keepsIn (s : State) {f : State → State} (h : ∀ s : State, s.Keeps (f s)) : s.KeepsIn (s.onDoe f) := by
  unfold State.onDoe
  exact State.onLive_keepsIn s fun s => State.keepsIn_next.2 (h s)

@[simp] theorem State.onSpdm_keepsIn (s : State) (version : BitVec 8) {f : State → State} (h : ∀ s : State, s.Keeps (f s)) :
    s.KeepsIn (s.onSpdm version f) := by
  unfold State.onSpdm
  exact State.onDoe_keepsIn s fun s => by simp [h]

@[simp] theorem State.onSlot_keepsIn (s : State) (version : BitVec 8) (slot : Nat) {f : State → State} (h : ∀ s : State, s.Keeps (f s)) :
    s.KeepsIn (s.onSlot version slot f) := by
  unfold State.onSlot
  exact State.onSpdm_keepsIn s _ fun s => by simp [h]

@[simp] theorem execGetVersion_keepsIn (s : State) : s.KeepsIn (execGetVersion s) := by
  unfold execGetVersion
  simp

@[simp] theorem execGetCapabilities_keepsIn (version : BitVec 8) (s : State) : s.KeepsIn (execGetCapabilities version s) := by
  unfold execGetCapabilities
  simp

@[simp] theorem execNegotiateAlgorithms_keepsIn (version : BitVec 8) (s : State) : s.KeepsIn (execNegotiateAlgorithms version s) := by
  unfold execNegotiateAlgorithms
  simp

@[simp] theorem execGetDigests_keepsIn (version : BitVec 8) (s : State) : s.KeepsIn (execGetDigests version s) := by
  unfold execGetDigests
  simp

@[simp] theorem execGetCertificate_keepsIn (version : BitVec 8) (slot : Nat) (s : State) : s.KeepsIn (execGetCertificate version slot s) := by
  unfold execGetCertificate
  simp

@[simp] theorem execUnsupportedRequest_keepsIn (version : BitVec 8) (s : State) : s.KeepsIn (execUnsupportedRequest version s) := by
  unfold execUnsupportedRequest
  simp

@[simp] theorem State.signed_sameLimits (s : State) (content : List Byte) : s.SameLimits (s.signed content) := by
  unfold State.signed
  simp [State.ite_limits]

@[simp] theorem execChallenge_keepsIn (version : BitVec 8) (slot : Nat) (nonce : BitVec 256) (s : State) :
    s.KeepsIn (execChallenge version slot nonce s) := by
  unfold execChallenge
  simp

@[simp] theorem execGetMeasurements_keepsIn (version : BitVec 8) (slot index : Nat) (signed : Bool) (nonce : BitVec 256) (s : State) :
    s.KeepsIn (execGetMeasurements version slot index signed nonce s) := by
  unfold execGetMeasurements
  simp

@[simp] theorem execKeyExchange_keepsIn (version : BitVec 8) (slot : Nat) (share : BitVec 768) (s : State) :
    s.KeepsIn (execKeyExchange version slot share s) := by
  unfold execKeyExchange
  simp

@[simp] theorem execFinish_keepsIn (version : BitVec 8) (session tenant : Nat) (s : State) : s.KeepsIn (execFinish version session tenant s) := by
  unfold execFinish
  simp

@[simp] theorem execEndSession_keepsIn (version : BitVec 8) (session : Nat) (s : State) : s.KeepsIn (execEndSession version session s) := by
  unfold execEndSession
  simp

@[simp] theorem State.flipMode_sameLimits (s : State) (r : Nat) : s.SameLimits (s.flipMode r) := by
  unfold State.flipMode
  simp

@[simp] theorem State.setModes_sameLimits (s : State) (table : List PartEntry) : s.SameLimits (s.setModes table) := by
  unfold State.setModes
  exact State.foldl_sameLimits (fun _ _ => by simp) _ _

@[simp] theorem execPartitionTableSet_keepsIn (table : List PartEntry) (s : State) : s.KeepsIn (execPartitionTableSet table s) := by
  unfold execPartitionTableSet
  exact State.onDoe_keepsIn _ fun s => by simp [State.foldl_sameLimits]

@[simp] theorem State.startZeroing_sameLimits (s : State) (why : ZeroFor) (p : Nat) : s.SameLimits (s.startZeroing why p) := ⟨rfl, rfl⟩

@[simp] theorem execSeal_keepsIn (version : BitVec 8) (session : Nat) (msg : SealMsg) (s : State) : s.KeepsIn (execSeal version session msg s) := by
  unfold execSeal
  simp

@[simp] theorem State.zeroRegions_sameLimits (s : State) (p : Nat) : s.SameLimits (s.zeroRegions p) := by
  unfold State.zeroRegions
  exact State.foldl_sameLimits (fun _ _ => by simp) _ _

@[simp] theorem execIdeStreamBind_keepsIn (version : BitVec 8) (session : Nat) (part : Fin 4) (s : State) :
    s.KeepsIn (execIdeStreamBind version session part s) := by
  unfold execIdeStreamBind
  simp

@[simp] theorem State.transferWrite_sameLimits (s : State) (p : Nat) (cs : List (Nat × Byte × Option MCls)) :
    s.SameLimits (s.transferWrite p cs) := by
  unfold State.transferWrite
  exact State.foldl_sameLimits (fun _ _ => by simp) _ _

@[simp] theorem State.transferRead_sameLimits (s : State) (p : Nat) (pas : List Nat) (r : Reply) : s.SameLimits (s.transferRead p pas r) := by
  unfold State.transferRead
  exact State.foldl_sameLimits (fun _ _ => by simp) _ _

@[simp] theorem execSealedTransferRecord_keepsIn (stream : Option (Fin 4)) (part : Fin 4) (out : Bool) (xferId : BitVec 32) (index : BitVec 64)
    (addr : Nat) (cipher : List Byte) (tag : BitVec 128) (s : State) :
    s.KeepsIn (execSealedTransferRecord stream part out xferId index addr cipher tag s) := by
  unfold execSealedTransferRecord
  refine State.onDoe_keepsIn _ fun s => ?_
  dsimp only
  repeat' split
  all_goals simp

@[simp] theorem execDebugNonce_keepsIn (version : BitVec 8) (s : State) : s.KeepsIn (execDebugNonce version s) := by
  unfold execDebugNonce
  simp

@[simp] theorem execTenantDebugUnlock_keepsIn (version : BitVec 8) (session : Nat) (part : Fin 4) (sig : List Byte) (s : State) :
    s.KeepsIn (execTenantDebugUnlock version session part sig s) := by
  unfold execTenantDebugUnlock
  exact State.onSpdm_keepsIn _ _ fun s => by
    dsimp only
    split <;> simp

@[simp] theorem State.debugIn_keepsIn (s : State) (session p : Nat) {f : State → State} (h : ∀ s : State, s.Keeps (f s)) :
    s.KeepsIn (s.debugIn session p f) := by
  unfold State.debugIn
  refine State.onDoe_keepsIn s fun s => ?_
  have hpost : s.Keeps (f (s.wake.post none 4)) := .trans (by simp) (h _)
  simp [h, hpost]

@[simp] theorem State.debugHub_keepsIn (s : State) {f : State → State} (h : ∀ s : State, s.Keeps (f s)) : s.KeepsIn (s.debugHub f) := by
  unfold State.debugHub
  exact State.onDoe_keepsIn s fun s => by simp [h]

@[simp] theorem State.debugReq_keepsIn (s : State) (session warp : Nat) {f : Warp → State → State} (h : ∀ w (s : State), s.Keeps (f w s)) :
    s.KeepsIn (s.debugReq session warp f) := by
  unfold State.debugReq
  split
  · simp
  · exact State.debugIn_keepsIn s _ _ (h _)

@[simp] theorem execPwrCfgWrite_keepsIn (val : BitVec 32) (s : State) : s.KeepsIn (execPwrCfgWrite val s) := by
  unfold execPwrCfgWrite
  simp

@[simp] theorem State.gateCore_sameLimits (s : State) (core : Nat) : s.SameLimits (s.gateCore core) := ⟨rfl, rfl⟩

@[simp] theorem execCoreGate_keepsIn (s : State) : s.KeepsIn (execCoreGate s) := by
  unfold execCoreGate
  simp [State.foldl_sameLimits]

@[simp] theorem execDeviceIdleEntry_keepsIn (s : State) : s.KeepsIn (execDeviceIdleEntry s) := by
  unfold execDeviceIdleEntry
  simp

@[simp] theorem execWakeComplete_keepsIn (s : State) : s.KeepsIn (execWakeComplete s) := by
  unfold execWakeComplete
  simp

/-! ### The tick -/

@[simp] theorem State.runStage_sameLimits (s : State) (k : Nat) : s.SameLimits (s.runStage k) := by
  unfold State.runStage
  split <;> simp [State.ite_limits]

@[simp] theorem State.tidy_sameLimits (s : State) : s.SameLimits s.tidy := by
  unfold State.tidy
  simp [State.ite_limits]

@[simp] theorem State.watch_sameLimits (s : State) : s.SameLimits s.watch := by
  unfold State.watch
  simp [State.ite_limits]

@[simp] theorem State.waitOutside_sameLimits (s : State) : s.SameLimits s.waitOutside := by
  unfold State.waitOutside
  split <;> simp [State.ite_limits]

end Sys2Proof.Machine
end

section
/-! SUPPORT. Obligation O34, changes of a warp that let no queue take more entries and no divergence stack get deeper. -/

namespace Sys2Proof.Machine

/-! ### Warps -/

/-- From `w` to `v` no queue takes more entries and no divergence stack gets deeper. -/
def Warp.Narrows (w v : Warp) : Prop :=
  (∀ q, (v.live q).length ≤ (w.live q).length) ∧ ∀ x : Strm, (v.strm x).stack.length ≤ (w.strm x).stack.length

theorem Warp.Narrows.trans {w v u : Warp} (h : w.Narrows v) (h' : v.Narrows u) : w.Narrows u :=
  ⟨fun q => (h'.1 q).trans (h.1 q), fun x => (h'.2 x).trans (h.2 x)⟩

/-- What changes neither queues nor stacks. -/
@[simp] theorem Warp.narrows_of_same {w v : Warp}
    (h : v.queues = w.queues ∧ v.acc.stack = w.acc.stack ∧ v.exe.stack = w.exe.stack) : w.Narrows v := by
  obtain ⟨hq, ha, he⟩ := h
  refine ⟨fun q => by rw [Warp.live, Warp.queue, hq, Warp.live, Warp.queue], fun x => ?_⟩
  cases x
  · exact (congrArg List.length ha).le
  · exact (congrArg List.length he).le

@[simp] theorem Warp.Narrows.refl (w : Warp) : w.Narrows w := Warp.narrows_of_same ⟨rfl, rfl, rfl⟩

theorem Warp.Narrows.within {w v : Warp} {queue : Nat → Nat} {stack : Strm → Nat} (h : w.Narrows v) (hw : w.Within queue stack) :
    v.Within queue stack :=
  ⟨fun q => (h.1 q).trans (hw.1 q), fun x => (h.2 x).trans (hw.2 x)⟩

/-- A stream with a stack no deeper is put in place of one. -/
@[simp] theorem Warp.narrows_setStrm {w : Warp} {x : Strm} {st : Stream} (h : st.stack.length ≤ (w.strm x).stack.length) : w.Narrows (w.setStrm x st) := by
  refine ⟨fun q => by rw [Warp.live, Warp.setStrm_queue, Warp.live], fun y => ?_⟩
  by_cases hy : y = x
  · rw [hy, Warp.setStrm_strm]; exact h
  · rw [Warp.setStrm_strm_ne w st hy]

theorem Warp.narrows_foldl {α : Type} {f : Warp → α → Warp} (h : ∀ (w : Warp) (a : α), w.Narrows (f w a)) (l : List α) (w : Warp) :
    w.Narrows (l.foldl f w) := by
  induction l generalizing w with
  | nil => exact .refl w
  | cons a l ih => exact (h w a).trans (ih _)

/-- Entries are changed one by one, and none is a live one again. -/
theorem length_filter_map_le {α : Type} {p : α → Bool} {f : α → α} (h : ∀ a, p (f a) = true → p a = true) (l : List α) :
    ((l.map f).filter p).length ≤ (l.filter p).length := by
  rw [List.filter_map, List.length_map]
  exact (List.monotone_filter_right l fun a ha => h a ha).length_le

/-- The entries of a queue that have not been popped (R151). -/
def liveCount (l : List Resv) : Nat := (l.filter fun r => r.popAt.isNone).length

theorem liveCount_map_le {f : Resv → Resv} (h : ∀ r, (f r).popAt.isNone = true → r.popAt.isNone = true) (l : List Resv) :
    liveCount (l.map f) ≤ liveCount l :=
  length_filter_map_le h l

/-- Every queue is changed without taking more entries. -/
theorem Warp.narrows_mapQueues (w : Warp) {g : Nat × List Resv → Nat × List Resv} (hkey : ∀ e, (g e).1 = e.1)
    (hlive : ∀ e, liveCount (g e).2 ≤ liveCount e.2) : w.Narrows { w with queues := List.map g w.queues } := by
  refine ⟨fun q => ?_, fun x => by cases x <;> exact le_rfl⟩
  have hg : List.map g w.queues = List.map (fun e => (e.1, (g (e.1, e.2)).2)) w.queues := List.map_congr_left fun e _ => Prod.ext (hkey e) rfl
  show liveCount (Tab.get (List.map g w.queues) [] q) ≤ liveCount (w.queues.get [] q)
  rw [hg, Tab.get, find?_mapWithKey w.queues fun k l => (g (k, l)).2, Tab.get]
  cases w.queues.find? q with
  | none => exact Nat.zero_le _
  | some l => exact hlive (q, l)

theorem Warp.landQueues_narrows (w : Warp) (t : Nat) : w.Narrows (w.landQueues t) := by
  refine w.narrows_mapQueues (fun _ => rfl) fun e => liveCount_map_le (fun r => ?_) _
  split
  · split <;> exact id
  · exact id

theorem Warp.prune_narrows (w : Warp) (t : Nat) : w.Narrows (w.prune t) :=
  w.narrows_mapQueues (fun _ => rfl) fun _ => (List.filter_sublist.filter _).length_le

theorem Warp.exitStream_narrows (w : Warp) (x : Strm) (t : Nat) : w.Narrows (w.exitStream x t) := by
  have hs : w.Narrows (w.setStrm x { (w.strm x) with phase := .exited, exitAt := t }) := Warp.narrows_setStrm le_rfl
  refine hs.trans (Warp.narrows_mapQueues _ (fun _ => rfl) fun e => liveCount_map_le (fun r => ?_) _)
  split
  · exact fun h => nomatch h
  · exact id

theorem popMark_live (now n : Nat) (l : List Resv) :
    liveCount (popMark now n l) ≤ liveCount l := by
  unfold liveCount at *
  induction l generalizing n with
  | nil => cases n <;> exact le_rfl
  | cons r l ih =>
    cases n with
    | zero => exact le_rfl
    | succ n =>
      have h1 := ih n
      have h2 := ih (n + 1)
      unfold popMark
      split
      next hr => simp only [List.filter_cons, hr]; simp; omega
      next hr => simp only [List.filter_cons, hr]; simpa using h2

theorem Warp.pop_narrows (w : Warp) (now : Nat) (qs : List Nat) : w.Narrows (w.pop now qs) :=
  w.narrows_mapQueues (fun _ => rfl) fun e => popMark_live now (qs.count e.1) e.2

theorem Warp.fillResv_narrows (w : Warp) (q rid : Nat) (land : Option Nat) (v : Option RVal) : w.Narrows (w.fillResv q rid land v) := by
  refine ⟨fun p => ?_, fun _ => le_rfl⟩
  unfold Warp.live Warp.queue Warp.fillResv
  by_cases hp : p = q
  · subst hp
    rw [Tab.get_put_self]
    refine length_filter_map_le (fun r => ?_) _
    split <;> exact id
  · rw [Tab.get_put_ne _ _ _ hp]

/-- An entry more in one queue. -/
theorem Warp.reserve_live (w : Warp) (q : Nat) (r : Resv) (p : Nat) :
    ((w.reserve q r).live p).length ≤ (w.live p).length + if p = q then 1 else 0 := by
  unfold Warp.live Warp.queue Warp.reserve
  by_cases hp : p = q
  · subst hp
    rw [Tab.get_put_self, List.filter_append, List.length_append, if_pos rfl]
    exact Nat.add_le_add_left (List.length_filter_le _ [r]) _
  · rw [Tab.get_put_ne _ _ _ hp]
    exact Nat.le_add_right _ _

@[simp] theorem Warp.addLanding_narrows (w : Warp) (l : Landing) : w.Narrows (w.addLanding l) := by simp [Warp.addLanding]

@[simp] theorem Warp.raiseFlags_narrows (w : Warp) (f : BitVec 6) : w.Narrows (w.raiseFlags f) := by simp [Warp.raiseFlags]

@[simp] theorem Warp.raise_narrows (w : Warp) (scope wct : Nat) : w.Narrows (w.raise scope wct) := by simp [Warp.raise]

@[simp] theorem Warp.raiseNew_narrows (w : Warp) (now scope wct : Nat) : w.Narrows (w.raiseNew now scope wct) := by
  simp [Warp.raiseNew, Warp.raise]

@[simp] theorem Warp.raiseBy_narrows (w : Warp) (issue now scope wct : Nat) : w.Narrows (w.raiseBy issue now scope wct) := by
  unfold Warp.raiseBy
  split
  · exact w.raise_narrows scope wct
  · exact w.raiseNew_narrows now scope wct

@[simp] theorem Warp.putTile_narrows (w : Warp) (n q : Nat) (ws : List Word) : w.Narrows (w.putTile n q ws) := by simp [Warp.putTile]

@[simp] theorem Warp.deliver_narrows (w : Warp) (id : Nat) (v : RVal) : w.Narrows (w.deliver id v) := by
  unfold Warp.deliver
  dsimp only
  have hland : ∀ ls, w.Narrows { w with landings := ls } := fun ls => Warp.narrows_of_same ⟨rfl, rfl, rfl⟩
  split
  · exact (hland _).trans (Warp.fillResv_narrows _ _ _ _ _)
  · exact hland _

@[simp] theorem Warp.stop_narrows (w : Warp) (t : Nat) : w.Narrows (w.stop t) := by
  have hif : ∀ (v : Warp) (x : Strm) (c : Prop) [Decidable c], v.Narrows (if c then v else v.exitStream x t) := by
    intro v x c _
    split
    · exact .refl v
    · exact v.exitStream_narrows x t
  unfold Warp.stop
  split
  · exact .refl w
  · exact (hif w .acc _).trans (hif _ .exe _)

theorem Warp.setSr_narrows (w : Warp) (x : Strm) (n : Nat) (v : Word) : w.Narrows (w.setSr x n v) := by
  unfold Warp.setSr
  dsimp only
  repeat' split
  all_goals simp

@[simp] theorem Stream.landReg_stack (st : Stream) (e : Eff) : (st.landReg e).stack = st.stack := by
  unfold Stream.landReg
  split <;> rfl

theorem Warp.landWrites_narrows (w : Warp) (ls : List Landing) : w.Narrows (w.landWrites ls) := by
  refine Warp.narrows_foldl (fun w l => ?_) ls w
  split
  · exact .refl w
  · exact Warp.narrows_setStrm (by rw [Stream.landReg_stack])

theorem Warp.landLatches_narrows (w : Warp) (ls : List Landing) : w.Narrows (w.landLatches ls) := by
  refine Warp.narrows_foldl (fun w l => ?_) ls w
  dsimp only
  split
  · exact Warp.narrows_setStrm le_rfl
  · exact .refl w

theorem Warp.landRest_narrows (w : Warp) (ls : List Landing) : w.Narrows (w.landRest ls) := by
  have hsr : ∀ (x : Strm) (w : Warp), w.Narrows (ls.foldl (fun w l => match l.eff with
      | .sr n v => if l.strm = x then w.setSr x n v else w
      | _ => w) w) := by
    refine fun x w => Warp.narrows_foldl (fun w l => ?_) ls w
    split
    · split
      · exact w.setSr_narrows x _ _
      · exact .refl w
    · exact .refl w
  refine (Warp.narrows_foldl (fun w l => ?_) ls w).trans ((hsr .acc _).trans (hsr .exe _))
  split <;> simp

@[simp] theorem Warp.landAt_narrows (w : Warp) (t : Nat) : w.Narrows (w.landAt t) :=
  have hdue : w.Narrows { w with landings := w.landings.filter fun l => !(l.tick ≤ t : Bool) } := Warp.narrows_of_same ⟨rfl, rfl, rfl⟩
  ((hdue.trans (Warp.landWrites_narrows _ _)).trans (Warp.landLatches_narrows _ _)).trans (Warp.landRest_narrows _ _)

end Sys2Proof.Machine
end

section
/-! SUPPORT. Obligation O34, operations on the warps of a state that keep the bounds, each after any change that keeps them. -/

namespace Sys2Proof.Machine

/-! ### Warps of a state -/

/-- Warps are changed one by one. -/
@[simp] theorem KeepsLimits.map {ws vs : Tab Warp} {r q : Bool} (h : KeepsLimits ws r vs q) {g : Nat × Warp → Nat × Warp}
    (hkey : ∀ e : Nat × Warp, (g e).1 = e.1) (hg : ∀ e : Nat × Warp, e.2.Narrows (g e).2) : KeepsLimits ws r (List.map g vs) q := by
  refine ⟨h.revoked, fun B hB => ⟨?_, fun e he => ?_⟩⟩
  · rw [List.map_map, List.map_congr_left fun e _ => show (Prod.fst ∘ g) e = e.1 from hkey e]
    exact (h.within B hB).1
  · obtain ⟨d, hd, rfl⟩ := List.mem_map.mp he
    rw [hkey]
    exact (hg d).within ((h.within B hB).2 d hd)

/-- Some warps leave. -/
@[simp] theorem KeepsLimits.filter {ws vs : Tab Warp} {r q : Bool} (h : KeepsLimits ws r vs q) (p : Nat × Warp → Bool) :
    KeepsLimits ws r (List.filter p vs) q :=
  ⟨h.revoked, fun B hB => ⟨(h.within B hB).1.sublist (List.filter_sublist.map _), fun e he => (h.within B hB).2 e (List.mem_of_mem_filter he)⟩⟩

@[simp] theorem KeepsLimits.modify {ws vs : Tab Warp} {r q : Bool} (h : KeepsLimits ws r vs q) (key : Nat) {f : Warp → Warp}
    (hf : ∀ w : Warp, w.Narrows (f w)) : KeepsLimits ws r (vs.modify key f) q := by
  refine h.map (fun e => ?_) fun e => ?_
  · split <;> rfl
  · split
    · exact hf e.2
    · exact .refl _

@[simp] theorem KeepsLimits.updStream {ws : Tab Warp} {t : State} {r q : Bool} (h : KeepsLimits ws r t.warps q) (key : Nat) (x : Strm)
    {f : Stream → Stream} (hf : ∀ st : Stream, (f st).stack.length ≤ st.stack.length) : KeepsLimits ws r (t.updStream key x f).warps q :=
  h.modify key fun _ => Warp.narrows_setStrm (hf _)

@[simp] theorem KeepsLimits.land {ws : Tab Warp} {t : State} {r q : Bool} (h : KeepsLimits ws r t.warps q) (key : Nat) (x : Strm)
    (tick : Nat) (e : Eff) : KeepsLimits ws r (t.land key x tick e).warps q :=
  h.modify key fun w => w.addLanding_narrows _

theorem State.updWarp_keepsLimits {s t : State} (h : s.Keeps t) (key : Nat) {f : Warp → Warp} (hf : ∀ w : Warp, w.Narrows (f w)) :
    s.Keeps (t.updWarp key f) := h.modify key hf

theorem State.updStream_keepsLimits {s t : State} (h : s.Keeps t) (key : Nat) (x : Strm) {f : Stream → Stream}
    (hf : ∀ st : Stream, (f st).stack.length ≤ st.stack.length) : s.Keeps (t.updStream key x f) := h.updStream key x hf

/-- A put changes what is at its key alone, and keeps the keys rising. -/
theorem Tab.mem_put {α : Type} {t : Tab α} {k : Nat} {a : α} {e : Nat × α} (he : e ∈ t.put k a) : e = (k, a) ∨ e ∈ t := by
  induction t with
  | nil => exact .inl (List.mem_singleton.mp he)
  | cons d r ih =>
    obtain ⟨j, b⟩ := d
    unfold Tab.put at he
    split at he
    · exact List.mem_cons.mp he
    · split at he
      · exact (List.mem_cons.mp he).imp_right (List.mem_cons_of_mem _)
      · rcases List.mem_cons.mp he with rfl | he
        · exact .inr List.mem_cons_self
        · exact (ih he).imp_right (List.mem_cons_of_mem _)

theorem Tab.keys_put_rise {α : Type} {t : Tab α} (k : Nat) (a : α) (h : (t.map (·.1)).Pairwise (· < ·)) :
    ((t.put k a).map (·.1)).Pairwise (· < ·) := by
  induction t with
  | nil => exact List.pairwise_singleton _ _
  | cons d r ih =>
    obtain ⟨j, b⟩ := d
    obtain ⟨hj, hr⟩ := List.pairwise_cons.mp h
    have hbelow : ∀ i, i < k → (∀ m ∈ r.map (·.1), i < m) → ∀ m ∈ (Tab.put r k a).map (·.1), i < m := by
      intro i hik hi m hm
      obtain ⟨e, he, rfl⟩ := List.mem_map.mp hm
      rcases Tab.mem_put he with rfl | he
      · exact hik
      · exact hi _ (List.mem_map_of_mem he)
    unfold Tab.put
    split
    next hlt => exact List.pairwise_cons.mpr ⟨fun m hm => (List.mem_cons.mp hm).elim (fun e => e ▸ hlt) fun hm => hlt.trans (hj m hm), h⟩
    next hge =>
      split
      next heq => exact heq ▸ h
      next hne => exact List.pairwise_cons.mpr ⟨hbelow j (by omega) hj, ih hr⟩

theorem Stream.issued_stack (st : Stream) (e : Latch) (pc : Nat) (last : Bool) : (st.issued e pc last).stack = st.stack := by
  cases last <;> rfl

theorem Warp.issued_narrows (w : Warp) (x : Strm) (now : Nat) (qs : List Nat) (e : Latch) (pc : Nat) (last : Bool) :
    w.Narrows ((w.pop now qs).setStrm x ((w.strm x).issued e pc last)) := by
  refine (w.pop_narrows now qs).trans (Warp.narrows_setStrm ?_)
  rw [Stream.issued_stack]
  cases x <;> exact le_rfl

section
variable {s t : State} (h : s.Keeps t)
include h

/-- A warp with nothing in its queues and on its stacks joins. -/
theorem State.joinWarp_keepsLimits {w : Warp} (hq : w.queues = []) (hs : ∀ x, (w.strm x).stack = []) : s.Keeps (t.joinWarp w) := by
  refine ⟨h.revoked, fun B hB => ⟨Tab.keys_put_rise _ w (h.within B hB).1, fun e he => ?_⟩⟩
  rcases Tab.mem_put he with rfl | he
  · refine ⟨fun q => ?_, fun x => ?_⟩
    · show ((w.queues.get [] q).filter _).length ≤ _
      rw [hq]
      exact Nat.zero_le _
    · show ((w.strm x).stack).length ≤ _
      rw [hs]
      exact Nat.zero_le _
  · exact (h.within B hB).2 e he

@[simp] theorem State.stopWarps_keepsLimits (g : Nat) : s.Keeps (t.stopWarps g) := by
  refine h.map (fun e => ?_) fun e => ?_
  · split <;> rfl
  · split
    · exact e.2.stop_narrows _
    · exact .refl _

@[simp] theorem State.sweepStopped_keepsLimits : s.Keeps t.sweepStopped :=
  State.foldl_keeps (fun s e => by split <;> simp) _ h

@[simp] theorem State.deliver_keepsLimits (warp id : Nat) (v : RVal) : s.Keeps (t.deliver warp id v) := by simp [State.deliver, h]

@[simp] theorem State.cmdWarp_keepsLimits (c : EngCmd) {f : Warp → Warp} (hf : ∀ w : Warp, w.Narrows (f w)) : s.Keeps (t.cmdWarp c f) := by
  have hw : ∀ w : Warp, w.Narrows (if w.grid = c.grid ∧ w.start = c.inst then f w else w) := by
    intro w
    split
    · exact hf w
    · exact .refl w
  simp [State.cmdWarp, h, hw]

/-! ### Traps, parks and issue -/

@[simp] theorem State.takeTrap_keepsLimits (key : Nat) (x : Strm) (tr : Trap) : s.Keeps (t.takeTrap key x tr) := by
  unfold State.takeTrap
  split
  · exact h
  · split
    · exact h
    · dsimp only
      split <;> simp [h, Stream.enterTrap]

@[simp] theorem State.takeCounted_keepsLimits (key : Nat) (x : Strm) (tr : Trap) : s.Keeps (t.takeCounted key x tr) := by
  simp -implicitDefEqProofs [State.takeCounted, Stream.shift, h]

@[simp] theorem State.parkStream_keepsLimits (key : Nat) (x : Strm) (p : Park) : s.Keeps (t.parkStream key x p) := by
  have hst : ∀ st : Stream, (if st.trapActive then { st.park p with hshadow := st.latches }
      else { st.park p with shadow := st.latches } : Stream).stack.length ≤ st.stack.length := by
    intro st
    split <;> exact le_rfl
  simp [State.parkStream, h, hst]

@[simp] theorem Ctx.commitTo_keepsLimits (c : Ctx) (e : Latch) (pc : Nat) : s.Keeps (c.commitTo t e pc) := by
  unfold Ctx.commitTo
  dsimp only
  split <;> simp [h, Warp.issued_narrows]

@[simp] theorem Ctx.commit_keepsLimits (c : Ctx) (e : Latch) : s.Keeps (c.commit t e) := by simp [Ctx.commit, h]

@[simp] theorem Ctx.finish_keepsIn (c : Ctx) : s.KeepsIn (c.finish t) := by simp [Ctx.finish, h]

@[simp] theorem Ctx.finishPred_keepsIn (c : Ctx) (p lat : Nat) (v m : Mask) : s.KeepsIn (c.finishPred t p lat v m) := by
  simp -implicitDefEqProofs [Ctx.finishPred, h]

@[simp] theorem Ctx.finishEff_keepsIn (c : Ctx) (e : Eff) : s.KeepsIn (c.finishEff t e) := by
  simp -implicitDefEqProofs [Ctx.finishEff, h]

@[simp] theorem Ctx.trap_keepsIn (c : Ctx) (tr : Trap) : s.KeepsIn (c.trap t tr) := by simp [Ctx.trap, h]

@[simp] theorem Ctx.park_keepsIn (c : Ctx) (p : Park) : s.KeepsIn (c.park t p) := by simp [Ctx.park, h]

@[simp] theorem Ctx.mark_keepsLimits (c : Ctx) (scope wct : Nat) : s.Keeps (c.mark t scope wct) := by simp [Ctx.mark, h]

@[simp] theorem Ctx.raise_keepsLimits (c : Ctx) (fl : BitVec 6) : s.Keeps (c.raise t fl) := by simp [Ctx.raise, h]

/-! ### Writes and reads that complete -/

/-- Of a write, only the delivery of an atomic's old values touches a warp. -/
@[simp] theorem State.applyWrite_keepsLimits (w : PWrite) : s.Keeps (t.applyWrite w) := by
  have hbits : ∀ t : State, t.SameLimits (w.bits.foldl State.putBits t) := fun t => State.foldl_sameLimits (fun t b => by simp) _ t
  unfold State.applyWrite
  dsimp only
  split <;> split <;> simp [hbits, h]

@[simp] theorem State.applyDue_keepsLimits (n : Nat) : s.Keeps (t.applyDue n) :=
  State.foldl_keeps (fun s w => State.applyWrite_keepsLimits (.refl s) w) _ h

@[simp] theorem State.redo_keepsLimits : s.Keeps t.redo :=
  State.foldl_keeps (fun s w => State.applyWrite_keepsLimits (.refl s) w) _ (by simp [h])

@[simp] theorem State.writeNow_keepsLimits (w : PWrite) : s.Keeps (t.writeNow w) := by
  unfold State.writeNow
  dsimp only
  split <;> simp [h]

@[simp] theorem State.issueWrite_keepsLimits (w : PWrite) : s.Keeps (t.issueWrite w) := by
  unfold State.issueWrite
  split <;> simp [h]

@[simp] theorem State.readLoad_keepsLimits (r : PRead) : s.Keeps (t.readLoad r) := by
  unfold State.readLoad
  refine State.deliver_keepsLimits (h.trans (State.keeps_of_sameLimits ?_)) _ _ _
  refine State.SameLimits.trans ?_ (State.sawBad_sameLimits _ _)
  exact List.foldlRecOn (motive := fun a : Tab Word × Tab MCls × State => t.SameLimits a.2.2) _ _ ⟨rfl, rfl⟩
    fun a ha e _ => ha.trans (a.2.2.readBytes_sameLimits _ _ _)

@[simp] theorem State.readDue_keepsLimits (n : Nat) : s.Keeps (t.readDue n) :=
  State.foldl_keeps (fun s r => State.readLoad_keepsLimits (.refl s) r) _ (by simp [h])

@[simp] theorem State.releaseStream_keepsLimits (key : Nat) (x : Strm) : s.Keeps (t.releaseStream key x) := by
  unfold State.releaseStream
  split
  · exact h
  · split
    · split <;> simp [h]
    · exact h

@[simp] theorem State.grant_keepsLimits (key : Nat) (x : Strm) : s.Keeps (t.grant key x) := by simp [State.grant, h]

/-! ### Engine commands -/

@[simp] theorem State.raiseBeats_keepsLimits (ord : Nat) : s.Keeps (t.raiseBeats ord) := by
  unfold State.raiseBeats
  split
  · exact h
  · dsimp only
    split <;> simp [h]

@[simp] theorem State.fillEntries_keepsLimits (c : EngCmd) (p : Plan) (j : Nat) : s.Keeps (t.fillEntries c p j) :=
  State.foldl_keeps (fun s r => by split <;> simp [Warp.fillResv_narrows]) _ h

@[simp] theorem State.writeBeat_keepsLimits (c : EngCmd) (p : Plan) (j w : Nat) : s.Keeps (t.writeBeat c p j w) := by
  unfold State.writeBeat
  dsimp only
  split
  · simp [h]
  · split <;> simp [h]

@[simp] theorem State.writeMmv_keepsLimits (c : EngCmd) (g : Grid) (done : Nat) : s.Keeps (t.writeMmv c g done) := by
  unfold State.writeMmv
  dsimp only
  split <;> simp [h]

@[simp] theorem State.writeBundle_keepsLimits (c : EngCmd) (i w : Nat) : s.Keeps (t.writeBundle c i w) := by
  unfold State.writeBundle
  dsimp only
  split <;> simp [h]

@[simp] theorem State.emitCmd_keepsLimits (ord : Nat) : s.Keeps (t.emitCmd ord) := by
  unfold State.emitCmd
  split
  · exact h
  · split
    · exact h
    · dsimp only
      split
      · split
        · split <;> simp [h]
        · exact h
      · split
        · refine State.foldl_keeps (fun s b => ?_) _ (by simp [h])
          obtain hw | ⟨w, hw⟩ := Option.eq_none_or_eq_some b.1.w
          · simp [hw]
          · simp only [hw]
            split
            · split <;> simp
            · simp
        · exact h

@[simp] theorem State.countNow_keepsLimits (ord : Nat) : s.Keeps (t.countNow ord) := by
  unfold State.countNow
  split
  · exact h
  · split
    · split
      · exact h
      · dsimp only
        split <;> simp [h]
    · exact h

@[simp] theorem State.countHbm_keepsLimits (ord : Nat) : s.Keeps (t.countHbm ord) := by
  unfold State.countHbm
  split
  · exact h
  · split
    · split
      · exact h
      · dsimp only
        split <;> simp [h]
    · exact h

@[simp] theorem State.raiseCount_keepsLimits (ord : Nat) : s.Keeps (t.raiseCount ord) := by
  unfold State.raiseCount
  split
  · exact h
  · split
    · split <;> simp [h]
    · exact h

@[simp] theorem State.engineReads_keepsLimits : s.Keeps t.engineReads := by
  refine State.foldl_keeps (fun s o => ?_) _ h
  dsimp only
  split
  · simp
  · split
    · split <;> simp
    · simp

@[simp] theorem State.doneCmd_keepsLimits (ord : Nat) : s.Keeps (t.doneCmd ord) := by
  unfold State.doneCmd
  split
  · exact h
  · split
    · split
      · exact h
      · dsimp only
        split <;> simp [h]
    · exact h

@[simp] theorem State.finishCmd_keepsLimits (ord scope : Nat) : s.Keeps (t.finishCmd ord scope) := by
  unfold State.finishCmd
  split
  · exact h
  · split
    · exact h
    · exact State.doneCmd_keepsLimits (State.countNow_keepsLimits (by simp [h]) ord) ord

@[simp] theorem State.statusWord_keepsLimits (c : EngCmd) (w : Nat) (bs : List Byte) : s.Keeps (t.statusWord c w bs) := by
  unfold State.statusWord
  split <;> simp [h]

@[simp] theorem State.childDone_keepsLimits (ord : Nat) (st : Status) (code : Nat) : s.Keeps (t.childDone ord st code) := by
  unfold State.childDone
  split <;> simp [h]

end

end Sys2Proof.Machine
end

section
/-! SUPPORT. Obligation O34, grids, fabric commands, starts of engine commands, front ends and the tick keep the bounds. -/

namespace Sys2Proof.Machine

/-- A hold dates the entries of queues anew, and takes none more. -/
theorem Warp.hold_narrows (m : Hold) (lag : Nat → Nat) (w : Warp) : w.Narrows (w.hold m lag) := by
  refine (w.narrows_mapQueues (g := fun q => (q.1, q.2.map fun r : Resv => { r with land := r.land.map (m.date (lag (w.fillerOf r.rid))) }))
    (fun _ => rfl) fun e => liveCount_map_le (fun r => ?_) _).trans (Warp.narrows_of_same ⟨rfl, rfl, rfl⟩)
  exact id

theorem Stream.beginTurn_stack (st : Stream) : st.beginTurn.stack = st.stack := by
  unfold Stream.beginTurn
  split <;> split <;> rfl

section
variable {s t : State} (h : s.Keeps t)
include h

/-! ### Grids that end -/

@[simp] theorem State.finalGrid_keepsLimits (gid : Nat) (st : Status) (code : Nat) : s.Keeps (t.finalGrid gid st code) := by
  unfold State.finalGrid
  split
  · exact h
  · split
    · exact h
    · dsimp only
      split <;> split <;> simp [h]

@[simp] theorem State.admitGrid_keepsLimits (gid : Nat) : s.Keeps (t.admitGrid gid) := by
  unfold State.admitGrid
  split
  · exact h
  · split
    · exact h
    · dsimp only
      split <;> simp [h]

@[simp] theorem State.stagedGrid_keepsLimits (gid : Nat) : s.Keeps (t.stagedGrid gid) := by
  unfold State.stagedGrid
  split
  · exact h
  · dsimp only
    split
    · simp [h]
    · exact State.admitGrid_keepsLimits (State.foldl_keeps (fun s c => by simp) _ (by simp [h])) gid

@[simp] theorem State.readCount_keepsLimits (gid : Nat) (g : Grid) : s.Keeps (t.readCount gid g) := by
  unfold State.readCount
  split
  · exact h
  · split
    · simp [h]
    · dsimp only
      split <;> simp [h]

@[simp] theorem State.freezeGrid_keepsLimits (gid : Nat) : s.Keeps (t.freezeGrid gid) := by
  unfold State.freezeGrid
  split
  · exact h
  · split
    · exact h
    · dsimp only
      split
      · split
        · refine h.map (fun e => ?_) fun e => ?_
          · split <;> rfl
          · split <;> simp
        · exact h
      · exact h

@[simp] theorem State.noteExit_keepsLimits (gid j : Nat) : s.Keeps (t.noteExit gid j) := by simp [State.noteExit, h]

@[simp] theorem State.noteExits_keepsLimits : s.Keeps t.noteExits :=
  State.foldl_keeps (fun s p => State.noteExit_keepsLimits (.refl s) _ _) _ h

@[simp] theorem State.killGrid_keepsLimits (gid : Nat) : s.Keeps (t.killGrid gid) :=
  State.noteExits_keepsLimits ((State.stopWarps_keepsLimits (t := t.updGrid gid fun g => { g with killed := true }) h gid).same (by simp))

@[simp] theorem State.haltGrid_keepsLimits (gid : Nat) (g : Grid) : s.Keeps (t.haltGrid gid g) := by
  have hstop := State.stopWarps_keepsLimits
    (t := t.updGrid gid fun g => { g with stopped := true, failCode := if g.stopped then g.failCode else 23 }) h gid
  refine State.foldl_keeps (fun s q => ?_) _ (State.noteExits_keepsLimits (State.Keeps.same hstop (by simp)))
  split <;> simp

/-! ### The fabric's commands -/

@[simp] theorem State.markFailed_keepsLimits (c : EngCmd) : s.Keeps (t.markFailed c) := by simp [State.markFailed, h]

@[simp] theorem State.failNow_keepsLimits (c : EngCmd) : s.Keeps (t.failNow c) := by
  unfold State.failNow
  split
  · simp [h]
  · split
    · exact State.markFailed_keepsLimits (State.finishCmd_keepsLimits (by simp [h]) _ _) c
    · simp [h]

@[simp] theorem State.failRoutes_keepsLimits : s.Keeps t.failRoutes :=
  State.foldl_keeps (fun s e => State.failNow_keepsLimits (.refl s) _) _ h

@[simp] theorem State.heldBeats_keepsLimits (v : Nat) (c : EngCmd) : s.Keeps (t.heldBeats v c) := by
  have hfill : ∀ f : Nat × Nat → Option Nat, s.Keeps (c.rids.zipIdx.foldl (fun s r =>
      s.cmdWarp c fun w => w.fillResv c.tpl.qreg r.1 (f r) none) t) :=
    fun f => State.foldl_keeps (fun s r => by simp [Warp.fillResv_narrows]) _ h
  unfold State.heldBeats
  dsimp only
  split <;> split <;> simp [h, hfill]

@[simp] theorem State.shift_keepsLimits (v n : Nat) : s.Keeps (t.shift v n) := by
  unfold State.shift
  refine State.foldl_keeps (fun s e => ?_) _ ?_
  · split <;> simp
  · exact h.map (fun e => rfl) fun e => e.2.hold_narrows _ _

@[simp] theorem State.realign_keepsLimits : s.Keeps t.realign := by
  unfold State.realign
  split
  · exact h
  · dsimp only
    split <;> simp [h]

@[simp] theorem State.recordPlaced_keepsLimits (r : Run) (pos n : Nat) (o : RecOut) : s.Keeps (t.recordPlaced r pos n o) := by
  unfold State.recordPlaced
  split
  · exact h
  · split
    · dsimp only
      split
      · exact State.countNow_keepsLimits (by simp [h]) _
      · simp [h]
    · exact h

@[simp] theorem State.sendRequests_keepsLimits (r : Run) (pos : Nat) : s.Keeps (t.sendRequests r pos).2 :=
  State.foldl_keeps (fun s o => State.recordPlaced_keepsLimits (.refl s) _ _ _ _) _ h

@[simp] theorem State.content_keepsLimits (port pos : Nat) : s.Keeps (t.content port pos).2 := by
  unfold State.content
  dsimp only
  split
  · exact h
  · split
    · exact h
    · split
      · split
        · simp [h]
        · exact h
      · split
        · exact State.sendRequests_keepsLimits h _ _
        · exact h

@[simp] theorem State.landWrite_keepsLimits (port pos : Nat) (cells : List (Nat × Byte × Option MCls)) : s.Keeps (t.landWrite port pos cells) := by
  simp [State.landWrite, h]

@[simp] theorem State.landAtom_keepsLimits (port pos : Nat) (a : Atom) (id : Nat) : s.Keeps (t.landAtom port pos a id) := by
  simp [State.landAtom, h]

@[simp] theorem State.replyLands_keepsLimits (c : EngCmd) (port pos : Nat) (data : List Byte) (mark : Option MCls) :
    s.Keeps (t.replyLands c port pos data mark) := by
  unfold State.replyLands
  dsimp only
  split <;> simp [h]

@[simp] theorem State.replyFails_keepsLimits (c : EngCmd) (port pos : Nat) : s.Keeps (t.replyFails c port pos) := by
  unfold State.replyFails
  dsimp only
  split
  · simp [h]
  · exact State.finishCmd_keepsLimits (State.markFailed_keepsLimits (State.landWrite_keepsLimits (by simp [h]) _ _ _) c) _ _

@[simp] theorem State.resolve_keepsLimits (c : EngCmd) : s.Keeps (t.resolve c) := by
  unfold State.resolve
  dsimp only
  split <;> simp [h]

@[simp] theorem State.failMembers_keepsLimits (c : EngCmd) (ms bad : List Nat) : s.Keeps (t.failMembers c ms bad) := by
  simp [State.failMembers, h]

@[simp] theorem State.failUnsent_keepsLimits : s.Keeps t.failUnsent := by
  refine State.foldl_keeps (fun s o => ?_) _ h
  split
  · exact .refl s
  · split
    · exact .refl s
    · split
      · simp
      · split
        · dsimp only
          split <;> simp
        · exact .refl s

/-! ### Starts of engine commands -/

@[simp] theorem State.startData_keepsLimits (look : State → State) (c : EngCmd) (g : Grid) : s.Keeps (t.startData look c g) := by
  have hslots : ∀ (c : EngCmd) (p : Plan) (f : EngCmd → EngCmd), s.Keeps ((t.sourceSlots c p).2.updCmd c.ord f) :=
    fun c p f => h.same (State.SameLimits.trans (t.sourceSlots_sameLimits c p) (State.updCmd_sameLimits _ _ _))
  have hfill : ∀ (s : State) (c : EngCmd) (r : Nat × Nat) (at_ : Option Nat), s.Keeps (s.cmdWarp c fun w => w.fillResv c.tpl.qreg r.1 at_ none) :=
    fun s c r at_ => State.cmdWarp_keepsLimits (.refl _) c fun w => w.fillResv_narrows _ _ _ _
  exact State.keeps_ite.2 ⟨fun _ => hslots _ _ _, fun _ =>
    State.cmdWarp_keepsLimits (State.foldl_keeps (fun s r => hfill s _ r _) _ (hslots _ _ _)) _ fun w => w.raiseBy_narrows _ _ _ _⟩

@[simp] theorem State.startMmv_keepsLimits (c : EngCmd) (g : Grid) : s.Keeps (t.startMmv c g) := by simp [State.startMmv, h]

@[simp] theorem State.startColl_keepsLimits (c : EngCmd) : s.Keeps (t.startColl c) := by
  unfold State.startColl
  dsimp only
  split <;> simp [h]

@[simp] theorem State.failFabric_keepsLimits (c : EngCmd) : s.Keeps (t.failFabric c) := by
  have hw : ∀ (now n : Nat) (w : Warp), w.Narrows { (w.raiseBy c.issue now 3 n) with failed := w.failed ++ [n] } :=
    fun now n w => (w.raiseBy_narrows c.issue now 3 n).trans (Warp.narrows_of_same ⟨rfl, rfl, rfl⟩)
  simp [State.failFabric, h, hw]

@[simp] theorem State.startFabric_keepsLimits (c : EngCmd) : s.Keeps (t.startFabric c) := by
  unfold State.startFabric
  split <;> simp [h]

@[simp] theorem State.startCmd_keepsLimits (look : State → State) (c : EngCmd) : s.Keeps (t.startCmd look c) := by
  unfold State.startCmd
  split
  · exact h
  · repeat' split
    all_goals simp [h]

@[simp] theorem State.tryStart_keepsLimits (look : State → State) (ord : Nat) : s.Keeps (t.tryStart look ord) := by
  unfold State.tryStart
  split
  · exact h
  · split
    · exact h
    · split
      · split <;> simp [h]
      · exact h

@[simp] theorem State.startKind_keepsLimits (look : State → State) (kind : EngCmd → Bool) : s.Keeps (t.startKind look kind) := by
  refine State.foldl_keeps (fun s o => ?_) _ h
  split
  · split <;> simp
  · exact .refl s

@[simp] theorem State.startFirst_keepsLimits (look : State → State) : s.Keeps (t.startFirst look) := by
  refine State.foldl_keeps (fun s _ => ?_) _ h
  exact State.startKind_keepsLimits (State.foldl_keeps (fun s _ => by simp) _ (.refl s)) _ _

@[simp] theorem State.slotWork_keepsLimits (look : State → State) (ord : Nat) : s.Keeps (t.slotWork look ord) :=
  State.countHbm_keepsLimits (State.countNow_keepsLimits (State.raiseBeats_keepsLimits ((State.tryStart_keepsLimits h look ord).same (by simp)) ord) ord) ord

@[simp] theorem State.engineStarts_keepsLimits (look : State → State) : s.Keeps (t.engineStarts look) := by
  unfold State.engineStarts
  split
  · exact h
  · exact State.foldl_keeps (fun s o => by simp) _ (State.foldl_keeps (fun s o => by simp) _ (by simp [h]))

@[simp] theorem State.engineWork_keepsLimits : s.Keeps t.engineWork := by
  unfold State.engineWork
  split
  · exact h
  · have hemit : s.Keeps (t.engOrder.foldl State.emitCmd t) := State.foldl_keeps (fun s o => by simp) _ h
    simp [hemit]

/-! ### Front ends -/

@[simp] theorem State.boundary_keepsLimits (core p : Nat) (x : Strm) (slot : Nat) (turn : Option Nat) : s.Keeps (t.boundary core p x slot turn) := by
  simp -implicitDefEqProofs [State.boundary, h]

@[simp] theorem State.enterTurn_keepsLimits (core p : Nat) (x : Strm) (slot : Nat) : s.Keeps (t.enterTurn core p x slot) := by
  have hnew : s.Keeps ((t.releaseStream (slotKey core p slot) x).boundary core p x slot (some slot)) :=
    State.boundary_keepsLimits (State.releaseStream_keepsLimits h _ x) core p x slot _
  exact KeepsLimits.updStream hnew _ x fun st => (congrArg List.length st.beginTurn_stack).le

@[simp] theorem State.presenting_keepsLimits (core p : Nat) (x : Strm) (slot : Nat) (fresh : Bool) : s.Keeps (t.presenting core p x slot fresh).1 := by
  cases fresh <;> simp [State.presenting, h]

@[simp] theorem State.slipTick_keepsLimits (core p : Nat) (x : Strm) : s.Keeps (t.slipTick core p x) := by
  unfold State.slipTick
  split <;> simp [h]

@[simp] theorem State.judgePart_keepsLimits (ex : Instr → State → Out) (core p : Nat) : s.Keeps (t.judgePart ex core p) := by
  unfold State.judgePart
  dsimp only
  split
  · split <;> split <;> simp [h]
  · exact h

@[simp] theorem State.debugHalt_keepsLimits (key : Nat) (x : Strm) : s.Keeps (t.debugHalt key x) := by
  unfold State.debugHalt
  split
  · exact h
  · repeat' split
    all_goals simp [h]

@[simp] theorem State.stepDone_keepsLimits (before : State) (key : Nat) (x : Strm) : s.Keeps (before.stepDone t key x) := by
  unfold State.stepDone
  split
  · dsimp only
    split <;> simp -implicitDefEqProofs [h]
  · exact h

/-! ### Partitions and the tick -/

@[simp] theorem State.wakeFills_keepsLimits (p : Nat) : s.Keeps (t.wakeFills p) :=
  State.foldl_keeps (fun s w => State.releaseStream_keepsLimits (.refl s) _ _) _ h

@[simp] theorem State.flushFills_keepsLimits (p : Nat) : s.Keeps (t.flushFills p) := by simp [State.flushFills, h]

@[simp] theorem State.killPart_keepsLimits (p : Nat) : s.Keeps (t.killPart p) :=
  State.foldl_keeps (fun s e => State.killGrid_keepsLimits (.refl s) _) _ h

@[simp] theorem State.startRelease_keepsLimits (p : Nat) : s.Keeps (t.startRelease p) := by simp [State.startRelease, h]

theorem State.setRevoked_keepsLimits {f : Security → Security} (hf : ∀ c, (f c).revoked = true) : s.Keeps (t.updSec f) :=
  ⟨fun _ => hf _, h.within⟩

/-- Entry into vendor debug sets REVOKED (R124). -/
@[simp] theorem State.enterVendor_keepsLimits : s.Keeps t.enterVendor := by
  refine State.setRevoked_keepsLimits (State.foldl_keeps (fun s q => ?_) _ h) fun _ => rfl
  have hzero : s.SameLimits (if s.vendorTakes q then s.zeroRegions q else s) := by split <;> simp
  exact State.keeps_of_sameLimits (hzero.trans (State.updTenant_sameLimits _ _ _))

@[simp] theorem State.dropHalts_keepsLimits (p : Nat) : s.Keeps (t.dropHalts p) := by
  unfold State.dropHalts
  refine KeepsLimits.map h (fun e => ?_) fun e => ?_
  · dsimp only
    split <;> rfl
  · dsimp only
    split <;> simp

@[simp] theorem State.pruneQueues_keepsLimits : s.Keeps t.pruneQueues := h.map (fun _ => rfl) fun e => e.2.prune_narrows _

@[simp] theorem State.tickReads_keepsLimits : s.Keeps t.tickReads := by
  have hreads : s.Keeps (t.failUnsent.readDue t.gtc).engineReads := State.engineReads_keepsLimits (by simp [h])
  simp [State.tickReads, hreads]

@[simp] theorem State.endTick_keepsLimits : s.Keeps t.endTick := by
  have hwork : s.Keeps (if t.holding? then t else t.engineWork) := by split <;> simp [h]
  have hsweep : s.Keeps ((if t.holding? then t else t.engineWork).startWalks.settlePools).sweepStopped :=
    State.sweepStopped_keepsLimits (hwork.same (by simp))
  exact State.Keeps.same (State.noteExits_keepsLimits hsweep) (by simp [State.endTick])

@[simp] theorem State.newTick_keepsLimits : s.Keeps t.newTick := by
  unfold State.newTick
  split
  · simp [h]
  · have hrealign : ∀ u : State, s.Keeps u → s.Keeps (if u.holdsNow then u.realign else u) := by
      intro u hu
      split <;> simp [hu]
    have hrest : ∀ u : State, s.Keeps u →
        s.Keeps ((u.applyDue u.gtc).deliverRecords.sawWaits.pruneQueues.droopStop.tidy.watch.ringTimers) := by
      intro u hu
      have hpruned : s.Keeps ((u.applyDue u.gtc).deliverRecords.sawWaits.pruneQueues) := State.pruneQueues_keepsLimits (by simp [hu])
      simp [hpruned]
    have hnew := hrest _ (hrealign { t with gtc := t.gtc + 1 } h)
    dsimp only [State.Keeps] at hnew ⊢
    exact hnew

end

end Sys2Proof.Machine
end

section
/-! SUPPORT. Obligation O34, the events that change warps or security keep the bounds. -/

namespace Sys2Proof.Machine

@[simp] theorem execEngineDone_keepsIn (s : State) : s.KeepsIn (execEngineDone s) :=
  State.keepsIn_next.2 (State.foldl_keeps (fun s o => by simp) _ (.refl s))

@[simp] theorem execParkRelease_keepsIn (s : State) : s.KeepsIn (execParkRelease s) :=
  State.keepsIn_next.2 (State.foldl_keeps (fun s o => by simp) _ (.refl s))

@[simp] theorem execBarrierRelease_keepsIn (s : State) : s.KeepsIn (execBarrierRelease s) :=
  State.keepsIn_next.2 (State.foldl_keeps (fun s o => by simp) _ (.refl s))

@[simp] theorem execResultLanding_keepsIn (s : State) : s.KeepsIn (execResultLanding s) := by
  simp [execResultLanding]

@[simp] theorem execQueueLanding_keepsIn (s : State) : s.KeepsIn (execQueueLanding s) := by
  simp [execQueueLanding, Warp.landQueues_narrows]

@[simp] theorem execRegisterFileError_keepsIn (warp : Nat) (x : Strm) (reg : Fin 112) (lane : Fin 32) (s : State) :
    s.KeepsIn (execRegisterFileError warp x reg lane s) := by
  unfold execRegisterFileError
  split <;> simp

@[simp] theorem execStaged_keepsIn (s : State) : s.KeepsIn (execStaged s) :=
  State.keepsIn_next.2 (State.foldl_keeps (fun s o => by simp) _ (.refl s))

@[simp] theorem execLaunch_keepsIn (cmd : Nat) (s : State) : s.KeepsIn (execLaunch cmd s) := by
  unfold execLaunch
  refine State.onCmd_keepsIn _ _ fun c => ?_
  dsimp only
  split
  · simp
  · split
    · exact State.admitGrid_keepsLimits (State.stagedGrid_keepsLimits (State.readCount_keepsLimits (by simp) _ _) _) _
    · simp

@[simp] theorem execPreempt_keepsIn (cmd : Nat) (s : State) : s.KeepsIn (execPreempt cmd s) := by
  unfold execPreempt
  refine State.onCmd_keepsIn _ _ fun c => ?_
  dsimp only
  split
  · simp
  · refine State.foldl_keeps (fun s e => by simp) _ ?_
    simp only [State.Keeps, State.updCommand_sameLimits]
    exact State.foldl_keeps (fun s e => by simp) _ (.refl s)

@[simp] theorem execFreeze_keepsIn (grid : Nat) (s : State) : s.KeepsIn (execFreeze grid s) := by simp [execFreeze]

@[simp] theorem execDrainBoundExpiry_keepsIn (s : State) : s.KeepsIn (execDrainBoundExpiry s) :=
  State.keepsIn_next.2 (State.foldl_keeps (fun s o => by simp) _ (.refl s))

@[simp] theorem execGridRetire_keepsIn (grid : Nat) (s : State) : s.KeepsIn (execGridRetire grid s) := by
  unfold execGridRetire
  split
  · simp
  · split <;> simp

@[simp] theorem execInstanceStart_keepsIn (grid pos : Nat) (s : State) : s.KeepsIn (execInstanceStart grid pos s) := by
  have hjoin : ∀ (l : List Nat) (u : State) (g : Grid) (e : Entry) (cut : Bool), s.Keeps u →
      s.Keeps ((l.map fun w => s.newWarp grid g pos w e cut).foldl State.joinWarp u) := by
    intro l u g e cut hu
    rw [List.foldl_map]
    exact State.foldl_keeps (fun s w => State.joinWarp_keepsLimits (.refl _) rfl fun x => by cases x <;> rfl) l hu
  unfold execInstanceStart
  split
  · simp
  · split
    · simp
    · split
      · simp
      · split
        · simp
        · simp [hjoin]

@[simp] theorem execEnterFault_keepsIn (s : State) : s.KeepsIn (execEnterFault s) := by
  unfold execEnterFault
  split
  · simp
  · exact State.keepsIn_next.2 (State.failRoutes_keepsLimits (State.foldl_keeps (fun s e => by simp) _ (by simp)))

@[simp] theorem execGtcRealign_keepsIn (s : State) : s.KeepsIn (execGtcRealign s) := by simp [execGtcRealign]

@[simp] theorem execBundleTransmit_keepsIn (port : Fin 16) (pos : Nat) (s : State) : s.KeepsIn (execBundleTransmit port pos s) := by
  unfold execBundleTransmit
  dsimp only
  split <;> split <;> simp

@[simp] theorem execLanding_keepsIn (port : Fin 16) (pos : Nat) (s : State) : s.KeepsIn (execLanding port pos s) := by
  unfold execLanding
  dsimp only
  split
  · simp
  · split
    · simp
    · split
      · simp
      · split
        · simp
        · split
          · simp
          · split <;> simp

@[simp] theorem execRequestRecord_keepsIn (port : Fin 16) (rec : FabRecord) (s : State) : s.KeepsIn (execRequestRecord port rec s) := by
  unfold execRequestRecord
  dsimp only
  split
  · simp
  · split
    · simp
    · split
      · split
        · simp
        · split
          · simp
          · split <;> simp
      · split
        · simp
        · split <;> simp

@[simp] theorem execFailureNotice_keepsIn (port : Fin 16) (dev : Nat) (rec : FabRecord) (s : State) :
    s.KeepsIn (execFailureNotice port dev rec s) := by
  unfold execFailureNotice
  dsimp only
  split
  · simp
  · split <;> simp

@[simp] theorem execMulticastResolution_keepsIn (s : State) : s.KeepsIn (execMulticastResolution s) :=
  State.keepsIn_next.2 (State.foldl_keeps (fun s o => by simp) _ (.refl s))

@[simp] theorem execEngineCommandStart_keepsIn (cmd : Nat) (s : State) : s.KeepsIn (execEngineCommandStart cmd s) := by
  simp [execEngineCommandStart]

@[simp] theorem execIdleBeat_keepsIn (core : Nat) (part : Fin 4) (x : Strm) (s : State) : s.KeepsIn (execIdleBeat core part x s) := by
  have hnew := State.boundary_keepsLimits (State.releaseStream_keepsLimits (.refl s) (slotKey core part.val (s.feNow core part.val x).next) x)
    core part.val x (s.feNow core part.val x).next none
  unfold execIdleBeat
  simp -implicitDefEqProofs [hnew]

@[simp] theorem execFlush_keepsIn (part : Fin 4) (s : State) : s.KeepsIn (execFlush part s) := by
  unfold execFlush
  refine State.onLive_keepsIn _ fun s => ?_
  split <;> simp

@[simp] theorem execUnseal_keepsIn (version : BitVec 8) (session : Nat) (part : Fin 4) (s : State) : s.KeepsIn (execUnseal version session part s) := by
  unfold execUnseal
  refine State.onSpdm_keepsIn _ _ fun s => ?_
  split <;> simp

@[simp] theorem execOperatorRelease_keepsIn (part : Fin 4) (s : State) : s.KeepsIn (execOperatorRelease part s) := by
  unfold execOperatorRelease
  refine State.onDoe_keepsIn _ fun s => ?_
  split <;> simp

@[simp] theorem execZeroingComplete_keepsIn (why : ZeroFor) (part : Fin 4) (s : State) : s.KeepsIn (execZeroingComplete why part s) := by
  unfold execZeroingComplete
  refine State.onDoe_keepsIn _ fun s => ?_
  split
  · simp
  · cases why <;> simp

@[simp] theorem execTenantPtRootWrite_keepsIn (version : BitVec 8) (session : Nat) (part : Fin 4) (flush : Bool) (val : BitVec 64) (s : State) :
    s.KeepsIn (execTenantPtRootWrite version session part flush val s) := by
  unfold execTenantPtRootWrite
  refine State.onSpdm_keepsIn _ _ fun s => ?_
  split
  · simp
  · split
    · split <;> simp
    · simp

@[simp] theorem execTenantDebugExit_keepsIn (version : BitVec 8) (session : Nat) (part : Fin 4) (s : State) :
    s.KeepsIn (execTenantDebugExit version session part s) := by
  unfold execTenantDebugExit
  refine State.onSpdm_keepsIn _ _ fun s => ?_
  split <;> simp

@[simp] theorem execVendorDebugToken_keepsIn (version : BitVec 8) (token : List Byte) (s : State) :
    s.KeepsIn (execVendorDebugToken version token s) := by
  have hkill : ∀ t : State, t.Keeps ((List.range 4).foldl (fun (t : State) q => if t.vendorTakes q then t.killPart q else t) t) :=
    fun t => State.foldl_keeps (fun s q => by split <;> simp) _ (.refl t)
  unfold execVendorDebugToken
  refine State.onSpdm_keepsIn _ _ fun s => ?_
  dsimp only
  split
  · split
    · have hnonce : s.Keeps (s.updSec fun c => { c with nonce := none }) := by simp
      have hkilled := hnonce.trans (hkill _)
      simp [hkilled]
    · simp
  · simp

@[simp] theorem execSingleStep_keepsIn (session warp : Nat) (x : Strm) (s : State) : s.KeepsIn (execSingleStep session warp x s) := by
  unfold execSingleStep
  refine State.debugReq_keepsIn _ _ _ fun w s => ?_
  split <;> simp [Stream.letGo]

theorem Stream.passBrk_stack (st : Stream) (e : Bool) : (st.passBrk e).stack = st.stack := by
  unfold Stream.passBrk Stream.shift
  dsimp only
  split <;> split <;> rfl

theorem Stream.letGo_stack (st : Stream) : st.letGo.stack = st.stack := rfl

@[simp] theorem execDebugRelease_keepsIn (session warp : Nat) (x : Strm) (s : State) : s.KeepsIn (execDebugRelease session warp x s) := by
  unfold execDebugRelease
  refine State.debugReq_keepsIn _ _ _ fun w s => ?_
  split <;> simp -implicitDefEqProofs [Stream.letGo_stack, Stream.passBrk_stack]

@[simp] theorem execDebugDeliverBreakpoint_keepsIn (session warp : Nat) (x : Strm) (s : State) :
    s.KeepsIn (execDebugDeliverBreakpoint session warp x s) := by
  unfold execDebugDeliverBreakpoint
  refine State.debugReq_keepsIn _ _ _ fun w s => ?_
  split
  · have hturn : s.Keeps (s.updStream warp x fun st => ({ st with phase := .released } : Stream).beginTurn) :=
      KeepsLimits.updStream (.refl _ _) _ _ fun st => (congrArg List.length (Stream.beginTurn_stack _)).le
    exact State.takeCounted_keepsLimits hturn warp x _
  · simp

@[simp] theorem execIllegalInstruction_keepsIn (s : State) : s.KeepsIn (execIllegalInstruction s) := by
  unfold execIllegalInstruction
  split
  · simp
  · split
    · simp
    · split
      · simp
      · dsimp only
        split <;> simp

end Sys2Proof.Machine
end

section
/-! SUPPORT. Obligation O34, the limits themselves, and what an instruction's gate leaves room for (R262). -/

namespace Sys2Proof.Machine

/-! ### Limits -/

/-- The limits that every warp meets: each queue within its depth, each divergence stack within 16 entries (R150, R322). -/
def Bounds.full : Bounds := ⟨fun _ => queueDepth, fun _ _ => 16⟩

theorem fits_iff {s : State} : Fits s ↔ Bounds.full.Hold s.warps := Iff.rfl

/-- A step that keeps REVOKED and the limits. -/
structure State.Stays (s t : State) : Prop where
  revoked : s.sec.revoked = true → t.sec.revoked = true
  fits : Fits s → Fits t

theorem KeepsLimits.stays {s t : State} (h : s.Keeps t) : s.Stays t := ⟨h.revoked, h.within Bounds.full⟩

/-- The next state, if the outcome has one, keeps REVOKED and the limits. -/
def State.StaysIn (s : State) (o : Out) : Prop := ∀ t : State, o = .next t → s.Stays t

theorem State.KeepsIn.staysIn {s : State} {o : Out} (h : s.KeepsIn o) : s.StaysIn o := fun t ht => (h t ht).stays

theorem State.Keeps.staysIn {s t : State} {o : Out} (h : s.Keeps t) (h' : t.StaysIn o) : s.StaysIn o :=
  fun u hu => ⟨fun hr => (h' u hu).revoked (h.revoked hr), fun hf => (h' u hu).fits (h.within Bounds.full hf)⟩

/-! ### Presented instructions -/

/-- The bounds at a presented instruction: what its warp's queues and stacks hold; the limits at every other warp. -/
def Ctx.bounds (c : Ctx) : Bounds where
  queue k q := if k = c.key then (c.w.live q).length else queueDepth q
  stack k x := if k = c.key then (c.w.strm x).stack.length else 16

theorem Ctx.bounds_hold {c : Ctx} {s : State} (hw : s.warp? c.key = some c.w) (h : Bounds.full.Hold s.warps) : c.bounds.Hold s.warps := by
  refine ⟨h.1, fun e he => ?_⟩
  by_cases hk : e.1 = c.key
  · have hfound : s.warps.find? e.1 = some e.2 := Tab.find?_of_mem (h.1.imp Nat.ne_of_lt) he
    rw [hk] at hfound
    have hew : c.w = e.2 := Option.some.inj (hw.symm.trans hfound)
    exact ⟨fun q => by simp [Ctx.bounds, hk, hew], fun x => by simp [Ctx.bounds, hk, hew]⟩
  · exact ⟨fun q => by simpa [Ctx.bounds, Bounds.full, hk] using (h.2 e he).1 q,
      fun x => by simpa [Ctx.bounds, Bounds.full, hk] using (h.2 e he).2 x⟩

/-- A queue destination has room for one entry more (step 4 of R262). -/
def Ctx.Room (c : Ctx) (d : Dst) : Prop := ∀ q, dstQueue d = some q → (c.w.live q).length < queueDepth q

/-- From `s`, where the instruction of `c` is presented, to `t` REVOKED and the limits stay. -/
structure Ctx.Ends (c : Ctx) (s t : State) : Prop where
  revoked : s.sec.revoked = true → t.sec.revoked = true
  fits : c.w.Within queueDepth (fun _ => 16) → c.bounds.Hold s.warps → Fits t

/-- The next state, if the outcome has one, keeps REVOKED and the limits. -/
def Ctx.EndsIn (c : Ctx) (s : State) (o : Out) : Prop := ∀ t : State, o = .next t → c.Ends s t

section
variable {c : Ctx} {s t : State}

theorem KeepsLimits.ends (h : s.Keeps t) : c.Ends s t := by
  refine ⟨h.revoked, fun hw hs => ?_⟩
  obtain ⟨hkeys, hall⟩ := h.within c.bounds hs
  refine fits_iff.mpr ⟨hkeys, fun e he => ⟨fun q => ((hall e he).1 q).trans ?_, fun x => ((hall e he).2 x).trans ?_⟩⟩
  · unfold Ctx.bounds Bounds.full
    dsimp only
    split
    · exact hw.1 q
    · exact le_rfl
  · unfold Ctx.bounds Bounds.full
    dsimp only
    split
    · exact hw.2 x
    · exact le_rfl

theorem State.KeepsIn.endsIn {o : Out} (h : s.KeepsIn o) : c.EndsIn s o := fun t ht => (h t ht).ends

theorem Ctx.Ends.keeps {u : State} (h : c.Ends s t) (h' : t.Keeps u) : c.Ends s u :=
  ⟨fun hr => h'.revoked (h.revoked hr), fun hw hs => h'.within Bounds.full (h.fits hw hs)⟩

@[simp] theorem Ctx.endsIn_next : c.EndsIn s (.next t) ↔ c.Ends s t :=
  ⟨fun h => h t rfl, fun h _ ht => Host.Outcome.next.inj ht ▸ h⟩

end

/-- A change of the presented warp that takes it from its bounds to within the limits. -/
theorem Ctx.ends_modify {c : Ctx} {s t u : State} {f : Warp → Warp} (h : s.Keeps t) (hwarps : u.warps = t.warps.modify c.key f)
    (hsec : u.sec = t.sec) (hf : ∀ w : Warp, w.Within (fun q => (c.w.live q).length) (fun x => (c.w.strm x).stack.length) →
      c.w.Within queueDepth (fun _ => 16) → (f w).Within queueDepth fun _ => 16) : c.Ends s u := by
  refine ⟨fun hr => by rw [hsec]; exact h.revoked hr, fun hw hs => ?_⟩
  obtain ⟨hkeys, hall⟩ := h.within c.bounds hs
  rw [fits_iff, hwarps]
  refine ⟨by rw [Tab.keys_modify]; exact hkeys, fun e he => ?_⟩
  obtain ⟨d, hd, rfl⟩ := List.mem_map.mp he
  have hmet := hall d hd
  by_cases hk : d.1 = c.key
  · simp only [Ctx.bounds, hk, if_true] at hmet
    rw [if_pos hk]
    exact hf _ hmet hw
  · simp only [Ctx.bounds, hk, if_false] at hmet
    rw [if_neg hk]
    exact hmet

section
variable {c : Ctx} {s t : State}

@[simp] theorem Warp.reserve_strm (w : Warp) (q : Nat) (r : Resv) (x : Strm) : (w.reserve q r).strm x = w.strm x := by cases x <;> rfl

/-- A reservation takes the room that there was. -/
theorem Ctx.ends_reserve (h : s.Keeps t) {q : Nat} (hq : (c.w.live q).length < queueDepth q) (r : Resv) :
    c.Ends s (t.updWarp c.key fun w => w.reserve q r) := by
  refine Ctx.ends_modify h rfl rfl fun w hw hfull => ⟨fun p => (w.reserve_live q r p).trans ?_, fun x => ?_⟩
  · have hp : (w.live p).length ≤ (c.w.live p).length := hw.1 p
    split
    next hpq => subst hpq; omega
    next => exact hp.trans (hfull.1 p)
  · rw [Warp.reserve_strm]
    exact (hw.2 x).trans (hfull.2 x)

theorem pushGate_room {w : Warp} {q n : Nat} (h : pushGate w q n = .go) : (w.live q).length + n ≤ queueDepth q := by
  unfold pushGate at h
  split at h
  · split at h <;> exact nomatch h
  · omega

/-- Step 4 of R262: without room in the destination's queue the instruction does not come to its own steps. -/
theorem Use.room_of_gate {u : Use} {w : Warp} {x : Strm} {now q : Nat} (h : u.gate w x now = .go) (hq : dstQueue u.dst = some q) :
    (w.live q).length < queueDepth q := by
  unfold Use.gate at h
  dsimp only at h
  split at h
  · exact nomatch h
  · split at h
    · exact nomatch h
    · split at h
      · exact nomatch h
      · split at h
        next hpush =>
          rw [hq] at hpush
          exact pushGate_room hpush
        next hpush => exact absurd h hpush

/-- What holds of a presented instruction's context: its stream is its warp's, and the destination of its use has room. -/
structure Ctx.Presented (c : Ctx) (u : Use) : Prop where
  strm : c.st = c.w.strm c.x
  room : c.Room u.dst

/-- The checks before an instruction's own keep the limits, and so does the instruction if it does where it is presented. -/
theorem issue_staysIn {u : Use} {k : Ctx → Out} (hk : ∀ c : Ctx, c.Presented u → c.EndsIn s (k c)) : s.StaysIn (issue u s k) := by
  unfold issue
  split
  · exact fun t ht => nomatch ht
  next key x hcur =>
    split
    · exact fun t ht => nomatch ht
    next w hw =>
      split
      · exact fun t ht => nomatch ht
      next g hg =>
        split
        · exact State.KeepsIn.staysIn (by simp)
        · exact State.KeepsIn.staysIn (by simp)
        · exact State.KeepsIn.staysIn (by simp)
        next hgate =>
          intro t ht
          obtain ⟨hrevoked, hfits⟩ := hk _ ⟨rfl, fun q hq => Use.room_of_gate hgate hq⟩ t ht
          refine ⟨hrevoked, fun hf => ?_⟩
          exact hfits (hf.2 (key, w) (Tab.mem_of_find? hw)) (Ctx.bounds_hold hw hf)

theorem issue_keepsIn {u : Use} {k : Ctx → Out} (hk : ∀ c : Ctx, s.KeepsIn (k c)) : s.KeepsIn (issue u s k) := by
  unfold issue
  split
  · simp
  · split
    · simp
    · split
      · simp
      · split
        · simp
        · simp
        · simp
        · exact hk _

end

end Sys2Proof.Machine
end

section
/-! SUPPORT. Obligation O34, the arithmetic, predicate, lane, matrix and memory instructions keep the limits. -/

namespace Sys2Proof.Machine

section
variable {c : Ctx} {s t : State}

/-! ### Steps that instructions share -/

theorem Ctx.trap_endsIn {d : Ctx} (h : s.Keeps t) (tr : Trap) : d.EndsIn s (c.trap t tr) := (c.trap_keepsIn h tr).endsIn

theorem Ctx.finish_endsIn {d : Ctx} (h : s.Keeps t) : d.EndsIn s (c.finish t) := (c.finish_keepsIn h).endsIn

theorem Ctx.commit_ends (h : c.Ends s t) (e : Latch) : c.Ends s (c.commit t e) := h.keeps (c.commit_keepsLimits (.refl t) e)

theorem Ctx.putVec_ends (h : s.Keeps t) {d : Dst} (hd : c.Room d) (lat : Nat) (v : RVal) (act : Mask) : c.Ends s (c.putVec t d lat v act) := by
  have hland : ∀ tick e, s.Keeps (t.land c.key c.x tick e) := fun tick e => KeepsLimits.land h c.key c.x tick e
  cases d with
  | q n => exact Ctx.ends_reserve (hland _ _) (hd n.val rfl) _
  | _ => exact (hland _ _).ends

theorem Ctx.putLater_ends (h : s.Keeps t) {d : Dst} (hd : c.Room d) (land tag : Nat) : c.Ends s (c.putLater t d land tag) := by
  have hland : ∀ tick e, s.Keeps (t.land c.key c.x tick e) := fun tick e => KeepsLimits.land h c.key c.x tick e
  cases d with
  | q n => exact Ctx.ends_reserve (hland _ _) (hd n.val rfl) _
  | _ => exact (hland _ _).ends

theorem Ctx.finishVec_endsIn (h : s.Keeps t) {d : Dst} (hd : c.Room d) (lat : Nat) (v : RVal) : c.EndsIn s (c.finishVec t d lat v) :=
  Ctx.endsIn_next.2 (Ctx.commit_ends (Ctx.putVec_ends h hd lat v c.act) _)

theorem Ctx.finishPtr_endsIn (h : s.Keeps t) {d : Dst} (hd : c.Room d) (n : Nat) : c.EndsIn s (c.finishPtr t d n) :=
  Ctx.endsIn_next.2 (Ctx.commit_ends (Ctx.putVec_ends h hd 1 _ Mask.full) _)

theorem Ctx.unmarked_endsIn {d : Ctx} (h : s.Keeps t) (l : List RVal) {k : Out} (hk : d.EndsIn s k) : d.EndsIn s (c.unmarked t l k) := by
  unfold Ctx.unmarked
  split
  · exact Ctx.trap_endsIn h _
  · exact hk

theorem Ctx.arith_endsIn (h : s.Keeps t) (fl : BitVec 6) {k : State → Out} (hk : ∀ u : State, s.Keeps u → c.EndsIn s (k u)) :
    c.EndsIn s (c.arith t fl k) := by
  unfold Ctx.arith
  split
  · exact Ctx.trap_endsIn (c.raise_keepsLimits h fl) _
  · exact hk _ (c.raise_keepsLimits h fl)

theorem Ctx.finishArith_endsIn (h : s.Keeps t) {d : Dst} (hd : c.Room d) (lat : Nat) (r : Vec × BitVec 6) : c.EndsIn s (c.finishArith t d lat r) :=
  Ctx.arith_endsIn h r.2 fun _ hu => Ctx.finishVec_endsIn hu hd lat _

theorem Ctx.write_keepsLimits (h : s.Keeps t) (wct : Nat) (cells : List (Nat × Byte × Option MCls)) (atoms : List Atom) (ret : AtomRet) :
    s.Keeps (c.write t wct cells atoms ret) := h.same (by simp)

theorem Ctx.save_endsIn (h : s.Keeps t) {d : Dst} (hd : c.Room d) (lat : Nat) (ws : List Word) : c.EndsIn s (c.save t d lat ws) := by
  unfold Ctx.save
  dsimp only
  split
  · exact Ctx.trap_endsIn h _
  · exact Ctx.finishPtr_endsIn (c.mark_keepsLimits (Ctx.write_keepsLimits h _ _ _ _) _ _) hd _

theorem Ctx.restore_endsIn (h : s.Keeps t) (d : Dst) (n : Nat) (form : List Nat → Bool) {k : List Nat → Out}
    (hk : ∀ ws, form ws = true → c.EndsIn s (k ws)) : c.EndsIn s (c.restore t d n form k) := by
  unfold Ctx.restore
  split
  · exact Ctx.trap_endsIn h _
  · split
    · exact Ctx.trap_endsIn h _
    · split
      next hform => exact hk _ hform
      next => exact Ctx.trap_endsIn h _

theorem Ctx.matrix_endsIn (h : s.Keeps t) {k : Out} (hk : c.EndsIn s k) : c.EndsIn s (c.matrix t k) := by
  unfold Ctx.matrix
  dsimp only
  split
  · exact (State.keepsIn_next.2 (h.same (by simp))).endsIn
  · exact hk

theorem Ctx.occupy_keepsLimits (h : s.Keeps t) (n : Nat) : s.Keeps (c.occupy t n) := h.same (by simp)

/-- Only the key and the warp of a context matter. -/
theorem Ctx.EndsIn.congr {d : Ctx} {o : Out} (h : d.EndsIn s o) (hkey : d.key = c.key) (hw : d.w = c.w) : c.EndsIn s o := by
  intro t ht
  obtain ⟨hrevoked, hfits⟩ := h t ht
  have hbounds : d.bounds = c.bounds := by simp only [Ctx.bounds, hkey, hw]
  exact ⟨hrevoked, by rwa [hbounds, hw] at hfits⟩

/-! ### Arithmetic, predicates and lanes -/

theorem vecInstr_staysIn (u : Use) (lat : Nat) (f : List Word → LaneRes) (s : State) : s.StaysIn (vecInstr u lat f s) :=
  issue_staysIn fun _ hc => Ctx.unmarked_endsIn (.refl s) _ (Ctx.finishArith_endsIn (.refl s) hc.room lat _)

theorem vecInstrD_staysIn (u : Use) (lat : Nat) (f : List Word → LaneRes) (s : State) : s.StaysIn (vecInstrD u lat f s) :=
  issue_staysIn fun _ hc => Ctx.unmarked_endsIn (.refl s) _ (Ctx.finishArith_endsIn (.refl s) hc.room lat _)

theorem addSub_staysIn (u : Use) (sub : Bool) (s : State) : s.StaysIn (addSub u sub s) :=
  issue_staysIn fun _ hc => Ctx.unmarked_endsIn (.refl s) _ (Ctx.finishVec_endsIn (.refl s) hc.room 1 _)

theorem moveVal_staysIn (u : Use) (s : State) : s.StaysIn (moveVal u s) :=
  issue_staysIn fun _ hc => Ctx.unmarked_endsIn (.refl s) _ (Ctx.finishVec_endsIn (.refl s) hc.room 1 _)

theorem compare_staysIn (u : Use) (p : Nat) (acc : Bool) (f : Word → Word → Bool × BitVec 6) (b : Ctx → RVal) (s : State) :
    s.StaysIn (compare u p acc f b s) :=
  issue_staysIn fun c _ => Ctx.unmarked_endsIn (.refl s) _ (Ctx.arith_endsIn (.refl s) _ fun _ hu => (c.finishPred_keepsIn hu _ _ _ _).endsIn)

@[simp] theorem execIcmp_staysIn (o : TC) (s : State) : s.StaysIn (execIcmp o s) := compare_staysIn _ _ _ _ _ s

@[simp] theorem execIcmpu_staysIn (o : TC) (s : State) : s.StaysIn (execIcmpu o s) := compare_staysIn _ _ _ _ _ s

@[simp] theorem execIcmpi_staysIn (o : TCi) (s : State) : s.StaysIn (execIcmpi o s) := compare_staysIn _ _ _ _ _ s

@[simp] theorem execFcmp_staysIn (o : TC) (s : State) : s.StaysIn (execFcmp o s) := compare_staysIn _ _ _ _ _ s

theorem predOp_staysIn (legal e : Bool) (g d a : Nat) (f : Mask → Mask → Mask) (s : State) : s.StaysIn (predOp legal e g d a f s) :=
  (issue_keepsIn fun c => c.finishPred_keepsIn (.refl s) _ _ _ _).staysIn

@[simp] theorem execPand_staysIn (o : PP) (s : State) : s.StaysIn (execPand o s) := predOp_staysIn _ _ _ _ _ _ s

@[simp] theorem execPor_staysIn (o : PP) (s : State) : s.StaysIn (execPor o s) := predOp_staysIn _ _ _ _ _ _ s

@[simp] theorem execPxor_staysIn (o : PP) (s : State) : s.StaysIn (execPxor o s) := predOp_staysIn _ _ _ _ _ _ s

@[simp] theorem execPnot_staysIn (o : P2) (s : State) : s.StaysIn (execPnot o s) := predOp_staysIn _ _ _ _ _ _ s

@[simp] theorem execPmov_staysIn (o : P2) (s : State) : s.StaysIn (execPmov o s) := predOp_staysIn _ _ _ _ _ _ s

theorem bindGuard_staysIn (o : GB) (neg : Bool) (s : State) : s.StaysIn (bindGuard o neg s) :=
  (issue_keepsIn fun c => c.finishEff_keepsIn (.refl s) _).staysIn

theorem vote_staysIn (o : P2) (f : Mask → Mask → Bool) (s : State) : s.StaysIn (vote o f s) :=
  (issue_keepsIn fun c => c.finishPred_keepsIn (.refl s) _ _ _ _).staysIn

@[simp] theorem execVall_staysIn (o : P2) (s : State) : s.StaysIn (execVall o s) := vote_staysIn _ _ s

@[simp] theorem execVany_staysIn (o : P2) (s : State) : s.StaysIn (execVany o s) := vote_staysIn _ _ s

theorem shuffle_staysIn (u : Use) (idx : Ctx → List RVal) (f : Ctx → Nat → Nat) (s : State) : s.StaysIn (shuffle u idx f s) := by
  refine issue_staysIn fun c hc => ?_
  dsimp only
  split
  · exact Ctx.trap_endsIn (.refl s) _
  · exact Ctx.finishVec_endsIn (.refl s) hc.room 4 _

theorem shuffleN_staysIn (o : T2n) (f : Nat → Nat → Nat) (s : State) : s.StaysIn (shuffleN o f s) :=
  shuffle_staysIn (useT2n o false) (fun _ => []) (fun _ => f o.n.toNat) s

@[simp] theorem execShflx_staysIn (o : T2n) (s : State) : s.StaysIn (execShflx o s) := shuffleN_staysIn o _ s

@[simp] theorem execShflu_staysIn (o : T2n) (s : State) : s.StaysIn (execShflu o s) := shuffleN_staysIn o _ s

@[simp] theorem execShfld_staysIn (o : T2n) (s : State) : s.StaysIn (execShfld o s) := shuffleN_staysIn o _ s

@[simp] theorem execShfli_staysIn (o : T2d) (s : State) : s.StaysIn (execShfli o s) := shuffle_staysIn _ _ _ s

@[simp] theorem execSel_staysIn (o : T3) (s : State) : s.StaysIn (execSel o s) := by
  refine issue_staysIn fun c hc => ?_
  have hroom : ({ c with act := c.st.mask } : Ctx).Room o.d := hc.room
  exact Ctx.EndsIn.congr (Ctx.unmarked_endsIn (.refl s) _ (Ctx.finishVec_endsIn (.refl s) hroom 1 _)) rfl rfl

@[simp] theorem execMovil_staysIn (o : TL) (s : State) : s.StaysIn (execMovil o s) :=
  issue_staysIn fun _ hc => Ctx.finishVec_endsIn (.refl s) hc.room 1 _

@[simp] theorem execMovih_staysIn (o : TLd) (s : State) : s.StaysIn (execMovih o s) :=
  issue_staysIn fun _ hc => Ctx.unmarked_endsIn (.refl s) _ (Ctx.finishArith_endsIn (.refl s) hc.room 1 _)

@[simp] theorem execPvec_staysIn (o : PV) (s : State) : s.StaysIn (execPvec o s) :=
  issue_staysIn fun _ hc => Ctx.finishVec_endsIn (.refl s) hc.room 1 _

@[simp] theorem execQstat_staysIn (o : QS) (s : State) : s.StaysIn (execQstat o s) :=
  issue_staysIn fun _ hc => Ctx.finishVec_endsIn (.refl s) hc.room 1 _

@[simp] theorem execRdsr_staysIn (o : Rdsr) (s : State) : s.StaysIn (execRdsr o s) :=
  issue_staysIn fun _ hc => Ctx.finishVec_endsIn (.refl s) hc.room 1 _

@[simp] theorem execRedl_staysIn (o : T2o) (s : State) : s.StaysIn (execRedl o s) :=
  issue_staysIn fun _ hc => Ctx.unmarked_endsIn (.refl s) _ (Ctx.finishArith_endsIn (.refl s) hc.room 10 _)

@[simp] theorem execScanl_staysIn (o : T2o) (s : State) : s.StaysIn (execScanl o s) :=
  issue_staysIn fun _ hc => Ctx.unmarked_endsIn (.refl s) _ (Ctx.finishArith_endsIn (.refl s) hc.room 10 _)

@[simp] theorem execBcast_staysIn (o : T2) (s : State) : s.StaysIn (execBcast o s) := by
  refine issue_staysIn fun c hc => ?_
  dsimp only
  split
  · exact Ctx.trap_endsIn (.refl s) _
  · exact Ctx.finishVec_endsIn (.refl s) hc.room 4 _

@[simp] theorem execBallot_staysIn (o : PV) (s : State) : s.StaysIn (execBallot o s) :=
  issue_staysIn fun _ hc => Ctx.finishVec_endsIn (.refl s) hc.room 2 _

@[simp] theorem execIaddi_staysIn (o : TI) (s : State) : s.StaysIn (execIaddi o s) :=
  issue_staysIn fun _ hc => Ctx.unmarked_endsIn (.refl s) _ (Ctx.finishVec_endsIn (.refl s) hc.room 1 _)

@[simp] theorem execCtag_staysIn (o : Ctag) (s : State) : s.StaysIn (execCtag o s) :=
  issue_staysIn fun _ hc => Ctx.finishVec_endsIn (.refl s) hc.room 1 _

@[simp] theorem execCmpr_staysIn (o : T2d) (s : State) : s.StaysIn (execCmpr o s) := by
  unfold execCmpr
  dsimp only
  refine issue_staysIn fun c hc => ?_
  have hroom : c.Room o.d := hc.room
  split
  · exact Ctx.trap_endsIn (.refl s) _
  · exact Ctx.endsIn_next.2 (Ctx.commit_ends ((Ctx.putVec_ends (.refl s) hroom 4 _ _).keeps (KeepsLimits.land (.refl _ _) _ _ _ _)) _)

@[simp] theorem execFmtw_staysIn (o : NA) (s : State) : s.StaysIn (execFmtw o s) := by
  refine (issue_keepsIn fun c => ?_).staysIn
  split
  · simp
  · split <;> simp

@[simp] theorem execWrsr_staysIn (o : Wrsr) (s : State) : s.StaysIn (execWrsr o s) := by
  refine (issue_keepsIn fun c => ?_).staysIn
  split <;> simp

/-! ### The matrix unit -/

theorem matrixMultiply_staysIn (o : TM) (sparse : Bool) (s : State) : s.StaysIn (matrixMultiply o sparse s) := by
  refine issue_staysIn fun c hc => Ctx.matrix_endsIn (.refl s) ?_
  dsimp only
  split
  · exact Ctx.trap_endsIn (.refl s) _
  · refine Ctx.arith_endsIn (.refl s) _ fun u hu => Ctx.finish_endsIn (Ctx.occupy_keepsLimits (State.updWarp_keepsLimits hu c.key fun w => ?_) _)
    exact Warp.narrows_foldl (fun w r => w.putTile_narrows _ _ _) _ w

@[simp] theorem execAccrd_staysIn (o : Accrd) (s : State) : s.StaysIn (execAccrd o s) := by
  refine issue_staysIn fun c hc => Ctx.matrix_endsIn (.refl s) ?_
  dsimp only
  refine Ctx.endsIn_next.2 (Ctx.commit_ends (KeepsLimits.ends (Ctx.occupy_keepsLimits ?_ 2)) _)
  exact State.foldl_keeps (fun s r => KeepsLimits.land (.refl _ _) _ _ _ _) _ (.refl s)

@[simp] theorem execAccwr_staysIn (o : NA) (s : State) : s.StaysIn (execAccwr o s) := by
  refine issue_staysIn fun c _ => Ctx.matrix_endsIn (.refl s) (Ctx.unmarked_endsIn (.refl s) _ ?_)
  refine Ctx.finish_endsIn (Ctx.occupy_keepsLimits (State.updWarp_keepsLimits (.refl s) c.key fun w => ?_) 2)
  exact Warp.narrows_foldl (fun w q => w.putTile_narrows _ _ _) _ w

@[simp] theorem execAccz_staysIn (o : N3) (s : State) : s.StaysIn (execAccz o s) := by
  refine issue_staysIn fun c _ => Ctx.matrix_endsIn (.refl s) ?_
  refine Ctx.finish_endsIn (Ctx.occupy_keepsLimits (State.updWarp_keepsLimits (.refl s) c.key fun w => ?_) 2)
  exact Warp.narrows_foldl (fun w q => w.putTile_narrows _ _ _) _ w

/-! ### Memory -/

theorem scratchStore_staysIn (u : Use) (n : Nat) (data : Ctx → List RVal) (bytes : Ctx → Nat → List Byte) (s : State) :
    s.StaysIn (scratchStore u n data bytes s) := by
  refine issue_staysIn fun c _ => Ctx.unmarked_endsIn (.refl s) _ ?_
  dsimp only
  split
  · exact Ctx.trap_endsIn (.refl s) _
  · split
    · exact Ctx.finish_endsIn (.refl s)
    · exact Ctx.finish_endsIn (c.mark_keepsLimits (Ctx.write_keepsLimits (.refl s) _ _ _ _) _ _)

@[simp] theorem execSts_staysIn (o : St) (s : State) : s.StaysIn (execSts o s) := scratchStore_staysIn _ _ _ _ s

@[simp] theorem execStsw_staysIn (o : St) (s : State) : s.StaysIn (execStsw o s) := scratchStore_staysIn _ _ _ _ s

@[simp] theorem execLds_staysIn (o : Lds) (s : State) : s.StaysIn (execLds o s) := by
  refine issue_staysIn fun c hc => Ctx.unmarked_endsIn (.refl s) _ ?_
  dsimp only
  split
  · exact Ctx.trap_endsIn (.refl s) _
  · exact Ctx.finishVec_endsIn (.refl s) hc.room _ _

@[simp] theorem execLdsw_staysIn (o : T2d) (s : State) : s.StaysIn (execLdsw o s) := by
  unfold execLdsw
  dsimp only
  refine issue_staysIn fun c hc => Ctx.unmarked_endsIn (.refl s) _ ?_
  have hroom : c.Room o.d := hc.room
  split
  · exact Ctx.trap_endsIn (.refl s) _
  · exact Ctx.endsIn_next.2 (Ctx.commit_ends ((Ctx.putVec_ends (.refl s) hroom _ _ _).keeps (KeepsLimits.land (.refl _ _) _ _ _ _)) _)

@[simp] theorem execAts_staysIn (o : TA) (s : State) : s.StaysIn (execAts o s) := by
  unfold execAts
  dsimp only
  refine issue_staysIn fun c hc => Ctx.unmarked_endsIn (.refl s) _ ?_
  have hroom : c.Room o.d := hc.room
  split
  · exact Ctx.trap_endsIn (.refl s) _
  · split
    · exact Ctx.endsIn_next.2 (Ctx.commit_ends ((Ctx.putLater_ends (.refl s) hroom _ _).keeps (State.deliver_keepsLimits (.refl _) _ _ _)) _)
    · exact Ctx.endsIn_next.2 (Ctx.commit_ends ((Ctx.putLater_ends (.refl s) hroom _ _).keeps
        (c.mark_keepsLimits (Ctx.write_keepsLimits (.refl _) _ _ _ _) _ _)) _)

theorem hbmAccess_endsIn {c : Ctx} {s : State} (lo hi : RVal) (n : Nat) (apOk write : Bool) {k : State → List (Nat × Nat) → List (Nat × Nat) → Out}
    (hk : ∀ u vas pas, s.Keeps u → c.EndsIn s (k u vas pas)) : c.EndsIn s (hbmAccess c s lo hi n apOk write k) := by
  have hfills : s.Keeps (s.retryFills c.w.core (c.key, c.x)) := by simp
  unfold hbmAccess
  dsimp only
  split
  · exact Ctx.trap_endsIn (.refl s) _
  · split
    · exact (c.park_keepsIn (hfills.same (by simp)) _).endsIn
    · split
      · exact Ctx.trap_endsIn hfills _
      · split
        · exact (c.park_keepsIn hfills _).endsIn
        · exact hk _ _ _ hfills

theorem State.takeBeats_keepsLimits (h : s.Keeps t) (core arr : Nat) (beats : List Nat) : s.Keeps (t.takeBeats core arr beats).2 :=
  h.same (t.takeBeats_sameLimits core arr beats)

theorem State.addOutstanding_keepsLimits (h : s.Keeps t) (core n : Nat) : s.Keeps (t.addOutstanding core n) := h

theorem hbmLoad_staysIn (o : Ldg) (inv : Bool) (s : State) : s.StaysIn (hbmLoad o inv s) := by
  refine issue_staysIn fun c hc => Ctx.unmarked_endsIn (.refl s) _ (hbmAccess_endsIn _ _ _ _ _ fun u vas pas hu => ?_)
  have hroom : c.Room o.d := hc.room
  have hreads : ∀ (t : State) (rs : List PRead), c.Ends s t → c.Ends s { t with reads := rs } := fun t rs ht => ⟨ht.revoked, ht.fits⟩
  exact Ctx.endsIn_next.2 (Ctx.commit_ends (hreads _ _ ((Ctx.putLater_ends (State.takeBeats_keepsLimits hu _ _ _) hroom _ _).keeps
    (State.addOutstanding_keepsLimits (.refl _) _ _))) _)

@[simp] theorem execStg_staysIn (o : St) (s : State) : s.StaysIn (execStg o s) := by
  refine issue_staysIn fun c hc => Ctx.unmarked_endsIn (.refl s) _ (hbmAccess_endsIn _ _ _ _ _ fun u vas pas hu => ?_)
  dsimp only
  split
  · exact Ctx.finish_endsIn (State.addOutstanding_keepsLimits hu _ _)
  · exact Ctx.finish_endsIn (c.mark_keepsLimits (State.addOutstanding_keepsLimits
      (Ctx.write_keepsLimits (State.takeBeats_keepsLimits hu _ _ _) _ _ _ _) _ _) _ _)

@[simp] theorem execAtg_staysIn (o : TA) (s : State) : s.StaysIn (execAtg o s) := by
  unfold execAtg
  dsimp only
  refine issue_staysIn fun c hc => Ctx.unmarked_endsIn (.refl s) _ (hbmAccess_endsIn _ _ _ _ _ fun u vas pas hu => ?_)
  have hroom : c.Room o.d := hc.room
  have hput : ∀ (none : Bool) (t : State) (land tag : Nat), s.Keeps t → c.Ends s (if none = true then t else c.putLater t o.d land tag) := by
    intro none t land tag ht
    split
    · exact ht.ends
    · exact Ctx.putLater_ends ht hroom _ _
  have hout : ∀ (none : Bool) (core n land tag : Nat) (bs : List Nat), c.Ends s (if none = true then (u.takeBeats core n bs).2
      else c.putLater (u.takeBeats core n bs).2 o.d land tag) :=
    fun none core n land tag bs => hput none _ land tag (State.takeBeats_keepsLimits hu core n bs)
  split
  · exact Ctx.endsIn_next.2 (Ctx.commit_ends ((hout _ _ _ _ _ _).keeps
      (State.deliver_keepsLimits (State.addOutstanding_keepsLimits (.refl _) _ _) _ _ _)) _)
  · exact Ctx.endsIn_next.2 (Ctx.commit_ends ((hout _ _ _ _ _ _).keeps (c.mark_keepsLimits
      (State.addOutstanding_keepsLimits (Ctx.write_keepsLimits (.refl _) _ _ _ _) _ _) _ _)) _)

end

end Sys2Proof.Machine
end

section
/-! SUPPORT. Obligation O34, the control, synchronisation, save and restore instructions keep the limits. -/

namespace Sys2Proof.Machine

section
variable {c : Ctx} {s t : State}

/-! ### Control -/

/-- The presented stream is changed; its stack, which was at most as deep as at the issue, stays within 16 entries. -/
theorem Ctx.ends_updStream (h : s.Keeps t) {f : Stream → Stream} (hf : ∀ st : Stream, st.stack.length ≤ (c.w.strm c.x).stack.length →
    (c.w.strm c.x).stack.length ≤ 16 → (f st).stack.length ≤ 16) : c.Ends s (t.updStream c.key c.x f) := by
  refine Ctx.ends_modify (f := fun w => w.setStrm c.x (f (w.strm c.x))) h rfl rfl fun w hw hfull => ⟨fun q => ?_, fun y => ?_⟩
  · rw [Warp.live, Warp.setStrm_queue]
    exact (hw.1 q).trans (hfull.1 q)
  · by_cases hy : y = c.x
    · rw [hy, Warp.setStrm_strm]
      exact hf _ (hw.2 c.x) (hfull.2 c.x)
    · rw [Warp.setStrm_strm_ne _ _ hy]
      exact (hw.2 y).trans (hfull.2 y)

theorem Ctx.transfer_endsIn (target : Nat) {f : Stream → Stream} (hf : ∀ st : Stream, st.stack.length ≤ (c.w.strm c.x).stack.length →
    (c.w.strm c.x).stack.length ≤ 16 → (f st).stack.length ≤ 16) : c.EndsIn s (c.transfer s target f) :=
  Ctx.endsIn_next.2 (Ctx.ends_updStream (c.commitTo_keepsLimits (.refl s) _ _) hf)

theorem Ctx.untaken_endsIn : c.EndsIn s (c.untaken s) := Ctx.finish_endsIn (.refl s)

@[simp] theorem execBra_staysIn (o : TB) (s : State) : s.StaysIn (execBra o s) := by
  refine issue_staysIn fun c _ => ?_
  split
  · exact Ctx.untaken_endsIn
  · split
    · exact Ctx.transfer_endsIn _ fun _ => Nat.le_trans
    · exact Ctx.trap_endsIn (.refl s) _

@[simp] theorem execBrx_staysIn (o : AG) (s : State) : s.StaysIn (execBrx o s) := by
  refine issue_staysIn fun c _ => ?_
  split
  · exact Ctx.untaken_endsIn
  · split
    · exact Ctx.trap_endsIn (.refl s) _
    · dsimp only
      split
      · exact Ctx.trap_endsIn (.refl s) _
      · exact Ctx.transfer_endsIn _ fun _ => Nat.le_trans

/-- A call pushes one entry, and only onto a stack of fewer than 16 (R322). -/
@[simp] theorem execCall_staysIn (o : TB) (s : State) : s.StaysIn (execCall o s) := by
  refine issue_staysIn fun c hc => ?_
  split
  · exact Ctx.untaken_endsIn
  · split
    · exact Ctx.trap_endsIn (.refl s) _
    next hdeep =>
      rw [hc.strm] at hdeep
      split
      · refine Ctx.transfer_endsIn _ fun st hst _ => ?_
        rw [List.length_cons]
        omega
      · exact Ctx.trap_endsIn (.refl s) _

/-- So does a split (R323). -/
@[simp] theorem execSplit_staysIn (o : Spl) (s : State) : s.StaysIn (execSplit o s) := by
  refine issue_staysIn fun c hc => ?_
  split
  · exact Ctx.trap_endsIn (.refl s) _
  · split
    · exact Ctx.trap_endsIn (.refl s) _
    next hdeep =>
      rw [hc.strm] at hdeep
      refine Ctx.endsIn_next.2 (Ctx.ends_updStream (c.commit_keepsLimits (.refl s) _) fun st hst _ => ?_)
      rw [List.length_cons]
      omega

@[simp] theorem execRet_staysIn (o : G0) (s : State) : s.StaysIn (execRet o s) := by
  refine issue_staysIn fun c hc => ?_
  split
  · exact Ctx.untaken_endsIn
  · split
    next m t r hstack =>
      split
      · refine Ctx.transfer_endsIn _ fun st _ hfull => ?_
        rw [← hc.strm, hstack] at hfull
        exact (Nat.le_succ _).trans hfull
      · exact Ctx.trap_endsIn (.refl s) _
    · exact Ctx.trap_endsIn (.refl s) _

@[simp] theorem execJoin_staysIn (o : E0) (s : State) : s.StaysIn (execJoin o s) := by
  refine issue_staysIn fun c hc => ?_
  split
  next m t r hstack =>
    split
    · refine Ctx.endsIn_next.2 (Ctx.ends_updStream (c.commit_keepsLimits (.refl s) _) fun st _ hfull => ?_)
      rw [← hc.strm, hstack] at hfull
      exact (Nat.le_succ _).trans hfull
    · exact Ctx.trap_endsIn (.refl s) _
  · exact Ctx.trap_endsIn (.refl s) _

@[simp] theorem execYield_staysIn (o : E0) (s : State) : s.StaysIn (execYield o s) := (issue_keepsIn fun c => by simp).staysIn

@[simp] theorem execNopInstr_staysIn (o : E0) (s : State) : s.StaysIn (execNopInstr o s) := (issue_keepsIn fun c => by simp).staysIn

@[simp] theorem execExit_staysIn (o : G0) (s : State) : s.StaysIn (execExit o s) := by
  refine (issue_keepsIn fun c => ?_).staysIn
  split
  · simp [Ctx.untaken]
  · simp [Warp.exitStream_narrows]

@[simp] theorem execTrap_staysIn (o : E0) (s : State) : s.StaysIn (execTrap o s) := (issue_keepsIn fun c => by simp).staysIn

@[simp] theorem execBrk_staysIn (o : E0) (s : State) : s.StaysIn (execBrk o s) := by
  refine (issue_keepsIn fun c => ?_).staysIn
  split <;> simp

@[simp] theorem execCkpt_staysIn (o : E0) (s : State) : s.StaysIn (execCkpt o s) := by
  refine (issue_keepsIn fun c => ?_).staysIn
  split
  · dsimp only
    have hreq : s.Keeps (s.updStream c.key c.x fun st => { st with ckptReq := false }) := by simp
    exact State.keepsIn_next.2 (State.takeCounted_keepsLimits (hreq.same (by simp)) _ _ _)
  · simp

@[simp] theorem execTrapret_staysIn (s : State) : s.StaysIn (execTrapret s) := by
  refine (issue_keepsIn fun c => ?_).staysIn
  split
  · simp
  · dsimp only
    split
    · simp
    · exact State.keepsIn_next.2 (State.updStream_keepsLimits (c.commit_keepsLimits (.refl s) _) c.key c.x fun st => le_rfl)

/-! ### Synchronisation -/

theorem Ctx.parkGranted_keepsIn (h : s.Keeps t) (p : Park) : s.KeepsIn (c.parkGranted t p) := c.park_keepsIn (State.grant_keepsLimits h _ _) p

theorem Ctx.waitTo_keepsIn (h : s.Keeps t) (n : Nat) : s.KeepsIn (c.waitTo t n) := State.keepsIn_next.2 (h.same (by simp))

theorem Ctx.fenceEnd_keepsIn (h : s.Keeps t) (done : Nat) : s.KeepsIn (c.fenceEnd t done) := by
  unfold Ctx.fenceEnd
  split
  · refine c.trap_keepsIn (State.updWarp_keepsLimits h _ fun w => ?_) _
    exact Warp.narrows_of_same ⟨rfl, rfl, rfl⟩
  · dsimp only
    split
    · refine c.trap_keepsIn (State.updWarp_keepsLimits h _ fun w => ?_) _
      exact Warp.narrows_of_same ⟨rfl, rfl, rfl⟩
    · exact c.finish_keepsIn h

theorem Ctx.atPoint_keepsIn (n : Nat) : s.KeepsIn (c.atPoint s n) := by
  unfold Ctx.atPoint
  split
  · split
    · have hcommit : s.Keeps (c.commit s Latch.voidEntry) := c.commit_keepsLimits (.refl s) _
      exact State.keepsIn_next.2 (hcommit.same (by simp))
    · simp
  · simp

theorem Ctx.waitCounter_keepsIn (hbm : Bool) (addr target : Nat) : s.KeepsIn (c.waitCounter s hbm addr target) := by
  unfold Ctx.waitCounter
  split
  · exact c.trap_keepsIn (State.keeps_of_sameLimits (by simp)) _
  · split
    · simp
    · exact Ctx.parkGranted_keepsIn (.refl s) _

theorem Ctx.arriveOn_keepsIn (set : Nat) {k : State → Nat → Out} (hk : ∀ u n, s.Keeps u → s.KeepsIn (k u n)) : s.KeepsIn (c.arriveOn s set k) := by
  unfold Ctx.arriveOn
  dsimp only
  split
  · simp
  · refine hk _ _ ?_
    have harrived : s.Keeps (s.updStream c.key c.x fun st => { st with arrived := st.arrived.put set true }) := by simp
    exact harrived.same (by simp)

theorem Ctx.group0_keepsIn (a : Src) (n : Nat) {k : Out} (hk : s.KeepsIn k) : s.KeepsIn (c.group0 s a n k) := by
  unfold Ctx.group0
  split
  · simp
  · exact hk

@[simp] theorem execFence_staysIn (o : N2) (s : State) : s.StaysIn (execFence o s) := by
  refine (issue_keepsIn fun c => ?_).staysIn
  have hset : ∀ n, s.Keeps (s.updStream c.key c.x fun st => { st with fenceTick := n, timed := false }) := fun n => by simp
  dsimp only
  split
  · exact Ctx.fenceEnd_keepsIn (.refl s) _
  · split
    · split
      · exact Ctx.fenceEnd_keepsIn (.refl s) _
      · split
        · exact Ctx.waitTo_keepsIn (State.grant_keepsLimits (hset _) _ _) _
        · exact Ctx.parkGranted_keepsIn (hset _) _
    · exact Ctx.parkGranted_keepsIn (hset _) _

@[simp] theorem execWaitt_staysIn (o : A1) (s : State) : s.StaysIn (execWaitt o s) := by
  refine (issue_keepsIn fun c => ?_).staysIn
  have hset : ∀ n, s.Keeps (s.updStream c.key c.x fun st => { st with fenceTick := n, timed := true }) := fun n => by simp
  split
  · exact Ctx.atPoint_keepsIn _
  · refine Ctx.group0_keepsIn _ _ ?_
    dsimp only
    split
    · exact Ctx.atPoint_keepsIn _
    · split
      · exact Ctx.waitTo_keepsIn (State.grant_keepsLimits (hset _) _ _) _
      · exact Ctx.parkGranted_keepsIn (hset _) _

@[simp] theorem execWaitc_staysIn (o : A1) (s : State) : s.StaysIn (execWaitc o s) := by
  refine (issue_keepsIn fun c => ?_).staysIn
  split
  · simp
  · refine Ctx.group0_keepsIn _ _ ?_
    dsimp only
    split
    · simp
    · exact Ctx.waitCounter_keepsIn _ _ _

@[simp] theorem execWaitcHbm_staysIn (o : A1) (s : State) : s.StaysIn (execWaitcHbm o s) := by
  refine (issue_keepsIn fun c => ?_).staysIn
  split
  · simp
  · refine Ctx.group0_keepsIn _ _ ?_
    dsimp only
    split
    · split
      · simp
      · exact Ctx.waitCounter_keepsIn _ _ _
    · simp

@[simp] theorem execWaitb_staysIn (o : N2) (s : State) : s.StaysIn (execWaitb o s) := by
  refine (issue_keepsIn fun c => ?_).staysIn
  dsimp only
  split
  · simp
  · split
    · simp
    · exact Ctx.parkGranted_keepsIn (.refl s) _

@[simp] theorem execArrive_staysIn (o : N2) (s : State) : s.StaysIn (execArrive o s) := by
  refine (issue_keepsIn fun c => ?_).staysIn
  dsimp only
  split
  · simp
  · exact Ctx.arriveOn_keepsIn _ fun u n hu => c.finish_keepsIn hu

@[simp] theorem execBar_staysIn (o : N2) (s : State) : s.StaysIn (execBar o s) := by
  refine (issue_keepsIn fun c => ?_).staysIn
  dsimp only
  split
  · simp
  · split
    · simp
    · exact Ctx.arriveOn_keepsIn _ fun u n hu => Ctx.parkGranted_keepsIn hu _

@[simp] theorem execQfence_staysIn (o : A1) (s : State) : s.StaysIn (execQfence o s) := by
  refine (issue_keepsIn fun c => ?_).staysIn
  split
  · simp
  · dsimp only
    split
    · simp
    · exact c.finish_keepsIn (State.keeps_of_sameLimits ⟨rfl, rfl⟩)

theorem Ctx.sendCopy_keepsLimits (h : s.Keeps t) (msg : RVal) (lcore : Nat) : s.Keeps (c.sendCopy t msg lcore) :=
  c.mark_keepsLimits (h.same ⟨rfl, rfl⟩) _ _

@[simp] theorem execSend_staysIn (o : Snd) (s : State) : s.StaysIn (execSend o s) := by
  refine (issue_keepsIn fun c => ?_).staysIn
  split
  · simp
  · dsimp only
    split
    · simp
    · exact c.finish_keepsIn (Ctx.sendCopy_keepsLimits (.refl s) _ _)

@[simp] theorem execSendm_staysIn (o : Sndm) (s : State) : s.StaysIn (execSendm o s) := by
  refine (issue_keepsIn fun c => ?_).staysIn
  split
  · simp
  · dsimp only
    split
    · simp
    · exact c.finish_keepsIn (State.foldl_keeps (fun s n => Ctx.sendCopy_keepsLimits (.refl s) _ _) _ (.refl s))

/-! ### Saves and restores -/

@[simp] theorem execSpill_staysIn (o : SF) (s : State) : s.StaysIn (execSpill o s) :=
  issue_staysIn fun _ hc => Ctx.save_endsIn (.refl s) hc.room 8 _

@[simp] theorem execPsave_staysIn (o : D1) (s : State) : s.StaysIn (execPsave o s) :=
  issue_staysIn fun _ hc => Ctx.save_endsIn (.refl s) hc.room 8 _

@[simp] theorem execDsave_staysIn (o : D1) (s : State) : s.StaysIn (execDsave o s) :=
  issue_staysIn fun _ hc => Ctx.save_endsIn (.refl s) hc.room 8 _

@[simp] theorem execBsave_staysIn (o : D1) (s : State) : s.StaysIn (execBsave o s) :=
  issue_staysIn fun _ hc => Ctx.save_endsIn (.refl s) hc.room 8 _

@[simp] theorem execLsave_staysIn (o : D1) (s : State) : s.StaysIn (execLsave o s) := by
  refine issue_staysIn fun c hc => ?_
  dsimp only
  split
  · exact (Ctx.waitTo_keepsIn (.refl s) _).endsIn
  · exact Ctx.save_endsIn (.refl s) hc.room 8 _

@[simp] theorem execAsave_staysIn (o : ND) (s : State) : s.StaysIn (execAsave o s) := by
  refine issue_staysIn fun c hc => Ctx.matrix_endsIn (.refl s) ?_
  dsimp only
  split
  · exact Ctx.trap_endsIn (.refl s) _
  · exact Ctx.save_endsIn (Ctx.occupy_keepsLimits (.refl s) 2) hc.room 12 _

@[simp] theorem execFill_staysIn (o : SF) (s : State) : s.StaysIn (execFill o s) := by
  refine issue_staysIn fun c hc => ?_
  have hroom : c.Room o.d := hc.room
  have htrap : ∀ tr, c.EndsIn s (c.trap s tr) := fun tr => Ctx.trap_endsIn (.refl s) tr
  dsimp only
  split
  · exact htrap _
  · split
    · exact htrap _
    · split
      · split
        · exact htrap _
        · split <;> exact htrap _
      · split
        · exact htrap _
        · split
          · exact htrap _
          · split
            · exact htrap _
            · exact Ctx.endsIn_next.2 (Ctx.commit_ends (Ctx.putVec_ends (.refl s) hroom _ _ _) _)

@[simp] theorem execPrest_staysIn (o : D1) (s : State) : s.StaysIn (execPrest o s) := by
  refine issue_staysIn fun c hc => Ctx.restore_endsIn (.refl s) _ _ _ fun ws _ => ?_
  exact Ctx.finishPtr_endsIn (State.foldl_keeps (fun s k => KeepsLimits.land (.refl _ _) _ _ _ _) _
    (State.foldl_keeps (fun s p => KeepsLimits.land (.refl _ _) _ _ _ _) _ (.refl s))) hc.room 196

@[simp] theorem execBrest_staysIn (o : D1) (s : State) : s.StaysIn (execBrest o s) := by
  refine issue_staysIn fun c hc => Ctx.restore_endsIn (.refl s) _ _ _ fun ws _ => ?_
  dsimp only
  split
  · exact Ctx.trap_endsIn (.refl s) _
  · refine Ctx.finishPtr_endsIn (State.foldl_keeps (fun s k => ?_) _ (.refl s)) hc.room 16
    exact State.updStream_keepsLimits (State.keeps_of_sameLimits (by simp)) _ _ fun _ => le_rfl

@[simp] theorem execLrest_staysIn (o : D1) (s : State) : s.StaysIn (execLrest o s) := by
  refine issue_staysIn fun c hc => Ctx.restore_endsIn (.refl s) _ _ _ fun ws _ => ?_
  refine Ctx.finishPtr_endsIn (State.updStream_keepsLimits (t := s.bump) (.refl s) c.key c.x fun st => ?_) hc.room 544
  exact le_rfl

@[simp] theorem execArest_staysIn (o : ND) (s : State) : s.StaysIn (execArest o s) := by
  refine issue_staysIn fun c hc => Ctx.matrix_endsIn (.refl s) (Ctx.restore_endsIn (.refl s) _ _ _ fun ws _ => ?_)
  refine Ctx.finishPtr_endsIn (Ctx.occupy_keepsLimits (State.updWarp_keepsLimits (.refl s) c.key fun w => ?_) 2) hc.room 1024
  exact Warp.narrows_of_same ⟨rfl, rfl, rfl⟩

end

end Sys2Proof.Machine
end

section
/-! SUPPORT. Obligation O34, drest: the restored stack and the pointer's destination (R378). -/

namespace Sys2Proof.Machine

section
variable {c : Ctx} {s t : State}

theorem Tab.modify_modify {α : Type} (t : Tab α) (k : Nat) (f g : α → α) : (t.modify k f).modify k g = t.modify k fun a => g (f a) := by
  unfold Tab.modify
  rw [List.map_map]
  refine List.map_congr_left fun e _ => ?_
  by_cases hk : e.1 = k
  · simp [hk]
  · simp [hk]

/-- drest (R378): the restored stack has at most 16 entries, and the pointer takes the destination's room. -/
theorem Ctx.finishPtr_updStream_endsIn {f : Stream → Stream} (hf : ∀ st : Stream, (f st).stack.length ≤ 16) {d : Dst} (hd : c.Room d) (n : Nat) :
    c.EndsIn s (c.finishPtr (s.updStream c.key c.x f) d n) := by
  have hstack : c.Ends s (s.updStream c.key c.x f) := Ctx.ends_updStream (.refl s) fun st _ _ => hf st
  have hland : ∀ tick e, c.Ends s ((s.updStream c.key c.x f).land c.key c.x tick e) := fun tick e => hstack.keeps (KeepsLimits.land (.refl _ _) _ _ _ _)
  refine Ctx.endsIn_next.2 (Ctx.commit_ends ?_ _)
  cases d with
  | q m =>
    refine Ctx.ends_modify (t := s) (f := fun w => ((w.setStrm c.x (f (w.strm c.x))).addLanding _).reserve m.val _) (.refl s)
      (by simp only [Ctx.putVec, State.updWarp_warps, State.land, State.bump_warps, State.updStream, Tab.modify_modify]; rfl) rfl
      fun w hw hfull => ⟨fun p => (Warp.reserve_live _ _ _ p).trans ?_, fun y => ?_⟩
    · have hqueue : ((w.setStrm c.x (f (w.strm c.x))).live p).length ≤ (c.w.live p).length := by
        rw [Warp.live, Warp.setStrm_queue]
        exact hw.1 p
      show ((w.setStrm c.x (f (w.strm c.x))).live p).length + _ ≤ _
      split
      next hp =>
        have hone := hd m.val rfl
        subst hp
        omega
      next => exact hqueue.trans (hfull.1 p)
    · rw [Warp.reserve_strm]
      show ((w.setStrm c.x (f (w.strm c.x))).strm y).stack.length ≤ 16
      by_cases hy : y = c.x
      · rw [hy, Warp.setStrm_strm]
        exact hf _
      · rw [Warp.setStrm_strm_ne _ _ hy]
        exact (hw.2 y).trans (hfull.2 y)
  | _ => exact hland _ _

@[simp] theorem execDrest_staysIn (o : D1) (s : State) : s.StaysIn (execDrest o s) := by
  refine issue_staysIn fun c hc => Ctx.restore_endsIn (.refl s) _ _ _ fun ws hform => ?_
  have hdepth : field (ws.getD 1 0) 0 5 ≤ 16 := by
    simp only [Bool.and_eq_true, decide_eq_true_eq] at hform
    exact hform.1.1.1.1
  refine Ctx.finishPtr_updStream_endsIn (fun st => ?_) hc.room 140
  simpa using hdepth

end

end Sys2Proof.Machine
end

section
/-! SUPPORT. Obligation O34, engine commands, which reserve several entries at once, and what a debugger writes. -/

namespace Sys2Proof.Machine

section
variable {c : Ctx} {s t : State}

/-! ### Engine commands -/

/-- `n` entries more in a queue of a warp. -/
def Bounds.more (B : Bounds) (key q n : Nat) : Bounds := { B with queue := fun k p => B.queue k p + if k = key ∧ p = q then n else 0 }

theorem Bounds.more_zero (B : Bounds) (key q : Nat) : B.more key q 0 = B := by simp [Bounds.more]

theorem Bounds.more_more (B : Bounds) (key q m n : Nat) : (B.more key q m).more key q n = B.more key q (m + n) := by
  unfold Bounds.more
  congr 1
  funext k p
  dsimp only
  split <;> omega

theorem Bounds.Hold.reserve {B : Bounds} {ws : Tab Warp} (h : B.Hold ws) (key q : Nat) (r : Resv) :
    (B.more key q 1).Hold (ws.modify key fun w => w.reserve q r) := by
  obtain ⟨hkeys, hall⟩ := h
  refine ⟨by rw [Tab.keys_modify]; exact hkeys, fun e he => ?_⟩
  obtain ⟨d, hd, rfl⟩ := List.mem_map.mp he
  obtain ⟨hq, hx⟩ := hall d hd
  by_cases hk : d.1 = key
  · rw [if_pos hk]
    refine ⟨fun p => (d.2.reserve_live q r p).trans ?_, fun x => by rw [Warp.reserve_strm]; exact hx x⟩
    simpa [Bounds.more, hk] using hq p
  · rw [if_neg hk]
    exact ⟨fun p => (hq p).trans (Nat.le_add_right _ _), hx⟩

theorem State.reserveEntries_succ (s : State) (key q n : Nat) : ∃ r : Resv,
    (s.reserveEntries key q (n + 1)).2 = ((s.reserveEntries key q n).2.updWarp key fun w => w.reserve q r).bump := by
  unfold State.reserveEntries
  rw [List.range_succ, List.foldl_append]
  exact ⟨_, rfl⟩

@[simp] theorem State.reserveEntries_sec (s : State) (key q n : Nat) : (s.reserveEntries key q n).2.sec = s.sec := by
  induction n with
  | zero => rfl
  | succ n ih =>
    obtain ⟨r, hr⟩ := s.reserveEntries_succ key q n
    rw [hr]
    exact ih

/-- The entries of a TOQ command are reserved one by one (R212). -/
theorem State.reserveEntries_hold (s : State) (key q n : Nat) {B : Bounds} (h : B.Hold s.warps) :
    (B.more key q n).Hold (s.reserveEntries key q n).2.warps := by
  induction n with
  | zero => rw [Bounds.more_zero]; exact h
  | succ n ih =>
    obtain ⟨r, hr⟩ := s.reserveEntries_succ key q n
    rw [hr, ← Bounds.more_more]
    exact ih.reserve key q r

theorem Ctx.reserveEntries_ends {q n : Nat} (hroom : (c.w.live q).length + n ≤ queueDepth q) : c.Ends s (s.reserveEntries c.key q n).2 := by
  refine ⟨fun hr => by rw [State.reserveEntries_sec]; exact hr, fun hw hs => ?_⟩
  obtain ⟨hkeys, hall⟩ := s.reserveEntries_hold c.key q n hs
  refine fits_iff.mpr ⟨hkeys, fun e he => ⟨fun p => ((hall e he).1 p).trans ?_, fun x => ((hall e he).2 x).trans ?_⟩⟩
  · simp only [Bounds.more, Ctx.bounds, Bounds.full]
    by_cases hk : e.1 = c.key
    · by_cases hp : p = q
      · simpa [hk, hp] using hroom
      · simpa [hk, hp] using hw.1 p
    · simp [hk]
  · simp only [Bounds.more, Ctx.bounds, Bounds.full]
    split
    · exact hw.2 x
    · exact le_rfl

/-- Check 5 of R371. -/
theorem Ctx.room_of_engRoom {e : EngCmd} (h : c.engRoom s e = .go) (htoq : e.fn ≤ 3 ∧ e.tpl.toq = true) :
    (c.w.live e.tpl.qreg).length + e.entries ≤ queueDepth e.tpl.qreg := by
  unfold Ctx.engRoom at h
  rw [if_pos htoq] at h
  split at h
  · exact nomatch h
  · split at h
    next hgo => exact pushGate_room hgo
    next hgo => exact absurd h hgo

theorem Ctx.enqueue_endsIn {e : EngCmd} (h : c.engRoom s e = .go) : c.EndsIn s (c.enqueue s e) := by
  have hfinish : ∀ {t u : State}, c.Ends s t → t.SameLimits u → c.EndsIn s (c.finish u) :=
    fun ht hu => Ctx.endsIn_next.2 (Ctx.commit_ends (ht.keeps (State.keeps_of_sameLimits hu)) _)
  unfold Ctx.enqueue
  by_cases htoq : e.fn ≤ 3 ∧ e.tpl.toq = true
  · have hall : (decide (e.fn ≤ 3) && e.tpl.toq) = true := by simpa using htoq
    simp only [hall, if_true]
    exact hfinish (Ctx.reserveEntries_ends (Ctx.room_of_engRoom h htoq)) ⟨rfl, rfl⟩
  · have hnone : (decide (e.fn ≤ 3) && e.tpl.toq) = false := by simpa using htoq
    simp only [hnone, Bool.false_eq_true, if_false]
    exact hfinish (KeepsLimits.ends (KeepsLimits.refl _ _)) ⟨rfl, rfl⟩

theorem engineCommand_staysIn (fn : Nat) (o : A1) (s : State) : s.StaysIn (engineCommand fn o s) := by
  refine issue_staysIn fun c _ => ?_
  have htrap : ∀ tr, c.EndsIn s (c.trap s tr) := fun tr => Ctx.trap_endsIn (.refl s) tr
  split
  · exact htrap _
  · dsimp only
    split
    · exact htrap _
    · split
      · exact htrap _
      · split
        · exact htrap _
        · split
          · exact htrap _
          · exact (c.park_keepsIn (.refl s) _).endsIn
          · exact State.KeepsIn.endsIn (by simp)
          next hgo => exact Ctx.enqueue_endsIn hgo

/-! ### A debugger's writes (R116) -/

theorem State.updWarp_stays (h : s.Keeps t) (key : Nat) {f : Warp → Warp}
    (hf : ∀ w : Warp, w.Within queueDepth (fun _ => 16) → (f w).Within queueDepth fun _ => 16) : s.Stays (t.updWarp key f) := by
  refine ⟨h.revoked, fun hs => ?_⟩
  obtain ⟨hkeys, hall⟩ := h.within Bounds.full hs
  rw [fits_iff, State.updWarp_warps]
  refine ⟨by rw [Tab.keys_modify]; exact hkeys, fun e he => ?_⟩
  obtain ⟨d, hd, rfl⟩ := List.mem_map.mp he
  split
  · exact hf d.2 (hall d hd)
  · exact hall d hd

/-- A request that keeps REVOKED and the limits where the debugger has access does so everywhere. -/
theorem State.debugReq_staysIn (s : State) (session warp : Nat) {f : Warp → State → State} (h : ∀ w (s t : State), s.Keeps t → s.Stays (f w t)) :
    s.StaysIn (s.debugReq session warp f) := by
  unfold State.debugReq State.debugIn State.onDoe State.onLive
  have hself : s.StaysIn (.next s) := State.KeepsIn.staysIn (by simp)
  have hwake : s.Keeps (s.wake.post none 4) := State.keeps_of_sameLimits (by simp)
  split
  · exact hself
  next w _ =>
    split
    · dsimp only
      split
      · exact hself
      · intro t ht
        obtain rfl := Host.Outcome.next.inj ht
        split
        · exact h w s s (.refl s)
        · split
          · exact KeepsLimits.stays (by simp)
          · exact h w s _ hwake
    · exact hself

/-- What a debugger puts in a queue's place is cut to the queue's depth. -/
theorem Warp.within_putQueue {w : Warp} (h : w.Within queueDepth fun _ => 16) {q : Nat} {rs : List Resv} (hrs : rs.length ≤ queueDepth q) :
    Warp.Within { w with queues := w.queues.put q rs } queueDepth fun _ => 16 := by
  refine ⟨fun p => ?_, h.2⟩
  unfold Warp.live Warp.queue
  by_cases hp : p = q
  · subst hp
    rw [Tab.get_put_self]
    exact (List.length_filter_le _ _).trans hrs
  · rw [Tab.get_put_ne _ _ _ hp]
    exact h.1 p

theorem State.debugStream_staysIn (s : State) (session warp : Nat) (x : Strm) {f : State → Stream → Stream}
    (hf : ∀ u st, (f u st).stack.length ≤ st.stack.length) : s.StaysIn (s.debugReq session warp fun _ u => u.updStream warp x (f u)) :=
  (State.debugReq_keepsIn s session warp fun _ u => State.updStream_keepsLimits (.refl u) _ _ fun st => hf u st).staysIn

@[simp] theorem execDebuggerHalt_staysIn (session warp : Nat) (strm : Strm) (act : DebugAct) (s : State) :
    s.StaysIn (execDebuggerHalt session warp strm act s) := by
  cases act with
  | writeQueue n es =>
    refine State.debugReq_staysIn s session warp fun w u v huv => State.updWarp_stays (t := { v with fresh := v.fresh + es.length }) huv warp fun w hw => ?_
    exact Warp.within_putQueue hw (by simp)
  | writeDiv n call m a => exact State.debugStream_staysIn s session warp strm fun _ _ => (List.length_set ..).le
  | writeLatch sh n ws =>
    refine State.debugStream_staysIn s session warp strm fun u st => ?_
    split <;> exact le_rfl
  | writeReg | writePred | writePc | writeMask | writeGuard => exact State.debugStream_staysIn s session warp strm fun _ _ => le_rfl
  | writeFormat | writeTile =>
    refine (State.debugReq_keepsIn s session warp fun _ u => State.updWarp_keepsLimits (.refl u) _ fun w => ?_).staysIn
    exact Warp.narrows_of_same ⟨rfl, rfl, rfl⟩
  | _ => exact State.KeepsIn.staysIn (by simp [execDebuggerHalt])

end

end Sys2Proof.Machine
end

section
/-! SUPPORT. Obligation O34, every instruction and event but a cold reset keeps REVOKED and the limits. -/

namespace Sys2Proof.Machine

/-! ### Every instruction and event -/

/-- What every instruction and every event but a cold reset keeps. -/
theorem exec_staysIn {i : Instr} (h : ¬ColdResets i) (s : State) : s.StaysIn (exec i s) := by
  cases i with
  | iadd | isub | iaddH16 | isubH16 =>
    exact addSub_staysIn _ _ s
  | imul | imulh | imulhu | imin | imax | iminu | imaxu | iabsd | and | or | xor | andn | shl | shr | sar | fadd | fsub | fmul
  | fmin | fmax | hadd2 | hmul2 | sext | rotl | fcvt | i2f | f2i | andi | ori | xori | shli | shri | sari | popc | clz | brev
  | ineg | iabs | frcp | frsq | fsqrt | fex2 | flg2 | fsinp | fcosp | ftanh | imulH16 | andH16 | orH16 | xorH16 | andnH16
  | shlH16 | shrH16 | sarH16 | faddH16 | fsubH16 | fmulH16 | fminH16 | fmaxH16 =>
    exact vecInstr_staysIn _ _ _ s
  | imad | bfi | bperm | ffma | hfma2 | bfx =>
    exact vecInstrD_staysIn _ _ _ s
  | mmq | mmqs =>
    exact matrixMultiply_staysIn _ _ s
  | mov | movH16 =>
    exact moveVal_staysIn _ s
  | gbind | gbindNeg =>
    exact bindGuard_staysIn _ _ s
  | ldg | ldgi =>
    exact hbmLoad_staysIn _ _ s
  | copy | gather | scatter | mgx | mmv | fput | fget | fatom | fmcast | coll | launchInstr | cntadd =>
    exact engineCommand_staysIn _ _ s
  | sel | icmp | icmpu | icmpi | fcmp | sts | stsw | stg | send | ats | atg | iaddi | movil | movih | bra | call | fmtw | cmpr
  | accz | accrd | accwr | pand | por | pxor | pnot | pmov | pvec | shflx | shflu | shfld | shfli | bcast | ballot | vall | vany
  | redl | scanl | lds | ldsw | qstat | sendm | bar | arrive | waitb | waitc | waitcHbm | waitt | fence | qfence | yield | brx
  | ret | split | join | exit | nopInstr | ckpt | rdsr | wrsr | spill | fill | ctag | psave | prest | dsave | drest | bsave
  | brest | lsave | lrest | brk | trap | asave | arest | debuggerHalt | trapret =>
    simp
  | pwrokRise | pwrokFall | vddAuxLost => exact absurd (by simp [ColdResets]) h
  | _ => exact State.KeepsIn.staysIn (by simp)

end Sys2Proof.Machine
end

section
/-! SUPPORT. Obligation O34, no fetched instruction is a cold reset, and the step keeps REVOKED and the limits. -/

namespace Sys2Proof.Machine

/-! ### What is fetched -/

/-- A decoding that gives no cold reset. -/
def NoReset (r : Except Reject Instr) : Prop := ∀ i, r = .ok i → ¬ColdResets i

@[simp] theorem noReset_ok {i : Instr} : NoReset (.ok i) ↔ ¬ColdResets i := ⟨fun h => h i rfl, fun h _ hi => Except.ok.inj hi ▸ h⟩

@[simp] theorem noReset_error {r : Reject} : NoReset (.error r) := fun _ hi => nomatch hi

@[simp] theorem noReset_ite {c : Prop} [Decidable c] {r r' : Except Reject Instr} :
    NoReset (if c then r else r') ↔ (c → NoReset r) ∧ (¬c → NoReset r') := by
  split <;> simp [*]

@[simp] theorem noReset_whenUsed {c : Bool} {i : Instr} (h : ¬ColdResets i) : NoReset (whenUsed c i) := by
  simp [whenUsed, h]

section
variable (f : Fields)

@[simp] theorem decodeMajor56_noReset : NoReset (decodeMajor56 f) := by simp [decodeMajor56, ColdResets]
@[simp] theorem decodeMajor57_noReset : NoReset (decodeMajor57 f) := by simp [decodeMajor57, ColdResets]
@[simp] theorem decodeMajor58_noReset : NoReset (decodeMajor58 f) := by simp [decodeMajor58, ColdResets]
@[simp] theorem decodeMajor59_noReset : NoReset (decodeMajor59 f) := by simp [decodeMajor59, ColdResets]
@[simp] theorem decodeMajor60_noReset : NoReset (decodeMajor60 f) := by simp [decodeMajor60, ColdResets]
@[simp] theorem decodeMajor61_noReset : NoReset (decodeMajor61 f) := by simp [decodeMajor61, ColdResets]
@[simp] theorem decodeMajor62_noReset : NoReset (decodeMajor62 f) := by simp [decodeMajor62, ColdResets]
@[simp] theorem decodeMajor63_noReset : NoReset (decodeMajor63 f) := by simp [decodeMajor63, ColdResets]

end

theorem decode32_noReset (n : Nat) : NoReset (decode32 n) := by
  unfold decode32
  dsimp only
  split <;> simp [ColdResets]

theorem decode16_noReset (n : Nat) : NoReset (decode16 n) := by
  unfold decode16
  dsimp only
  split <;> simp [ColdResets]

theorem NoReset.map {r : Except Reject Instr} (h : NoReset r) {i : Instr} {bs cs : List Byte} (hi : (r.map fun j => (j, bs)) = .ok (i, cs)) : ¬ColdResets i := by
  cases r with
  | error e => exact nomatch hi
  | ok j =>
    obtain ⟨rfl, -⟩ := Prod.mk.inj (Except.ok.inj hi)
    exact h j rfl

/-- No bytes of code are a cold reset. -/
theorem decodeBytes_noReset {l bs : List Byte} {i : Instr} (h : decodeBytes l = .ok (i, bs)) : ¬ColdResets i := by
  unfold decodeBytes at h
  split at h
  · dsimp only at h
    split at h
    · split at h
      · exact (decode32_noReset _).map h
      · exact nomatch h
    · exact (decode16_noReset _).map h
  · exact nomatch h

theorem State.fetch_noReset (s : State) (key : Nat) (x : Strm) : ¬ColdResets (s.fetch key x) := by
  have hillegal : ¬ColdResets .illegalInstruction := by simp [ColdResets]
  unfold State.fetch
  split
  · exact hillegal
  · split
    · exact hillegal
    · split
      next hdecode => exact decodeBytes_noReset hdecode
      · exact hillegal

/-! ### The step -/

section
variable {s t u : State}

theorem State.Stays.keeps (h : s.Stays t) (h' : t.Keeps u) : s.Stays u :=
  ⟨fun hr => h'.revoked (h.revoked hr), fun hf => h'.within Bounds.full (h.fits hf)⟩

theorem State.presented_stays {before : State} (hbefore : s.Keeps before) (h : s.Stays t) (key : Nat) (x : Strm) (park : Option Park) :
    s.Stays (before.presented t key x park) := by
  unfold State.presented
  split
  · exact KeepsLimits.stays (State.parkStream_keepsLimits hbefore _ _ _)
  · exact h.keeps (State.stepDone_keepsLimits (.refl t) before key x)

theorem State.actFe_staysIn (h : s.Keeps t) (core p : Nat) (x : Strm) (park : Option Park) : s.StaysIn (t.actFe exec core p x park) := by
  unfold State.actFe
  split
  · exact State.KeepsIn.staysIn (by simpa using h)
  · split
    · exact h.staysIn (exec_staysIn (by simp [ColdResets]) t)
    · exact State.KeepsIn.staysIn (by simpa using h)
  next slot fresh _ =>
    have hpresenting : s.Keeps (t.presenting core p x slot fresh).1 := State.presenting_keepsLimits h core p x slot fresh
    dsimp only
    split
    next v hv =>
      intro w hw
      obtain rfl := Host.Outcome.next.inj hw
      exact State.presented_stays hpresenting (hpresenting.staysIn (exec_staysIn (State.fetch_noReset _ _ _) _) v hv) _ _ _
    next hnone => exact fun w hw => absurd hw (hnone w)

/-- Every item of a tick's plan. -/
theorem State.advanceWith_staysIn_of_pending_nil (hpending : s.pending = []) {starts : State → State} (hstarts : ∀ u, s.Keeps u → s.Keeps (starts u)) :
    s.StaysIn (s.advanceWith starts exec) := by
  unfold State.advanceWith
  rw [hpending]
  dsimp only
  split
  · exact State.KeepsIn.staysIn (by simp)
  next todo r _ =>
    have hrest : s.Keeps { s with pending := [], feTodo := r } := State.keeps_of_sameLimits ⟨rfl, rfl⟩
    cases todo with
    | fe core p x park => exact State.actFe_staysIn hrest core p x park
    | part core p => exact State.KeepsIn.staysIn (State.keepsIn_next.2 (State.judgePart_keepsLimits hrest exec core p))
    | scan => exact State.KeepsIn.staysIn (State.keepsIn_next.2 hrest)
    | reads => exact State.KeepsIn.staysIn (State.keepsIn_next.2 (State.tickReads_keepsLimits hrest))
    | starts =>
      refine State.KeepsIn.staysIn (State.keepsIn_next.2 (State.Keeps.same ?_ (State.dropKilled_sameLimits _)))
      split
      · exact hrest
      · exact hstarts _ hrest
    | engines => exact State.KeepsIn.staysIn (State.keepsIn_next.2 (State.endTick_keepsLimits hrest))
    | beats => exact State.KeepsIn.staysIn (State.keepsIn_next.2 (hrest.same (State.serveBeats_sameLimits _)))
    | stage k => exact State.KeepsIn.staysIn (State.keepsIn_next.2 (hrest.same (State.runStage_sameLimits _ k)))

/-- An instruction or event in hand is run as it stands (R254). -/
theorem step_of_pending {i : Instr} {r : List Instr} (h : s.pending = i :: r) : step s = exec i { s with pending := r } := by
  unfold step State.advance State.advanceWith
  rw [h]

/-- Every step but a cold reset keeps REVOKED and the limits. -/
theorem step_stays (hcold : ¬∃ i r, s.pending = i :: r ∧ ColdResets i) (h : step s = .next t) : s.Stays t := by
  rcases hpending : s.pending with _ | ⟨i, r⟩
  · exact State.advanceWith_staysIn_of_pending_nil hpending (fun u hu => State.engineStarts_keepsLimits hu _) t h
  · have hrest : s.Keeps { s with pending := r } := State.keeps_of_sameLimits ⟨rfl, rfl⟩
    rw [step_of_pending hpending] at h
    exact hrest.staysIn (exec_staysIn (fun hi => hcold ⟨i, r, hpending, hi⟩) _) t h

/-- A cold reset drops every warp, and what is no cold reset after all changes nothing (R20, R100). -/
theorem coldReset_fits {i : Instr} (hi : ColdResets i) (hs : Fits s) (h : exec i s = .next t) : Fits t := by
  have hreset : ∀ u : State, u.warps = [] → .next u = (.next t : Out) → Fits t := fun u hu ht => Host.Outcome.next.inj ht ▸ fits_of_warps_nil hu
  obtain rfl | rfl | ⟨rails, ord, lands, strap, rfl⟩ := hi
  · exact hreset _ rfl h
  · exact hreset _ rfl h
  · rw [exec_pwrokRise, execPwrokRise] at h
    split at h
    · exact Host.Outcome.next.inj h ▸ hs
    · dsimp only at h
      split at h
      · exact hreset _ rfl h
      · exact hreset _ rfl h

theorem step_fits (hs : Fits s) (h : step s = .next t) : Fits t := by
  by_cases hcold : ∃ i r, s.pending = i :: r ∧ ColdResets i
  · obtain ⟨i, r, hpending, hi⟩ := hcold
    rw [step_of_pending hpending] at h
    exact coldReset_fits (s := { s with pending := r }) hi hs h
  · exact (step_stays hcold h).fits hs

end

/-- Settles O34: each instruction and event keeps every bound that a warp's queues and divergence stacks met, but for the pushes that their gates
allow, and the step is one of them or an item of the tick's plan. -/
theorem stepKeepsLimits : Obligations.StepKeepsLimits := by
  unfold Obligations.StepKeepsLimits
  refine ⟨fun s t hr h => ?_, fun s t hs h => step_fits hs h⟩
  by_cases hcold : ∃ i r, s.pending = i :: r ∧ ColdResets i
  · exact .inr hcold
  · exact .inl ((step_stays hcold h).revoked hr)

end Sys2Proof.Machine
end
